-- ==== Sys2Proof/Word.lean ====
section
/-! DEFINITION. The word types of the GK4096 and the names of its two plates. -/

namespace Sys2Proof

/-- One byte of a buffer, a register or a record. -/
abbrev Byte := BitVec 8
/-- A 32-bit register or u32 field (R9, Table 0.3). -/
abbrev Word := BitVec 32
/-- A 64-bit register or u64 field. -/
abbrev DWord := BitVec 64
/-- A byte string, lowest address first. -/
abbrev Bytes := List Byte

/-- The two identical dies (Table 0.5). -/
inductive Plate where
  | a
  | b
  deriving DecidableEq, Repr, Inhabited

/-- The other plate. -/
def Plate.peer : Plate → Plate
  | .a => .b
  | .b => .a

/-- The plate's number in records and registers: 0 Plate A, 1 Plate B (Table 2.8). -/
def Plate.num : Plate → Nat
  | .a => 0
  | .b => 1

/-- The two firmware domains of the management cluster (R313). -/
inductive World where
  | secure
  | normal
  deriving DecidableEq, Repr, Inhabited

/-- The other world. -/
def World.other : World → World
  | .secure => .normal
  | .normal => .secure

end Sys2Proof
end

