-- ==== Sys2Proof/Syntax.lean ====
section
/-! DEFINITION. The commands of the block: one constructor of `Instr` for each row of the opcode table, and the operand types they carry. -/

namespace Sys2Proof

/-- A ring of a plate: ring r of slice s, or the plate's admin ring. -/
inductive RingRef where
  | tenant (slice ring : Nat)
  | admin
  deriving DecidableEq, Repr, Inhabited

/-- One job: the plate that serves it, its ring and its descriptor index (R30). -/
structure JobRef where
  plate : Plate
  ring  : RingRef
  index : Word
  deriving DecidableEq, Repr, Inhabited

/-- What a DMA read returned: its bytes, or Unsupported Request, Completer Abort or a failed translation (R25, R27). -/
inductive Dma where
  | ok (bytes : Bytes)
  | fault
  deriving DecidableEq, Repr, Inhabited

/-- The host buffers a job reads: at in_addr, at aad_addr, at param, and the inline public key at out_addr (Table 5.2). -/
structure Inputs where
  inp : Dma
  aad : Dma
  par : Dma
  pub : Dma
  deriving DecidableEq, Repr, Inhabited

/-- Which read a DMA_READ_TIMEOUT ends (R27). -/
inductive ReadKind where
  | doorbell (slice : Nat)
  | descriptor (ring : RingRef) (index : Word)
  | slug (ring : RingRef) (index : Word)
  | input (ring : RingRef) (index : Word)
  | message (ring : RingRef) (index : Word)
  | witness
  deriving DecidableEq, Repr, Inhabited

/-- The engine classes of Table 3.7. -/
inductive EngClass where
  | lane
  | cipher
  | random
  | vault
  deriving DecidableEq, Repr, Inhabited

/-- An item whose reference count R188 keeps. -/
inductive ItemRef where
  | slot (slice slot : Nat)
  | ledger (index : Nat)
  | handle (slice pos : Nat)
  deriving DecidableEq, Repr, Inhabited

/-- A unit that R301 withdraws. -/
inductive UnitRef where
  | lane (n : Nat)
  | engine (n : Nat)
  | hash
  deriving DecidableEq, Repr, Inhabited

/-- What the survivor finds in host memory for one ring (R225): the descriptor indices of the completion records read from n_low
on (none: a RING_FAULT record, whose index field names no descriptor), the producer index of the doorbell line (none:
unreadable), and the 64-byte descriptors it reads (an index not listed: unreadable). A read that has not returned after 50 ms is
one that cannot be read (R27). Slice 4,096 stands for the admin ring. -/
structure RingScan where
  slice   : Nat
  ring    : Nat
  posted  : List (Option Word)
  p       : Option Word
  descs   : List (Word × Bytes)
  deriving DecidableEq, Repr, Inhabited

/-- A reading of a supply rail of the plate, 0 VDD, 1 VDDM, 2 VNV: its voltage in mV, and for how many µs it has stood there. -/
structure RailReading where
  rail : Nat
  mv   : Nat
  us   : Nat
  deriving DecidableEq, Repr, Inhabited

/-- What the monitors of Table 12.1 find: a rail's reading, the temperature median, a photodiode above threshold for some µs, or a
step of VDD of some mV within some ns. -/
inductive EnvCond where
  | vsupWarn (r : RailReading)
  | vsupHigh (r : RailReading)
  | vsupLow (r : RailReading)
  | thermWarn
  | thermCrit
  | tempLimit
  | light (diode us : Nat)
  | glitch (mv ns : Nat)
  deriving DecidableEq, Repr, Inhabited

/-- The kinds of logic alarm of R289, as TMP_ALARM.LAST_SRC numbers them from 1. -/
inductive AlarmSrc where
  | stateCode
  | dualRail
  | spacer
  | glitch
  deriving DecidableEq, Repr, Inhabited

/-- What asserts a KNOCKOUT line (R291). -/
inductive KoTrigger where
  | source
  | peerWire
  | margin (input : Nat)
  deriving DecidableEq, Repr, Inhabited

/-- What a vault page holds that the scrub compares (R231): a slot, the page of a ledger entry, a slice record, an imposition
entry, the custody page or the lifecycle page. -/
inductive PageRef where
  | slot (slice slot : Nat)
  | ledger (index : Nat)
  | record (slice : Nat)
  | impo (slice : Nat)
  | custody
  | lifecycle
  deriving DecidableEq, Repr, Inhabited

/-- Findings of the scrub (Table 9.11) about one page. -/
inductive Finding where
  | oneFails (plate : Plate) (item : PageRef)
  | bothFail (item : PageRef)
  | differs (item : PageRef)
  | padding (lpn : Nat)
  /-- a page that passes, whose read needed the second sense level (R331) -/
  | weak (plate : Plate) (lpn : Nat)
  deriving DecidableEq, Repr, Inhabited

/-- What random start-up finds (Table 8.2): whether the known-answer tests pass, the start-up samples of each cell, and the
conditioner inputs from step 3 on, each of 256 raw bits a cell. -/
structure RandomStart where
  kat     : Bool
  samples : List (List Bool)
  blocks  : List (List (BitVec 256))
  deriving DecidableEq, Repr, Inhabited

/-- The AVSBus transactions a plate issues (R352). -/
inductive AvsKind where
  | voltageWrite (mv : Nat)
  | voltageRead
  | rateWrite
  | currentRead
  | temperatureRead
  | statusRead
  deriving DecidableEq, Repr, Inhabited

/-- The two ends of a plate's Bripa channel: a frame arrives at the plate or at the Margin. -/
inductive End where
  | plate
  | margin
  deriving DecidableEq, Repr, Inhabited

/-- The settings that a host may write in a function with the capabilities of Table 2.1 (R23). -/
inductive CfgField where
  | memory | busMaster | bar0 | bar2 | bar4 | payload | readRequest | tags10 | relaxed | pasid | ats | atomic | aspmL1 | msix
  deriving DecidableEq, Repr, Inhabited

/-- The options of PCIe 5.0 that Table 2.1 names (R23). -/
inductive PcieOption where
  | gen5x8 | x16 | laneReversal | mps512 | mpsAbove512 | mrrs4096 | tags10 | pasid20 | ats | pri | pageRequests | cas64 | fetchAdd | swap
  | atomicCompleter | msix2048 | msi | intx | aerHeaders | aspmL1 | aspmL0s | l1Substates | d0 | d3hot | d3cold | hotReset | flr
  | sriov | relaxedWrites | idOrdering | noSnoop | retryStatus
  deriving DecidableEq, Repr, Inhabited

/-- A register or configuration access of the kind CONFIG_REQUEST answers (R361): a word of the space by its offset, or what
Table 2.1 speaks of by its name. -/
inductive CfgReq where
  | read (offset : Nat)
  | readField (f : CfgField)
  | readOption (o : PcieOption)
  | readHeaderLog
  | writePowerState (state : BitVec 2)
  | writeFunctionMask (on : Bool)
  | writeField (f : CfgField) (value : Nat)
  | clearErrors
  | write (offset : Nat)
  /-- a request that the function does not support, by the header of its TLP -/
  | unsupported (header : Bytes)
  deriving DecidableEq, Repr, Inhabited

/-- The MCTP control and PLDM requests that R359 lists; `other` is any request not listed. -/
inductive MctpReq where
  | setEid (eid : Byte)
  | getEid
  | getMctpVersion
  | getMessageTypes
  | getUuid
  | getTid
  | setTid (tid : Byte)
  | getPldmVersion
  | getPldmTypes
  | getPldmCommands
  | getSensorReading (sensor : Nat)
  | getPdr (sensor : Nat)
  | other
  deriving DecidableEq, Repr, Inhabited

/-- The state of one tamper loop (R275). -/
inductive LoopState where
  | ok
  | opened
  | short
  | cross
  deriving DecidableEq, Repr, Inhabited

/-- What an SD card shows while it is initialised (Table 11.8): whether it answered CMD8, the address it took at CMD3, whether LBA
2048 reads, whether the SCR allows 4 bits, ACMD13 shows them and the block reads the same, and whether CMD6 offers high speed,
selects it and the block reads the same. -/
structure SdShow where
  cmd8       : Bool
  rca        : BitVec 16
  cardType   : Nat
  capacity   : Nat
  csdProtect : Bool
  refOk      : Bool
  scr4       : Bool
  status4    : Bool
  same4      : Bool
  offers50   : Bool
  chosen50   : Bool
  same50     : Bool
  deriving DecidableEq, Repr, Inhabited

/-- What SD_CMD is about: the Margin takes the frame (`c`: what the card shows to op 3, `locked`: the write-protect switch as it
reads it before a write, R273), or the plate that owns the slot reads the spool in the blocks given, or appends a record to it
(R274). -/
inductive SdUse where
  | card (c : Option SdShow) (locked : Bool)
  | openSpool (blocks : List (Nat × Bytes))
  | append (kind : Nat) (payload : Bytes)
  deriving DecidableEq, Repr, Inhabited

/-- The reading of the chase at power-up: the 1,024-bit response (R281). -/
structure ChaseReading where
  response : List (BitVec 8) := []
  deriving DecidableEq, Repr, Inhabited

/-- The width and the rate to which a plate's link trains (Table 2.1). -/
structure LinkShape where
  lanes : Nat
  gen   : Nat
  deriving DecidableEq, Repr, Inhabited

/-- A plate whose link trains, and to what. -/
structure LinkTrain where
  plate : Plate
  link  : LinkShape
  deriving DecidableEq, Repr, Inhabited

/-- An invalidation: the page, the PASID it is for, and whether the host has taken the page out of its translations. -/
structure AtsPage where
  pasid : Option (BitVec 20)
  addr  : DWord
  gone  : Bool
  deriving DecidableEq, Repr, Inhabited

/-- What a plate meets as it starts: the reading of its chase, what random start-up finds, and what its link trains to. -/
structure StartReading where
  chase : ChaseReading
  rand  : RandomStart
  link  : LinkShape
  deriving DecidableEq, Repr, Inhabited

/-- The input of FW_MAKEREADY, and how many pages are retired while its images are written. -/
structure BundleInput where
  data : Dma
  bad  : Nat
  deriving DecidableEq, Repr, Inhabited

/-- A job that writes images, with how many pages are retired meanwhile. -/
structure ImageJob where
  job : JobRef
  bad : Nat
  deriving DecidableEq, Repr, Inhabited

/-- A group's end: whether it is a mirror write, and the verify pulses of each page program it took. -/
structure GroupEnd where
  mirror : Bool
  pulses : List Nat
  deriving DecidableEq, Repr, Inhabited

/-- A record's program on a plate, and the verify pulses it took. -/
structure LogProgram where
  plate  : Plate
  pulses : Nat
  deriving DecidableEq, Repr, Inhabited

/-- A frame of a world to the Margin: its mailbox channel sends it, with a resource and a payload, or (`none`) the Margin takes the
frame of this type that heads the plate's channel (R260). -/
structure MboxCmd where
  plate : Plate
  send  : Option (Fin 4 × Bytes)
  deriving DecidableEq, Repr, Inhabited

/-- The ATR that a card gives in class B, and in class A, and its answer to the PPS request. -/
structure CardAtr where
  classB : Option Bytes
  classA : Option Bytes
  pps    : Option Bytes
  deriving DecidableEq, Repr, Inhabited

/-- RESP: a card's answer in a reader, or (`none`) the frame that carries it to the plate. -/
structure RespCmd where
  plate : Plate
  card  : Option (Nat × Bytes)
  deriving DecidableEq, Repr, Inhabited

/-- PIN_COLLECT: a local approval begun at a reader for a session, or (`none`) the frame at the Margin. -/
structure PinCmd where
  plate  : Plate
  local_ : Option (Nat × Word)
  deriving DecidableEq, Repr, Inhabited

/-- SD_DATA: the plate, what a read takes from the card, and whether the card acknowledges the block that a write completes. -/
structure SdBlock where
  plate : Plate
  data  : Bytes
  ack   : Bool
  deriving DecidableEq, Repr, Inhabited

/-- SD_DONE: the end it happens at, the plate, and whether the card reported an error; for a write, what the CMD13 polls since the
last such row returned, 100 µs apart (`none`: no valid response; otherwise whether it is READY_FOR_DATA in state tran), and whether
DAT0 is high (R272). -/
structure SdEnd where
  at_   : End
  plate : Plate
  error : Bool
  polls : List (Option Bool)
  dat0  : Bool
  deriving DecidableEq, Repr, Inhabited

/-- How a plate finds its all-clear lost (R262): no transition for 50 µs, or this many transitions in a 1 ms window. -/
inductive ClearLoss where
  | quiet
  | count (n : Nat)
  deriving DecidableEq, Repr, Inhabited

/-- ALL_CLEAR_LOST: the plate, and how it shows. -/
structure ClearCmd where
  plate : Plate
  loss  : ClearLoss
  deriving DecidableEq, Repr, Inhabited

/-- What the debug module does to a halted core beside halting and releasing it (R321; RISC-V External Debug Support 0.13.2): an
abstract command on a register (CSRs from 0, x registers from 0x1000, as that standard numbers them), a word of the program buffer,
a run of the buffer, a trigger's tdata1 and tdata2, or a read of one of the trace and performance counters. -/
inductive DbgOp where
  | readReg (n : Nat)
  | writeReg (n : Nat) (v : DWord)
  | setBuf (k : Nat) (v : Word)
  | runBuf
  | trigger (k : Nat) (data1 data2 : DWord)
  | counter (k : Nat)
  deriving DecidableEq, Repr, Inhabited

/-- An access of the debug module: a core halted, in M-mode or not, or released; or an operation `op` on a halted core. -/
structure HaltReq where
  halt  : Bool
  mmode : Bool
  op    : Option DbgOp := none
  deriving DecidableEq, Repr, Inhabited

/-- The statuses between which the spec leaves open how an enrolment ends that no card carries (R239, log 30). -/
inductive EnrolEnd where
  | quorum
  | authFail
  | range
  deriving DecidableEq, Repr, Inhabited

/-- The commands. One constructor for each row of the opcode table, in the table's order. -/
inductive Instr where
  -- tenant opcodes: the unit's work on a job
  | aeadSeal (j : JobRef) (d : Inputs)
  | aeadOpen (j : JobRef) (d : Inputs)
  | sivSeal (j : JobRef) (d : Inputs)
  | sivOpen (j : JobRef) (d : Inputs)
  | macGen (j : JobRef) (d : Inputs)
  | macVerify (j : JobRef) (d : Inputs)
  | wrap (j : JobRef) (d : Inputs)
  | unwrap (j : JobRef) (d : Inputs)
  | digest (j : JobRef) (d : Inputs)
  | sign (j : JobRef)
  | verify (j : JobRef)
  | kemDecaps (j : JobRef)
  | kemEncaps (j : JobRef)
  | ecdh (j : JobRef)
  | rsaDecrypt (j : JobRef)
  | derive (j : JobRef) (d : Inputs)
  | keyLoad (j : JobRef)
  | keyGenerate (j : JobRef)
  | keyImport (j : JobRef) (msg : Dma)
  | keyErase (j : JobRef)
  | keyAttest (j : JobRef)
  | keyInfo (j : JobRef)
  | keyExportWrapped (j : JobRef)
  | random (j : JobRef) (d : Inputs)
  | fence (j : JobRef)
  | deviceAttest (j : JobRef)
  -- admin opcodes
  | sliceCreate (j : JobRef) (rec : Dma)
  | sliceResize (j : JobRef) (rec : Dma)
  | sliceDestroy (j : JobRef) (rec : Dma)
  | importerBind (j : JobRef) (key : Dma)
  | quorumOpen (j : JobRef) (intended input : Dma)
  | quorumApprove (j : JobRef) (approval : Dma)
  | custodianEnroll (j : JobRef) (label : Dma) (card : EnrolEnd)
  | custodianRemove (j : JobRef)
  | policySet (j : JobRef) (rec : Dma)
  | lifecycleSet (j : JobRef) (material : Dma)
  | knockoutCmd (j : JobRef)
  | fwMakeready (j : JobRef) (bundle : BundleInput)
  | fwSwap (j : ImageJob)
  | migrateOutPackage (j : JobRef) (colophon : Dma)
  | migrateOutConfirm (j : JobRef) (receipt : Dma)
  | migrateInApply (j : JobRef) (chunk : Dma)
  | migrateInAbandon (j : JobRef)
  | logMode (j : JobRef) (rec : Dma)
  | logExport (j : JobRef) (challenge : Dma)
  | takeover (j : JobRef)
  | rebalance (j : JobRef)
  -- ring engine, scheduler, units
  | doorbellPoll (p : Plate) (s : Nat)
  | doorbellReadDone (p : Plate) (s : Nat) (line : Dma)
  | nudge (p : Plate) (s offset size : Nat) (value : DWord)
  | cancel (p : Plate) (s offset size : Nat) (value : DWord)
  | nudgeForwardArrive (p : Plate)
  | cancelForwardArrive (p : Plate)
  | descriptorFetch (j : JobRef) (data : Dma)
  | dmaReadTimeout (p : Plate) (kind : ReadKind)
  | slugResolve (j : JobRef) (header material : Dma)
  | lineReserveRetry (j : JobRef)
  | fillDone (j : JobRef)
  | inputPrefetch (j : JobRef) (d : Inputs)
  | jobStart (p : Plate) (c : EngClass)
  | laneResultReady (j : JobRef)
  | messageDataArrive (j : JobRef) (data : Dma)
  | attemptBoundary (j : JobRef)
  | justifierRelease (j : JobRef)
  | engineJobDone (j : JobRef)
  | openFirstPassDone (j : JobRef)
  | vaultJobDone (j : JobRef)
  | progressLineWrite (p : Plate) (s : Nat)
  | irqCoalTimeout (p : Plate) (s r : Nat)
  | parkSelect (p : Plate)
  | park (j : JobRef)
  | jobResume (p : Plate)
  | refcountZero (p : Plate) (item : ItemRef)
  | ringEnable (p : Plate) (s r : Nat) (cfg : Word)
  | ringDisable (p : Plate) (s r : Nat) (cfg : Word)
  | ringDrainEnd (p : Plate) (q : RingRef)
  | ringFaultClear (p : Plate) (s r : Nat)
  | adminDoorbell (p : Plate) (pi : Word)
  | adminRingEnable (p : Plate) (cfg : Word)
  | adminRingDisable (p : Plate) (cfg : Word)
  | adminFaultClear (p : Plate)
  | registerWrite (p : Plate) (bar offset size : Nat) (value : DWord)
  | registerCopyArrive (p : Plate)
  | broadcastWrite (p : Plate) (offset size : Nat) (value : DWord)
  | meterLatch (p : Plate) (s : Nat) (value : Word)
  | witnessEnable (p : Plate) (cfg : Word)
  | timebaseRead (p : Plate)
  | rngDataRead (p : Plate) (w : World) (width : Nat)
  | rngDataReady (p : Plate) (w : World)
  | faultClear (p : Plate) (value : DWord)
  | faultForce (p : Plate) (value : DWord)
  | drillEnter (p : Plate) (w : World)
  | drillExit (p : Plate) (w : World)
  | drillTimeout (p : Plate)
  | worldSignal (p : Plate) (w : World) (value : Word)
  | secAliveWrite (p : Plate) (w : World)
  | nrmAliveWrite (p : Plate) (w : World)
  | secStallTimeout (p : Plate)
  | secRestartTimeout (p : Plate)
  | nrmRestartTimeout (p : Plate)
  | nvmRawSelect (p : Plate) (w : World) (page : Word)
  | info (p : Plate) (core : Nat)
  | call (p : Plate) (core : Nat) (args : List DWord)
  | ret (p : Plate) (core : Nat) (results : List DWord)
  | callTimeout (p : Plate) (core : Nat)
  | release (p : Plate) (core block : Nat)
  | wmGive (p : Plate) (core mem new : Nat)
  | wmScrubDone (p : Plate)
  | setEntry (p : Plate) (core : Nat) (addr : DWord)
  | conditionerBlock (p : Plate) (raw : List (BitVec 256))
  | healthTestFail (p : Plate) (cell cause : Nat)
  | reseedDue (p : Plate) (inst : Nat)
  -- gutter, witness, takeover
  | gutterHeartbeatSend (p : Plate)
  | gutterHeartbeatRecv (p : Plate) (link : Nat)
  | sublinkDown (p : Plate) (link : Nat)
  | gutterLost (p : Plate)
  | mirrorWriteRecv (p : Plate)
  | mirrorAckRecv (p : Plate)
  | nvmCommitDone (p : Plate) (pulses : GroupEnd)
  | inflightMirrorCopy (p : Plate)
  | witnessBeat (p : Plate) (written : Bool)
  | witnessRead (p : Plate) (line : Dma)
  | peerStale (p : Plate)
  | witnessError (p : Plate)
  | leaveRecv (p : Plate)
  | takeoverCasDone (p : Plate) (old : Option DWord)
  | takeoverQuietEnd (p : Plate) (scans : List RingScan)
  | fenceHoldEnd (p : Plate)
  | fenceAsserted (p : Plate)
  | fenceReleased (p : Plate)
  | peerRejoin (p : Plate)
  | resyncComplete (p : Plate) (old : Option DWord)
  | reconcileDone (p : Plate)
  | handoverDrainDone (p : Plate) (s : Nat)
  | handoverStateRecv (p : Plate) (s : Nat) (scans : List RingScan)
  | makereadyBootTimeout (p : Plate)
  | mixedFwTimeout (p : Plate)
  | scrubStart (p : Plate) (findings : List Finding)
  | timebaseCompare (p : Plate) (diff ownOff : Nat)
  | regionSkew (p : Plate) (dt : Nat)
  | clusterWatchdogExpire (p : Plate)
  | sequencerWaitExpire (p : Plate)
  | tokenRequestRecv (p : Plate)
  | tokenReceived (p : Plate)
  | tokenPassTimeout (p : Plate)
  | isolationTimeout (p : Plate)
  -- faults, tamper, power
  | faultSourceAssert (p : Plate) (src : Nat) (unit : UnitRef) (level : Bool)
  | unitResetDone (p : Plate) (u : UnitRef) (pass : Bool)
  | graceExpire (p : Plate)
  | chaseCompare (p : Plate) (mismatch : BitVec 256)
  | envThreshold (p : Plate) (cond : EnvCond) (present : Bool)
  | sensorSample (p : Plate) (k : Nat) (sample : Option Int)
  | logicAlarm (p : Plate) (src : AlarmSrc)
  | knockoutLineAssert (p : Plate) (by_ : KoTrigger) (scans : List RingScan)
  | knockoutCauseRecv (p : Plate)
  | powerUp (p : Plate) (chase : StartReading) (scans : List RingScan)
  | powerDown (p : Plate)
  | perstAssert (p : Plate)
  | perstRelease (p : LinkTrain)
  | hotReset (p : LinkTrain)
  | timebaseSelect (p : Plate) (timerefHz : Nat) (refclk : Bool) (corr : BitVec 16)
  | timebaseRefLost (p : Plate)
  | avsTransactionDone (p : Plate) (kind : AvsKind) (ok : Bool)
  | optimeStore (p : Plate)
  | maskEpochAdvance (p : Plate)
  | wearLevelRewrite (p : Plate) (lpn : Nat)
  | eventRecord (p : Plate) (profile : Nat) (trigger : BitVec 16) (detail : Word)
  | recordWrite (p : LogProgram)
  | logWindowEnd (p : Plate)
  | coalesceFlush (p : LogProgram)
  | shedLevelChange (p : Plate)
  | quorumSessionExpire (p : Plate) (session : Word)
  | localApprovalTimeout (p : Plate)
  | buttonWaitTimeout (p : Plate)
  -- the Margin
  | bripaFrameRecv (at_ : End) (p : Plate) (bytes : Bytes) (idle : Bool)
  | bripaRetransmit (at_ : End) (p : Plate)
  | hello (p : Plate)
  | config (p : Plate)
  | ack (at_ : End) (p : Plate)
  | linkReset (at_ : End) (p : Plate)
  | claim (p : MboxCmd)
  | grant (p : Plate)
  | releaseFrame (p : MboxCmd)
  | cardCtrl (p : MboxCmd) (atr : CardAtr)
  | cardEvent (p : Plate)
  | apdu (p : MboxCmd)
  | resp (p : RespCmd)
  | pinCollect (p : PinCmd)
  | pinResult (p : Plate)
  | sdCmd (p : Plate) (use : SdUse)
  | sdData (at_ : End) (p : SdBlock)
  | sdDone (p : SdEnd)
  | sdEvent (p : Plate)
  | key (p : Plate)
  | button (p : Plate)
  | display (p : MboxCmd)
  | led (p : MboxCmd)
  | tamper (p : Plate)
  | loopStatus (p : Plate)
  | loopStatusPeriod
  | fieldPowerUp
  | brownOut
  | allClearLost (p : ClearCmd)
  | allClearValid (p : Plate)
  | loopDeglitch (input loop : Nat) (state : LoopState)
  | discrepancyExpire (input : Nat)
  | discrepancyEnd (input : Nat)
  | koChannelAssert
  | cardPresence (reader : Nat) (present : Bool)
  | cardOvercurrent (reader : Nat)
  | cardResponseTimeout (p : Plate) (reader : Nat)
  | sdBusyTimeout
  | sdRemoval
  | keypadPress (ch : Byte) (status : Option (BitVec 16))
  | buttonPress (n : Nat) (pressed : Bool)
  | sdInsertion (locked : Bool) (card : Option SdShow)
  | mctpMessage (p : Plate) (req : MctpReq)
  | tapInstruction (reset : Bool) (code : Byte)
  | debugHalt (p : Plate) (core : Nat) (halt : HaltReq)
  | configRequest (p : Plate) (req : CfgReq)
  | atsInvalidateRequest (p : Plate) (page : AtsPage)
  | msixVectorUnmask (p : Plate) (vector : Option Nat)
  | peerWearStateReport (p : Plate)
  | peerEpochReport (p : Plate)
  deriving DecidableEq, Repr

end Sys2Proof
end

