-- ==== Sys2Proof/Config.lean ====
section
/-! DEFINITION. What a part fixes at fabrication, the free values the manual leaves open, and the results that only a
cited standard fixes. Every constant here without a body is uninterpreted: no proof can see its value (log 4, log 5). -/

namespace Sys2Proof

/-- A free value for the counter's value: what the manual leaves open, and raw noise. Nothing constrains it (log 5). -/
opaque Config.freeBytes : Nat → Bytes
/-- A free count: the attempts or quanta of a job less one (R370, log 5). -/
opaque Config.freeNat : Nat → Nat

/-- PLT_ID of each plate, from fuses (16). -/
opaque Config.plateId : Plate → DWord
/-- PLT_SERIAL, from fuses (16). -/
opaque Config.serial : DWord
/-- The plate fuse secret (R135). -/
opaque Config.fuseSecret : Plate → Bytes
/-- The physical line of a logical line (slice, position) of a plate's key cache, under the permutation's key (R143). -/
opaque Config.physicalLine : Bytes → Nat → Nat → Nat
/-- The mask of a cache line: a keyed PRF of its physical address and of the mask epoch (R142). -/
opaque Config.lineMask : Bytes → Nat → Nat → Bytes
/-- The expanded form in which the cache holds a key of an algorithm (R144). -/
opaque Config.expandedKey : Nat → Bytes → Bytes

/-- The identity seed that the part drew at Kelalmed: 192 bytes of private parts (R164). -/
opaque Config.identitySeed : Bytes
/-- The nonce of each plate's identity page, drawn at Kelalmed. -/
opaque Config.identityNonce : Plate → Bytes
/-- The certificate chain stored at Kelalmed (R181). -/
opaque Config.chain : Bytes
/-- Kelalmed's root public parts, published; the boot ROM holds their digest (R181). -/
opaque Config.rootPublic : Bytes
/-- The Kelalmed firmware key digest held in the boot ROM (R328). -/
opaque Config.kelalmedKey : Bytes
/-- The bytes of a raw physical page, side area included, by the plate, the page, how often its vault and its log have been
written, and the time (R337, log 17). -/
opaque Config.rawPage : Plate → Nat → Nat → Nat → Nat → Bytes
/-- The monitor version that INFO returns (Table 14.2). -/
opaque Config.monitorVersion : DWord
/-- The pad that the memory encryptor adds to a 64-byte line of a stack: the encryption half of the LPDDR memory key, and the line
(R15, log 154). -/
opaque Config.lpddrPad : Bytes → Nat → Bytes
/-- The 64-bit integrity tag of a line: the integrity half of the LPDDR memory key, the line, and what is written (R15). -/
opaque Config.lpddrTag : Bytes → Nat → Bytes → DWord
/-- Whether a core sets the accessed and dirty bits of a page table entry, or leaves that to a page fault: the RISC-V privileged
architecture allows both (R312). -/
opaque Config.setsAccessed : Bool
/-- Bytes of a line of the L2, which the manual does not state (R312). -/
opaque Config.l2Line : Nat
/-- The endpoint's UUID (R359, DSP0236). -/
opaque Config.mctpUuid : Plate → Bytes
/-- A display line of a local approval: class A or not, intended opcode, plate, the session's low 16 bits, the first 8 bytes of
H, and the line; the manual gives what it shows and no layout (R245). -/
opaque Config.approvalLine : Bool → Nat → Plate → Nat → Bytes → Nat → Bytes
/-- The numeric-sensor PDR of a sensor (R359, DSP0248). -/
opaque Config.pdr : Nat → Bytes
/-- The part of an answer that DSP0236 or DSP0240 fixes for a device of this kind, by the request's number (R359). -/
opaque Config.mctpFixed : Nat → Bytes
/-- The fields of a GetSensorReading answer between the completion code and the reading, but for the data size (DSP0248). -/
opaque Config.sensorHead : Nat → Bytes
/-- A word of the function's configuration space, as PCIe 5.0 and Table 2.1 fix it (R361), by the plate, the function's settings
and the offset. -/
opaque Config.cfgSpace : Plate → List Nat → Nat → Word

/-- Additional data of a migration chunk's AES-256-GCM, which the manual does not state, from the bytes ahead of the
ciphertext (R184). -/
opaque Config.chunkAad : Bytes → Bytes
/-- The identity parts with this digest, as a target knows its source's; the manual does not say from where (R185). -/
opaque Config.identityOf : Bytes → Bytes
/-- The codeword of 128 bits for 32, of a code that corrects 15 errors and that the manual does not name (R281, R282). -/
opaque Config.chaseCode : Bytes → Bytes
/-- The decoder of that code: the 32 bits of a block of 128, where it finds them. -/
opaque Config.chaseDecode : Bytes → Option Bytes

/-! Results fixed by a cited standard. -/

/-- The two CRC bytes of a T=1 block (ISO/IEC 7816-3). -/
opaque Config.t1Crc : Bytes → Bytes

/-- AES-256 CTR_DRBG with the derivation function, SP 800-90A, instantiated: entropy input, nonce, personalisation string; the key
and V. -/
opaque Config.drbgInit : Bytes → Bytes → Bytes → Bytes × Bytes
/-- CTR_DRBG reseeded: key, V, entropy input; the new key and V. -/
opaque Config.drbgReseed : Bytes → Bytes → Bytes → Bytes × Bytes
/-- What a CTR_DRBG generate request returns: key, V, additional input, number of bytes. -/
opaque Config.drbgGenerate : Bytes → Bytes → Bytes → Nat → Bytes
/-- The key and V that a CTR_DRBG generate request leaves. -/
opaque Config.drbgNext : Bytes → Bytes → Bytes → Nat → Bytes × Bytes
/-- AES-GCM seal, SP 800-38D: key, IV, additional data, plaintext; ciphertext then tag. -/
opaque Config.gcmSeal : Bytes → Bytes → Bytes → Bytes → Bytes
/-- AES-GCM open: the plaintext where the tag matches. -/
opaque Config.gcmOpen : Bytes → Bytes → Bytes → Bytes → Option Bytes
/-- AES-GCM-SIV seal, RFC 8452. -/
opaque Config.sivSeal : Bytes → Bytes → Bytes → Bytes → Bytes
/-- AES-GCM-SIV open. -/
opaque Config.sivOpen : Bytes → Bytes → Bytes → Bytes → Option Bytes
/-- AES-256-CMAC, SP 800-38B. -/
opaque Config.cmac : Bytes → Bytes → Bytes
/-- HMAC of the algorithm code, FIPS 198-1. -/
opaque Config.hmac : Nat → Bytes → Bytes → Bytes
/-- KMAC256 of key, X, output bytes and S, SP 800-185. -/
opaque Config.kmac256 : Bytes → Bytes → Nat → Bytes → Bytes
/-- AES-256-KWP wrap, RFC 5649. -/
opaque Config.kwpWrap : Bytes → Bytes → Bytes
/-- AES-256-KWP unwrap: the key data where the integrity and length checks pass. -/
opaque Config.kwpUnwrap : Bytes → Bytes → Option Bytes
/-- The digest of the algorithm code 0x10 to 0x14, FIPS 180-4 and FIPS 202. -/
opaque Config.hash : Nat → Bytes → Bytes
/-- SHAKE is not offered; SHA3-256 and SHA-384 by their codes are `Config.hash 0x13` and `Config.hash 0x11`. -/
def Config.sha3 (m : Bytes) : Bytes := Config.hash 0x13 m
/-- SHA-384. -/
def Config.sha384 (m : Bytes) : Bytes := Config.hash 0x11 m

/-- Signature of the algorithm code under private material: flags, context, message or digest, random value. -/
opaque Config.pkSign : Nat → Bytes → Nat → Bytes → Bytes → Bytes → Bytes
/-- Verification of the algorithm code: public key, flags, context, message or digest, signature. -/
opaque Config.pkVerify : Nat → Bytes → Nat → Bytes → Bytes → Bytes → Bool
/-- The public part of private material (Table 5.6). -/
opaque Config.pkPublic : Nat → Bytes → Bytes
/-- The public-key checks of Table 5.7. -/
opaque Config.pkValid : Nat → Bytes → Bool
/-- Key agreement; none where the result is refused (Table 5.7). -/
opaque Config.pkAgree : Nat → Bytes → Bytes → Option Bytes
/-- ML-KEM encapsulation: key, random value; ciphertext and shared secret. -/
opaque Config.kemEncaps : Nat → Bytes → Bytes → Bytes × Bytes
/-- ML-KEM decapsulation with implicit rejection. -/
opaque Config.kemDecaps : Nat → Bytes → Bytes → Bytes
/-- RSAES-OAEP decryption: hash, label, ciphertext; none where decoding fails. -/
opaque Config.rsaOaep : Nat → Bytes → Nat → Bytes → Bytes → Option Bytes
/-- What only the algorithm decides of material: the key generation from an ML-DSA seed succeeds within one attempt; the two numbers
of a generated RSA key are primes (Table 7.5, R151). -/
opaque Config.materialValid : Nat → Bytes → Bool
/-- The P-384 scalar that 48 drawn bytes become: the manual says that one is drawn, not how bytes outside its range are treated (log
140). -/
opaque Config.scalarOf : Bytes → Bytes
/-- Rejection-loop count of ML-DSA signing: algorithm, key, message, random value (R370); the count is one above. -/
opaque Config.dsaAttempts : Nat → Bytes → Bytes → Bytes → Nat

end Sys2Proof
end

