-- ==== Sys2Proof/Machine/State.lean ====
section
/-! DEFINITION. The state of a GK4096: both plates, what lies between them, the Margin die, the pins, and the queue of
waiting commands. Plain data. The value after the equals sign of a field is its value in `State.reset`. -/

namespace Sys2Proof.Machine

/-- No command of this part stops the machine: error outcomes are completions, fault-collector bits or bus errors (13). -/
inductive Fault where
  deriving DecidableEq, Repr

/-- Why a command has no meaning. -/
inductive Refusal where
  /-- Raised by exec's arm of a row that has no meaning yet (safe). -/
  | notModelled (mnemonic : String)
  deriving DecidableEq, Repr

/-- A sparse table: keys strictly rising, no entry equal to the table's default. -/
abbrev Tab (α : Type) := List (Nat × α)

/-! ## Rings, slices and jobs (02, 03, 05) -/

/-- Status codes of Table 2.9, in their order. -/
inductive Status where
  | ok | authFail | keyExhausted | keyGone | keyBad | keyPerm | range | quota | dmaFault | cancelled | entropyHalt
  | plateLost | vaultRo | busy | counterStale | partitioned | quorum | knockout | timingFault | ringFault | outSmall
  | unsupported
  deriving DecidableEq, Repr, Inhabited

/-- The descriptor of Table 2.6. -/
structure Desc where
  opcode  : Byte := 0
  alg     : Byte := 0
  flags   : BitVec 16 := 0
  inLen   : Word := 0
  keyRef  : DWord := 0
  inAddr  : DWord := 0
  outAddr : DWord := 0
  outCap  : Word := 0
  aadLen  : Word := 0
  aadAddr : DWord := 0
  param   : DWord := 0
  cookie  : DWord := 0
  deriving DecidableEq, Repr, Inhabited

/-- Slice states (Table 3.2), numbered as SLC_STATE.STATE. -/
inductive SliceSt where
  | free | active | draining | moving
  deriving DecidableEq, Repr, Inhabited

/-- The quotas of Table 3.3. -/
structure Quota where
  rings   : Nat := 0
  slots   : Nat := 0
  windows : Nat := 0
  lines   : Nat := 0
  ledger  : Nat := 0
  deriving DecidableEq, Repr, Inhabited

/-- Imposition table entry (Table 3.1). `winA` and `winB` are the window sets: the physical scratch windows assigned to the
slice on each plate, as runs (first, length) (R63). -/
structure Impo where
  st     : SliceSt := .free
  home   : Plate := .a
  pasidA : Option (BitVec 20) := none
  pasidB : Option (BitVec 20) := none
  groups : BitVec 16 := 0
  quota  : Quota := {}
  winA   : List (Nat × Nat) := []
  winB   : List (Nat × Nat) := []
  seq    : Nat := 0
  deriving DecidableEq, Repr, Inhabited

/-- Operational registers of a slice (03, 02 SLC_DB_ADDR, SLC_PG_ADDR); zero while the slice is FREE (R61). -/
structure SliceRegs where
  weight  : Word := 0
  ratePk  : Word := 0
  burstPk : Word := 0
  rateCi  : Word := 0
  burstCi : Word := 0
  rateRn  : Word := 0
  burstRn : Word := 0
  db      : DWord := 0
  pg      : DWord := 0
  deriving DecidableEq, Repr, Inhabited

/-- Token bucket levels in millionths of a work unit or byte, and when they were last brought up to date (R72). -/
structure Buckets where
  pk : Int := 0
  ci : Int := 0
  rn : Int := 0
  atUs : Nat := 0
  deriving DecidableEq, Repr, Inhabited

/-- Doorbell polling of a slice (R34, R38): `reading` counts its reads that have not returned. -/
structure Poll where
  interval : Nat := 0
  lastRead : Nat := 0
  reading  : Nat := 0
  idleFrom : Nat := 0
  deriving DecidableEq, Repr, Inhabited

/-- A live set of counters (Table 3.9). -/
structure Meter where
  work       : DWord := 0
  sealed     : DWord := 0
  opened     : DWord := 0
  macdig     : DWord := 0
  random     : DWord := 0
  jobs       : DWord := 0
  done       : DWord := 0
  key        : DWord := 0
  refused    : DWord := 0
  host       : DWord := 0
  cancelled  : DWord := 0
  service    : DWord := 0
  ringFaults : DWord := 0
  deriving DecidableEq, Repr, Inhabited

/-- A meter bank entry (R78, Table 3.10). -/
structure Bank where
  meter  : Meter := {}
  slots  : Nat := 0
  ledger : Nat := 0
  seq    : Word := 0
  deriving DecidableEq, Repr, Inhabited

/-- A ring: its set-up entry, its indices (Table 2.4) and its interrupt state (R45). `posted` lists (index, record
count) of posted records for descriptors at or above L. Descriptors below `peerF` were fetched by the old home (R56).
`lastP` is the producer index that the doorbell line showed at its last read (R34). `clrFault` and `clrBad` note a 1 written to
FAULTED or CANCEL_BAD while the ring was on its way to this plate (R57). -/
structure Ring where
  sq        : DWord := 0
  cq        : DWord := 0
  cfg       : Word := 0
  coal      : Word := 0
  draining  : Bool := false
  reason    : BitVec 4 := 0
  cancelBad : Bool := false
  faulted   : Bool := false
  active    : Bool := false
  fence     : Option Word := none
  prod      : Word := 0
  lastP     : Word := 0
  fetched   : Word := 0
  low       : Word := 0
  count     : Word := 0
  posted    : List (Word × Word) := []
  irqCount  : Nat := 0
  irqSince  : Option Nat := none
  peerF     : Option Word := none
  clrFault  : Bool := false
  clrBad    : Bool := false
  deriving DecidableEq, Repr, Inhabited

/-- Where a key comes from. -/
inductive KeySrc where
  | slot (slice slot : Nat)
  | slug (header : Bytes)
  | volatileKey
  deriving DecidableEq, Repr, Inhabited

/-- A key as a job or a cache entry holds it. -/
structure Key where
  alg      : Nat := 0
  attr     : Word := 0
  gen      : Word := 0
  ledger   : Option Nat := none
  kit      : Word := 0
  created  : Nat := 0
  src      : KeySrc := .volatileKey
  material : Bytes := []
  vinst    : Option Nat := none
  deriving DecidableEq, Repr, Inhabited

/-- An entry of the working key cache (R144, R146). `at_` lists its logical lines, the first of which is `pos`; `stored` lists
its physical lines with the masked words that they hold (R142, R143); `key` is what unmasking gives. -/
structure CacheEntry where
  slice   : Nat := 0
  pos     : Nat := 0
  lines   : Nat := 0
  at_     : List Nat := []
  stored  : List (Nat × Bytes) := []
  key     : Key := {}
  handle  : Option DWord := none
  lastUse : Nat := 0
  count   : Nat := 0
  filled  : Bool := true
  ended   : Bool := false
  deriving DecidableEq, Repr, Inhabited

/-- The outcome a unit computed for a job: its status, its completion fields, its data writes, whether the output area
is filled with zeros (R42), and its work units (R71). -/
structure Result where
  status : Status := .ok
  outLen : Nat := 0
  info   : Word := 0
  info2  : Word := 0
  writes : List (DWord × Bytes) := []
  zeroed : Bool := false
  work   : Nat := 0
  bytes  : Nat := 0
  deriving DecidableEq, Repr, Inhabited

/-- How far a job has come. -/
inductive Stage where
  /-- waits for its slug's reads (R161) -/
  | resolving
  /-- waits for cache lines (R64) -/
  | waitLines
  /-- its key is being filled (R144) -/
  | filling
  /-- checked and waiting for its class (R70) -/
  | ready
  /-- a seal at its start step that waits for a lease (R96) -/
  | waitLease
  /-- started on a unit (Table 2.11) -/
  | started
  /-- parked (R129) -/
  | parked
  /-- waits to restart after its unit was withdrawn (R105, R86) -/
  | restart
  /-- accepted by the vault controller (R372) -/
  | accepted
  /-- an admin descriptor in the admin queue (R325), or one the hardware carries out -/
  | queued
  /-- an admin command taken and in progress -/
  | running
  /-- waits for a commit (R210) -/
  | commit
  /-- waits for reference count 0 (Table 7.10, R190) -/
  | draining
  deriving DecidableEq, Repr, Inhabited

/-- A job of a plate: one fetched descriptor that has no completion yet. `window` is the physical scratch window it holds (R63);
`slug` is the key of a slug whose material is being read (Table 6.17 step 6); `reserving` that step 1 of R64 has passed for the
lines it waits for; `begun` says that it has started and now waits for a later step of another class (Table 3.7), `phase` which
step of Table 7.4 a KEY_IMPORT has come to; `rawA` counts the attempts or quanta that its lane has finished, `rejects` the tries
at private material that its lane rejected, `charged` those that its slice's bucket was charged for (R121, R123); `accFrom` is the
time accrued when it last started or resumed (R128), `oldGen` the generation that a rewrite supersedes (R190). -/
structure Job where
  ring       : RingRef := .admin
  index      : Word := 0
  desc       : Desc := {}
  fetchedBy  : Plate := .a
  stage      : Stage := .ready
  cls        : EngClass := .vault
  key        : Option Key := none
  entry      : Option Nat := none
  key2       : Option Key := none
  entry2     : Option Nat := none
  slug       : Option Key := none
  newPos     : Option Nat := none
  reserving  : Bool := false
  cost       : Nat := 0
  inp        : Bytes := []
  aad        : Bytes := []
  par        : Bytes := []
  pub        : Bytes := []
  prefetched : Bool := false
  msgGot     : Nat := 0
  waitingMsg : Bool := false
  unit       : Option Nat := none
  window     : Option Nat := none
  begun      : Bool := false
  phase      : Nat := 0
  startedAt  : Nat := 0
  accBase    : Nat := 0
  resumedAt  : Option Nat := none
  parks      : Nat := 0
  wasParked  : Bool := false
  addOn      : Nat := 0
  d1         : Nat := 0
  attempts   : Nat := 1
  boundary   : Nat := 1
  rawA       : Nat := 0
  charged    : Nat := 1
  rejects    : Nat := 0
  accFrom    : Nat := 0
  oldGen     : Word := 0
  rawDone    : Bool := false
  critical   : Bool := false
  forced     : Option Status := none
  result     : Option Result := none
  passes     : Nat := 1
  inv        : Option Nat := none
  ledgerNew  : Option Nat := none
  causedPark : Bool := false
  toPark     : Bool := false
  deriving DecidableEq, Repr, Inhabited

/-- Deficit round robin of one class (R70): the slice now visited, the deficits, each slice's last ring, and the slices whose
last visit ended because no unit of the kind they needed was free. -/
structure Sched where
  visiting : Option Nat := none
  last     : Nat := 4095
  deficit  : Tab Nat := []
  turn     : Tab Nat := []
  passed   : List Nat := []
  deriving DecidableEq, Repr, Inhabited

/-- SLICE_RESIZE or SLICE_DESTROY in progress (R68, Table 3.6): of a resize the new quotas and window sets. -/
structure SliceOp where
  index   : Word := 0
  by_     : Plate := .a
  destroy : Bool := false
  step    : Nat := 0
  quota   : Quota := {}
  winA    : List (Nat × Nat) := []
  winB    : List (Nat × Nat) := []
  deriving DecidableEq, Repr, Inhabited

/-- The ring engine and slices of one plate. `dbpLog` lists the doorbell reads of the last 1 ms, each with its time and whether
the timer asked for it (R35); `winData` says whose state a scratch window holds (R126); `cancels` the CANCELs kept for each
ring (R52). -/
structure Slices where
  impo     : Tab Impo := []
  oldImpo  : Tab (Option Impo) := []
  regs     : Tab SliceRegs := []
  buckets  : Tab Buckets := []
  poll     : Tab Poll := []
  live     : Tab Meter := []
  bank     : Tab Bank := []
  rings    : Tab Ring := []
  cancels  : Tab (List Word) := []
  progress : List Nat := []
  ops      : Tab (Option SliceOp) := []
  adm      : Ring := {}
  admPi    : Word := 0
  jobs     : List Job := []
  resume   : List (RingRef × Word) := []
  lane     : Sched := {}
  cipher   : Sched := {}
  random   : Sched := {}
  vault    : Sched := {}
  selected : Option (RingRef × Word × Nat) := none
  reads    : List (ReadKind × Nat) := []
  dbpBounds : Word := 0x07D00004
  dbpLog   : List (Nat × Bool) := []
  bcastSel : Word := 0
  mtrView  : Word := 0
  mtrSeq   : Word := 0
  mtrTime  : Nat := 0
  winData  : Tab (Option (RingRef × Word)) := []
  engines  : BitVec 8 := 0xFF
  hash     : Bool := true
  lanes    : DWord := 0xFFFFFFFFFFFFFFFF
  pkeTf    : Nat := 0
  deriving DecidableEq, Repr, Inhabited

/-! ## Keys and vault (06, 07, 09) -/

/-- Vault state codes of Table 6.11. -/
inductive VState where
  | free | active | erasing | cont
  deriving DecidableEq, Repr, Inhabited

/-- A vault slot (Table 6.13); `tagOk` says whether its integrity tag passes (R158). -/
structure Slot where
  st       : VState := .free
  alg      : Nat := 0
  attr     : Word := 0
  gen      : Word := 0
  ledger   : Option Nat := none
  kit      : Word := 0
  span     : Nat := 0
  created  : Nat := 0
  nonce    : Bytes := []
  seq      : Nat := 0
  material : Bytes := []
  tagOk    : Bool := true
  deriving DecidableEq, Repr, Inhabited

/-- A ledger entry (Table 6.14); `pair` is the G last committed on both plates (R223). -/
structure Ledger where
  st      : VState := .free
  limit2  : Nat := 0
  lease2  : Nat := 0
  slug    : Bool := false
  slice   : Nat := 0
  granted : Nat := 0
  gen     : Word := 0
  pair    : Nat := 0
  deriving DecidableEq, Repr, Inhabited

/-- A slice record (Table 6.12). -/
structure SliceRec where
  st     : VState := .free
  seq    : Nat := 0
  nonce  : Bytes := []
  imp    : Nat := 0
  impAlg : Nat := 0
  impKey : Bytes := []
  eraA   : Nat := 0
  eraB   : Nat := 0
  tagOk  : Bool := true
  deriving DecidableEq, Repr, Inhabited

/-- A policy record (Table 10.4). -/
structure Policy where
  mA     : Nat := 2
  mB     : Nat := 2
  localA : Nat := 0
  flags  : Byte := 0
  loops  : Byte := 0x0F
  tDisc  : List Nat := [10, 10, 10, 10]
  opKey  : Bytes := []
  deriving DecidableEq, Repr, Inhabited

/-- A custodian table entry (R238); ACTIVE where `active`. -/
structure Custodian where
  active : Bool := false
  key    : Bytes := []
  serial : Bytes := []
  label  : Bytes := []
  deriving DecidableEq, Repr, Inhabited

/-- The custody page (R238); `policy` is none before any record was written. `tagOk` says whether its tag passes. -/
structure CustodyPage where
  table  : Tab Custodian := []
  policy : Option Policy := none
  seq    : Nat := 0
  tag    : Bytes := []
  tagOk  : Bool := true
  deriving DecidableEq, Repr, Inhabited

/-- The lifecycle page (R248): the code, its complement, the commit sequence and the tag; `tagOk` says whether the tag passes. -/
structure LcPage where
  code  : Byte := 0x33
  comp  : Byte := 0xCC
  seq   : Nat := 0
  tag   : Bytes := []
  tagOk : Bool := true
  deriving DecidableEq, Repr, Inhabited

/-- A lifecycle page that holds a code. -/
def LcPage.of (code : Byte) : LcPage := { code := code, comp := ~~~code }

/-- A root page (Table 6.2) less its constant bytes: `sealed` is the ciphertext of DRK ‖ vault salt and the GCM-SIV tag. -/
structure RootPage where
  seq    : Nat := 0
  nonce  : Bytes := []
  sealed : Bytes := []
  deriving DecidableEq, Repr, Inhabited

/-- An identity page: nonce, and the seed under the plate's identity sealing key with its tag (R164). -/
structure IdPage where
  nonce  : Bytes := []
  sealed : Bytes := []
  deriving DecidableEq, Repr, Inhabited

/-- The vault controller's key registers (R140): what Table 6.3 derives, and the root. TRK_s follows from `drk` and the slice's
creation nonce while the slice is not FREE. `oneTime` is the key that the two vault controllers last agreed for a transfer (R137).
-/
structure KeyRegs where
  sbk    : Bytes := []
  idKey  : Bytes := []
  drk    : Bytes := []
  salt   : Bytes := []
  vek    : Bytes := []
  vik    : Bytes := []
  log    : Bytes := []
  mirror : Bytes := []
  lpddr  : Bytes := []
  oneTime : Bytes := []
  deriving DecidableEq, Repr, Inhabited

/-- What a plate draws and measures for pages that it seals under keys of its own: 256 bits and a response of the chase for helper
data, and a nonce (R138, R164, R284). -/
structure SealPrep where
  bits     : Bytes := []
  response : Bytes := []
  nonce    : Bytes := []
  deriving DecidableEq, Repr, Inhabited

/-- An item that a commit writes (R210, R238, R248). -/
inductive VItem where
  | slot (k : Nat) (v : Slot)
  | ledger (k : Nat) (v : Ledger)
  /-- a whole ledger page that replaces one whose tag fails (R212) -/
  | ledgerPage (k : Nat) (v : List Ledger)
  | record (k : Nat) (v : SliceRec)
  | impo (k : Nat) (v : Impo)
  | custody (v : CustodyPage)
  | lifecycle (v : LcPage)
  /-- the identity seed, which each plate seals for itself (R164) -/
  | identity (seed : Bytes)
  | logMode (stopFull : Bool) (head : Nat) (clear : Bool)
  /-- the helper data of a plate's chase (R282) -/
  | helper (data : Bytes)
  /-- a new root, under which each plate's vault is formatted: DRK and salt, or the test root in the DRK's place (R137, R141,
  R251) -/
  | root (drk salt : Bytes) (test : Bool)
  /-- the root and the vault that a package holds (R185, Table 7.9 step 5) -/
  | package (drk salt : Bytes) (recs : Tab SliceRec) (slots : Tab Slot) (ledger : Tab Ledger)
  deriving DecidableEq, Repr, Inhabited

/-- A journal entry (Table 9.2). -/
structure Journal where
  seq    : Nat := 0
  slice  : Nat := 0
  ring   : Nat := 0
  status : Status := .ok
  index  : Word := 0
  info   : Word := 0
  info2  : Word := 0
  output : Nat := 0
  deriving DecidableEq, Repr, Inhabited

/-- What follows when a change has taken effect (R210 step 4). -/
inductive After where
  | nothing
  /-- the job completes with this result -/
  | finish (ring : RingRef) (index : Word) (r : Result)
  /-- a lease grant of a ledger entry: the range becomes drawable (R93) -/
  | lease (ledger lo hi : Nat)
  /-- ERASING has committed (Table 7.10 step 3) -/
  | erasing (ring : RingRef) (index : Word)
  /-- the erase's final step has committed (Table 7.10 step 6) -/
  | erased (ring : RingRef) (index : Word) (gen : Word)
  /-- a rewrite has committed; the completion waits for the old generation (R190) -/
  | rewritten (ring : RingRef) (index : Word) (slice slot : Nat) (r : Result)
  /-- a step of the destroy sequence has committed (Table 3.6) -/
  | destroyStep (slice step : Nat)
  /-- the slice's DRBG instance and operational registers are made (R66) -/
  | created (slice : Nat) (index : Word)
  /-- resize applied (R68) -/
  | resized (slice : Nat)
  /-- step 1 of Table 9.9 has committed -/
  | moving (slice : Nat)
  /-- step 5 of Table 9.9 has committed -/
  | moved (slice : Nat)
  /-- a policy record has committed (R241) -/
  | policy (index : Word) (r : Result)
  /-- a lifecycle state has committed (R249) -/
  | lifecycle (index : Word) (code : Byte) (r : Result)
  deriving DecidableEq, Repr, Inhabited

/-- A key-state change that has not yet taken effect on its home (R210, R371). -/
structure Change where
  id      : Nat := 0
  seq     : Nat := 0
  items   : List VItem := []
  journal : Option Journal := none
  after   : After := .nothing
  sent    : Bool := false
  acked   : Bool := false
  grant   : Bool := false
  deriving DecidableEq, Repr, Inhabited

/-- A lease held by the home plate: the current range and the next one (R93, Table 4.5). -/
structure Lease where
  base    : Nat := 0
  next    : Nat := 0
  stop    : Nat := 0
  ahead   : Option (Nat × Nat) := none
  asking  : Bool := false
  deriving DecidableEq, Repr, Inhabited

/-- What a source in hold remembers: the target's identity parts, the counter, the key and the public halves of chunk 0, the
next chunk to write, and the digest of chunk 0 (R183, R184, R186). -/
structure Hold where
  target : Bytes := []
  c      : Nat := 0
  kek    : Bytes := []
  kemCt  : Bytes := []
  eph    : Bytes := []
  next   : Nat := 0
  chunk0 : Bytes := []
  deriving DecidableEq, Repr, Inhabited

/-- Progress of MIGRATE_IN APPLY: the next chunk, the count, the signer, the digest of chunk 0, the package key and the payload
so far (R185). -/
structure Apply where
  next   : Nat := 0
  total  : Nat := 0
  source : Bytes := []
  chunk0 : Bytes := []
  kek    : Bytes := []
  gathered : Bytes := []
  deriving DecidableEq, Repr, Inhabited

/-- The vault controller of one plate. `idSeed` is the identity seed as the plate's identity page opens. `noTrk` lists the slices
whose TRK was erased from the key registers while their creation nonce could not be (R374); `prep` is what the plate drew for
pages that a change under way seals under its own keys; `issued` is the SEQ above those of every handle that the plate has ever
issued with an ERA at a position (R147, log 117). -/
structure Vault where
  mounted   : Bool := false
  testRoot  : Bool := false
  repaired  : Nat := 0
  failed    : Nat := 0
  root      : Option RootPage := none
  keys      : Bool := false
  kr        : KeyRegs := {}
  idSeed    : Bytes := Config.identitySeed
  idPage    : Option IdPage := none
  bootNonce : Bytes := []
  slots     : Tab Slot := []
  ledger    : Tab Ledger := []
  pageSeq   : Tab Nat := []
  badPages  : List Nat := []
  bad       : List PageRef := []
  recs      : Tab SliceRec := []
  peerEpoch : Nat := 0
  epoch     : Nat := 0
  nextV     : Nat := 0
  epochUp   : Bool := false
  counter   : Nat := 0
  journal   : List Journal := []
  changes   : List Change := []
  nextId    : Nat := 0
  leases    : Tab Lease := []
  exhausted : List Nat := []
  noTrk     : List Nat := []
  prep      : SealPrep := {}
  cache     : List CacheEntry := []
  seqs      : Tab Nat := []
  issued    : Tab Nat := []
  maskKey   : Bytes := []
  permKey   : Bytes := []
  maskEpoch : Nat := 0
  maskAt    : Nat := 0
  migration : Nat := 0
  hold      : Option Hold := none
  apply     : Option Apply := none
  savedWin  : Tab (Word × Word × Word × Word) := []
  deriving DecidableEq, Repr, Inhabited

/-! ## Random (08) -/

/-- Random service states (Table 8.6). -/
inductive RngSt where
  | startUp | serving | halted
  deriving DecidableEq, Repr, Inhabited

/-- One noise cell's health-test state (Table 8.1). -/
structure Cell where
  last  : Bool := false
  run   : Nat := 0
  first : Bool := false
  pos   : Nat := 0
  seen  : Nat := 0
  deriving DecidableEq, Repr, Inhabited

/-- One DRBG instance (R197 to R200): `live` where it has a slice or an internal consumer, `made` where it has been
instantiated; its CTR_DRBG key and V. -/
structure Drbg where
  live   : Bool := false
  made   : Bool := false
  key    : Bytes := []
  v      : Bytes := []
  count  : Nat := 0
  seeded : Nat := 0
  must   : Bool := false
  deriving DecidableEq, Repr, Inhabited

/-- Random service of one plate: `pool` holds the conditioner's blocks, oldest first, and `stalls` the RNG_DATA reads that have
not returned, each with its world and width. -/
structure Rng where
  st      : RngSt := .startUp
  cause   : Nat := 0
  cell    : Nat := 0
  cells   : BitVec 8 := 0
  reseeds : Word := 0
  aptMax  : Nat := 0
  rctMax  : Nat := 0
  pool    : List Bytes := []
  health  : Tab Cell := []
  inst    : Tab Drbg := []
  stalls  : List (World × Nat) := []
  deriving DecidableEq, Repr, Inhabited

/-! ## The pair (09) -/

/-- Peer relation (Table 9.4), numbered as WIT_STATE.MODE. -/
inductive Mode where
  | paired | partition | sole | resync | yielded | leaving
  deriving DecidableEq, Repr, Inhabited

/-- States of the last-resort sequencer (R234). -/
inductive SeqSt where
  | idle | clusterReset | wait | plateReset
  deriving DecidableEq, Repr, Inhabited

/-- Steps of a takeover (Table 9.6). -/
inductive TakeSt where
  | cas | quiet | hold
  deriving DecidableEq, Repr, Inhabited

/-- A takeover in progress; `epoch` and `holder` are those of the word that its CompareAndSwap expects (Table 9.6 step 2). -/
structure Takeover where
  st     : TakeSt := .cas
  since  : Nat := 0
  index  : Option Word := none
  epoch  : Word := 0
  holder : Byte := 0
  deriving DecidableEq, Repr, Inhabited

/-- A mirrored in-flight window of a ring (Table 9.1). -/
structure Window where
  fetched : Word := 0
  low     : Word := 0
  count   : Word := 0
  nLow    : Word := 0
  deriving DecidableEq, Repr, Inhabited

/-- A stored Foursa image: its version, its signer digest, its bytes, and whether everything of R328 holds that depends on
its bytes alone. -/
structure Image where
  version : Nat := 0
  signer  : Bytes := []
  whole   : Bytes := []
  valid   : Bool := false
  deriving DecidableEq, Repr, Inhabited

/-- A makeready or FW_SWAP in progress on the plate that stays in service (Table 9.10): the images that step 4 writes, how many
pages of the other plate's makeready partition fail as it does, whether no spare was left for one of them (R340), and whether
the previous images came back (R229). -/
structure Makeready where
  step   : Nat := 3
  index  : Word := 0
  swap   : Bool := false
  slices : List Nat := []
  since  : Nat := 0
  imgS   : Image := {}
  imgN   : Image := {}
  bad    : Nat := 0
  short  : Bool := false
  fell   : Bool := false
  deriving DecidableEq, Repr, Inhabited

/-- What a planned hand-over sends (Table 9.9 step 3). -/
structure Moved where
  slice   : Nat := 0
  rings   : Tab Ring := []
  buckets : Buckets := {}
  entries : List CacheEntry := []
  seqs    : Tab Nat := []
  jobs    : List Job := []
  windows : Tab Window := []
  scans   : List RingScan := []
  deriving DecidableEq, Repr, Inhabited

/-- Messages on the gutter. `key` is what a message is sealed under: a plate whose key registers hold another cannot open it (R137,
R148, R210). -/
inductive GMsg where
  | beat (link : Nat)
  | nudge (s : Nat)
  | cancel (s r : Nat) (f : Word)
  | copy (offset size : Nat) (value : DWord)
  | mirror (key : Bytes) (c : Change)
  | ack (id : Nat)
  | leave
  | askToken
  | token
  | cause (code by_ index : Nat)
  | moved (key : Bytes) (m : Moved)
  | wear (state : Nat)
  | epoch (e : Nat)
  deriving DecidableEq, Repr, Inhabited

/-- The pair protocols of one plate. -/
structure Pair where
  mode      : Mode := .paired
  links     : BitVec 2 := 3
  witAddr   : DWord := 0
  witCfg    : Word := 0
  epoch     : Word := 0
  holder    : Byte := 0
  firstRead : Bool := true
  beat      : Word := 0
  beatAt    : Nat := 0
  peerBeat  : Word := 0
  peerAt    : Nat := 0
  readAt    : Nat := 0
  witErr    : Bool := false
  fails     : Nat := 0
  stale     : Bool := false
  fresh     : Bool := false
  leavingSeen : Bool := false
  takeovers : Nat := 0
  partitions : Nat := 0
  misses    : Nat := 0
  lost      : Bool := false
  hbAt0     : Nat := 0
  hbAt1     : Nat := 0
  hbRun0    : Nat := 0
  hbRun1    : Nat := 0
  diverge   : Nat := 0
  reconcile : Nat := 0
  reconciling : Bool := false
  scrubEnd  : Nat := 0
  scrubAt   : Nat := 0
  hbSent    : Nat := 0
  tbDiff    : Nat := 0
  dt        : Nat := 0
  skewAt    : Option Nat := none
  skewFrom  : Option Nat := none
  tbAt      : Option Nat := none
  token     : Bool := false
  asking    : Bool := false
  peerAsks  : Bool := false
  resetHeld : Bool := false
  leftReset : Nat := 0
  fencing   : Bool := false
  seqResets : Nat := 0
  peerRecov : Nat := 0
  rejoin    : Bool := false
  seqSt     : SeqSt := .idle
  seqAt     : Nat := 0
  wdFed     : Nat := 0
  wdPause   : Option Nat := none
  takeover  : Option Takeover := none
  windows   : Tab Window := []
  admWindow : Option (Ring × List (Word × Desc)) := none
  makeready : Option Makeready := none
  mixedFrom : Option Nat := none
  mixed     : Bool := false
  pending   : List (Nat × Moved) := []
  held      : List (Nat × Nat × DWord) := []
  met       : Bool := false
  wrBad     : Bool := false
  deriving DecidableEq, Repr, Inhabited

/-! ## Custody (10) -/

/-- A counted approval (R245, R246). -/
structure Approval where
  cust    : Nat := 0
  isLocal : Bool := false
  sig     : Bytes := []
  deriving DecidableEq, Repr, Inhabited

/-- A quorum session (R243, Table 10.5). -/
structure Session where
  number    : Word := 0
  classA    : Bool := true
  m         : Nat := 0
  locals    : Nat := 0
  nonce     : Bytes := []
  h         : Bytes := []
  expiry    : Nat := 0
  approvals : List Approval := []
  matched   : Option Nat := none
  op        : Nat := 0
  deriving DecidableEq, Repr, Inhabited

/-- How far a card session has come (Table 10.1): what the card was asked, or button 1 is waited for (R245). -/
inductive CardStep where
  | select | getKey | pin | button | sign
  deriving DecidableEq, Repr, Inhabited

/-- An enrolment's part of a card session (R239): the command, the digest that the card is to sign, the label, and the key and
serial that it gave. -/
structure EnrolTry where
  index  : Word := 0
  h      : Bytes := []
  label  : Bytes := []
  key    : Bytes := []
  serial : Bytes := []
  deriving DecidableEq, Repr, Inhabited

/-- A card session of a plate: a local approval for a session (R245), or an enrolment (R239); the segments of the card's answer,
when it was asked, and the time of the last key. -/
structure LocalTry where
  session : Word := 0
  reader  : Nat := 0
  step    : CardStep := .select
  segs    : Bytes := []
  askedAt : Nat := 0
  lastKey : Nat := 0
  enrol   : Option EnrolTry := none
  deriving DecidableEq, Repr, Inhabited

/-- A command that waits for button 1 (R249), with the input it was accepted with; for an enrolment, what its card signed, from
when it has (Table 10.10 step 2). -/
structure ButtonWait where
  index  : Word := 0
  since  : Nat := 0
  input  : Bytes := []
  signed : Option EnrolTry := none
  deriving DecidableEq, Repr, Inhabited

/-- Custody and lifecycle of one plate. -/
structure Custody where
  page     : CustodyPage := {}
  idf      : Byte := 0x0F
  rtf      : Byte := 0
  lcPage   : Option LcPage := some {}
  chain    : Bytes := Config.chain
  sessions : List Session := []
  opened   : Nat := 0
  dbgNonce : Bytes := []
  attempt  : Option LocalTry := none
  button   : Option ButtonWait := none
  retire   : Bool := false
  deriving DecidableEq, Repr, Inhabited

/-! ## The Margin (11) -/

/-- A Bripa frame less its CRC (Table 11.2); `came`: when the end that accepted it did so. -/
structure Frame where
  type    : Nat := 0
  seq     : Byte := 0
  res     : Byte := 0xFF
  payload : Bytes := []
  came    : Nat := 0
  deriving DecidableEq, Repr, Inhabited

/-- A frame sent and not yet acknowledged (R258). -/
structure Outstanding where
  frame : Frame := {}
  sent  : Nat := 0
  tries : Nat := 0
  deriving DecidableEq, Repr, Inhabited

/-- One end of one Bripa channel (R258). -/
structure Link where
  nextSeq  : Byte := 0
  expect   : Byte := 0
  accepted : Byte := 0xFF
  sent     : List Outstanding := []
  waiting  : List Frame := []
  inbox    : List Frame := []
  resetting : Bool := false
  deriving DecidableEq, Repr, Inhabited

/-- An append to the spool in progress: the writes left, each from a block on, the last of them the header (R274). -/
structure SpoolJob where
  todo : List (Nat × Bytes) := []
  id   : DWord := 0
  next : Nat := 0
  deriving DecidableEq, Repr, Inhabited

/-- What a plate knows of the spool on the card: its identifier (none: no valid anchor), the next header's block and the number of
the last record. -/
structure Spool where
  id     : Option DWord := none
  next   : Nat := 2049
  number : Nat := 0
  job    : Option SpoolJob := none
  deriving DecidableEq, Repr, Inhabited

/-- A plate's side of the Margin link. -/
structure MrgSide where
  link       : Link := {}
  fieldUp    : Bool := false
  configured : Bool := false
  linkUp     : Bool := false
  tick       : Bool := false
  own        : BitVec 4 := 0
  other      : BitVec 4 := 0
  presence   : BitVec 4 := 0
  dropped    : Nat := 0
  crcErr     : Nat := 0
  discCount  : Tab Nat := []
  losses     : Nat := 0
  lostAt     : Nat := 0
  powerups   : Nat := 0
  mailbox    : List Frame := []
  spool      : Spool := {}
  deriving DecidableEq, Repr, Inhabited

/-- A card reader (R266, R267): `classA` the class it activated its card in, `speed` the Fi and Di codes in use, `mhz` its clock (0
while it is off); of the T=1 protocol whether blocks end in a CRC, the card's IFSC, and N(S) of the next I-block. -/
structure Reader where
  present : Bool := false
  active  : Bool := false
  apdu    : Bool := false
  segs    : Bytes := []
  sentAt  : Nat := 0
  classA  : Bool := false
  speed   : Byte := 0x11
  mhz     : Nat := 0
  crc     : Bool := false
  ifsc    : Nat := 32
  ns      : Bool := false
  deriving DecidableEq, Repr, Inhabited

/-- PIN collection (R268). -/
structure PinTry where
  plate  : Plate := .a
  reader : Nat := 0
  min    : Nat := 0
  max    : Nat := 0
  header : Bytes := []
  digits : Bytes := []
  deriving DecidableEq, Repr, Inhabited

/-- What is known of the SD card (R270, R271): its relative address and type, the width and speed in use, its capacity and the
CSD's write protection. -/
structure SdInfo where
  rca        : BitVec 16 := 0
  cardType   : Nat := 0
  wide       : Bool := false
  fast       : Bool := false
  capacity   : Nat := 0
  csdProtect : Bool := false
  deriving DecidableEq, Repr, Inhabited

/-- An SD operation in progress (R270 to R273): `done` blocks that were read or that the card acknowledged, `bytes` of data so far,
`buf` those of the block that a write gathers. -/
structure SdOp where
  op     : Nat := 0
  lba    : Nat := 0
  blocks : Nat := 0
  done   : Nat := 0
  bytes  : Nat := 0
  buf    : Bytes := []
  busy   : Option Nat := none
  plate  : Plate := .a
  deriving DecidableEq, Repr, Inhabited

/-- A tamper input (R275 to R277): its loops, since when a discrepancy is open, how far beyond 0.98 × T_disc its timer runs, and
from when both loops are OK again. -/
structure Input where
  loopA   : LoopState := .ok
  loopB   : LoopState := .ok
  since   : Option Nat := none
  slack   : Nat := 0
  okFrom  : Option Nat := none
  counted : Nat := 0
  deriving DecidableEq, Repr, Inhabited

/-- The Margin die. -/
structure Margin where
  powered    : Bool := false
  frozen     : Bool := false
  configured : Bool := false
  polSeq     : Nat := 0
  loops      : Byte := 0
  tDisc      : List Nat := [0, 0, 0, 0]
  powerups   : BitVec 16 := 0
  owners     : Tab (Option Plate) := []
  linkA      : Link := {}
  linkB      : Link := {}
  readers    : Tab Reader := []
  pin        : Option PinTry := none
  display    : Tab Bytes := []
  led1       : Byte := 0
  led3       : Byte := 0
  ledTamper  : Bool := false
  sdPresent  : Bool := false
  sdLocked   : Bool := false
  sd         : Option SdInfo := none
  sdOp       : Option SdOp := none
  inputs     : Tab Input := []
  checks     : Bool := true
  allClear   : Bool := false
  clearAt    : Nat := 0
  stopAt     : Nat := 0
  ko         : Bool := false
  koDecided  : List (Nat × Nat) := []
  koInput    : Nat := 0
  koAt       : Nat := 0
  dropped    : Nat := 0
  periodAt   : Nat := 0
  deriving DecidableEq, Repr, Inhabited

/-! ## Tamper and faults (12, 13) -/

/-- A temperature sensor (R286). -/
structure Sensor where
  last  : Int := 0
  atUs  : Nat := 0
  seen  : Bool := false
  valid : Bool := true
  deriving DecidableEq, Repr, Inhabited

/-- The cause record of a knockout (TMP_CAUSE). -/
structure Cause where
  code  : Nat := 0
  by_   : Nat := 0
  index : Nat := 0
  deriving DecidableEq, Repr, Inhabited

/-- Tamper monitor of one plate. `pattern` is what the chase is driven with (R279), `helper` the helper data (R281, R284);
`warnAt`, `critAt` and `limitAt` are since when the median temperature stands beyond the rows of Table 12.1 (R285). -/
structure Tamper where
  ko        : Bool := false
  koAt      : Nat := 0
  armed     : Bool := false
  local_    : Option Cause := none
  marginKo  : Option Nat := none
  peerCause : Option Cause := none
  cause     : Cause := {}
  pattern   : Bytes := []
  helper    : Option Bytes := none
  warnAt    : Option Nat := none
  critAt    : Option Nat := none
  limitAt   : Option Nat := none
  corrected : Nat := 0
  lastMism  : BitVec 256 := 0
  mismatch  : Nat := 0
  lastSeg   : Nat := 0
  sensors   : Tab Sensor := []
  median    : Int := 0
  maxTemp   : Int := 0
  minTemp   : Int := 0
  volt      : DWord := 0
  alarms    : List (Nat × Bool) := []
  alarmNew  : Nat := 0
  alarmOn   : Bool := false
  lastSrc   : Nat := 0
  drill     : Bool := false
  hit       : Bool := false
  drillSrc  : Nat := 0
  drillLat  : Nat := 0
  drillAt   : Nat := 0
  deriving DecidableEq, Repr, Inhabited

/-- Steps of the class C reaction (Table 13.2). -/
inductive React where
  | none | waitToken | isolated
  deriving DecidableEq, Repr, Inhabited

/-- Fault collector of one plate. -/
structure Faults where
  status  : DWord := 0
  force   : DWord := 0
  pins    : DWord := 0
  graceAt : Option Nat := none
  graceC  : Bool := false
  first   : Option Nat := none
  graceMs : Nat := 100
  sEsc    : Nat := 0
  cReact  : Nat := 0
  units   : DWord := 0
  laneOut : DWord := 0
  unitsCe : BitVec 9 := 0
  irq     : Word := 0
  outEn   : DWord := 0x000003FF7F000000
  escs    : List (Nat × Nat) := []
  react   : React := .none
  isoAt   : Nat := 0
  perst   : Bool := false
  resetting : List UnitRef := []
  resetAt : Nat := 0
  deriving DecidableEq, Repr, Inhabited

/-! ## Management, NVM, power (14, 15, 16) -/

/-- Liveness of a world (PLT_MGMT.SEC and NRM). -/
inductive Live where
  | running | stalled | restarting | noImage
  deriving DecidableEq, Repr, Inhabited

/-- The privilege modes of a core (R312). -/
inductive Priv where
  | u | s | m
  deriving DecidableEq, Repr, Inhabited

/-- The registers of a core in the world that it runs: x1 to x31, the pc, its mode, its CSRs by number, and the doubleword that LR
has reserved. A core is in M-mode in reset, and while the monitor holds it (log 153). -/
structure Hart where
  x    : Tab DWord := []
  pc   : DWord := 0
  prv  : Priv := .m
  csr  : Tab DWord := []
  resv : Option Nat := none
  deriving DecidableEq, Repr, Inhabited

/-- A 64-byte line as it stands in an LPDDR5X stack, with its integrity tag (R15). -/
structure LpLine where
  ct  : Bytes := []
  tag : DWord := 0
  deriving DecidableEq, Repr, Inhabited

/-- A secure call in progress on a core (R315). -/
structure Call where
  core  : Nat := 0
  since : Nat := 0
  args  : List DWord := []
  deriving DecidableEq, Repr, Inhabited

/-- A watermark move in progress (Table 14.3). -/
structure WmMove where
  lpddr : Bool := false
  new   : Nat := 0
  core  : Nat := 0
  world : World := .normal
  deriving DecidableEq, Repr, Inhabited

/-- Management cluster of one plate. `haltedM`: the cores halted in M-mode (R322); `l2` the line of memory that each way of each
set of the L2 holds, way `w` of set `k` at 16 k + w (R312, R316), `l1` the lines that each L1 holds, core `c`'s data cache under 2 c
and its instruction cache under 2 c + 1; `harts` the registers of each core, `saved` those that a world left on it, the normal
world's under 2 c and the secure world's under 2 c + 1 (R315); `sram` the bytes of the management SRAM that are not 0 and `lpddr` the
lines of the LPDDR5X stack that have been written, under the memory key latched at start-up (R15, log 154); `progBuf` and `triggers`
the debug module's, trigger `k` of core `c` under 4 c + k (R321). -/
structure Mgmt where
  world     : BitVec 4 := 1
  halted    : BitVec 4 := 0
  haltedM   : BitVec 4 := 0
  l2        : Tab (Option Nat) := []
  l1        : List (Nat × Nat) := []
  harts     : Tab Hart := []
  saved     : Tab Hart := []
  sram      : Tab Byte := []
  lpddr     : Tab (Option LpLine) := []
  memKey    : Bytes := []
  progBuf   : Tab Word := []
  triggers  : Tab (DWord × DWord) := []
  wmSram    : Nat := 0x80
  wmLpddr   : Nat := 0x4000
  own       : BitVec 18 := 0x2C30F
  entry     : Option DWord := none
  calls     : List Call := []
  move      : Option WmMove := none
  sec       : Live := .running
  nrm       : Live := .running
  secAt     : Nat := 0
  nrmAt     : Nat := 0
  secPause  : Option Nat := none
  nrmPause  : Option Nat := none
  shed      : Nat := 0
  deep1     : Option Nat := none
  deep2     : Option Nat := none
  shallow   : Option Nat := none
  slotS     : Bool := false
  slotN     : Bool := false
  restarts  : Nat := 0
  queue     : List Word := []
  intS      : List Nat := []
  intN      : List Nat := []
  replies   : List (Nat × Int × List DWord) := []
  measS     : Bytes := []
  measN     : Bytes := []
  verS      : Nat := 0
  verN      : Nat := 0
  imgS      : Image := {}
  imgN      : Image := {}
  imgS2     : Image := {}
  imgN2     : Image := {}
  minS      : Nat := 0
  minN      : Nat := 0
  minOp     : Nat := 0
  eid       : Byte := 0
  tid       : Byte := 0
  deriving DecidableEq, Repr, Inhabited

/-- What a group of vault pages carries (R333). -/
inductive GroupKind where
  | mirror (id : Nat)
  | own (id : Nat)
  | wear
  | badPage
  /-- the plate's raised volatile epoch (R91) -/
  | epoch
  /-- a read-repair of an item (R159) -/
  | repair (item : PageRef)
  | page
  /-- an earlier part of a change that takes more than eight pages (R333) -/
  | part
  deriving DecidableEq, Repr, Inhabited

/-- A commit record (R332). -/
structure PageRec where
  seq : Nat := 0
  k   : Nat := 0
  lpn : Nat := 0
  deriving DecidableEq, Repr, Inhabited

/-- What a physical page of the vault partition is used for. -/
inductive PageUse where
  | free
  /-- the current copy of a logical page -/
  | mapped (lpn : Nat)
  /-- taken for a group in progress -/
  | taken
  /-- retired for good (R338) -/
  | retired
  deriving DecidableEq, Repr, Inhabited

/-- A physical page of the vault partition (R331, Table 15.3): its data, the record copies that pass their CRC, its program cycles and
its use. -/
structure NvmPage where
  data   : Bytes := []
  rec1   : Option PageRec := none
  rec2   : Option PageRec := none
  cycles : Nat := 0
  use_   : PageUse := .free
  deriving DecidableEq, Repr, Inhabited

/-- A group commit in progress (Table 15.4): its logical pages, and from step 1 on the physical page taken for each. -/
structure Group where
  seq     : Nat := 0
  pages   : List Nat := []
  taken   : List Nat := []
  jpos    : Nat := 0
  kind    : GroupKind := .page
  items   : List VItem := []
  journal : Option Journal := none
  comSeq  : Nat := 0
  deriving DecidableEq, Repr, Inhabited

/-- An event record less its CRC (Table 15.8). -/
structure Record where
  seq     : Word := 0
  profile : Nat := 0
  trigger : BitVec 16 := 0
  time    : Nat := 0
  drill   : Bool := false
  merged  : Nat := 0
  pcycle  : Word := 0
  detail  : Word := 0
  values  : List Word := []
  deriving DecidableEq, Repr, Inhabited

/-- NVM controller and event recorder of one plate. `gone`: the retired log pages that no spare has replaced (R340). -/
structure Nvm where
  free     : Nat := 49152
  spares   : Nat := 4096
  pages    : Tab (Option NvmPage) := []
  bad      : List Nat := []
  jpos     : Nat := 0
  logMap   : Tab (Option Nat) := []
  logCycles : Tab Nat := []
  pulses   : List (Nat × Nat) := []
  slow     : Nat := 0
  retLog   : Nat := 0
  retVault : Nat := 0
  state    : Nat := 0
  peerWear : Nat := 0
  groups   : List Group := []
  waiting  : List Group := []
  nextSeq  : Nat := 1
  raw      : Word := 0
  optime   : Nat := 0
  optimeUs : Nat := 0
  stored   : Nat := 0
  clean    : Bool := true
  pcycle   : Word := 0
  stopFull : Bool := false
  head     : Nat := 4096
  log      : Tab Record := []
  nextLog  : Word := 0
  nextPos  : Nat := 0
  full     : Bool := false
  clearing : Bool := false
  staged   : List (Record × Nat) := []
  priority : List Record := []
  coalesce : Bool := false
  inWindow : Nat := 0
  dropWin  : Nat := 0
  winStart : Nat := 0
  lost     : Nat := 0
  lostFull : Nat := 0
  gone     : List Nat := []
  profiles : Tab (List Nat) := []
  deriving DecidableEq, Repr, Inhabited

/-- Power phase of a plate. -/
inductive Phase where
  /-- PWRGOOD deasserted -/
  | off
  /-- PWRGOOD asserted, held in reset -/
  | reset
  /-- started up: Table 16.7 to step 5 done -/
  | running
  deriving DecidableEq, Repr, Inhabited

/-- The settings of a plate's function (Table 2.1), at the values that PCIe 5.0 gives them at reset (log 134), and the header that
AER has logged. -/
structure CfgRegs where
  memory      : Bool := false
  busMaster   : Bool := false
  bar0        : DWord := 0
  bar2        : DWord := 0
  bar4        : DWord := 0
  payload     : Nat := 128
  readRequest : Nat := 512
  tags10      : Bool := false
  relaxed     : Bool := true
  pasid       : Bool := false
  ats         : Bool := false
  atomic      : Bool := false
  aspmL1      : Bool := false
  msix        : Bool := false
  header      : Option Bytes := none
  deriving DecidableEq, Repr, Inhabited

/-- Power, PCIe island, AVSBus and timebase of one plate. `lanes` and `gen` are the width and the rate to which the link is
trained (Table 2.1); `atc` lists the pages, each under its PASID, whose translation the plate has requested and holds (Table 2.1),
and `denied` those whose translation the host refuses (R25);
`targetAt` is when the plate last set its VDD target (R352). -/
structure Power where
  phase     : Phase := .off
  perst     : Bool := true
  perstAt   : Nat := 0
  fenced    : Bool := false
  step      : Nat := 0
  ready     : Bool := false
  serving   : Bool := false
  startMs   : Nat := 0
  bootAt    : Nat := 0
  linkUp    : Bool := false
  lanes     : Nat := 8
  gen       : Nat := 5
  cfg       : CfgRegs := {}
  cfgReady  : Bool := false
  atc       : List (Option (BitVec 20) × Nat) := []
  denied    : List (Option (BitVec 20) × Nat) := []
  msix      : Tab (DWord × Word × Bool) := []
  pba       : List Nat := []
  fnMask    : Bool := false
  avsErr    : Bool := false
  avsErrors : Nat := 0
  avsRun    : Nat := 0
  target    : Nat := 800
  targetAt  : Option Nat := none
  tmbCfg    : Word := 0
  corr      : BitVec 16 := 0
  locked    : Bool := false
  source    : Nat := 0
  corrLog   : List (Nat × Int) := []
  tmbAt     : Nat := 0
  resetAt   : Nat := 0
  upper     : Word := 0
  outLow    : Bool := true
  deriving DecidableEq, Repr, Inhabited

/-- One plate. -/
structure PlateState where
  pow : Power := {}
  sl  : Slices := {}
  vlt : Vault := {}
  rng : Rng := {}
  pr  : Pair := {}
  cus : Custody := {}
  mrg : MrgSide := {}
  tmp : Tamper := {}
  flt : Faults := {}
  mgt : Mgmt := {}
  nvm : Nvm := {}
  deriving DecidableEq, Repr, Inhabited

/-- A transaction the part issues on one of its buses or wires (the model's record of outputs, log 3). -/
inductive Out where
  /-- a posted memory write under a PASID (none: untagged), with the relaxed ordering attribute or without -/
  | write (p : Plate) (pasid : Option (BitVec 20)) (addr : DWord) (data : Bytes) (relaxed : Bool)
  /-- a memory read; the part issues every read with the relaxed ordering attribute cleared -/
  | read (p : Plate) (pasid : Option (BitVec 20)) (addr : DWord) (len : Nat) (relaxed : Bool)
  /-- an address translation request of a page -/
  | translate (p : Plate) (pasid : Option (BitVec 20)) (page : Nat)
  /-- a 64-bit CompareAndSwap -/
  | cas (p : Plate) (addr expected new : DWord)
  /-- an MSI-X message -/
  | msix (p : Plate) (vector : Nat)
  /-- a Bripa frame leaving an end of a channel -/
  | bripa (from_ : End) (p : Plate) (f : Frame)
  /-- a card's activation (nothing), a PPS request or a T=1 block to it -/
  | card (reader : Nat) (data : Bytes)
  /-- blocks read from the SD card or written to it: op, the address as the card's type has it, blocks -/
  | sd (op addr blocks : Nat)
  /-- an SD command with its argument -/
  | sdCmd (index arg : Nat)
  /-- a block written to the SD card -/
  | sdData (block : Bytes)
  /-- an I2C write to the display -/
  | i2c (data : Bytes)
  /-- an AVSBus transaction -/
  | avs (p : Plate) (k : AvsKind)
  /-- an MCTP answer; none: not acknowledged -/
  | mctp (p : Plate) (answer : Option Bytes)
  /-- a configuration answer; none: Request Retry Status -/
  | cfg (p : Plate) (answer : Option Word)
  /-- an ATS invalidation completion -/
  | ats (p : Plate)
  /-- data a host or cluster read returned; none: bus error or access fault -/
  | reply (p : Plate) (value : Option DWord)
  deriving DecidableEq, Repr, Inhabited

/-- The machine. `clkreqLow`: CLKREQ# is held low (R354). -/
structure State where
  pa      : PlateState := {}
  pb      : PlateState := {}
  gutA    : List GMsg := []
  gutB    : List GMsg := []
  margin  : Margin := {}
  pwrgood : Bool := false
  clkreqLow : Bool := false
  tapIr   : Byte := 0x01
  clock   : Nat := 0
  free    : Nat := 0
  out     : List Out := []
  pending : List Instr := []
  deriving DecidableEq, Repr, Inhabited

/-- An image as shipped (log 7): valid, version 1, signed by the Kelalmed firmware key. -/
def shippedImage : Image := { version := 1, signer := Config.kelalmedKey, valid := true }

/-- The management cluster of a part as shipped. -/
def shippedMgmt : Mgmt := { imgS := shippedImage, imgN := shippedImage }

/-- The identity page of plate `p` as written at Kelalmed (R164). -/
def shippedIdentity (p : Plate) : IdPage :=
  { nonce := Config.identityNonce p
    sealed := Config.sivSeal (Config.kmac256 (Config.fuseSecret p) [] 32 (("identity".toList.map fun c => BitVec.ofNat 8 c.toNat)))
      (Config.identityNonce p) [] Config.identitySeed }

/-- The part as it leaves Kelalmed, its supplies in range and PWRGOOD deasserted: every register at its reset value,
lifecycle UNINITIALISED (R249), vault free, queue empty (log 6). -/
def State.reset : State :=
  { pa := { mgt := shippedMgmt, vlt := { idPage := some (shippedIdentity .a) } }
    pb := { mgt := shippedMgmt, vlt := { idPage := some (shippedIdentity .b) } } }

end Sys2Proof.Machine
end

