-- ==== Sys2Proof/Machine/Ops.lean ====
section
/-! DEFINITION. Tables, byte strings, CRC-32C, access to the parts of the state, the record of outputs, free values and
gutter messages: the operations every meaning is written with. -/

namespace Sys2Proof.Machine

/-! ## Tables -/

/-- The value at key `i`, or the table's default. -/
def Tab.get {α : Type} : Tab α → α → Nat → α
  | [], d, _ => d
  | (k, v) :: t, d, i => if i = k then v else Tab.get t d i

/-- The table with an entry `v` at key `i`, in its place by rising key. -/
def Tab.put {α : Type} : Tab α → Nat → α → Tab α
  | [], i, v => [(i, v)]
  | (k, w) :: t, i, v =>
    if i < k then (i, v) :: (k, w) :: t else if i = k then (i, v) :: t else (k, w) :: Tab.put t i v

/-- The table with `v` at key `i`, kept sorted and free of default entries. -/
def Tab.set {α : Type} [DecidableEq α] (t : Tab α) (d : α) (i : Nat) (v : α) : Tab α :=
  if v = d then t.filter fun e => e.1 != i else t.put i v

/-- The table with `f` applied at key `i`. -/
def Tab.mod {α : Type} [DecidableEq α] (t : Tab α) (d : α) (i : Nat) (f : α → α) : Tab α := t.set d i (f (t.get d i))

/-- The canonical form: keys strictly rising from `lo`, no entry equal to the default. -/
def Tab.wfFrom {α : Type} [DecidableEq α] (d : α) : Nat → Tab α → Bool
  | _, [] => true
  | lo, (k, v) :: t => decide (lo ≤ k) && decide (v ≠ d) && Tab.wfFrom d (k + 1) t

/-- The canonical form of a table. -/
def Tab.wf {α : Type} [DecidableEq α] (t : Tab α) (d : α) : Bool := Tab.wfFrom d 0 t

/-! ## Byte strings -/

/-- The low `n` bytes of `v`, least significant first (R11). -/
def leBytes : Nat → Nat → Bytes
  | 0, _ => []
  | n + 1, v => BitVec.ofNat 8 v :: leBytes n (v / 256)

/-- The low `n` bytes of `v`, most significant first. -/
def beBytes (n v : Nat) : Bytes := (leBytes n v).reverse

/-- The number a little-endian string spells. -/
def leNat : Bytes → Nat
  | [] => 0
  | b :: t => b.toNat + 256 * leNat t

/-- `n` bytes from offset `o`. -/
def cut (b : Bytes) (o n : Nat) : Bytes := (b.drop o).take n

/-- Bytes laid over a string from offset `o`. -/
def overlay (b : Bytes) (o : Nat) (d : Bytes) : Bytes := b.take o ++ d ++ b.drop (o + d.length)

/-- The little-endian field of `n` bytes at offset `o`. -/
def leAt (b : Bytes) (o n : Nat) : Nat := leNat (cut b o n)

/-- Exactly `n` bytes of a string whose length a standard fixes at `n`. -/
def fit (n : Nat) (b : Bytes) : Bytes := (b ++ List.replicate n 0).take n

/-- `n` zero bytes. -/
def zeros (n : Nat) : Bytes := List.replicate n 0

/-- Whether every byte is zero. -/
def allZero (b : Bytes) : Bool := b.all (· == 0)

/-- The ASCII bytes of a string. -/
def ascii (t : String) : Bytes := t.toList.map fun c => BitVec.ofNat 8 c.toNat

/-- One bit step of CRC-32C, reflected (polynomial 0x82F63B78). -/
def crcBit (c : Word) : Word := if c.getLsbD 0 then (c >>> 1) ^^^ 0x82F63B78 else c >>> 1

/-- One byte step of CRC-32C. -/
def crcByte (c : Word) (b : Byte) : Word :=
  crcBit (crcBit (crcBit (crcBit (crcBit (crcBit (crcBit (crcBit (c ^^^ b.setWidth 32))))))))

/-- CRC-32C of a string. -/
def crc32c (b : Bytes) : Word := ~~~ (b.foldl crcByte 0xFFFFFFFF)

/-- The larger count, held at `n` bits (saturating counters). -/
def satAdd (bits v k : Nat) : Nat := min (v + k) (2 ^ bits - 1)

/-- Smallest multiple of `k` at or above `n`, in units of `k`. -/
def ceilDiv (n k : Nat) : Nat := (n + k - 1) / k

/-! ## The parts of the state -/

/-- The state of plate `p`. -/
def State.pl (s : State) : Plate → PlateState
  | .a => s.pa
  | .b => s.pb

/-- The state with plate `p` replaced. -/
def State.setPl (s : State) (p : Plate) (v : PlateState) : State :=
  match p with
  | .a => { s with pa := v }
  | .b => { s with pb := v }

/-- The state with `f` applied to plate `p`. -/
def State.upd (s : State) (p : Plate) (f : PlateState → PlateState) : State := s.setPl p (f (s.pl p))

/-- `f` applied to the power part of plate `p`. -/
def State.updPow (s : State) (p : Plate) (f : Power → Power) : State := s.upd p fun x => { x with pow := f x.pow }
/-- `f` applied to the ring and slice part. -/
def State.updSl (s : State) (p : Plate) (f : Slices → Slices) : State := s.upd p fun x => { x with sl := f x.sl }
/-- `f` applied to the vault. -/
def State.updVlt (s : State) (p : Plate) (f : Vault → Vault) : State := s.upd p fun x => { x with vlt := f x.vlt }
/-- `f` applied to the random part. -/
def State.updRng (s : State) (p : Plate) (f : Rng → Rng) : State := s.upd p fun x => { x with rng := f x.rng }
/-- `f` applied to the pair part. -/
def State.updPr (s : State) (p : Plate) (f : Pair → Pair) : State := s.upd p fun x => { x with pr := f x.pr }
/-- `f` applied to the custody part. -/
def State.updCus (s : State) (p : Plate) (f : Custody → Custody) : State := s.upd p fun x => { x with cus := f x.cus }
/-- `f` applied to the plate's side of the Margin link. -/
def State.updMrg (s : State) (p : Plate) (f : MrgSide → MrgSide) : State := s.upd p fun x => { x with mrg := f x.mrg }
/-- `f` applied to the tamper monitor. -/
def State.updTmp (s : State) (p : Plate) (f : Tamper → Tamper) : State := s.upd p fun x => { x with tmp := f x.tmp }
/-- `f` applied to the fault collector. -/
def State.updFlt (s : State) (p : Plate) (f : Faults → Faults) : State := s.upd p fun x => { x with flt := f x.flt }
/-- `f` applied to the management cluster. -/
def State.updMgt (s : State) (p : Plate) (f : Mgmt → Mgmt) : State := s.upd p fun x => { x with mgt := f x.mgt }
/-- The admin queue of plate `p` becomes `f` of it; since when its depth has been 64 or more, 192 or more, and below 32, is noted
for shedding (R325). -/
def State.setQueue (s : State) (p : Plate) (f : List Word → List Word) : State :=
  let since (on : Bool) (t : Option Nat) : Option Nat := if on then some (t.getD s.clock) else none
  s.updMgt p fun m =>
    let n := (f m.queue).length
    { m with queue := f m.queue, deep1 := since (decide (64 ≤ n)) m.deep1, deep2 := since (decide (192 ≤ n)) m.deep2
             shallow := since (decide (n < 32)) m.shallow }
/-- `f` applied to the NVM and recorder part. -/
def State.updNvm (s : State) (p : Plate) (f : Nvm → Nvm) : State := s.upd p fun x => { x with nvm := f x.nvm }
/-- `f` applied to the Margin die. -/
def State.updMargin (s : State) (f : Margin → Margin) : State := { s with margin := f s.margin }

/-- A transaction appended to the record of outputs. -/
def State.emit (s : State) (o : Out) : State := { s with out := s.out ++ [o] }

/-- Transactions appended in order. -/
def State.emits (s : State) (o : List Out) : State := { s with out := s.out ++ o }

/-- The next free value, as `n` bytes (log 5). -/
def State.unknown (s : State) (n : Nat) : Bytes := fit n (Config.freeBytes s.free)

/-- The state after `k` free values have been used. -/
def State.tick (s : State) (k : Nat) : State := { s with free := s.free + k }

/-- The k-th free value from now on, as `n` bytes. -/
def State.unknownAt (s : State) (k n : Nat) : Bytes := fit n (Config.freeBytes (s.free + k))

/-- Apply `f` for each element in order. -/
def State.each {α : Type} (s : State) (l : List α) (f : State → α → State) : State := l.foldl f s

/-! ## Time (R12, R19) -/

/-- Whether `us` microseconds have passed since `t`. -/
def State.past (s : State) (t us : Nat) : Bool := decide (t + us ≤ s.clock)

/-- Operating time of plate `p` in ms (R339): it advances with the timebase while PWRGOOD is asserted. -/
def State.optime (s : State) (p : Plate) : Nat :=
  let n := (s.pl p).nvm
  if s.pwrgood then n.optime + (s.clock - n.optimeUs) / 1000 else n.optime

/-! ## Slices, rings, jobs -/

/-- The imposition entry of slice `i` on plate `p`. -/
def State.impo (s : State) (p : Plate) (i : Nat) : Impo := (s.pl p).sl.impo.get {} i

/-- The smaller of two quotas, field by field. -/
def Quota.least (a b : Quota) : Quota :=
  { rings := min a.rings b.rings, slots := min a.slots b.slots, windows := min a.windows b.windows,
    lines := min a.lines b.lines, ledger := min a.ledger b.ledger }

/-- The quotas that slice `i` may use now: while a resize of it commits, the smaller of the old and the new (R68). -/
def State.quotaNow (s : State) (p : Plate) (i : Nat) : Quota :=
  let f (x : Slices) (q : Quota) : Quota := match x.ops.get none i with
    | some o => if o.destroy || o.step != 2 then q else q.least o.quota
    | none => q
  f s.pa.sl (f s.pb.sl (s.impo p i).quota)

/-- The key of ring r of slice s in the ring table. -/
def ringKey (s r : Nat) : Nat := 16 * s + r

/-- A ring of plate `p`. -/
def State.ring (s : State) (p : Plate) : RingRef → Ring
  | .tenant i r => (s.pl p).sl.rings.get {} (ringKey i r)
  | .admin => (s.pl p).sl.adm

/-- The state with `f` applied to a ring of plate `p`. -/
def State.updRing (s : State) (p : Plate) (q : RingRef) (f : Ring → Ring) : State :=
  match q with
  | .tenant i r => s.updSl p fun x => { x with rings := x.rings.mod {} (ringKey i r) f }
  | .admin => s.updSl p fun x => { x with adm := f x.adm }

/-- The slice of a ring; the admin ring has none. -/
def ringSlice : RingRef → Option Nat
  | .tenant i _ => some i
  | .admin => none

/-- The job of plate `p` made by descriptor `i` of ring `q`. -/
def State.job? (s : State) (p : Plate) (q : RingRef) (i : Word) : Option Job :=
  (s.pl p).sl.jobs.find? fun j => j.ring == q && j.index == i

/-- The job a reference names. -/
def State.jobAt (s : State) (r : JobRef) : Option Job := s.job? r.plate r.ring r.index

/-- The state with `f` applied to one job. -/
def State.updJob (s : State) (p : Plate) (q : RingRef) (i : Word) (f : Job → Job) : State :=
  s.updSl p fun x => { x with jobs := x.jobs.map fun j => if j.ring == q && j.index == i then f j else j }

/-- The state with `f` applied to the job a reference names. -/
def State.updJobAt (s : State) (r : JobRef) (f : Job → Job) : State := s.updJob r.plate r.ring r.index f

/-- Whether a cache entry was reserved for a key that a job makes and that has not been issued (R64). -/
def Job.reservedEntry (j : Job) (e : CacheEntry) : Bool :=
  j.newPos == some e.pos && ringSlice j.ring == some e.slice && e.handle.isNone

/-- Whether a read is one that a descriptor's job waits for. -/
def readOfJob (q : RingRef) (i : Word) : ReadKind → Bool
  | .slug r k | .input r k | .message r k => r == q && k == i
  | _ => false

/-- Whether an entry is one whose fill a job runs (R144). -/
def Job.fillsEntry (j : Job) (e : CacheEntry) : Bool :=
  j.stage == .filling && !e.filled && ringSlice j.ring == some e.slice &&
  (j.newPos == some e.pos || j.entry == some e.pos || j.entry2 == some e.pos)

/-- The state without one job and its reads; lines it reserved for a key it did not make are free again, and so are those of a
fill that ends with it. -/
def State.dropJob (s : State) (p : Plate) (q : RingRef) (i : Word) : State :=
  let gone := fun (j : Job) => j.ring == q && j.index == i
  let s := s.updVlt p fun v => { v with
    cache := v.cache.filter fun e => !((s.pl p).sl.jobs.any fun j => gone j && (j.reservedEntry e || j.fillsEntry e)) }
  s.updSl p fun x => { x with
    jobs := x.jobs.filter fun j => !gone j
    reads := x.reads.filter fun e => !readOfJob q i e.1
    resume := x.resume.filter fun k => !(k.1 == q && k.2 == i) }

/-- The PASID under which plate `p` reaches slice `i`'s memory (R24). -/
def State.pasid (s : State) (p : Plate) (i : Nat) : Option (BitVec 20) :=
  match p with
  | .a => (s.impo p i).pasidA
  | .b => (s.impo p i).pasidB

/-- Whether the plate is started up and not held in reset. -/
def State.up (s : State) (p : Plate) : Bool := (s.pl p).pow.phase == .running

/-- Whether plate `p` serves: started, serving, not yielded, leaving or isolated, and its KNOCKOUT line released
(R218, R291, R307). -/
def State.serves (s : State) (p : Plate) : Bool :=
  let x := s.pl p
  x.pow.phase == .running && x.pow.serving && !x.tmp.ko && x.pr.mode != .yielded && x.pr.mode != .leaving &&
    x.flt.react != .isolated

/-- Whether plate `p` is the home of slice `i` and serves it (R209). -/
def State.homes (s : State) (p : Plate) (i : Nat) : Bool :=
  s.serves p && (s.impo p i).st != .free && (s.impo p i).home == p

/-- Whether the peer of `p` counts as in service: started and PAIRED or PARTITION (13, "The class C reaction"). -/
def State.peerInService (s : State) (p : Plate) : Bool :=
  let x := s.pl p.peer
  x.pow.phase == .running && (x.pr.mode == .paired || x.pr.mode == .partition)

/-! ## The gutter (R214) -/

/-- Whether plate `p` sees at least one sub-link up. -/
def State.gutterUp (s : State) (p : Plate) : Bool := !(s.pl p).pr.lost && (s.pl p).pr.links != 0

/-- Messages under way to plate `p`. -/
def State.gut (s : State) : Plate → List GMsg
  | .a => s.gutA
  | .b => s.gutB

/-- The state with the messages under way to plate `p` replaced. -/
def State.setGut (s : State) (p : Plate) (l : List GMsg) : State :=
  match p with
  | .a => { s with gutA := l }
  | .b => { s with gutB := l }

/-- Plate `p` sends `m` to its peer; while the gutter is lost it goes nowhere. -/
def State.send (s : State) (p : Plate) (m : GMsg) : State :=
  if s.gutterUp p then s.setGut p.peer (s.gut p.peer ++ [m]) else s

/-- The first message that `f` accepts, and the messages without it. -/
def takeMsg {β : Type} (f : GMsg → Option β) : List GMsg → Option (β × List GMsg)
  | [] => none
  | m :: t =>
    match f m with
    | some b => some (b, t)
    | none =>
      match takeMsg f t with
      | some (b, u) => some (b, m :: u)
      | none => none

/-- Plate `p` takes the first message under way to it that `f` accepts. -/
def State.receive {β : Type} (s : State) (p : Plate) (f : GMsg → Option β) : Option (β × State) :=
  match takeMsg f (s.gut p) with
  | some (b, l) => some (b, s.setGut p l)
  | none => none

/-! ## Lifecycle (R248) -/

/-- The lifecycle code of plate `p`, read as R248 gives. -/
def State.lifecycle (s : State) (p : Plate) : Byte :=
  let c := (s.pl p).cus
  if c.rtf = 0x66 then 0x66
  else if (c.rtf ≠ 0) || (c.idf ≠ 0 && c.idf ≠ 0x0F) then 0x66
  else if c.idf = 0 then 0
  else match c.lcPage with
    | some v =>
      if v.tagOk && v.comp == ~~~v.code &&
          (v.code = 0x0F || v.code = 0x33 || v.code = 0x3C || v.code = 0x55 || v.code = 0x5A) then v.code
      else 0x55
    | none => 0x55

/-- The custody page of plate `p`; one whose tag fails is not used, and then no custodian is ACTIVE (R159, R238, log 121). -/
def State.custody (s : State) (p : Plate) : CustodyPage :=
  let c := (s.pl p).cus.page
  if c.tagOk then c else {}

/-- The policy in force (Table 10.3 where none was written). -/
def State.policy (s : State) (p : Plate) : Policy := ((s.custody p).policy).getD {}

/-- The 64 bytes of a policy record (Table 10.4). -/
def policyBytes (y : Policy) : Bytes :=
  leBytes 1 1 ++ leBytes 1 y.mA ++ leBytes 1 y.mB ++ leBytes 1 y.localA ++ leBytes 1 y.flags.toNat ++
  leBytes 1 y.loops.toNat ++ zeros 2 ++ (y.tDisc.map fun t => BitVec.ofNat 8 t) ++ zeros 4 ++ fit 32 y.opKey ++ zeros 16

/-- The bytes of a custodian table entry (R238). -/
def Custodian.bytes (e : Custodian) : Bytes :=
  leBytes 1 (if e.active then 0x0F else 0) ++ fit 97 e.key ++ fit 16 e.serial ++ fit 16 e.label

/-- The bytes of the custody page ahead of its tag: the table, then the policy record (R238; their order is the model's, log
121). -/
def CustodyPage.bytes (c : CustodyPage) : Bytes :=
  (List.range 8).flatMap (fun k => (c.table.get {} k).bytes) ++ policyBytes (c.policy.getD {}) ++ leBytes 8 c.seq

/-- The bytes of the lifecycle page ahead of its tag (R248). -/
def LcPage.bytes (v : LcPage) : Bytes := [v.code, v.comp] ++ leBytes 8 v.seq

/-- A status that the manual leaves open, drawn from the free values among the candidates (log 30). -/
def State.openStatus (s : State) (l : List Status) : Status := l.getD (Config.freeNat s.free % l.length) .quorum

/-! ## Derivation (R136, R139, Table 6.3) -/

/-- KDF(K, S, X, L) with L in bytes. -/
def kdf (k : Bytes) (label : Bytes) (ctx : Bytes) (n : Nat) : Bytes := fit n (Config.kmac256 k ctx n label)

/-- VEK of a root. -/
def vekOf (drk salt : Bytes) : Bytes := kdf drk (ascii "vault") (fit 32 salt) 32
/-- VIK of a root. -/
def vikOf (drk salt : Bytes) : Bytes := kdf drk (ascii "vault-tag") (fit 32 salt) 32
/-- SBK of plate `p` from the corrected chase response. -/
def sbkOf (p : Plate) (chase : Bytes) : Bytes := kdf (Config.fuseSecret p) (ascii "shield") (fit 32 chase) 32
/-- The identity sealing key of plate `p`. -/
def idKeyOf (p : Plate) : Bytes := kdf (Config.fuseSecret p) (ascii "identity") [] 32

/-- The tag of the custody page on plate `p` (R238). -/
def custodyTag (p : Plate) (c : CustodyPage) : Bytes := kdf (idKeyOf p) (ascii "custody") c.bytes 16
/-- The tag of the lifecycle page on plate `p` (R248). -/
def lifecycleTag (p : Plate) (v : LcPage) : Bytes := kdf (idKeyOf p) (ascii "lifecycle") v.bytes 16

/-- The custody page as plate `p` stores it (R238). -/
def State.setCustody (s : State) (p : Plate) (c : CustodyPage) : State :=
  s.updCus p fun x => { x with page := { c with tag := custodyTag p c, tagOk := true } }

/-- The lifecycle page as plate `p` stores it (R248). -/
def State.setLcPage (s : State) (p : Plate) (v : LcPage) : State :=
  s.updCus p fun x => { x with lcPage := some { v with tag := lifecycleTag p v, tagOk := true } }

/-- Every key that Table 6.3 derives from a root on plate `p`, in the key registers (R140). -/
def KeyRegs.derive (k : KeyRegs) (p : Plate) (drk salt boot : Bytes) : KeyRegs :=
  { k with
    drk := fit 32 drk, salt := fit 32 salt, vek := vekOf drk salt, vik := vikOf drk salt
    log := kdf drk (ascii "log") (fit 32 salt) 32, mirror := kdf drk (ascii "mirror") (fit 32 salt) 32
    lpddr := kdf drk (ascii "lpddr") (fit 32 salt ++ leBytes 1 p.num ++ fit 32 boot) 64 }

/-- Bytes 0x00 to 0x1F of a root page: the additional data of its seal (R138). -/
def rootHead (seq : Nat) (nonce : Bytes) : Bytes := leBytes 1 1 ++ zeros 7 ++ leBytes 8 seq ++ fit 12 nonce ++ zeros 4

/-- The 256 bytes of a root page (Table 6.2). -/
def RootPage.bytes (r : RootPage) : Bytes := rootHead r.seq r.nonce ++ fit 80 r.sealed ++ zeros 144

/-- DRK ‖ salt, where a root page opens with AES-256-GCM-SIV under this SBK (R138). -/
def RootPage.opened (r : RootPage) (sbk : Bytes) : Option Bytes :=
  (Config.sivOpen sbk (fit 12 r.nonce) (rootHead r.seq r.nonce) (fit 80 r.sealed)).map (fit 64)

/-! ## Random values (R195, R197 to R200) -/

/-- The instance of the vault controller and the key unit (Table 8.3). -/
def vaultInst : Nat := 4100
/-- The instance of the chase (Table 8.3). -/
def chaseInst : Nat := 4101
/-- The instance of a lane (Table 8.3). -/
def laneInst (lane : Nat) : Nat := 4096 + lane / 16

/-- An instance of plate `p`. -/
def State.inst (s : State) (p : Plate) (k : Nat) : Drbg := (s.pl p).rng.inst.get {} k

/-- The state with `f` applied to an instance. -/
def State.updInst (s : State) (p : Plate) (k : Nat) (f : Drbg → Drbg) : State :=
  s.updRng p fun x => { x with inst := x.inst.mod {} k f }

/-- Whether plate `p` gives random output (Table 8.6). -/
def State.gives (s : State) (p : Plate) : Bool := (s.pl p).rng.st == .serving

/-- Whether an instance must be instantiated or reseeded before its next request (R198 to R200, R208). -/
def Drbg.due (d : Drbg) (now : Nat) : Bool :=
  !d.made || d.must || decide (2 ^ 20 ≤ d.count) || decide (d.seeded + 1000000 ≤ now)

/-- Whether an instance of plate `p` is due. -/
def State.due (s : State) (p : Plate) (k : Nat) : Bool := (s.inst p k).due s.clock

/-- Blocks that `n` requests to an instance take first: two for its instantiation, one for a reseed that is due now or comes due
by its 2^20th request (R198, R199). -/
def Drbg.needs (d : Drbg) (now n : Nat) : Nat :=
  let due := d.due now
  if n = 0 then 0
  else if !d.made then 2
  else (if due then 1 else 0) + (if 2 ^ 20 < (if due then 0 else d.count) + n then 1 else 0)

/-- Whether instance `k` of plate `p` can answer `n` requests now: the plate gives output, and the pool has the blocks that they
need. A consumer inside the plate waits otherwise (R199, R203). -/
def State.canDraw (s : State) (p : Plate) (k n : Nat) : Bool :=
  s.gives p && decide ((s.inst p k).needs s.clock n ≤ (s.pl p).rng.pool.length)

/-- Whether a consumer waits for blocks of the pool, on a plate that is not HALTED. -/
def State.drawWaits (s : State) (p : Plate) (k n : Nat) : Bool := s.gives p && !s.canDraw p k n

/-- The oldest block of the pool. -/
def State.block (s : State) (p : Plate) : Bytes := (s.pl p).rng.pool.headD []

/-- A block has been used, once (R195). -/
def State.usedBlock (s : State) (p : Plate) : State := s.updRng p fun x => { x with pool := x.pool.drop 1 }

/-- The 12 bytes of an instance's personalisation string (R198). -/
def drbgPerson (p : Plate) (k optime : Nat) : Bytes := leBytes 1 p.num ++ zeros 1 ++ leBytes 2 k ++ leBytes 8 optime

/-- An instance is reseeded with one block (R198). -/
def State.reseed (s : State) (p : Plate) (k : Nat) : State :=
  let b := s.block p
  ((s.usedBlock p).updInst p k fun d =>
    let n := Config.drbgReseed d.key d.v b
    { d with key := n.1, v := n.2, count := 0, seeded := s.clock, must := false }).updRng p fun x =>
    { x with reseeds := x.reseeds + 1 }

/-- An instance is instantiated: one block as entropy input, half of another as nonce (R198). -/
def State.instantiate (s : State) (p : Plate) (k : Nat) : State :=
  let b := s.block p
  let s := s.usedBlock p
  let n := Config.drbgInit b ((s.block p).take 16) (drbgPerson p k (s.optime p))
  (s.usedBlock p).updInst p k fun _ => { live := true, made := true, key := n.1, v := n.2, seeded := s.clock }

/-- An instance ready for a request: instantiated or reseeded first where it is due (R198 to R200, R208); on a plate that is
HALTED or in reset it stays as it is (R207, R279). No consumer asks before the pool has the blocks (`State.canDraw`, log 57). -/
def State.readied (s : State) (p : Plate) (k : Nat) : State :=
  let n := (s.pl p).rng.pool.length
  if !s.gives p then s
  else if !(s.inst p k).made then (if 2 ≤ n then s.instantiate p k else s)
  else if s.due p k && decide (1 ≤ n) then s.reseed p k
  else s

/-- What one generate request returns. -/
def Drbg.out (d : Drbg) (add : Bytes) (n : Nat) : Bytes := fit n (Config.drbgGenerate d.key d.v add n)

/-- An instance after one generate request. -/
def Drbg.next (d : Drbg) (add : Bytes) (n : Nat) : Drbg :=
  let r := Config.drbgNext d.key d.v add n
  { d with key := r.1, v := r.2, count := d.count + 1 }

/-- Requests of these lengths to instance `k` of plate `p` in turn, each after the reseed that comes before it (R199): what they
return, and the state after them. -/
def State.draws (s : State) (p : Plate) (k : Nat) : List Nat → List Bytes × State
  | [] => ([], s)
  | n :: t =>
    let s := s.readied p k
    let r := (s.updInst p k fun d => d.next [] n).draws p k t
    ((s.inst p k).out [] n :: r.1, r.2)

/-- What a generate request of `n` bytes to instance `k` of plate `p` returns now. -/
def State.drawn (s : State) (p : Plate) (k n : Nat) : Bytes := ((s.readied p k).inst p k).out [] n

/-- What the requests of lengths `l` return in turn; `drawnAt` is the one at `i`. -/
def State.drawnAt (s : State) (p : Plate) (k : Nat) (l : List Nat) (i : Nat) : Bytes :=
  (s.draws p k l).1.getD i []

/-- The state after requests of lengths `l` to instance `k` of plate `p`. -/
def State.drew (s : State) (p : Plate) (k : Nat) (l : List Nat) : State :=
  (s.draws p k l).2

/-- The identity seed sealed on plate `p`, under a nonce of 12 bytes that it drew and with no additional data: R164 states neither
(DESIGN CHOICE, log 139). -/
def State.sealIdentity (s : State) (p : Plate) (seed : Bytes) : State :=
  s.updVlt p fun v => { v with
    idSeed := seed
    idPage := some { nonce := v.prep.nonce, sealed := fit 208 (Config.sivSeal (idKeyOf p) v.prep.nonce [] (fit 192 seed)) } }

/-- The identity seed of plate `p` (R164). -/
def State.seed (s : State) (p : Plate) : Bytes := fit 192 (s.pl p).vlt.idSeed

/-- The four public parts of Table 7.1 that a seed gives, encoded as Table 5.6 gives them: ECDSA P-384, ML-DSA-65, ML-KEM-768,
ECDH P-384 (R165). -/
def publicParts (seed : Bytes) : Bytes :=
  fit 97 (Config.pkPublic 0x41 (cut seed 0 48)) ++ fit 1952 (Config.pkPublic 0x59 (cut seed 48 32)) ++
  fit 1184 (Config.pkPublic 0x51 (cut seed 80 64)) ++ fit 97 (Config.pkPublic 0x45 (cut seed 144 48))

/-- The four public parts of this part. -/
def State.identityParts (s : State) (p : Plate) : Bytes := publicParts (s.seed p)

/-- The device identity digest (R165). -/
def State.identityDigest (s : State) (p : Plate) : Bytes := fit 32 (Config.sha3 (s.identityParts p))

end Sys2Proof.Machine
end

