-- ==== Sys2Proof/Machine/Operands.lean ====
section
/-! DEFINITION. The descriptor, key references, attribute words, the algorithm tables (4.1, 5.1, 5.6, 5.8, 6.4, 6.8, 6.9)
and checks 1 to 3 and 7 of Table 2.7 for every opcode. -/

namespace Sys2Proof.Machine

/-! ## Status codes (Table 2.9) -/

/-- The code of a status. -/
def Status.code : Status → Byte
  | .ok => 0x00 | .authFail => 0x01 | .keyExhausted => 0x02 | .keyGone => 0x03 | .keyBad => 0x04 | .keyPerm => 0x05
  | .range => 0x06 | .quota => 0x07 | .dmaFault => 0x08 | .cancelled => 0x09 | .entropyHalt => 0x0A
  | .plateLost => 0x0B | .vaultRo => 0x0C | .busy => 0x0D | .counterStale => 0x0E | .partitioned => 0x0F
  | .quorum => 0x10 | .knockout => 0x11 | .timingFault => 0x12 | .ringFault => 0x13 | .outSmall => 0x14
  | .unsupported => 0x15

/-- The status classes of Table 2.9. -/
inductive StClass where
  | done | key | refused | host | cancelled | service | none
  deriving DecidableEq, Repr

/-- The class a status counts under (Table 2.9). -/
def Status.cls : Status → StClass
  | .ok | .authFail => .done
  | .keyExhausted | .keyGone | .keyBad | .counterStale => .key
  | .keyPerm | .range | .quota | .quorum | .outSmall | .unsupported => .refused
  | .dmaFault => .host
  | .cancelled => .cancelled
  | .entropyHalt | .plateLost | .vaultRo | .busy | .partitioned | .knockout | .timingFault => .service
  | .ringFault => .none

/-! ## The descriptor (Table 2.6) -/

/-- The descriptor that 64 bytes spell. -/
def decodeDesc (b : Bytes) : Desc where
  opcode  := BitVec.ofNat 8 (leAt b 0x00 1)
  alg     := BitVec.ofNat 8 (leAt b 0x01 1)
  flags   := BitVec.ofNat 16 (leAt b 0x02 2)
  inLen   := BitVec.ofNat 32 (leAt b 0x04 4)
  keyRef  := BitVec.ofNat 64 (leAt b 0x08 8)
  inAddr  := BitVec.ofNat 64 (leAt b 0x10 8)
  outAddr := BitVec.ofNat 64 (leAt b 0x18 8)
  outCap  := BitVec.ofNat 32 (leAt b 0x20 4)
  aadLen  := BitVec.ofNat 32 (leAt b 0x24 4)
  aadAddr := BitVec.ofNat 64 (leAt b 0x28 8)
  param   := BitVec.ofNat 64 (leAt b 0x30 8)
  cookie  := BitVec.ofNat 64 (leAt b 0x38 8)

/-- The 64 bytes of a descriptor. -/
def encodeDesc (d : Desc) : Bytes :=
  leBytes 1 d.opcode.toNat ++ leBytes 1 d.alg.toNat ++ leBytes 2 d.flags.toNat ++ leBytes 4 d.inLen.toNat ++
  leBytes 8 d.keyRef.toNat ++ leBytes 8 d.inAddr.toNat ++ leBytes 8 d.outAddr.toNat ++ leBytes 4 d.outCap.toNat ++
  leBytes 4 d.aadLen.toNat ++ leBytes 8 d.aadAddr.toNat ++ leBytes 8 d.param.toNat ++ leBytes 8 d.cookie.toNat

/-- The opcode as a number. -/
def Desc.op (d : Desc) : Nat := d.opcode.toNat
/-- The algorithm code as a number. -/
def Desc.al (d : Desc) : Nat := d.alg.toNat
/-- Flags [hi:lo] with hi = lo + n - 1. -/
def Desc.fl (d : Desc) (lo n : Nat) : Nat := (d.flags.toNat / 2 ^ lo) % 2 ^ n
/-- flags bit 0 IRQ. -/
def Desc.irq (d : Desc) : Bool := d.fl 0 1 == 1
/-- NO_YIELD (Table 5.3). -/
def Desc.noYield (d : Desc) : Bool := d.fl 15 1 == 1
/-- CLEAR (Table 5.3). -/
def Desc.clear (d : Desc) : Bool := d.fl 14 1 == 1
/-- PREHASHED (Table 5.3). -/
def Desc.prehashed (d : Desc) : Bool := d.fl 10 1 == 1
/-- TO_SLUG (Table 7.2). -/
def Desc.toSlug (d : Desc) : Bool := d.fl 2 1 == 1

/-! ## Key references (Table 6.5) -/

/-- The forms of a KREF. -/
inductive Kref where
  | slot (j : Nat)
  | slug (addr : Nat)
  | handle (h : DWord)
  | bad
  deriving DecidableEq, Repr

/-- The KREF that 64 bits spell; `bad` is the reserved form or a form with non-zero bits where zeros are required. -/
def parseKref (k : DWord) : Kref :=
  match k.toNat / 2 ^ 62 with
  | 0 => if k.toNat < 32 then .slot k.toNat else .bad
  | 1 => if k.toNat % 16 = 0 then .slug (k.toNat % 2 ^ 62) else .bad
  | 2 => .handle k
  | _ => .bad

/-- The handle of Table 6.6. -/
def makeHandle (p : Plate) (era seq pos : Nat) : DWord :=
  BitVec.ofNat 64 (2 * 2 ^ 62 + p.num * 2 ^ 61 + (era % 2 ^ 21) * 2 ^ 40 + (seq % 2 ^ 20) * 2 ^ 20 + pos % 2 ^ 20)

/-! ## Attributes (Table 6.7) -/

/-- Bit b of an attribute word. -/
def attrBit (a : Word) (b : Nat) : Bool := a.getLsbD b
/-- EXPORTABLE. -/
def attrExportable : Nat := 0
/-- MIGRATABLE. -/
def attrMigratable : Nat := 1
/-- SEAL. -/
def useSeal : Nat := 8
/-- OPEN. -/
def useOpen : Nat := 9
/-- MAC. -/
def useMac : Nat := 10
/-- SIGN. -/
def useSign : Nat := 11
/-- VERIFY. -/
def useVerify : Nat := 12
/-- DERIVE. -/
def useDerive : Nat := 13
/-- WRAP. -/
def useWrap : Nat := 14
/-- DECAPS. -/
def useDecaps : Nat := 15

/-! ## Algorithms -/

/-- AES-GCM. -/
def isGcm (a : Nat) : Bool := a == 0x01 || a == 0x02
/-- AES-GCM or GCM-SIV: keys that own a ledger entry (04). -/
def hasLedger (a : Nat) : Bool := decide (1 ≤ a ∧ a ≤ 4)
/-- HMAC. -/
def isHmac (a : Nat) : Bool := decide (0x09 ≤ a ∧ a ≤ 0x0B)
/-- ECDSA. -/
def isEcdsa (a : Nat) : Bool := a == 0x40 || a == 0x41
/-- RSA. -/
def isRsa (a : Nat) : Bool := decide (0x48 ≤ a ∧ a ≤ 0x4A)
/-- ML-KEM. -/
def isKem (a : Nat) : Bool := decide (0x50 ≤ a ∧ a ≤ 0x52)
/-- ML-DSA. -/
def isDsa (a : Nat) : Bool := decide (0x58 ≤ a ∧ a ≤ 0x5A)
/-- Asymmetric algorithms. -/
def isAsym (a : Nat) : Bool := decide (0x40 ≤ a)

/-- The algorithm codes of Table 6.8. -/
def keyAlg (a : Nat) : Bool :=
  decide (1 ≤ a ∧ a ≤ 4) || decide (8 ≤ a ∧ a ≤ 0x0D) || decide (0x40 ≤ a ∧ a ≤ 0x45) || isRsa a || isKem a || isDsa a

/-- Use bits allowed for an algorithm (Table 6.8), as a mask of the attribute word. -/
def allowedUse (a : Nat) : Nat :=
  if hasLedger a then 2 ^ useSeal + 2 ^ useOpen
  else if a == 0x0C then 2 ^ useMac + 2 ^ useDerive
  else if a == 0x08 || isHmac a then 2 ^ useMac
  else if a == 0x0D then 2 ^ useWrap
  else if decide (0x43 ≤ a ∧ a ≤ 0x45) then 2 ^ useDerive
  else if isRsa a then 2 ^ useSign + 2 ^ useVerify + 2 ^ useDecaps
  else if isKem a then 2 ^ useDecaps
  else if isEcdsa a || a == 0x42 || isDsa a then 2 ^ useSign + 2 ^ useVerify
  else 0

/-- Whether an attribute word asks only for allowed use bits, with reserved bits zero (R149, R150). -/
def attrOk (alg : Nat) (attr : Word) : Bool :=
  decide (attr.toNat &&& (0xFFFFFFFF - (allowedUse alg + 7)) = 0)

/-- The order n of P-256 and of P-384 (SP 800-186). -/
def curveOrder (a : Nat) : Nat :=
  if a == 0x40 || a == 0x44 then 0xFFFFFFFF00000000FFFFFFFFFFFFFFFFBCE6FAADA7179E84F3B9CAC2FC632551
  else 0xFFFFFFFFFFFFFFFFFFFFFFFFFFFFFFFFFFFFFFFFFFFFFFFFC7634D81F4372DDF581A0DB248B0A77AECEC196ACCC52973

/-- The number that a big-endian string spells. -/
def beNat (b : Bytes) : Nat := leNat b.reverse

/-- The checks of RSA material p ‖ q of 2 × h bytes: p > q, both with their top bit set, a product of 2 × h bytes, and 65,537, a
prime, invertible modulo (p − 1)(q − 1) (Table 7.5). -/
def rsaMaterialOk (h : Nat) (b : Bytes) : Bool :=
  let p := beNat (cut b 0 h)
  let q := beNat (cut b h h)
  decide (q < p ∧ 2 ^ (8 * h - 1) ≤ p ∧ 2 ^ (8 * h - 1) ≤ q ∧ 2 ^ (8 * (2 * h) - 8) ≤ p * q ∧
    ((p - 1) * (q - 1)) % 65537 ≠ 0)

/-- The material check of Table 7.5, for material of the right length. -/
def materialOk (a : Nat) (b : Bytes) : Bool :=
  if isEcdsa a || a == 0x44 || a == 0x45 then decide (1 ≤ beNat b ∧ beNat b < curveOrder a)
  else if isRsa a then rsaMaterialOk (b.length / 2) b
  else if isDsa a then Config.materialValid a b
  else true

/-- Whether material that a lane has drawn is a private key of the algorithm. -/
def generatedOk (a : Nat) (b : Bytes) : Bool := materialOk a b && (!isRsa a || Config.materialValid a b)

/-- Stored material length (Table 6.9); `asked` where the table gives a range. -/
def materialLen (a asked : Nat) : Nat :=
  if a == 0x01 || a == 0x03 then 16
  else if a == 0x02 || a == 0x04 || a == 0x08 || a == 0x0D then 32
  else if isHmac a || a == 0x0C then asked
  else if a == 0x40 || a == 0x44 then 32
  else if a == 0x41 || a == 0x45 then 48
  else if a == 0x42 || a == 0x43 || isDsa a then 32
  else if a == 0x48 then 256 else if a == 0x49 then 384 else if a == 0x4A then 512
  else if isKem a then 64
  else 0

/-- Whether a length is one that Table 6.9 allows for the algorithm. -/
def materialLenOk (a n : Nat) : Bool :=
  if isHmac a then decide (32 ≤ n ∧ n ≤ 128)
  else if a == 0x0C then decide (32 ≤ n ∧ n ≤ 64)
  else keyAlg a && n == materialLen a 0

/-- Lines a key occupies (Table 6.4). -/
def keyLines (a mlen : Nat) : Nat :=
  if isHmac a then (if mlen ≤ 64 then 2 else 3)
  else if a == 0x40 || a == 0x44 then 3
  else if a == 0x41 || a == 0x45 then 4
  else if a == 0x48 then 15 else if a == 0x49 then 22 else if a == 0x4A then 29
  else if a == 0x50 then 27 else if a == 0x51 then 39 else if a == 0x52 then 51
  else if a == 0x58 then 62 else if a == 0x59 then 95 else if a == 0x5A then 118
  else 2

/-- Fill cost in work units (Table 6.4). -/
def fillCost (a : Nat) : Nat :=
  if a == 0x40 || a == 0x44 then 46
  else if a == 0x41 || a == 0x45 then 100
  else if a == 0x42 then 42 else if a == 0x43 then 40
  else if a == 0x48 then 60 else if a == 0x49 then 150 else if a == 0x4A then 300
  else if a == 0x50 then 10 else if a == 0x51 then 15 else if a == 0x52 then 21
  else if a == 0x58 then 30 else if a == 0x59 then 44 else if a == 0x5A then 60
  else 0

/-- Public-part length (Table 5.6). -/
def publicLen (a : Nat) : Nat :=
  if a == 0x40 || a == 0x44 then 65 else if a == 0x41 || a == 0x45 then 97
  else if a == 0x42 || a == 0x43 then 32
  else if a == 0x48 then 256 else if a == 0x49 then 384 else if a == 0x4A then 512
  else if a == 0x50 then 800 else if a == 0x51 then 1184 else if a == 0x52 then 1568
  else if a == 0x58 then 1312 else if a == 0x59 then 1952 else if a == 0x5A then 2592
  else 0

/-- Signature length (Table 5.6). -/
def signatureLen (a : Nat) : Nat :=
  if a == 0x40 then 64 else if a == 0x41 then 96 else if a == 0x42 then 64
  else if a == 0x48 then 256 else if a == 0x49 then 384 else if a == 0x4A then 512
  else if a == 0x58 then 2420 else if a == 0x59 then 3309 else if a == 0x5A then 4627
  else 0

/-- ML-KEM ciphertext length (Table 5.6). -/
def kemCtLen (a : Nat) : Nat := if a == 0x50 then 768 else if a == 0x51 then 1088 else 1568

/-- Shared-secret length of a lane opcode (Table 5.6). -/
def secretLen (a : Nat) : Nat := if a == 0x45 then 48 else 32

/-- Digest length of HASH 1 to 3 (Table 5.3). -/
def hashLen (h : Nat) : Nat := if h == 1 then 32 else if h == 2 then 48 else 64

/-- Digest length of codes 0x10 to 0x14 (Table 4.3). -/
def digestLen (a : Nat) : Nat :=
  if a == 0x10 then 32 else if a == 0x11 then 48 else if a == 0x12 then 64 else if a == 0x13 then 32 else 64

/-- Tag length of a MAC algorithm (Table 4.3). -/
def macLen (a tlen : Nat) : Nat :=
  if a == 0x08 then 16 else if a == 0x09 then 32 else if a == 0x0A then 48 else if a == 0x0B then 64 else tlen

/-- Whether tag, customisation string and lengths are allowed for a MAC (Tables 4.2, 4.3). -/
def macOk (d : Desc) : Bool :=
  if d.al == 0x0C then decide (16 ≤ d.fl 8 8 ∧ d.fl 8 8 ≤ 64 ∧ d.aadLen.toNat ≤ 256)
  else d.fl 8 8 == 0 && d.aadLen == 0 && d.aadAddr == 0

/-- Table 5.8: the justified duration of entry k in µs. -/
def jtab : List Nat :=
  [48, 96, 104, 208, 44, 88, 40, 40, 92, 420, 24, 1250, 48, 2700, 80, 14, 20, 28, 12, 18, 25, 10, 15, 21,
   28, 40, 54, 18, 26, 36, 30, 44, 60, 46, 100, 42, 40, 50000, 1]

/-- PLT_JTAB entry k; entries 39 to 63 read 0 (R124). -/
def jtabAt (k : Nat) : Nat := jtab.getD k 0

/-- The table entry D1 of a lane job (Table 5.8). -/
def laneD1 (op a : Nat) : Nat :=
  if op == 0x20 then
    (if a == 0x40 then jtabAt 0 else if a == 0x41 then jtabAt 2 else if a == 0x42 then jtabAt 4
     else if a == 0x48 then jtabAt 9 else if a == 0x49 then jtabAt 11 else if a == 0x4A then jtabAt 13
     else jtabAt (24 + (a - 0x58)))
  else if op == 0x21 then
    (if a == 0x40 then jtabAt 1 else if a == 0x41 then jtabAt 3 else if a == 0x42 then jtabAt 5
     else if a == 0x48 then jtabAt 10 else if a == 0x49 then jtabAt 12 else if a == 0x4A then jtabAt 14
     else jtabAt (27 + (a - 0x58)))
  else if op == 0x22 then jtabAt (15 + (a - 0x50))
  else if op == 0x23 then jtabAt (18 + (a - 0x50))
  else if op == 0x24 then (if a == 0x43 then jtabAt 6 else if a == 0x44 then jtabAt 7 else jtabAt 8)
  else if op == 0x25 then (if a == 0x48 then jtabAt 9 else if a == 0x49 then jtabAt 11 else jtabAt 13)
  else if op == 0x30 then
    (if isKem a then jtabAt (21 + (a - 0x50)) else if isDsa a then jtabAt (30 + (a - 0x58))
     else if a == 0x40 || a == 0x44 then jtabAt 33 else if a == 0x41 || a == 0x45 then jtabAt 34
     else if a == 0x42 then jtabAt 35 else if a == 0x43 then jtabAt 36
     else if isRsa a then jtabAt 37 else 0)
  else if op == 0x34 || op == 0x50 then 40
  else 0

/-- Cost of a signature check by the algorithm of an importer key (R173). -/
def signCost (alg : Nat) : Nat := if alg == 0x41 then 208 else 26

/-- Whether a job's work is counted in attempts or quanta (R121). -/
def counted (op a : Nat) : Bool := (op == 0x20 && isDsa a) || (op == 0x30 && (isDsa a || isRsa a)) || op == 0x34 || op == 0x50

/-- Message add-on M of `n` bytes (R122). -/
def msgAddOn (n : Nat) : Nat := if n > 1024 then ceilDiv (n - 1024) 1024 else 0

/-- Whether the opcode and algorithm take a message that the device hashes (R122, R373). -/
def messageMode (d : Desc) : Bool :=
  (d.op == 0x20 || d.op == 0x21) && (d.al == 0x42 || isDsa d.al || !d.prehashed)

/-- The add-on M of a lane descriptor (R122). -/
def laneAddOn (d : Desc) : Nat := if messageMode d then msgAddOn d.inLen.toNat else 0

/-! ## Classes (Table 3.7) -/

/-- Admin opcodes (Table 2.13). -/
def isAdminOp (op : Nat) : Bool := decide (0x80 ≤ op ∧ op ≤ 0x91)

/-- The engine class of a checked job. -/
def opClass (op a : Nat) : EngClass :=
  if decide (0x10 ≤ op ∧ op ≤ 0x18) || op == 0x26 || op == 0x36 then .cipher
  else if decide (0x20 ≤ op ∧ op ≤ 0x25) || op == 0x34 || op == 0x50 then .lane
  else if op == 0x30 then (if isAsym a then .lane else .vault)
  else if op == 0x40 then .random
  else .vault

/-- Whether a job needs random values (Table 8.7). -/
def needsRandom (op : Nat) : Bool :=
  op == 0x40 || (decide (0x20 ≤ op ∧ op ≤ 0x25) && op != 0x21) || op == 0x30 || op == 0x31 || op == 0x34 || op == 0x50 ||
  op == 0x8B || op == 0x8D || op == 0x80

/-! ## Check 1 (Table 2.7) -/

/-- Opcodes defined on a tenant ring. -/
def tenantOp (op : Nat) : Bool :=
  decide (0x10 ≤ op ∧ op ≤ 0x18) || decide (0x20 ≤ op ∧ op ≤ 0x26) || decide (0x30 ≤ op ∧ op ≤ 0x36) ||
  op == 0x40 || op == 0x50 || op == 0x51

/-- Check 1: the opcode lies in a range that the ring accepts and is defined. -/
def check1 (q : RingRef) (d : Desc) : Bool :=
  match q with
  | .tenant _ _ => tenantOp d.op
  | .admin => isAdminOp d.op || d.op == 0x50

/-! ## Check 2 -/

/-- The PAD value a lane opcode allows (Table 5.3). -/
def padOk (d : Desc) : Bool :=
  let pad := d.fl 4 4
  if d.op == 0x20 || d.op == 0x21 then (if isRsa d.al then pad == 1 else pad == 0)
  else if d.op == 0x25 then pad == 2
  else pad == 0

/-- Whether alg is defined for the opcode; 0x00 where the opcode takes none (Table 2.6). -/
def algOk (op a : Nat) : Bool :=
  if op == 0x10 || op == 0x11 then isGcm a
  else if op == 0x12 || op == 0x13 then a == 0x03 || a == 0x04
  else if op == 0x14 || op == 0x15 then decide (0x08 ≤ a ∧ a ≤ 0x0C)
  else if op == 0x16 || op == 0x17 || op == 0x36 then a == 0x0D
  else if op == 0x18 then decide (0x10 ≤ a ∧ a ≤ 0x14)
  else if op == 0x20 || op == 0x21 then isEcdsa a || a == 0x42 || isRsa a || isDsa a
  else if op == 0x22 || op == 0x23 then isKem a
  else if op == 0x24 then decide (0x43 ≤ a ∧ a ≤ 0x45)
  else if op == 0x25 then isRsa a
  else if op == 0x26 then decide (1 ≤ a ∧ a ≤ 4) || decide (8 ≤ a ∧ a ≤ 0x0D)
  else if op == 0x30 || op == 0x33 then keyAlg a
  else if op == 0x83 then a == 0x41 || a == 0x59
  else a == 0

/-- Check 2. -/
def check2 (d : Desc) : Bool :=
  algOk d.op d.al && (if decide (0x20 ≤ d.op ∧ d.op ≤ 0x25) then padOk d else true)

/-! ## Check 3 -/

/-- Flag bits outside the mask are zero. -/
def flagsIn (d : Desc) (mask : Nat) : Bool := decide (d.flags.toNat &&& (0xFFFF - mask) = 0)
/-- in_addr and in_len are zero. -/
def noIn (d : Desc) : Bool := d.inAddr == 0 && d.inLen == 0
/-- out_addr and out_cap are zero. -/
def noOut (d : Desc) : Bool := d.outAddr == 0 && d.outCap == 0
/-- aad_addr and aad_len are zero. -/
def noAad (d : Desc) : Bool := d.aadAddr == 0 && d.aadLen == 0
/-- key_ref is zero. -/
def noKey (d : Desc) : Bool := d.keyRef == 0
/-- param is zero. -/
def noParam (d : Desc) : Bool := d.param == 0
/-- A KREF of a form the table defines, a slot below the quota (R145, Table 3.3). -/
def krefOk (slots : Nat) (k : DWord) : Bool :=
  match parseKref k with
  | .slot j => decide (j < slots)
  | .bad => false
  | _ => true

/-- Check 3 of the cipher opcodes (Tables 4.2, 4.3). -/
def check3Cipher (slots : Nat) (d : Desc) : Bool :=
  let n := d.inLen.toNat
  let big := decide (n ≤ 16777216)
  let k := krefOk slots d.keyRef
  if d.op == 0x10 || d.op == 0x12 then flagsIn d 1 && big && decide (d.aadLen.toNat ≤ 1048576) && k
  else if d.op == 0x11 || d.op == 0x13 then
    flagsIn d 1 && big && decide (16 ≤ n) && decide (d.aadLen.toNat ≤ 1048576) && k
  else if d.op == 0x14 then flagsIn d 0xFF01 && big && macOk d && noParam d && k
  else if d.op == 0x15 then flagsIn d 0xFF01 && big && macOk d && noOut d && k
  else if d.op == 0x16 then flagsIn d 1 && decide (1 ≤ n ∧ n ≤ 65528) && noAad d && noParam d && k
  else if d.op == 0x17 then flagsIn d 1 && decide (16 ≤ n ∧ n ≤ 65536 ∧ n % 8 = 0) && noAad d && noParam d && k
  else flagsIn d 1 && big && noKey d && noAad d && noParam d

/-- The HASH and PREHASHED fields and the length they allow (Tables 5.3, 5.4). -/
def hashOk (d : Desc) : Bool :=
  let n := d.inLen.toNat
  let h := d.fl 8 2
  if isEcdsa d.al || isRsa d.al then
    decide (1 ≤ h) && (if d.prehashed then n == hashLen h else decide (n ≤ 1048576))
  else h == 0 && !d.prehashed && decide (n ≤ 1048576)

/-- NO_YIELD only where M + D1 is at most 500 µs (R130). -/
def yieldOk (d : Desc) : Bool := !d.noYield || decide (laneAddOn d + laneD1 d.op d.al ≤ 500)

/-- Check 3 of the lane opcodes (Tables 5.2 to 5.4). -/
def check3Lane (slots : Nat) (d : Desc) : Bool :=
  let n := d.inLen.toNat
  let k := krefOk slots d.keyRef
  let det := d.fl 13 1 == 0 || (d.op == 0x20 && isDsa d.al)
  let base := d.fl 11 2 == 0 && d.fl 2 2 == 0 && d.fl 1 1 == 0 && det && yieldOk d
  let ctx := if isDsa d.al then decide (d.aadLen.toNat ≤ 255) else noAad d
  let plain := d.fl 10 1 == 0 && d.fl 8 2 == 0
  if d.op == 0x20 then base && !d.clear && hashOk d && ctx && noParam d && k
  else if d.op == 0x21 then
    base && !d.clear && hashOk d && ctx && d.outCap == 0 && (if noKey d then true else d.outAddr == 0 && k)
  else if d.op == 0x22 then
    base && plain && n == kemCtLen d.al && noAad d && noParam d && k && (d.clear || noOut d)
  else if d.op == 0x23 then
    base && plain && noParam d && (if noKey d then n == publicLen d.al else noIn d && k) &&
      (if d.clear then d.aadLen == 32 else noAad d)
  else if d.op == 0x24 then base && plain && n == publicLen d.al && noAad d && noParam d && k && (d.clear || noOut d)
  else
    base && !d.clear && d.fl 10 1 == 0 && decide (1 ≤ d.fl 8 2) && n == publicLen d.al &&
      decide (d.aadLen.toNat ≤ 256) && noParam d && k

/-- Check 3 of KEY_GENERATE (Table 7.2, R167, R168). -/
def check3Generate (slots : Nat) (d : Desc) : Bool :=
  let a := d.al
  let asked := d.fl 8 8
  let attr := BitVec.ofNat 32 d.param.toNat
  let lim := (d.param.toNat / 2 ^ 32) % 256
  let lease := (d.param.toNat / 2 ^ 40) % 256
  let limit := if lim == 0 then 32 else lim
  flagsIn d 0xFF05 && noIn d &&
    (if isHmac a || a == 0x0C then materialLenOk a asked else asked == 0) &&
    (if d.toSlug then noKey d && attrBit attr attrMigratable
     else noAad d && (match parseKref d.keyRef with
       | .slot j => decide (j + (if a == 0x4A then 1 else 0) < slots)
       | _ => false)) &&
    (if isAsym a then true else noOut d) &&
    attrOk a attr && !attrBit attr 2 &&
    (if hasLedger a then
      (lim == 0 || decide (16 ≤ lim ∧ lim ≤ 48)) && (lease == 0 || decide (16 ≤ lease ∧ lease ≤ 24 ∧ lease ≤ limit))
     else lim == 0 && lease == 0) &&
    decide (d.param.toNat < 2 ^ 48)

/-- Check 3 of the other tenant opcodes. -/
def check3Other (slots : Nat) (d : Desc) : Bool :=
  let k := krefOk slots d.keyRef
  if d.op == 0x26 then
    let uses := (d.param.toNat / 2 ^ 8) % 256
    flagsIn d 0xFF01 && k && noOut d && decide (d.inLen.toNat ≤ 4096) &&
      decide (1 ≤ d.aadLen.toNat ∧ d.aadLen.toNat ≤ 255) &&
      (if isHmac d.al || d.al == 0x0C then materialLenOk d.al (d.fl 8 8) else d.fl 8 8 == 0) &&
      decide (uses * 2 ^ 8 &&& (0xFF00 - allowedUse d.al) = 0) && decide (d.param.toNat < 2 ^ 16) &&
      decide ((d.param.toNat / 2) % 2 ^ 7 = 0)
  else if d.op == 0x30 then check3Generate slots d
  else if d.op == 0x31 then flagsIn d 1 && noKey d && noOut d && noParam d
  else if d.op == 0x32 || d.op == 0x33 then flagsIn d 1 && noIn d && noOut d && noAad d && noParam d && k
  else if d.op == 0x34 then flagsIn d 1 && noIn d && noAad d && k
  else if d.op == 0x35 then flagsIn d 1 && noIn d && noAad d && noParam d && k
  else if d.op == 0x36 then flagsIn d 1 && noIn d && noAad d && k && krefOk slots d.param
  else if d.op == 0x40 then
    flagsIn d 0x0101 && noKey d && noParam d && d.inAddr == 0 && decide (1 ≤ d.inLen.toNat ∧ d.inLen.toNat ≤ 65536) &&
      decide (d.aadLen.toNat ≤ 256)
  else if d.op == 0x50 then flagsIn d 1 && noKey d && noIn d && noAad d
  else flagsIn d 1 && noKey d && noIn d && noOut d && noAad d && noParam d

/-- A class A or B command's session number: param bits [63:32] are zero (R247). -/
def sessionOk (d : Desc) : Bool := decide (d.param.toNat < 2 ^ 32)

/-- Check 3 of the admin opcodes. -/
def check3Admin (d : Desc) : Bool :=
  let op := d.op
  let base := noKey d && noAad d
  if op == 0x80 || op == 0x81 || op == 0x82 then
    flagsIn d 1 && base && noOut d && d.inLen == 64 && sessionOk d
  else if op == 0x83 then
    flagsIn d 0xFFF1 && base && noOut d && d.inLen.toNat == publicLen d.al && sessionOk d
  else if op == 0x84 then flagsIn d 1 && base && noParam d && d.inLen == 64
  else if op == 0x85 then flagsIn d 1 && base && noOut d && noParam d && d.inLen == 104
  else if op == 0x86 then
    base && noOut d && sessionOk d &&
      (if d.fl 2 2 == 0 then flagsIn d 0x017D && d.inLen == 16
       else flagsIn d 0x007D && d.fl 2 2 == 1 && noIn d)
  else if op == 0x87 then
    flagsIn d 0xFF01 && base && sessionOk d && (d.inLen != 0 || noIn d) && (noOut d || (d.fl 8 8 == 0x0F && d.inLen == 0))
  else if op == 0x88 then flagsIn d 0x0005 && base && noOut d && sessionOk d
  else if op == 0x89 || op == 0x90 then flagsIn d 1 && base && noIn d && noOut d && noParam d
  else if op == 0x8A then flagsIn d 1 && base && noOut d && d.inLen == 64 && sessionOk d
  else if op == 0x8B then flagsIn d 0x000D && base && sessionOk d && (d.fl 2 2 == 0 || (d.fl 2 2 == 1 && noOut d))
  else if op == 0x8C then flagsIn d 0x000D && base && sessionOk d && (d.fl 2 2 == 0 || (d.fl 2 2 == 1 && noIn d))
  else if op == 0x8D then
    flagsIn d 1 && noKey d && noIn d && sessionOk d && (d.aadLen == 0 || d.aadLen == 32)
  else if op == 0x8E then flagsIn d 1 && base && noOut d && d.inLen == 16 && sessionOk d
  else if op == 0x8F then flagsIn d 1 && base && noIn d && noOut d && sessionOk d
  else flagsIn d 0xFFF1 && base && noIn d && noOut d && decide (d.param.toNat ≤ 1)

/-- Check 3 (Table 2.7), with the slice's slot quota. -/
def check3 (slots : Nat) (d : Desc) : Bool :=
  if isAdminOp d.op then check3Admin d
  else if decide (0x10 ≤ d.op ∧ d.op ≤ 0x18) then check3Cipher slots d
  else if decide (0x20 ≤ d.op ∧ d.op ≤ 0x25) then check3Lane slots d
  else check3Other slots d

/-- Checks 1 to 3 in order: the status of the first that fails. -/
def checks13 (q : RingRef) (slots : Nat) (d : Desc) : Option Status :=
  if !check1 q d then some .unsupported
  else if !check2 d then some .unsupported
  else if !check3 slots d then some .range
  else none

/-! ## Check 5: use bits (R81, R107, R162, R163, R182) -/

/-- The use bit an opcode needs; none where it needs none. -/
def useBit (op : Nat) : Option Nat :=
  if op == 0x10 || op == 0x12 then some useSeal
  else if op == 0x11 || op == 0x13 then some useOpen
  else if op == 0x14 || op == 0x15 then some useMac
  else if op == 0x16 || op == 0x17 then some useWrap
  else if op == 0x20 then some useSign
  else if op == 0x21 then some useVerify
  else if op == 0x22 || op == 0x25 then some useDecaps
  else if op == 0x24 || op == 0x26 then some useDerive
  else none

/-- Check 5: the key's algorithm and attributes allow the opcode. -/
def permOk (d : Desc) (k : Key) : Bool :=
  let algOk :=
    if d.op == 0x26 then k.alg == 0x0C
    else if d.op == 0x34 || d.op == 0x35 || d.op == 0x32 || d.op == 0x36 then true
    else k.alg == d.al
  let use := match useBit d.op with
    | some b => attrBit k.attr b
    | none => true
  let exp :=
    if (d.op == 0x22 || d.op == 0x24) && d.clear then attrBit k.attr attrExportable
    else if d.op == 0x26 && d.param.toNat % 2 == 1 then attrBit k.attr attrExportable
    else if d.op == 0x36 then attrBit k.attr attrExportable
    else true
  let vol := !(d.op == 0x34 && k.src == .volatileKey)
  algOk && use && exp && vol

/-! ## Check 7: output length -/

/-- Length of the statement whose body has `n` bytes (Table 7.7). -/
def statementLen (n : Nat) : Nat := 0xC0 + n + 3309

/-- Bytes of pub_len in the key record (Table 7.6). -/
def recordPubLen (a : Nat) : Nat := if isAsym a then publicLen a else 32

/-- Length of the device certificate (R181): a statement of 16 bytes and the four identity parts. -/
def deviceCertLen : Nat := statementLen (0x10 + 3330)
/-- Length of the issuing certificate: a statement of 16 bytes and two public parts. -/
def issuingCertLen : Nat := statementLen (0x10 + 2049)
/-- Length of the stored chain (Table 7.8). -/
def chainLen : Nat := deviceCertLen + issuingCertLen

/-- Bytes of a colophon body (Table 7.8). -/
def colophonLen : Nat := 0xDD8 + chainLen

/-- "out_cap at least", and whether it is checked against aad_len instead (KEY_GENERATE's slug, Table 7.2). -/
def needOut (d : Desc) (k : Option Key) : Nat :=
  let n := d.inLen.toNat
  let op := d.op
  if op == 0x10 || op == 0x12 then n + 16
  else if op == 0x11 || op == 0x13 then n - 16
  else if op == 0x14 then macLen d.al (d.fl 8 8)
  else if op == 0x16 then 8 * ceilDiv n 8 + 8
  else if op == 0x17 then n - 8
  else if op == 0x18 then digestLen d.al
  else if op == 0x20 then signatureLen d.al
  else if op == 0x22 || op == 0x24 then (if d.clear then secretLen d.al else 0)
  else if op == 0x23 then kemCtLen d.al
  else if op == 0x25 then publicLen d.al - 2 * hashLen (d.fl 8 2) - 2
  else if op == 0x30 then publicLen d.al
  else if op == 0x34 then statementLen (0x30 + recordPubLen ((k.map Key.alg).getD 0))
  else if op == 0x35 then 0x30 + recordPubLen ((k.map Key.alg).getD 0)
  else if op == 0x36 then 8 * ceilDiv (16 + ((k.map fun x => x.material.length).getD 0)) 8 + 8
  else if op == 0x40 then n
  else if op == 0x50 then statementLen colophonLen
  else if op == 0x84 then 96
  else 0

/-- Check 7: the length needed where out_cap (or, for a generated slug, aad_len) falls short. -/
def check7 (d : Desc) (k : Option Key) : Option Nat :=
  if d.outCap.toNat < needOut d k then some (needOut d k)
  else if d.op == 0x30 && d.toSlug && d.aadLen.toNat < 64 + materialLen d.al (d.fl 8 8) then
    some (64 + materialLen d.al (d.fl 8 8))
  else none

/-- The cost of a job in its class (Table 3.7): for a lane job M + D1. -/
def jobCost (d : Desc) (k : Option Key) : Nat :=
  match opClass d.op d.al with
  | .lane => laneAddOn d + laneD1 d.op d.al + (if d.op == 0x34 || d.op == 0x50 then
      104 + msgAddOn (0x60 + (if d.op == 0x50 then colophonLen else 0x30 + recordPubLen ((k.map Key.alg).getD 0))) else 0)
  | .cipher => if d.op == 0x36 then 16 + ((k.map fun x => x.material.length).getD 0) else d.inLen.toNat + d.aadLen.toNat
  | .random => d.inLen.toNat
  | .vault => 1

end Sys2Proof.Machine
end

