-- ==== Sys2Proof/Machine/Pages.lean ====
section
/-! DEFINITION. The physical pages of the vault partition: their map, the free pool, wear, side areas and the mount (15 R331 to R337,
R340). -/

namespace Sys2Proof.Machine

/-! ## Physical pages (R331, R333, R335, R340) -/

/-- Physical page `x` of the vault partition. A page that no group has touched is as the part left Kalelmed: the first 344,064 hold the
logical pages in order, the others are free (log 157). -/
def Nvm.page (n : Nvm) (x : Nat) : NvmPage :=
  (n.pages.get none x).getD { use_ := if x < 344064 then .mapped x else .free }

/-- A physical page changed. -/
def Nvm.updPage (n : Nvm) (x : Nat) (f : NvmPage → NvmPage) : Nvm := { n with pages := n.pages.set none x (some (f (n.page x))) }

/-- The physical pages that groups have touched, by number. -/
def Nvm.touched (n : Nvm) : List (Nat × NvmPage) := n.pages.filterMap fun e => e.2.map fun v => (e.1, v)

/-- The physical page that holds the current copy of a logical page. -/
def Nvm.pageOf (n : Nvm) (lpn : Nat) : Nat := ((n.touched.find? fun e => e.2.use_ == .mapped lpn).map Prod.fst).getD lpn

/-- The first page from `x` on that no group has touched. -/
def Nvm.untouched (n : Nvm) : Nat → Nat → Nat
  | 0, x => x
  | fuel + 1, x => if (n.pages.get none x).isSome then n.untouched fuel (x + 1) else x

/-- The page of a list with the fewest cycles, or the most. -/
def pickPage (most : Bool) : List (Nat × NvmPage) → Option (Nat × NvmPage)
  | [] => none
  | e :: t => match pickPage most t with
    | some f => if (if most then f.2.cycles ≤ e.2.cycles else e.2.cycles ≤ f.2.cycles) then some e else some f
    | none => some e

/-- A free page: the least-worn one, or for wear levelling the most-worn (R340). -/
def Nvm.freePage (n : Nvm) (most : Bool) : Option Nat :=
  let fresh := n.untouched n.pages.length 344064
  let used := (pickPage most (n.touched.filter fun e => e.2.use_ == .free)).map Prod.fst
  let new := if fresh < 393216 then some fresh else none
  if most then used <|> new else new <|> used

/-- The cycles of the most-worn page of the vault partition (R340). -/
def Nvm.mostWorn (n : Nvm) : Nat := (n.touched.map fun e => e.2.cycles).foldl max 0

/-- One free page taken for each logical page of a list, as far as the pool goes (Table 15.4 step 1). -/
def Nvm.takePages (n : Nvm) (most : Bool) : List Nat → Nvm × List Nat
  | [] => (n, [])
  | _ :: t => match n.freePage most with
    | some x =>
      let r := (n.updPage x fun v => { v with use_ := .taken }).takePages most t
      (r.1, x :: r.2)
    | none => (n, [])

/-- Step 4 for one member: the map points at the new page, and the old page rejoins the free pool. -/
def Nvm.mapPage (n : Nvm) (x : Nat) (r : PageRec) (data : Bytes) : Nvm :=
  (n.updPage (n.pageOf r.lpn) fun v => { v with use_ := .free }).updPage x fun v =>
    { v with data := data, rec1 := some r, rec2 := some r, use_ := .mapped r.lpn }

/-! ## Side areas (Table 15.3) and raw bytes (R337) -/

/-- The 8 bytes of a commit record. -/
def PageRec.bytes (r : PageRec) : Bytes := leBytes 8 (r.seq * 2 ^ 22 + r.k * 2 ^ 19 + r.lpn)

/-- A record copy with its CRC over record and data; where none passes its CRC the bytes are the given ones. -/
def recBytes (r : Option PageRec) (data other : Bytes) : Bytes :=
  match r with
  | some r => r.bytes ++ leBytes 4 (crc32c (r.bytes ++ fit 256 data)).toNat
  | none => fit 12 other

/-- The 284 bytes of a physical page, the side area after the data; `other` stands for bytes that no finished write has set. A retired
page's side area is zero (R338). -/
def NvmPage.bytes (v : NvmPage) (other : Bytes) : Bytes :=
  fit 256 v.data ++
    if v.use_ = .retired then zeros 28
    else recBytes v.rec1 v.data other ++ recBytes v.rec2 v.data (other.drop 12) ++ leBytes 4 v.cycles

/-! ## Mount (R335) -/

/-- The commit records whose copies pass on a page. -/
def NvmPage.valid (v : NvmPage) : Option PageRec := v.rec1 <|> v.rec2

/-- The pages that hold a valid copy, with its record. -/
def Nvm.copies (n : Nvm) : List (Nat × PageRec) := n.touched.filterMap fun e => e.2.valid.map fun r => (e.1, r)

/-- Q: the highest SEQ of any valid copy. -/
def Nvm.highSeq (n : Nvm) : Nat := (n.copies.map fun e => e.2.seq).foldl max 0

/-- Whether the group with SEQ `seq` and K `k` counts as complete. -/
def Nvm.complete (n : Nvm) (seq k : Nat) : Bool :=
  decide (seq + 4 ≤ n.highSeq) || ((n.copies.filter fun e => e.2.seq == seq && e.2.k == k).length == k + 1)

/-- Whether page `x` with record `r` is the current copy of its logical page: of a complete group, none later. -/
def Nvm.current (n : Nvm) (x : Nat) (r : PageRec) : Bool :=
  n.complete r.seq r.k && n.copies.all fun e => e.1 == x || e.2.lpn != r.lpn || !n.complete e.2.seq e.2.k || decide (e.2.seq < r.seq)

/-- The map and the pool as a mount finds them; the next SEQ is Q + 1. A page as it left Kalelmed stays where no copy replaces it, and
else joins the pool. -/
def Nvm.mount (n : Nvm) : Nvm :=
  let now := (n.copies.filter fun e => n.current e.1 e.2).map fun e => e.2.lpn
  let found (x : Nat) (v : NvmPage) : PageUse :=
    if v.use_ = .retired then .retired
    else match v.valid with
      | some r => if n.current x r then .mapped r.lpn else .free
      | none => match v.use_ with
        | .mapped l => if now.contains l then .free else .mapped l
        | _ => .free
  let pages : Tab (Option NvmPage) := n.pages.map fun e => (e.1, e.2.map fun v => { v with use_ := found e.1 v })
  { n with
    pages := now.foldl (fun t l => if (t.get none l).isNone then t.set none l (some {}) else t) pages
    nextSeq := max n.highSeq (if n.touched.isEmpty then n.nextSeq - 1 else 0) + 1 }

end Sys2Proof.Machine
end

