-- ==== Sys2Proof/Machine/Flags.lean ====
section
/-! DEFINITION. The register views: every register that BAR0 (17) or the cluster (14) shows, computed from the state. -/

namespace Sys2Proof.Machine

/-- A word packed from fields (value, low bit, width). -/
def pack (l : List (Nat × Nat × Nat)) : Word :=
  BitVec.ofNat 32 (l.foldl (fun acc f => acc + (f.1 % 2 ^ f.2.2) * 2 ^ f.2.1) 0)

/-- 1 for true. -/
def bit (b : Bool) : Nat := if b then 1 else 0

/-- A signed temperature as 8 bits. -/
def signed8 (t : Int) : Nat := (BitVec.ofInt 8 t).toNat

/-- Word `k` of a 64-bit register. -/
def wordOf (v : DWord) (k : Nat) : Word := BitVec.ofNat 32 (v.toNat / 2 ^ (32 * k))

/-! ## Numbers counted from the state -/

/-- Whether a job holds a scratch window (R63, R133). -/
def Job.holdsWindow (j : Job) : Bool := j.window.isSome

/-- Windows that slice `i`'s jobs hold on plate `p` (SLC_USE_WIN). -/
def State.winUsed (s : State) (p : Plate) (i : Nat) : Nat :=
  ((s.pl p).sl.jobs.filter fun j => j.holdsWindow && ringSlice j.ring == some i).length

/-- Cache lines slice `i` occupies on plate `p` (SLC_USE_CL). -/
def State.linesUsed (s : State) (p : Plate) (i : Nat) : Nat :=
  (((s.pl p).vlt.cache.filter fun e => e.slice == i).map CacheEntry.lines).sum

/-- Lines of slice `i` that cache handles hold (R64). -/
def State.linesHeld (s : State) (p : Plate) (i : Nat) : Nat :=
  (((s.pl p).vlt.cache.filter fun e => e.slice == i && e.handle.isSome).map CacheEntry.lines).sum

/-- Sum of a pooled quota over the non-FREE slices (R62). -/
def State.reserved (s : State) (p : Plate) (f : Quota → Nat) : Nat :=
  (((s.pl p).sl.impo.filter fun e => e.2.st != .free).map fun e => f e.2.quota).sum

/-- Non-FREE slices. -/
def State.sliceCount (s : State) (p : Plate) : Nat := ((s.pl p).sl.impo.filter fun e => e.2.st != .free).length

/-- Ledger entries that have reached their last generation and are FREE for good (R157, R168). -/
def State.ledgerDead (s : State) (p : Plate) : Nat :=
  ((s.pl p).vlt.ledger.filter fun e => e.2.st == .free && e.2.gen == 0xFFFFFFFF).length

/-- Pool totals less what is reserved (Table 3.4). -/
def State.poolLines (s : State) (p : Plate) : Nat := 524288 - s.reserved p Quota.lines
/-- Unreserved scratch windows. -/
def State.poolWindows (s : State) (p : Plate) : Nat := 6144 - s.reserved p Quota.windows
/-- Unreserved ledger entries that can still be used. -/
def State.poolLedger (s : State) (p : Plate) : Nat := 1048576 - s.ledgerDead p - s.reserved p Quota.ledger

/-- Occupied slots of slice `i` (R78). -/
def State.slotsUsed (s : State) (p : Plate) (i : Nat) : Nat :=
  ((s.pl p).vlt.slots.filter fun e => e.1 / 32 == i && e.2.st != .free).length

/-- Ledger entries of slice `i` in use (R78). -/
def State.ledgerUsed (s : State) (p : Plate) (i : Nat) : Nat :=
  ((s.pl p).vlt.ledger.filter fun e => e.2.st != .free && e.2.slice == i).length

/-- Alarms of the alarm page within the last 10,000 ms of operating time (R290). -/
def State.alarmWindow (s : State) (p : Plate) (drill : Bool) : Nat :=
  ((s.pl p).tmp.alarms.filter fun a => a.2 == drill && decide (s.optime p ≤ a.1 + 10000)).length

/-- Remaining grace in µs (FLT_STATE.REMAIN). -/
def State.graceLeft (s : State) (p : Plate) : Nat :=
  match (s.pl p).flt.graceAt with
  | some t => t - s.clock
  | none => 0

/-- Whether a vault wear state admits no further write (Table 15.5). -/
def Nvm.noWrite (n : Nvm) : Bool := n.state == 3

/-- Debug enables (Table 14.6): NRM_NI, NRM_INV, SEC_NI, SEC_INV in bits 0 to 3. -/
def State.debugEnables (s : State) (p : Plate) : BitVec 4 :=
  let lc := s.lifecycle p
  let f := (s.policy p).flags
  let dbg := lc == 0x5A
  let op := lc == 0x3C
  let inv := dbg || (op && f.getLsbD 2)
  let ni := dbg || (op && f.getLsbD 1)
  BitVec.ofNat 4 (bit ni + 2 * bit inv + 4 * bit dbg + 8 * bit dbg)

/-! ## The registers -/

/-- RING_STATE (02), and ADM_STATE with bits [3:2] reserved. -/
def ringState (r : Ring) (adm : Bool) : Word :=
  pack [(bit r.draining, 8, 1), (r.reason.toNat, 4, 4), (if adm then 0 else bit r.cancelBad, 3, 1),
    (if adm then 0 else bit r.fence.isSome, 2, 1), (bit r.faulted, 1, 1), (bit r.active, 0, 1)]

/-- Mode number of WIT_STATE.MODE. -/
def Mode.num : Mode → Nat
  | .paired => 0 | .partition => 1 | .sole => 2 | .resync => 3 | .yielded => 4 | .leaving => 5

/-- Sequencer state codes (R234). -/
def SeqSt.code : SeqSt → Nat
  | .idle => 0x00 | .clusterReset => 0x0F | .wait => 0x33 | .plateReset => 0x3C

/-- World liveness codes (PLT_MGMT). -/
def Live.num : Live → Nat
  | .running => 0 | .stalled => 1 | .restarting => 2 | .noImage => 3

/-- Slice state numbers (SLC_STATE). -/
def SliceSt.num : SliceSt → Nat
  | .free => 0 | .active => 1 | .draining => 2 | .moving => 3

/-- FLT_STATE (13). -/
def fltState (s : State) (p : Plate) : Word :=
  let f := (s.pl p).flt
  pack [(bit f.graceAt.isSome, 31, 1), (if f.graceAt.isSome then (if f.graceC then 2 else 1) else 0, 29, 2),
    (bit (f.react == .waitToken), 28, 1), (bit (f.react == .isolated), 27, 1), (s.graceLeft p, 0, 24)]

/-- FLT_FIRST (13). -/
def fltFirst (f : Faults) : Word :=
  match f.first with
  | some b => pack [(1, 31, 1), (b, 0, 6)]
  | none => 0

/-- WIT_STATE (09). -/
def witState (r : Pair) : Word :=
  pack [(r.epoch.toNat, 16, 16), (bit r.witErr, 7, 1), (bit r.stale, 6, 1), (bit r.fresh, 5, 1),
    (bit r.leavingSeen, 3, 1), (r.mode.num, 0, 3)]

/-- PLT_MGMT (14). -/
def pltMgmt (m : Mgmt) : Word :=
  pack [(m.sec.num, 30, 2), (m.nrm.num, 28, 2), (m.shed, 26, 2), (bit m.slotS, 25, 1), (bit m.slotN, 24, 1),
    (m.restarts, 16, 8), (m.queue.length, 0, 9)]

/-- PLT_GUTTER (09). -/
def pltGutter (r : Pair) : Word := pack [(r.misses, 16, 16), (bit r.lost, 8, 1), (r.links.toNat, 0, 2)]

/-- TMP_STATUS (12). -/
def tmpStatus (t : Tamper) : Word :=
  pack [(bit t.ko, 31, 1), (bit t.drill, 30, 1), (bit t.armed, 29, 1),
    (((List.range 8).map fun k => bit (t.sensors.get {} k).valid * 2 ^ k).sum, 16, 8)]

/-- TMP_CAUSE (12). -/
def tmpCause (t : Tamper) : Word := pack [(t.cause.code, 16, 8), (t.cause.by_, 8, 8), (t.cause.index, 0, 8)]

/-- TMP_DRILL (12). -/
def tmpDrill (t : Tamper) : Word :=
  pack [(bit t.drill, 31, 1), (bit t.hit, 30, 1), (t.drillSrc, 16, 8), (t.drillLat, 0, 16)]

/-- Most pulses any program needed in the last 1,000 ms (NVM_WEAR_MARGIN). -/
def pulseMax (n : Nvm) (now : Nat) : Nat :=
  ((n.pulses.filter fun e => decide (now < e.1 + 1000000)).map Prod.snd).foldl max 0

/-- NVM_STATUS (15). -/
def nvmStatus (n : Nvm) : Word :=
  pack [(n.state, 30, 2), (bit n.stopFull, 29, 1), (bit n.full, 28, 1), (bit n.clearing, 27, 1), (bit n.coalesce, 26, 1)]

/-- MRG_STATUS (11). -/
def mrgStatus (m : MrgSide) : Word :=
  pack [(bit m.fieldUp, 31, 1), (bit m.configured, 30, 1), (bit m.linkUp, 29, 1), (bit m.tick, 28, 1),
    (m.own.toNat, 24, 4), (m.other.toNat, 20, 4), (m.presence.toNat, 16, 4)]

/-- MRG_TAMPER (11): for each input EN, DISC, B and A, as the Margin holds them (log 35). -/
def mrgTamper (g : Margin) : Word :=
  if !g.powered then 0
  else pack ((List.range 4).map fun i =>
    let x := g.inputs.get {} i
    let on := g.configured && g.loops.getLsbD i
    (8 * bit on + 4 * bit (on && x.since.isSome) + 2 * bit (on && x.loopB != .ok) + bit (on && x.loopA != .ok), 4 * i, 4))

/-- LCS_STATE (10). -/
def lcsState (s : State) (p : Plate) : Word :=
  pack [(((List.range 8).map fun k => bit ((s.custody p).table.get {} k).active * 2 ^ k).sum, 8, 8),
    ((s.lifecycle p).toNat, 0, 8)]

/-- LCS_POLICY (10). -/
def lcsPolicy (s : State) (p : Plate) : Word :=
  let y := s.policy p
  pack [(y.flags.toNat, 24, 8), (y.localA, 16, 8), (y.mB, 8, 8), (y.mA, 0, 8)]

/-- TMB_NOW: µs since plate reset (16). -/
def tmbNow (s : State) (p : Plate) : DWord := BitVec.ofNat 64 (s.clock - (s.pl p).pow.resetAt)

/-- The sessions of plate `p` that have not expired (R243, R244). -/
def State.liveSessions (s : State) (p : Plate) : List Session :=
  (s.pl p).cus.sessions.filter fun x => decide (s.optime p < x.expiry)

/-- The plate status block, word at BAR0 offset `o` below 0x1000 (Table 17.3). -/
def plateWord (s : State) (p : Plate) (o : Nat) : Word :=
  let x := s.pl p
  match o with
  | 0x000 => wordOf (Config.plateId p) 0
  | 0x004 => wordOf (Config.plateId p) 1
  | 0x008 => pack [(x.pow.startMs, 16, 16), (x.pow.step, 8, 4), (p.num, 2, 1), (bit x.pow.serving, 1, 1),
      (bit x.pow.ready, 0, 1)]
  | 0x00C => 0x00000101
  | 0x010 => wordOf Config.serial 0
  | 0x014 => wordOf Config.serial 1
  | 0x018 => pack [(bit x.pow.avsErr, 31, 1), (x.pow.avsErrors, 16, 8), (x.pow.target, 0, 12)]
  | 0x200 => pack [(bit x.sl.hash, 8, 1), (x.sl.engines.toNat, 0, 8)]
  | 0x204 => pack [(p.num, 31, 1), (x.vlt.epoch, 0, 31)]
  | 0x210 => wordOf x.sl.lanes 0
  | 0x214 => wordOf x.sl.lanes 1
  | 0x218 => pack [((x.sl.jobs.filter fun j => j.holdsWindow && j.stage != .filling).length, 16, 13),
      ((x.sl.jobs.filter fun j => j.stage == .parked).length, 0, 13)]
  | 0x21C => BitVec.ofNat 32 x.sl.pkeTf
  | 0x300 => pack [(bit x.vlt.testRoot, 1, 1), (bit x.vlt.mounted, 0, 1)]
  | 0x304 => pack [(x.vlt.failed, 16, 16), (x.vlt.repaired, 0, 16)]
  | 0x500 => pack [(bit (x.rng.st == .halted), 31, 1), (x.rng.cause, 24, 4), (x.rng.cell, 16, 3),
      (x.rng.cells.toNat, 0, 8)]
  | 0x504 => x.rng.reseeds
  | 0x508 => pack [(x.rng.aptMax, 16, 10), (x.rng.rctMax, 0, 6)]
  | 0x600 => pltGutter x.pr
  | 0x604 => pack [(x.pr.diverge, 16, 16), (x.pr.reconcile, 0, 16)]
  | 0x608 => BitVec.ofNat 32 x.pr.scrubEnd
  | 0x60C => BitVec.ofNat 32 ((x.pr.scrubEnd % 2 ^ 48) / 2 ^ 32)
  | 0x610 => pack [(bit x.pr.token, 31, 1), (bit x.pr.fencing, 30, 1), (x.pr.seqResets, 16, 8),
      (x.pr.peerRecov, 8, 8), (x.pr.seqSt.code, 0, 8)]
  | 0x614 => pack [(x.pr.tbDiff, 16, 16), (x.pr.dt, 0, 8)]
  | 0x700 => lcsState s p
  | 0x704 => lcsPolicy s p
  | 0x708 => pack [((s.liveSessions p).length, 0, 5)]
  | 0x800 => mrgStatus x.mrg
  | 0x804 => pack [(x.mrg.dropped, 16, 16), (x.mrg.crcErr, 0, 16)]
  | 0x808 => mrgTamper s.margin
  | 0x80C => pack ((List.range 4).map fun i => (x.mrg.discCount.get 0 i, 8 * i, 8))
  | 0x810 => pack [(x.mrg.losses, 16, 16), (x.mrg.powerups, 0, 16)]
  | 0x900 => tmpStatus x.tmp
  | 0x904 => tmpCause x.tmp
  | 0x908 => pack [(x.tmp.mismatch, 16, 16), (x.tmp.lastSeg, 8, 8), (x.tmp.corrected, 0, 8)]
  | 0x90C => pack [(signed8 x.tmp.median, 16, 8), (signed8 x.tmp.maxTemp, 8, 8), (signed8 x.tmp.minTemp, 0, 8)]
  | 0x910 => wordOf x.tmp.volt 0
  | 0x914 => wordOf x.tmp.volt 1
  | 0x918 => pack [(x.tmp.alarmNew, 16, 8), (min 3 (s.alarmWindow p false), 8, 8), (x.tmp.lastSrc, 0, 8)]
  | 0x91C => tmpDrill x.tmp
  | 0xA00 => pltMgmt x.mgt
  | 0xA08 => BitVec.ofNat 32 x.mgt.verS
  | 0xA0C => BitVec.ofNat 32 x.mgt.verN
  | 0xB00 => nvmStatus x.nvm
  | 0xB04 => pack [(x.nvm.spares, 16, 13), (x.nvm.free, 0, 16)]
  | 0xB08 => pack [(100 - ceilDiv (100 * x.nvm.mostWorn) 1000000, 24, 8), (pulseMax x.nvm s.clock, 16, 4), (x.nvm.slow, 0, 16)]
  | 0xB0C => pack [(x.nvm.retLog, 16, 16), (x.nvm.retVault, 0, 16)]
  | 0xB10 => x.nvm.nextLog
  | 0xB14 => pack [(x.nvm.nextPos, 0, 18)]
  | 0xB18 => pack [(if x.nvm.stopFull then 0 else x.nvm.head, 0, 18)]
  | 0xB1C => pack [(x.nvm.lost, 16, 16), (x.nvm.lostFull, 0, 16)]
  | 0xB20 => BitVec.ofNat 32 (s.optime p)
  | 0xB24 => BitVec.ofNat 32 ((s.optime p % 2 ^ 48) / 2 ^ 32)
  | 0xB28 => x.nvm.pcycle
  | o =>
    if 0x400 ≤ o ∧ o < 0x500 then BitVec.ofNat 32 (jtabAt ((o - 0x400) / 4))
    else if 0x720 ≤ o ∧ o < 0x740 then BitVec.ofNat 32 (leAt x.cus.dbgNonce (o - 0x720) 4)
    else 0

/-- The fault block, word at offset `o` from 0x001_0000 (13). -/
def faultWord (s : State) (p : Plate) (o : Nat) : Word :=
  let f := (s.pl p).flt
  match o with
  | 0x00 => wordOf f.status 0
  | 0x04 => wordOf f.status 1
  | 0x08 => wordOf f.force 0
  | 0x0C => wordOf f.force 1
  | 0x10 => fltState s p
  | 0x14 => fltFirst f
  | 0x18 => pack [(f.graceMs, 0, 14)]
  | 0x1C => pack [(f.sEsc, 16, 16), (f.cReact, 0, 16)]
  | 0x20 => wordOf f.units 0
  | 0x24 => wordOf f.units 1
  | 0x28 => f.unitsCe.setWidth 32
  | 0x2C => f.irq
  | 0x30 => wordOf f.outEn 0
  | 0x34 => wordOf f.outEn 1
  | _ => 0

/-- SLC_PASID_x. -/
def pasidWord : Option (BitVec 20) → Word
  | some v => pack [(1, 31, 1), (v.toNat, 0, 20)]
  | none => 0

/-- Slice window of slice `i`, word at window offset `o`; a FREE slice reads 0 (R61). -/
def sliceWord (s : State) (p : Plate) (i o : Nat) : Word :=
  let e := s.impo p i
  let r := (s.pl p).sl.regs.get {} i
  if e.st = .free then 0 else
  match o with
  | 0x00 => pack [(e.home.num, 4, 1), (e.st.num, 0, 2)]
  | 0x04 => e.groups.setWidth 32
  | 0x08 => pasidWord e.pasidA
  | 0x0C => pasidWord e.pasidB
  | 0x10 => pack [(e.quota.windows, 16, 13), (e.quota.slots, 8, 6), (e.quota.rings, 0, 5)]
  | 0x14 => pack [(e.quota.lines, 0, 20)]
  | 0x18 => pack [(e.quota.ledger, 0, 21)]
  | 0x1C => pack [(s.linesUsed p i, 0, 20)]
  | 0x20 => pack [(s.winUsed p i, 0, 13)]
  | 0x24 => r.weight
  | 0x28 => r.ratePk
  | 0x2C => r.burstPk
  | 0x30 => r.rateCi
  | 0x34 => r.burstCi
  | 0x38 => r.rateRn
  | 0x3C => r.burstRn
  | 0x40 => wordOf r.db 0
  | 0x44 => wordOf r.db 1
  | 0x48 => wordOf r.pg 0
  | 0x4C => wordOf r.pg 1
  | _ => 0

/-- Meter bank entry `i`, u64 field `k`, under view `v` (Table 3.10). -/
def bankField (b : Bank) (v : Bool) (k : Nat) : DWord :=
  match v, k with
  | false, 0 => b.meter.work
  | false, 1 => b.meter.sealed
  | false, 2 => b.meter.opened
  | false, 3 => b.meter.macdig
  | false, 4 => b.meter.random
  | false, 5 => b.meter.jobs
  | false, 6 => BitVec.ofNat 64 (b.slots % 64 + (b.ledger % 2 ^ 24) * 2 ^ 16)
  | true, 0 => b.meter.done
  | true, 1 => b.meter.key
  | true, 2 => b.meter.refused
  | true, 3 => b.meter.host
  | true, 4 => b.meter.cancelled
  | true, 5 => b.meter.service
  | true, 6 => b.meter.ringFaults
  | _, 7 => b.seq.setWidth 64
  | _, _ => 0

/-- Bytes that a plate's link carries towards it in 1 ms, after line encoding (R35). -/
def Power.linkBytes (w : Power) : Nat :=
  if w.gen ≤ 2 then w.lanes * 250000 * w.gen else w.lanes * 8000000 * 2 ^ (w.gen - 3) * 128 / (130 * 8)

/-- Bytes that one doorbell read counts against that bandwidth (R35). -/
def doorbellBytes : Nat := 84

/-- The doorbell reads of plate `p` in the last 1 ms. -/
def recentPolls (s : State) (p : Plate) : List (Nat × Bool) := (s.pl p).sl.dbpLog.filter fun e => decide (s.clock < e.1 + 1000)

/-- DBP_LOAD.SHARE: the share of the link read bandwidth that doorbell reads took over the last 1 ms, in 0.01 %. -/
def pollShare (s : State) (p : Plate) : Nat :=
  doorbellBytes * (recentPolls s p).length * 10000 / (s.pl p).pow.linkBytes

/-- Timer-driven doorbell reads that 1 ms may hold: 2 % of the link read bandwidth (R35). -/
def Power.pollCap (w : Power) : Nat := w.linkBytes * 2 / (100 * doorbellBytes)

/-- A ring's set-up entry, word at entry offset `o`. -/
def ringWord (r : Ring) (o : Nat) : Word :=
  match o with
  | 0x00 => wordOf r.sq 0
  | 0x04 => wordOf r.sq 1
  | 0x08 => wordOf r.cq 0
  | 0x0C => wordOf r.cq 1
  | 0x10 => r.cfg
  | 0x14 => r.coal
  | 0x18 => ringState r false
  | 0x1C => r.fence.getD 0
  | _ => 0

/-- Whether plate `p` polls the doorbell line of slice `i`: its serving home, ACTIVE, a PASID bound, and a ring in service
(R34, R209). -/
def polled (s : State) (p : Plate) (i : Nat) : Bool :=
  s.homes p i && (s.impo p i).st == .active && (s.pasid p i).isSome &&
    (List.range 16).any fun r =>
      let g := s.ring p (.tenant i r)
      g.cfg.getLsbD 31 && g.active && !g.draining

/-- A read of any offset of BAR2: the nudge pages are write-only (R37). -/
def bar2Word (_ : State) (_ : Plate) (_ : Nat) : Word := 0

/-- The 32-bit word that a read of BAR0 offset `o` (4-byte aligned) returns on plate `p` (R366, R367). -/
def bar0Word (s : State) (p : Plate) (o : Nat) : Word :=
  let x := s.pl p
  if o < 0x1000 then plateWord s p o
  else if 0x10000 ≤ o ∧ o < 0x10038 then faultWord s p (o - 0x10000)
  else if o = 0x20000 then x.pow.tmbCfg
  else if o = 0x20004 then pack [(x.pow.corr.toNat, 16, 16), (bit x.pow.locked, 2, 1), (x.pow.source, 0, 2)]
  else if o = 0x20008 then wordOf (tmbNow s p) 0
  else if o = 0x2000C then x.pow.upper
  else if o = 0x20100 then x.sl.mtrView
  else if o = 0x20104 then x.sl.mtrSeq
  else if o = 0x20108 then BitVec.ofNat 32 x.sl.mtrTime
  else if o = 0x2010C then BitVec.ofNat 32 ((x.sl.mtrTime % 2 ^ 48) / 2 ^ 32)
  else if o = 0x30000 then x.sl.dbpBounds
  else if o = 0x30004 then
    pack [((x.sl.impo.filter fun e => polled s p e.1).length, 16, 16),
      (pollShare s p, 0, 16)]
  else if o = 0x40000 then wordOf x.pr.witAddr 0
  else if o = 0x40004 then wordOf x.pr.witAddr 1
  else if o = 0x40008 then x.pr.witCfg
  else if o = 0x4000C then witState x.pr
  else if o = 0x40010 then pack [(x.pr.takeovers, 16, 16), (x.pr.partitions, 0, 16)]
  else if o = 0x50000 then wordOf x.sl.adm.sq 0
  else if o = 0x50004 then wordOf x.sl.adm.sq 1
  else if o = 0x50008 then wordOf x.sl.adm.cq 0
  else if o = 0x5000C then wordOf x.sl.adm.cq 1
  else if o = 0x50010 then x.sl.adm.cfg
  else if o = 0x50014 then x.sl.admPi
  else if o = 0x50018 then x.sl.adm.low
  else if o = 0x5001C then ringState x.sl.adm true
  else if 0x100000 ≤ o ∧ o < 0x200000 then sliceWord s p ((o - 0x100000) / 0x100) ((o - 0x100000) % 0x100)
  else if o = 0x200100 then x.sl.bcastSel
  else if o = 0x200200 then (if x.vlt.mounted then pack [(s.poolLines p, 0, 20)] else 0)
  else if o = 0x200204 then (if x.vlt.mounted then pack [(s.poolWindows p, 0, 13)] else 0)
  else if o = 0x200208 then (if x.vlt.mounted then pack [(s.poolLedger p, 0, 21)] else 0)
  else if o = 0x20020C then (if x.vlt.mounted then pack [(4096 - s.sliceCount p, 0, 13)] else 0)
  else if 0x300000 ≤ o ∧ o < 0x340000 then
    wordOf (bankField (x.sl.bank.get {} ((o - 0x300000) / 0x40)) (x.sl.mtrView.getLsbD 0)
      (((o - 0x300000) % 0x40) / 8)) (((o - 0x300000) % 8) / 4)
  else if 0x400000 ≤ o ∧ o < 0x600000 then
    let k := (o - 0x400000) / 0x20
    if (s.impo p (k / 16)).st = .free then 0 else ringWord (x.sl.rings.get {} k) ((o - 0x400000) % 0x20)
  else 0

/-- Word `k` of an MSI-X table entry. -/
def msixEntryWord (e : DWord × Word × Bool) (k : Nat) : Word :=
  match k with
  | 0 => wordOf e.1 0
  | 1 => wordOf e.1 1
  | 2 => e.2.1
  | _ => if e.2.2 then 1 else 0

/-- The 32-bit word that a read of BAR4 offset `o` returns on plate `p`: the MSI-X table, then the PBA (R365, Table 17.1). -/
def bar4Word (s : State) (p : Plate) (o : Nat) : Word :=
  let w := (s.pl p).pow
  if o < 0x8000 then msixEntryWord (w.msix.get (0, 0, true) (o / 16)) (o % 16 / 4)
  else if o < 0x8100 then
    pack (((List.range 32).filter fun k => w.pba.contains (8 * (o - 0x8000) + k)).map fun k => (1, k, 1))
  else 0

/-- What a host read of a BAR returns (R366, R368): naturally aligned reads of 4 or 8 bytes; any other reads zero. An 8-byte
read of TMB_NOW returns one value. -/
def barRead (s : State) (p : Plate) (bar offset size : Nat) : DWord :=
  let word (o : Nat) : Word := match bar with
    | 0 => bar0Word s p o
    | 2 => bar2Word s p o
    | 4 => bar4Word s p o
    | _ => 0
  if size = 4 ∧ offset % 4 = 0 then (word offset).setWidth 64
  else if size = 8 ∧ offset % 8 = 0 then
    if bar = 0 ∧ offset = 0x20008 then tmbNow s p else word (offset + 4) ++ word offset
  else 0

/-- World control, word at WLD + `o` (14). -/
def wldWord (s : State) (p : Plate) (o : Nat) : Word :=
  let m := (s.pl p).mgt
  match o with
  | 0x000 => pack [(m.halted.toNat, 4, 4), (m.world.toNat, 0, 4)]
  | 0x008 => pack [(m.wmSram, 0, 9)]
  | 0x00C => pack [(m.wmLpddr, 0, 17)]
  | 0x010 => m.own.setWidth 32
  | 0x014 => (s.debugEnables p).setWidth 32
  | o =>
    if 0x040 ≤ o ∧ o < 0x060 then BitVec.ofNat 32 (leAt m.measS (o - 0x040) 4)
    else if 0x060 ≤ o ∧ o < 0x080 then BitVec.ofNat 32 (leAt m.measN (o - 0x060) 4)
    else 0

/-- The event record of 128 bytes (Table 15.8). -/
def recordBytes (p : Plate) (r : Record) : Bytes :=
  let b := leBytes 4 r.seq.toNat ++ leBytes 1 p.num ++ leBytes 1 r.profile ++ leBytes 2 r.trigger.toNat ++
    leBytes 6 r.time ++ leBytes 2 (bit r.drill + 16 * r.merged) ++ leBytes 4 r.pcycle.toNat ++
    leBytes 4 r.detail.toNat ++ leBytes 1 r.values.length ++ zeros 3 ++
    fit 96 (r.values.map fun v => leBytes 4 v.toNat).flatten
  b ++ leBytes 4 (crc32c b).toNat

/-- The page of the log that physical page `y` of its partition holds; none for a spare, or a page that is retired. -/
def Nvm.logPageAt (n : Nvm) (y : Nat) : Option Nat :=
  match n.logMap.find? fun e => e.2 == some y with
  | some e => some e.1
  | none => if y < 126976 && (n.logMap.get none y).isNone && !n.bad.contains (393216 + y) then some y else none

/-- The 256 bytes of page `l` of the log: records 2 `l` and 2 `l` + 1 as they were written (R342); where none stands, `other`. -/
def Nvm.logPageBytes (n : Nvm) (p : Plate) (l : Nat) (other : Bytes) : Bytes :=
  let half (k : Nat) : Bytes := match n.log.find? fun e => e.1 == 2 * l + k with
    | some e => recordBytes p e.2
    | none => cut other (128 * k) 128
  half 0 ++ half 1

/-- The 284 bytes of physical page `x`, counted through the vault, the log and the firmware (R337, log 17): a page of the vault that a
group has touched as its writes left it, a page of the log with its records; of the others, and of side areas that the log and the
firmware do not have, free bytes. -/
def State.rawPage (s : State) (p : Plate) (x : Nat) : Bytes :=
  let n := (s.pl p).nvm
  let other := fit 284 (Config.rawPage p x n.nextSeq n.nextLog.toNat s.clock)
  if 393216 ≤ x ∧ x < 524288 then
    match n.logPageAt (x - 393216) with
    | some l => n.logPageBytes p l other ++ other.drop 256
    | none => other
  else match n.pages.get none x with
  | some v => v.bytes (other.drop 256)
  | none => other

/-- A byte of the NVM_RAW window at WLD + 0x400 + `k`: data only in DEBUG (R337). -/
def nvmRawByte (s : State) (p : Plate) (k : Nat) : Byte :=
  if s.lifecycle p = 0x5A then (s.rawPage p (s.pl p).nvm.raw.toNat).getD k 0 else 0

/-! ## FAULT_OUT# (R309) -/

/-- Whether plate `p` pulls FAULT_OUT# low: an enabled fault, reset or a start-up that is not at READY yet, or its lifecycle. -/
def State.faultOut (s : State) (p : Plate) : Bool :=
  let x := s.pl p
  x.flt.status &&& x.flt.outEn != 0 || !x.pow.ready || s.lifecycle p == 0x55 || s.lifecycle p == 0x66

/-- FAULT_OUT# brought to its level. -/
def State.refreshOut (s : State) (p : Plate) : State := s.updPow p fun x => { x with outLow := s.faultOut p }

end Sys2Proof.Machine
end

