-- ==== Sys2Proof/Machine/Recorder.lean ====
section
/-! DEFINITION. The event recorder (15, R342 to R347): profiles, snapshots, staging, the log and its windows. -/

namespace Sys2Proof.Machine

/-- The 12 core words of profiles 0 to 31, as BAR0 offsets (R343). -/
def coreOffsets : List Nat :=
  [0x10000, 0x10004, 0x10010, 0x10014, 0xA00, 0x4000C, 0x600, 0x900, 0x90C, 0x910, 0x914, 0xB00]

/-- The registers each profile adds (Table 15.10). -/
def profileAdds : Nat → List Nat
  | 1 => [0x10020, 0x10024, 0x10028, 0x1001C, 0x614, 0x804]
  | 2 => [0x10020, 0x10024, 0x10028, 0x210, 0x214, 0x200, 0x500, 0x508, 0x218, 0x21C, 0x800, 0x918]
  | 3 => [0x904, 0x908, 0x918, 0x91C, 0x800, 0x808, 0x810, 0x700]
  | 4 => [0x808, 0x80C, 0x810, 0x908]
  | 5 => [0xB04, 0xB08, 0xB0C]
  | 6 => [0x304, 0x604, 0x608, 0x60C]
  | 8 => [0x700, 0x704]
  | 9 => [0x40010, 0x610, 0x614, 0x604]
  | _ => []

/-- The values a profile captures on plate `p`: the core and its additions, or the secure world's list for profiles
32 to 63 (R343). -/
def snapshot (s : State) (p : Plate) (profile : Nat) : List Word :=
  if profile < 32 then (coreOffsets ++ profileAdds profile).map (bar0Word s p)
  else ((s.pl p).nvm.profiles.get [] profile).map (bar0Word s p)

/-- Whether a trigger's record is a priority record (Table 15.9). -/
def triggerPriority (t : Nat) : Bool :=
  t == 0x0002 || decide (0x0118 ≤ t ∧ t ≤ 0x0129) || t == 0x0200 || t == 0x0300 ||
  decide (0x0301 ≤ t ∧ t ≤ 0x0303) || t == 0x0500 || t == 0x0600 || t == 0x0601

/-- Whether Table 15.9 gives the trigger this profile. -/
def triggerProfile (t profile : Nat) : Bool :=
  if t == 0x0001 || t == 0x0002 then profile == 0
  else if decide (0x0100 ≤ t ∧ t ≤ 0x0129) then
    profile == (if t < 0x0118 then 1 else if t < 0x0120 then 2 else 3)
  else if t == 0x0140 then profile == 1
  else if decide (0x0200 ≤ t ∧ t ≤ 0x0203) then profile == 3
  else if t == 0x0210 || t == 0x0211 then profile == 4
  else if decide (0x0300 ≤ t ∧ t ≤ 0x0303) then profile == 5
  else if decide (0x0310 ≤ t ∧ t ≤ 0x0313) then profile == 6
  else if t == 0x0400 then profile == 7
  else if t == 0x0500 then profile == 8
  else if decide (0x0510 ≤ t ∧ t ≤ 0x0514) then profile == 9
  else decide (0x8000 ≤ t ∧ 32 ≤ profile ∧ profile < 64)

/-- The record a trigger captures; its sequence number is given when it is written (R345). -/
def capture (s : State) (p : Plate) (trigger profile : Nat) (detail : Word) : Record :=
  { profile := profile, trigger := BitVec.ofNat 16 trigger, time := s.optime p, drill := (s.pl p).tmp.drill,
    pcycle := (s.pl p).nvm.pcycle, detail := detail, values := snapshot s p profile }

/-- Whether a staged record merges one like `r` (R345). -/
def mergesWith (r : Record) (e : Record × Nat) (now : Nat) : Bool :=
  e.1.trigger == r.trigger && e.1.detail == r.detail && decide (now < e.2 + 1000000)

/-- The first staged record like `r` with one more merged occurrence (12 bits, saturating). -/
def mergeInto (r : Record) (now : Nat) : List (Record × Nat) → List (Record × Nat)
  | [] => []
  | e :: t =>
    if mergesWith r e now then ({ e.1 with merged := satAdd 12 e.1.merged 1 }, e.2) :: t else e :: mergeInto r now t

/-- A trigger captures its profile and its record is staged: a priority record in the recorder's own buffer, an ordinary
one in LPDDR; at shedding level 2 an ordinary record equal to one staged within 1,000 ms is merged into it (R344, R345).
A plate without power records nothing. -/
def State.record (s : State) (p : Plate) (trigger profile : Nat) (detail : Word) : State :=
  let r := capture s p trigger profile detail
  if (s.pl p).pow.phase = .off then s
  else if triggerPriority trigger then s.updNvm p fun n => { n with priority := n.priority ++ [r] }
  else if (s.pl p).nvm.coalesce && (s.pl p).nvm.staged.any (mergesWith r · s.clock) then
    s.updNvm p fun n => { n with staged := mergeInto r s.clock n.staged }
  else s.updNvm p fun n => { n with staged := n.staged ++ [(r, s.clock)] }

/-- The position after `pos` (R346). -/
def Nvm.turn (n : Nvm) (pos : Nat) : Nat :=
  if n.stopFull then pos + 1 else if pos + 1 > 253951 then n.head else pos + 1

/-- The first position from `pos` on whose page is not gone (R340). -/
def Nvm.skip (n : Nvm) : Nat → Nat → Nat
  | 0, pos => pos
  | fuel + 1, pos => if n.gone.contains (pos / 2) then n.skip fuel (n.turn pos) else pos

/-- The position that follows `pos`: the positions of a page that is gone are skipped (R340, R346). -/
def Nvm.after (n : Nvm) (pos : Nat) : Nat := n.skip (2 * n.gone.length + 1) (n.turn pos)

/-- The record written at the next position with the next sequence number. -/
def Nvm.put (n : Nvm) (r : Record) : Nvm :=
  { n with
    log := n.log.set {} n.nextPos { r with seq := n.nextLog }
    nextLog := n.nextLog + 1
    nextPos := n.after n.nextPos
    inWindow := n.inWindow + 1 }

/-- An OVERFLOW record (trigger 0x0600); it takes no snapshot. -/
def overflowRecord (s : State) (p : Plate) : Record :=
  { profile := 0, trigger := 0x0600, time := s.optime p, drill := (s.pl p).tmp.drill, pcycle := (s.pl p).nvm.pcycle,
    detail := BitVec.ofNat 32 (s.pl p).nvm.dropWin }

/-- A log in stop-when-full mode that has come to its last position takes the record 0x0600 there and is full (R346). -/
def State.fillLog (s : State) (p : Plate) : State :=
  let n := (s.pl p).nvm
  if n.stopFull && !n.full && decide (253951 ≤ n.nextPos) then
    s.updNvm p fun n => if n.nextPos = 253951 then { n.put (overflowRecord s p) with full := true } else { n with full := true }
  else s

/-- A record is written. -/
def State.putLog (s : State) (p : Plate) (r : Record) : State := (s.updNvm p fun n => n.put r).fillLog p

/-- The records that a window admits: 999 with priority, 990 without (R345). -/
def windowLimit (priority : Bool) : Nat := if priority then 999 else 990

/-- A record reaches the log, under the window limit of R345 and the mode of R346. -/
def State.writeLog (s : State) (p : Plate) (r : Record) (priority : Bool) : State :=
  let n := (s.pl p).nvm
  if n.full then s.updNvm p fun n => { n with lostFull := satAdd 16 n.lostFull 1 }
  else if windowLimit priority ≤ n.inWindow then
    s.updNvm p fun n => { n with lost := satAdd 16 n.lost 1, dropWin := n.dropWin + 1 }
  else s.putLog p r

/-- A 1,000 ms window of operating time has ended: OVERFLOW is written if any record was dropped (R345). -/
def State.rollWindow (s : State) (p : Plate) : State :=
  if s.optime p / 1000 ≤ (s.pl p).nvm.winStart then s
  else
    let s := if (s.pl p).nvm.dropWin = 0 then s
      else if (s.pl p).nvm.full then s.updNvm p fun n => { n with lostFull := satAdd 16 n.lostFull 1 }
      else s.putLog p (overflowRecord s p)
    s.updNvm p fun n => { n with winStart := s.optime p / 1000, inWindow := 0, dropWin := 0 }

/-! ## The commands -/

/-- EVENT_RECORD (R343): a trigger that Table 15.9 gives this profile is captured and staged. -/
def execEventRecord (p : Plate) (profile : Nat) (trigger : BitVec 16) (detail : Word) (s : State) :
    Host.Outcome State Fault Refusal :=
  .next (if triggerProfile trigger.toNat profile then s.record p trigger.toNat profile detail else s)

/-- LOG_WINDOW_END (R345). -/
def execLogWindowEnd (p : Plate) (s : State) : Host.Outcome State Fault Refusal := .next (s.rollWindow p)

end Sys2Proof.Machine
end

