-- ==== Sys2Proof/Machine/Posting.lean ====
section
/-! DEFINITION. Posting: MSI-X messages, completion records, the consumer index, progress lines, interrupts, meters and
RING_FAULT records (02 R29 to R31, R41 to R48; 03 R76). -/

namespace Sys2Proof.Machine

/-! ## MSI-X (R365) -/

/-- Vector `v` of plate `p`: address, data, mask bit. -/
def State.msixEntry (s : State) (p : Plate) (v : Nat) : DWord × Word × Bool := (s.pl p).pow.msix.get (0, 0, true) v

/-- Plate `p` sends vector `v`; while it or the function is masked the message stays pending in the PBA. -/
def State.sendMsix (s : State) (p : Plate) (v : Nat) : State :=
  if (s.msixEntry p v).2.2 || (s.pl p).pow.fnMask then
    s.updPow p fun x => { x with pba := if x.pba.contains v then x.pba else x.pba ++ [v] }
  else s.emit (.msix p v)

/-- `k` messages of one vector. -/
def State.sendMsixN (s : State) (p : Plate) (v : Nat) : Nat → State
  | 0 => s
  | k + 1 => (s.sendMsix p v).sendMsixN p v k

/-! ## Fields of a ring -/

/-- Entries of a ring (R29). -/
def Ring.size (r : Ring) : Nat := 2 ^ (r.cfg.toNat % 32)
/-- RING_CFG.ENABLE. -/
def Ring.enabled (r : Ring) : Bool := r.cfg.getLsbD 31
/-- RING_CFG.VECTOR. -/
def Ring.vector (r : Ring) : Nat := (r.cfg.toNat / 2 ^ 16) % 2 ^ 11
/-- RING_CFG.IRQ_MODE, 3 treated as 0. -/
def Ring.irqMode (r : Ring) : Nat := let m := (r.cfg.toNat / 2 ^ 8) % 4; if m = 3 then 0 else m
/-- RING_COAL.COAL_CNT. -/
def Ring.coalCnt (r : Ring) : Nat := (r.coal.toNat / 2 ^ 8) % 256
/-- RING_COAL.COAL_US. -/
def Ring.coalUs (r : Ring) : Nat := r.coal.toNat % 256

/-- The difference of two indices modulo 2^32 (Table 2.4). -/
def dist (a b : Word) : Nat := (a - b).toNat

/-- Whether an armed fence of the ring covers index `i` (R49). -/
def Ring.covers (r : Ring) (i : Word) : Bool :=
  match r.fence with
  | some f => decide (dist i r.low < dist f r.low)
  | none => false

/-- Host address of completion entry of record number `n` (R30). -/
def Ring.cqEntry (r : Ring) (n : Word) : DWord := r.cq + BitVec.ofNat 64 ((n.toNat % r.size) * 32)

/-- Host address of the submission entry of descriptor `i` (R30). -/
def Ring.sqEntry (r : Ring) (i : Word) : DWord := r.sq + BitVec.ofNat 64 ((i.toNat % r.size) * 64)

/-- The phase bit of record number `n` (R30). -/
def Ring.phase (r : Ring) (n : Word) : Nat := if (n.toNat / r.size) % 2 = 0 then 1 else 0

/-- The consumer index moved over every posted descriptor (R31), and the records still above it. -/
def advanceLow : Nat → Word → List (Word × Word) → Word × List (Word × Word)
  | 0, l, ps => (l, ps)
  | k + 1, l, ps =>
    if ps.any fun e => e.1 == l then advanceLow k (l + 1) (ps.filter fun e => e.1 != l) else (l, ps)

/-- The ring after descriptor `i` received record number `n`: L advances, and an armed fence that L has reached is
cleared (R31, R49). -/
def Ring.posted1 (r : Ring) (i n : Word) : Ring :=
  let (l, ps) := advanceLow (r.posted.length + 1) r.low (r.posted ++ [(i, n)])
  { r with
    low := l
    posted := ps
    fence := match r.fence with
      | some f => if dist f r.low ≤ dist l r.low then none else some f
      | none => none
    peerF := match r.peerF with
      | some f => if dist f r.low ≤ dist l r.low then none else some f
      | none => none }

/-! ## Interrupts and progress lines -/

/-- Messages a ring owes now (R45). With COAL_CNT 0 or 1 and COAL_US set, R45 sends a message at once for the one record it
counts, while the register table says that COAL_CNT 1 is no count coalescing: here the message waits for COAL_US (DESIGN CHOICE,
log 138). -/
def Ring.due (r : Ring) : Nat :=
  if r.coalCnt ≤ 1 ∧ r.coalUs = 0 then r.irqCount
  else if 1 < r.coalCnt ∧ r.coalCnt ≤ r.irqCount then 1
  else 0

/-- The messages a ring owes are sent on plate `p`'s function. -/
def State.flushRing (s : State) (p : Plate) (q : RingRef) : State :=
  let r := s.ring p q
  if r.due = 0 then s
  else (s.updRing p q fun r => { r with irqCount := 0, irqSince := none }).sendMsixN p r.vector r.due

/-- The 64 bytes of slice `i`'s progress line (R29). -/
def progressBytes (s : State) (p : Plate) (i : Nat) : Bytes :=
  ((List.range 16).map fun r => leBytes 4 (s.ring p (.tenant i r)).low.toNat).flatten

/-- Whether plate `p` may write for its slices and its admin ring: not in reset or yielded, and, short of a knockout, not
leaving or isolated (R218, Table 13.2 step 3, R297). -/
def State.mayWrite (s : State) (p : Plate) : Bool :=
  let x := s.pl p
  x.pow.phase == .running && x.pr.mode != .yielded && (x.tmp.ko || (x.pr.mode != .leaving && x.flt.react != .isolated))

/-- With ATS enabled plate `p` requests the translation of a page that it does not hold yet (Table 2.1, R25). -/
def State.translate (s : State) (p : Plate) (pasid : Option (BitVec 20)) (addr : DWord) : State :=
  let x := (pasid, addr.toNat / 4096)
  if (s.pl p).pow.cfg.ats && !(s.pl p).pow.atc.contains x then
    (s.updPow p fun w => { w with atc := w.atc ++ [x] }).emit (.translate p pasid x.2)
  else s

/-- Whether a write of `n` bytes under a PASID touches a page whose translation the host refuses. -/
def Power.refuses (w : Power) (pasid : Option (BitVec 20)) (addr : DWord) (n : Nat) : Bool :=
  w.cfg.ats && w.denied.any fun e => e.1 == pasid && decide (addr.toNat / 4096 ≤ e.2 ∧ e.2 * 4096 < addr.toNat + n)

/-- The outcome of a job as its writes allow it: DMA_FAULT where the translation of one of them fails (R25). -/
def State.translated (s : State) (p : Plate) (q : RingRef) (d : Option Desc) (r : Result) : Result :=
  let tag := match q with
    | .tenant i _ => s.pasid p i
    | .admin => none
  let data := if r.status = .ok then r.writes.map fun w => (w.1, w.2.length) else []
  let zero := match d with
    | some d => if (r.status == .authFail || r.zeroed) && d.outCap != 0 then [(d.outAddr, d.outCap.toNat)] else []
    | none => []
  if (data ++ zero).any fun w => (s.pl p).pow.refuses tag w.1 w.2 then { status := .dmaFault } else r

/-- A posted write of slice `i` by plate `p`, with relaxed ordering where `relaxed`; without a PASID binding none is issued
(R24, R43). -/
def State.sliceWrite (s : State) (p : Plate) (i : Nat) (addr : DWord) (data : Bytes) (relaxed : Bool) : State :=
  match s.pasid p i with
  | some v => if s.mayWrite p then (s.translate p (some v) addr).emit (.write p (some v) addr data relaxed) else s
  | none => s

/-- Whether plate `p` can reach the host memory of a ring: a slice needs a PASID on its function (R24, R375). -/
def State.reaches (s : State) (p : Plate) : RingRef → Bool
  | .tenant i _ => (s.pasid p i).isSome
  | .admin => true

/-- Plate `p` writes slice `i`'s progress line, and then the messages that waited for it (R43 to R45). -/
def State.writeProgress (s : State) (p : Plate) (i : Nat) : State :=
  let s := s.sliceWrite p i ((s.pl p).sl.regs.get {} i).pg (progressBytes s p i) false
  let s := s.updSl p fun x => { x with progress := x.progress.filter (· != i) }
  s.each (List.range 16) fun s r => s.flushRing p (.tenant i r)

/-- A record of a ring has been written: whether it asks for an interrupt (R45; every admin record, 02). -/
def wantsIrq (q : RingRef) (r : Ring) (flagged : Bool) : Bool :=
  match q with
  | .admin => true
  | .tenant _ _ => r.irqMode == 1 || (r.irqMode == 2 && flagged)

/-- The interrupt count of a ring after one more qualifying record. -/
def Ring.countIrq (r : Ring) (want : Bool) (now : Nat) : Ring :=
  if want then { r with irqCount := r.irqCount + 1, irqSince := some (r.irqSince.getD now) } else r

/-- The steps after a record: progress line if L advanced, then the message (R43). In a batch the line is left to
PROGRESS_LINE_WRITE (R44, log 12). -/
def State.afterRecord (s : State) (p : Plate) (q : RingRef) (advanced batch : Bool) : State :=
  match q with
  | .admin => s.flushRing p .admin
  | .tenant i _ =>
    if advanced && batch then
      s.updSl p fun x => { x with progress := if x.progress.contains i then x.progress else x.progress ++ [i] }
    else if advanced then s.writeProgress p i
    else if (s.pl p).sl.progress.contains i then s
    else s.flushRing p q

/-! ## Meters (R76, Table 3.9) -/

/-- The live set after a completion. -/
def Meter.add (m : Meter) (d : Option Desc) (r : Result) : Meter :=
  let n := BitVec.ofNat 64 (match d with
    | some d => d.inLen.toNat + d.aadLen.toNat
    | none => 0)
  let op := (d.map Desc.op).getD 0
  let ok := r.status == .ok
  let done := ok || r.status == .authFail
  let one (b : Bool) : DWord := if b then 1 else 0
  let c := r.status.cls
  { m with
    work := m.work + (if done then BitVec.ofNat 64 r.work else 0)
    sealed := m.sealed + (if ok && (op == 0x10 || op == 0x12 || op == 0x16) then n else 0)
    opened := m.opened + (if done && (op == 0x11 || op == 0x13 || op == 0x17) then n else 0)
    macdig := m.macdig + (if done && (op == 0x14 || op == 0x15 || op == 0x18) then n else 0)
    random := m.random + (if ok && op == 0x40 then BitVec.ofNat 64 r.outLen else 0)
    jobs := m.jobs + 1
    done := m.done + one (c == .done)
    key := m.key + one (c == .key)
    refused := m.refused + one (c == .refused)
    host := m.host + one (c == .host)
    cancelled := m.cancelled + one (c == .cancelled)
    service := m.service + one (c == .service) }

/-- The live set of a ring's slice on plate `p` changed by `f`; the admin ring is not metered. -/
def State.meter (s : State) (p : Plate) (q : RingRef) (f : Meter → Meter) : State :=
  match q with
  | .tenant i _ => s.updSl p fun x => { x with live := x.live.mod {} i f }
  | .admin => s

/-! ## Completion records (R41, Table 2.8) -/

/-- The 32 bytes of a completion record. -/
def recordCpl (cookie : DWord) (st : Byte) (plate flags outLen : Nat) (info index info2 : Word) (phase : Nat) : Bytes :=
  leBytes 8 cookie.toNat ++ leBytes 1 st.toNat ++ leBytes 1 plate ++ leBytes 2 flags ++ leBytes 4 outLen ++
  leBytes 4 info.toNat ++ leBytes 4 index.toNat ++ leBytes 4 info2.toNat ++ zeros 3 ++ leBytes 1 phase

/-- A write of a ring: under its slice's PASID, or untagged for the admin ring (R24). -/
def State.ringWrite (s : State) (p : Plate) (q : RingRef) (addr : DWord) (data : Bytes) (relaxed : Bool) : State :=
  match q with
  | .tenant i _ => s.sliceWrite p i addr data relaxed
  | .admin => if s.mayWrite p then (s.translate p none addr).emit (.write p none addr data relaxed) else s

/-- out_len of a completion (R42). -/
def cplOutLen (r : Result) : Nat := if r.status = .ok ∨ r.status = .outSmall then r.outLen else 0

/-- Whether the output area is filled with zeros (R42, R100, R101). -/
def cplZeroed (r : Result) : Bool := r.status == .authFail || r.zeroed

/-- flags of a completion record (Table 2.8). -/
def cplFlags (parked moved : Bool) (r : Result) : Nat := bit parked + 2 * bit (cplZeroed r) + 4 * bit moved

/-- Plate `p` posts the completion of descriptor `i` of ring `q` with outcome `r` in the order of R43: data writes, which may be
relaxed, then the record and the progress line, which are not. `d` is the descriptor, none where it could not be read. -/
def State.postAs (s : State) (p : Plate) (q : RingRef) (i : Word) (d : Option Desc) (r : Result)
    (parked moved batch : Bool) : State :=
  let s := if r.status = .ok then s.each r.writes fun s w => s.ringWrite p q w.1 w.2 true else s
  let s := match d with
    | some d => if cplZeroed r && d.outCap != 0 then s.ringWrite p q d.outAddr (zeros d.outCap.toNat) true else s
    | none => s
  let g := s.ring p q
  let s := s.ringWrite p q (g.cqEntry g.count) (recordCpl ((d.map Desc.cookie).getD 0) r.status.code p.num
    (cplFlags parked moved r) (cplOutLen r) r.info i r.info2 (g.phase g.count)) false
  let s := s.meter p q fun m => m.add d r
  let want := wantsIrq q g ((d.map Desc.irq).getD false)
  let s := s.updRing p q fun g => { (g.posted1 i g.count).countIrq want s.clock with count := g.count + 1 }
  s.afterRecord p q ((s.ring p q).low != g.low) batch

/-- As `State.postAs`; a write whose translation fails makes the outcome DMA_FAULT (R25). -/
def State.post (s : State) (p : Plate) (q : RingRef) (i : Word) (d : Option Desc) (r : Result)
    (parked moved batch : Bool) : State :=
  s.postAs p q i d (s.translated p q d r) parked moved batch

/-- A job completes on plate `p`: its completion is posted and the job is gone. On a plate that cannot reach its slice's memory
nothing is posted and its outcome stays open (R24, R33, R375). -/
def State.finish (s : State) (p : Plate) (j : Job) (r : Result) : State :=
  if s.reaches p j.ring then
    (s.post p j.ring j.index (some j.desc) r j.wasParked (j.fetchedBy != p) false).dropJob p j.ring j.index
  else s

/-- A job completes with a status and nothing else. -/
def State.fail (s : State) (p : Plate) (j : Job) (st : Status) : State := s.finish p j { status := st }

/-- As `State.finish`, in a batch. -/
def State.finishBatch (s : State) (p : Plate) (j : Job) (r : Result) : State :=
  if s.reaches p j.ring then
    (s.post p j.ring j.index (some j.desc) r j.wasParked (j.fetchedBy != p) true).dropJob p j.ring j.index
  else s

/-- Whether a read is one of a ring's descriptors. -/
def descriptorRead (q : RingRef) : ReadKind → Bool
  | .descriptor r _ => r == q
  | _ => false

/-- A RING_FAULT record: reason and the producer index read, or F (R48, Table 2.10). Fetching stops: what the reads under way
return is not used. -/
def State.ringFault (s : State) (p : Plate) (q : RingRef) (reason : Nat) (pIndex : Word) : State :=
  let g := s.ring p q
  let s := s.ringWrite p q (g.cqEntry g.count) (recordCpl 0 Status.ringFault.code p.num 0 0 (BitVec.ofNat 32 reason)
    pIndex 0 (g.phase g.count)) false
  let s := s.meter p q fun m => { m with ringFaults := m.ringFaults + 1 }
  let s := s.updRing p q fun g =>
    { g.countIrq (wantsIrq q g true) s.clock with
      count := g.count + 1, faulted := true, reason := BitVec.ofNat 4 reason }
  let s := s.updSl p fun x => { x with reads := x.reads.filter fun e => !descriptorRead q e.1 }
  s.afterRecord p q false false

/-! ## The commands -/

/-- PROGRESS_LINE_WRITE (R44): the line of a slice whose records are posted and not yet counted. -/
def execProgressLineWrite (p : Plate) (i : Nat) (s : State) : Host.Outcome State Fault Refusal :=
  .next (if (s.pl p).sl.progress.contains i then s.writeProgress p i else s)

/-- IRQ_COAL_TIMEOUT (R45): COAL_US µs have passed since the first record not yet covered by a message; a pending
progress line goes first. -/
def execIrqCoalTimeout (p : Plate) (i r : Nat) (s : State) : Host.Outcome State Fault Refusal :=
  let g := s.ring p (.tenant i r)
  match g.irqSince with
  | some t =>
    if g.coalUs != 0 && s.past t g.coalUs && g.irqCount != 0 then
      let s := if (s.pl p).sl.progress.contains i then s.writeProgress p i else s
      if (s.ring p (.tenant i r)).irqCount = 0 then .next s
      else
        .next ((s.updRing p (.tenant i r) fun g => { g with irqCount := 0, irqSince := none }).sendMsix p g.vector)
    else .next s
  | none => .next s

end Sys2Proof.Machine
end

