-- ==== Sys2Proof/Machine/Collector.lean ====
section
/-! DEFINITION. The fault collector: classes, latching, the grace timer's start, withdrawn units, and tamper sources up to
the KNOCKOUT line (13 R300 to R306, 12 R288, R291, R299). -/

namespace Sys2Proof.Machine

/-! ## Sources (Table 13.1) -/

/-- Class S. -/
def isClassS (k : Nat) : Bool := decide (k ≤ 16)
/-- Class C. -/
def isClassC (k : Nat) : Bool := decide (24 ≤ k ∧ k ≤ 30)
/-- Class T. -/
def isClassT (k : Nat) : Bool := decide (32 ≤ k ∧ k ≤ 41)
/-- Every bit of class S. -/
def maskS : DWord := 0x1FFFF
/-- Every bit of class C. -/
def maskC : DWord := 0x7F000000
/-- Every bit of class T. -/
def maskT : DWord := 0x3FF00000000
/-- Level sources. -/
def isLevel (k : Nat) : Bool := decide (k ≤ 2) || k == 11 || k == 12 || k == 25 || k == 26
/-- Event sources of class S whose action is none: advisory (R304). -/
def isAdvisory (k : Nat) : Bool := isClassS k && !isLevel k && k != 4
/-- The bit of a source. -/
def srcBit (k : Nat) : DWord := BitVec.ofNat 64 (2 ^ k)
/-- Whether a source's bit is set in a word. -/
def hasSrc (w : DWord) (k : Nat) : Bool := w.getLsbD k
/-- The profile of a source's record (Table 15.9). -/
def srcProfile (k : Nat) : Nat := if isClassS k then 1 else if isClassC k then 2 else 3

/-- Whether a source's pin asserts now: a level source, or its force bit (R300, R306). -/
def Faults.asserting (f : Faults) (k : Nat) : Bool := isLevel k && (hasSrc f.pins k || hasSrc f.force k)

/-- The lowest set bit of the highest class present (R304). -/
def lowestTop (w : DWord) : Option Nat :=
  let v := if w &&& maskC != 0 then w &&& maskC else w
  (List.range 64).find? fun k => hasSrc v k

/-! ## Units (R301) -/

/-- The job restarts from its beginning on another unit: new start time, fresh random values, no further charge
(R86, R105). Its window, its number of parks and the attempts already charged stay. -/
def restartJob (j : Job) : Job :=
  { j with
    stage := .restart, unit := none, accBase := 0, resumedAt := none, attempts := 1, boundary := 1, rawA := 0,
    rawDone := false, result := none, passes := 1, rejects := 0, accFrom := 0, msgGot := 0, waitingMsg := false, toPark := false
    inp := if messageMode j.desc then [] else j.inp }

/-- Whether a job runs on a unit. -/
def Job.runsOn (j : Job) (u : UnitRef) : Bool :=
  match u with
  | .lane n => j.cls == .lane && j.unit == some n && j.stage == .started
  | .engine n => j.cls == .cipher && j.unit == some n && j.stage == .started
  | .hash => j.cls == .cipher && j.unit == some 8 && j.stage == .started

/-- The jobs on a unit restart; restarted lane jobs join the resume queue at this instant (R105, R129). A key fill is no job: it
goes on to its end on a lane that is withdrawn under it (DESIGN CHOICE, log 115). -/
def State.restartOn (s : State) (p : Plate) (u : UnitRef) : State :=
  s.updSl p fun x =>
    let joining := (x.jobs.filter fun j => j.runsOn u && j.cls == .lane).map fun j => (j.ring, j.index)
    { x with
      jobs := x.jobs.map fun j => if j.runsOn u then restartJob j else j
      reads := x.reads.filter fun e => !(x.jobs.any fun j => j.runsOn u && readOfJob j.ring j.index e.1)
      resume := x.resume ++ joining }

/-- A unit is withdrawn: its service bit clears and its mark sets (R301, R103, R134). -/
def State.withdraw (s : State) (p : Plate) (u : UnitRef) : State :=
  match u with
  | .lane n => (s.updSl p fun x => { x with lanes := x.lanes &&& ~~~ srcBit n }).updFlt p fun f =>
      { f with units := f.units ||| srcBit n }
  | .engine n => (s.updSl p fun x => { x with engines := x.engines &&& ~~~ BitVec.ofNat 8 (2 ^ n) }).updFlt p fun f =>
      { f with unitsCe := f.unitsCe ||| BitVec.ofNat 9 (2 ^ n) }
  | .hash => (s.updSl p fun x => { x with hash := false }).updFlt p fun f => { f with unitsCe := f.unitsCe ||| 0x100 }

/-- A lane holds the LANE pin until it is restored; one out for LANE_CRIT alone does not (R300). -/
def State.holdLane (s : State) (p : Plate) (u : UnitRef) : State :=
  match u with
  | .lane n => s.updFlt p fun f => { f with laneOut := f.laneOut ||| srcBit n }
  | .engine _ => s
  | .hash => s

/-- A withdrawn unit returns to service: its mark clears, and its pin where no other unit of its kind holds it
(R301, Table 13.4). -/
def State.restore (s : State) (p : Plate) (u : UnitRef) : State :=
  match u with
  | .lane n => (s.updSl p fun x => { x with lanes := x.lanes ||| srcBit n }).updFlt p fun f =>
      { f with units := f.units &&& ~~~ srcBit n
               laneOut := f.laneOut &&& ~~~ srcBit n
               pins := if f.laneOut &&& ~~~ srcBit n = 0 then f.pins &&& ~~~ srcBit 0 else f.pins }
  | .engine n => (s.updSl p fun x => { x with engines := x.engines ||| BitVec.ofNat 8 (2 ^ n) }).updFlt p fun f =>
      let u := f.unitsCe &&& ~~~ BitVec.ofNat 9 (2 ^ n)
      { f with unitsCe := u, pins := if u &&& 0xFF = 0 then f.pins &&& ~~~ srcBit 1 else f.pins }
  | .hash => (s.updSl p fun x => { x with hash := true }).updFlt p fun f =>
      { f with unitsCe := f.unitsCe &&& 0xFF, pins := f.pins &&& ~~~ srcBit 2 }

/-- Whether a unit is withdrawn. -/
def State.isWithdrawn (s : State) (p : Plate) (u : UnitRef) : Bool :=
  let f := (s.pl p).flt
  match u with
  | .lane n => hasSrc f.units n
  | .engine n => f.unitsCe.getLsbD n && decide (n < 8)
  | .hash => f.unitsCe.getLsbD 8

/-! ## Latching and the timer (R300, R302, R303) -/

/-- The timer after source `k` was latched in a word that read `was` (R302, R303, R304). -/
def Faults.onSet (f : Faults) (was : DWord) (k now : Nat) : Faults :=
  if isClassT k then
    { f with graceAt := none, graceC := false, first := some (f.first.getD k)
             react := if f.react = .isolated then .isolated else .none }
  else
    let f := { f with first := some (f.first.getD k) }
    if was &&& maskT != 0 || f.react != .none then f
    else if was = 0 then
      if isClassC k then { f with graceAt := some (now + 200), graceC := true }
      else { f with graceAt := some (now + f.graceMs * 1000), graceC := false }
    else match f.graceAt with
      | some t => if isClassC k && !f.graceC then { f with graceAt := some (min t (now + 200)), graceC := true } else f
      | none => f

/-- The MSI-X message of R310, where FLT_IRQ.EN is set. -/
def State.faultIrq (s : State) (p : Plate) : State :=
  let f := (s.pl p).flt
  if f.irq.getLsbD 31 then s.sendMsix p (f.irq.toNat % 2048) else s

/-- Source `k`'s bit is set within 1 µs of its pin (R300): the timer of R302, the message of R310, FAULT_OUT# and the
record of Table 15.9. A bit already set, and a reserved one, changes nothing. -/
def State.latch (s : State) (p : Plate) (k : Nat) : State :=
  let f := (s.pl p).flt
  if !(isClassS k || isClassC k || isClassT k) || hasSrc f.status k then s
  else
    let s := s.updFlt p fun f => { (f.onSet f.status k s.clock) with status := f.status ||| srcBit k }
    let s := if hasSrc f.outEn k then s.faultIrq p else s
    (s.refreshOut p).record p (0x0100 + k) (srcProfile k) (fltFirst (s.pl p).flt)

/-- A level source's pin asserts or releases. -/
def State.setPin (s : State) (p : Plate) (k : Nat) (on : Bool) : State :=
  if isLevel k then
    s.updFlt p fun f => { f with pins := if on then f.pins ||| srcBit k else f.pins &&& ~~~ srcBit k }
  else s

/-- Source `k`'s pin asserts: the pin is held where the source is a level source, and its bit is latched. The collector of a
plate without power or in reset collects nothing. -/
def State.raise (s : State) (p : Plate) (k : Nat) : State :=
  if s.up p then (s.setPin p k true).latch p k else s

/-- A unit asserts its pin: it is withdrawn, and for LANE, ENGINE and HASH its jobs restart (R301). -/
def State.raiseUnit (s : State) (p : Plate) (k : Nat) (u : UnitRef) : State :=
  let s := if k = 28 then s else (s.restartOn p u).holdLane p u
  (s.withdraw p u).raise p k

/-! ## Tamper sources (R288, R291, R299) -/

/-- The cause code of a class T source (TMP_CAUSE); KO_PEER has none of its own. -/
def causeCode (k : Nat) : Nat :=
  if k = 32 then 1 else if k = 33 then 3 else if k = 34 then 4 else if k = 35 then 5 else if k = 36 then 9
  else if k = 37 then 6 else if k = 38 then 2 else if k = 40 then 7 else if k = 41 then 8 else 10

/-- Whether a class T source passes its arming (R288). -/
def State.armedFor (s : State) (p : Plate) (k : Nat) : Bool :=
  decide (36 ≤ k) || (s.pl p).tmp.armed

/-- A tamper source of plate `p` is raised with its INDEX: the collector records it, and it is a cause that asserts the
line (KNOCKOUT_LINE_ASSERT). A source that is not armed raises nothing (R288). -/
def State.tamper (s : State) (p : Plate) (k by_ index : Nat) : State :=
  if s.armedFor p k && (s.pl p).pow.phase != .off then
    (s.updTmp p fun t =>
      { t with local_ := some (t.local_.getD { code := causeCode k, by_ := by_, index := index }) }).raise p k
  else s

/-- A forced tamper source in drill mode passes its arming and the collector, and is held at the gate, which records HIT,
the source and a latency that the manual does not state (R299, log 18). -/
def State.tamperForced (s : State) (p : Plate) (k : Nat) : State :=
  if s.armedFor p k then
    let s := s.raise p k
    let s := (s.updTmp p fun t =>
      { t with hit := true, drillSrc := causeCode k, drillLat := Config.freeNat s.free % 65536 }).tick 1
    s.record p 0x0203 3 (tmpDrill (s.pl p).tmp)
  else s

end Sys2Proof.Machine
end

