-- ==== Sys2Proof/Machine/Bripa.lean ====
section
/-! DEFINITION. Bripa frames and links, and who owns the Margin's resources (11 R257 to R261). -/

namespace Sys2Proof.Machine

/-! ## Frames (Tables 11.2 and 11.3) -/

/-- A frame's bytes, with its CRC. -/
def frameBytes (f : Frame) : Bytes :=
  let b := leBytes 1 f.type ++ [f.seq, f.res] ++ leBytes 1 f.payload.length ++ f.payload
  b ++ leBytes 4 (crc32c b).toNat

/-- The frame that bytes spell: none where R257 discards it. -/
def parseFrame (b : Bytes) (idle : Bool) : Option Frame :=
  let n := leAt b 3 1
  if idle && decide (n ≤ 64) && b.length == 8 + n && leAt b (4 + n) 4 == (crc32c (b.take (4 + n))).toNat then
    some { type := leAt b 0 1, seq := BitVec.ofNat 8 (leAt b 1 1), res := BitVec.ofNat 8 (leAt b 2 1),
           payload := cut b 4 n }
  else none

/-- Types that travel from plate to Margin. -/
def toMargin (t : Nat) : Bool := [0x02, 0x03, 0x04, 0x05, 0x07, 0x10, 0x12, 0x14, 0x20, 0x21, 0x32, 0x33].contains t
/-- Types that travel from Margin to plate. -/
def toPlate (t : Nat) : Bool :=
  [0x01, 0x03, 0x04, 0x06, 0x11, 0x13, 0x15, 0x21, 0x22, 0x23, 0x30, 0x31, 0x40, 0x41].contains t
/-- Types handled by hardware; the others travel by mailbox (R260). -/
def hardwareFrame (t : Nat) : Bool := decide (t ≤ 4) || t == 0x40 || t == 0x41

/-- Payload length of a type (Table 11.3). -/
def payloadLenOk (t n : Nat) : Bool :=
  if t == 0x01 || t == 0x15 || t == 0x40 then n == 4
  else if t == 0x02 || t == 0x22 then n == 16
  else if decide (0x03 ≤ t ∧ t ≤ 0x05) || t == 0x07 then n == 0
  else if t == 0x06 || t == 0x10 || t == 0x23 || t == 0x30 then n == 1
  else if t == 0x11 then decide (1 ≤ n ∧ n ≤ 34)
  else if t == 0x12 || t == 0x13 then decide (1 ≤ n ∧ n ≤ 64)
  else if t == 0x14 then n == 6
  else if t == 0x20 then n == 12
  else if t == 0x21 then n == 64
  else if t == 0x31 || t == 0x33 then n == 2
  else if t == 0x32 then n == 21
  else if t == 0x41 then n == 8
  else false

/-- Reserved bytes of a payload are zero (Table 11.3). -/
def payloadReserved (f : Frame) : Bool :=
  if f.type == 0x02 then allZero (cut f.payload 13 3)
  else if f.type == 0x20 then allZero (cut f.payload 1 1)
  else if f.type == 0x22 then allZero (cut f.payload 3 1)
  else if f.type == 0x41 then allZero (cut f.payload 6 2)
  else true

/-- Whether a frame that arrives at an end passes R259. -/
def frameOk (e : End) (f : Frame) : Bool :=
  (match e with
    | .plate => toPlate f.type
    | .margin => toMargin f.type) && payloadLenOk f.type f.payload.length && payloadReserved f

/-! ## Links (R258) -/

/-- One end of plate `p`'s channel. -/
def State.link (s : State) (e : End) (p : Plate) : Link :=
  match e, p with
  | .plate, p => (s.pl p).mrg.link
  | .margin, .a => s.margin.linkA
  | .margin, .b => s.margin.linkB

/-- The state with `f` applied to one end. -/
def State.updLink (s : State) (e : End) (p : Plate) (f : Link → Link) : State :=
  match e, p with
  | .plate, p => s.updMrg p fun m => { m with link := f m.link }
  | .margin, .a => s.updMargin fun g => { g with linkA := f g.linkA }
  | .margin, .b => s.updMargin fun g => { g with linkB := f g.linkB }

/-- Waiting frames enter the window of 8, in order: the link after it and the frames that leave now. -/
def Link.fillWindow (l : Link) (now : Nat) : Nat → Link × List Frame
  | 0 => (l, [])
  | k + 1 =>
    match l.waiting with
    | f :: t =>
      if l.sent.length < 8 then
        let f := { f with seq := l.nextSeq }
        let (m, fs) := Link.fillWindow
          { l with waiting := t, nextSeq := l.nextSeq + 1, sent := l.sent ++ [{ frame := f, sent := now }] } now k
        (m, f :: fs)
      else (l, [])
    | [] => (l, [])

/-- Whether an end of plate `p`'s channel has power. -/
def State.endUp (s : State) (e : End) (p : Plate) : Bool :=
  match e with
  | .plate => s.up p
  | .margin => s.margin.powered

/-- The frames an end can send now leave it; none while it waits for the answer to its LINK_RESET. -/
def State.pumpLink (s : State) (e : End) (p : Plate) : State :=
  if (s.link e p).resetting then s
  else
    let (l, fs) := (s.link e p).fillWindow s.clock 8
    (s.updLink e p fun _ => l).emits (fs.map fun f => .bripa e p f)

/-- An end that has power sends a frame within its window; a plate whose all-clear is lost drops its mailbox frames (R264). -/
def State.sendFrame (s : State) (e : End) (p : Plate) (type : Nat) (res : Byte) (payload : Bytes) : State :=
  if !s.endUp e p || (e == .plate && !hardwareFrame type && !(s.pl p).mrg.fieldUp) then s
  else (s.updLink e p fun l => { l with
    waiting := l.waiting ++ [{ type := type, res := res, payload := payload }] }).pumpLink e p

/-- ACK and LINK_RESET take no place in the window. -/
def State.sendBare (s : State) (e : End) (p : Plate) (type : Nat) (seq : Byte) : State :=
  s.emit (.bripa e p { type := type, seq := seq })

/-- Whether plate `p`'s channel is up, and which plate's ticks the Margin counts: Plate A's, or Plate B's while channel 0
is down (R255). -/
def State.setLinkUp (s : State) (p : Plate) (on : Bool) : State :=
  let s := s.updMrg p fun m => { m with linkUp := on }
  let a := s.pa.mrg.linkUp
  (s.updMrg .a fun m => { m with tick := a }).updMrg .b fun m => { m with tick := m.linkUp && !a }

/-! ## Resources (R261) -/

/-- The plate that owns a resource. -/
def State.owner (s : State) (r : Nat) : Option Plate := s.margin.owners.get none r

/-- What the plates know of a resource's owner (MRG_STATUS OWN and OTHER). -/
def State.noteOwner (s : State) (p : Plate) (r : Nat) (on : Bool) : State :=
  let b := BitVec.ofNat 4 (2 ^ r)
  (s.updMrg p fun m => { m with own := if on then m.own ||| b else m.own &&& ~~~ b }).updMrg p.peer fun m =>
    { m with other := if on then m.other ||| b else m.other &&& ~~~ b }

/-- PIN collection ends with an outcome; the digits are cleared (R268). -/
def State.endPin (s : State) (outcome : Nat) (status : BitVec 16) : State :=
  match s.margin.pin with
  | some t => (s.updMargin fun g => { g with pin := none }).sendFrame .margin t.plate 0x15 (BitVec.ofNat 8 t.reader)
      (leBytes 1 outcome ++ leBytes 1 t.digits.length ++ leBytes 2 status.toNat)
  | none => s

/-- A card is deactivated, its clock stopped: its APDU ends without a RESP, and PIN collection on it ends (R267, R268). -/
def State.deactivate (s : State) (r outcome : Nat) : State :=
  let s := s.updMargin fun g => { g with
    readers := g.readers.mod {} r fun x => { x with active := false, apdu := false, segs := [], mhz := 0 } }
  if (s.margin.pin.map PinTry.reader) == some r then s.endPin outcome 0 else s

/-- The SD operation after its current block, once its plate owns the slot no longer: a block half read is read to its end, one
half written is not acknowledged (R261). -/
def SdOp.stopped (o : SdOp) : Option SdOp :=
  let n := if o.op == 1 then (o.bytes + 511) / 512 else o.bytes / 512
  if n = 0 then none else some { o with blocks := n, bytes := if o.op == 1 then o.bytes else 512 * n }

/-- What the Margin does when ownership of a resource ends: the card is deactivated, the SD operation stops, the console
goes blank (R261, Table 11.6). -/
def State.freeResource (s : State) (r : Nat) : State :=
  if r < 2 then s.deactivate r 3
  else if r = 2 then s.updMargin fun g => { g with sdOp := g.sdOp.bind SdOp.stopped }
  else s.updMargin fun g => { g with display := [], led1 := 0, led3 := 0, pin := none }

/-- A block interrupts the anchor core of the world that owns it (R313): number 32 and up, beside the hand-overs' 0 to 17. -/
def State.blockIrq (s : State) (p : Plate) (b : Nat) : State :=
  s.updMgt p fun m => if m.own.getLsbD b then { m with intS := m.intS ++ [32 + b] } else { m with intN := m.intN ++ [32 + b] }

/-- The Margin ends plate `p`'s ownership of a resource. -/
def State.disown (s : State) (p : Plate) (r : Nat) : State :=
  if s.owner r == some p then (s.updMargin fun g => { g with owners := g.owners.set none r none }).freeResource r else s

/-- The Margin ends every ownership of plate `p` (R258, R261). -/
def State.disownAll (s : State) (p : Plate) : State := s.each (List.range 4) fun s r => s.disown p r

/-- Plate `p` owns a resource no longer as far as it knows: an append to the spool on the slot's card ends (R274). -/
def State.giveUp (s : State) (p : Plate) (r : Nat) : State :=
  let s := s.noteOwner p r false
  if r = 2 then s.updMrg p fun m => { m with spool := { m.spool with job := none } } else s

/-- Admin command `i` of plate `p` no longer waits for button 1. -/
def State.noButton (s : State) (p : Plate) (i : Word) : State :=
  s.updCus p fun c => { c with button := c.button.filter fun w => w.index != i }

/-- A card session of plate `p` ends; where the card is to blame it is deactivated (R236). A local approval is abandoned and
counts nothing; the status of an enrolment that fails so is not stated (R245, log 30). -/
def State.endTry (s : State) (p : Plate) (a : LocalTry) (card : Bool) : State :=
  let s := s.updCus p fun c => { c with attempt := none }
  let s := if card then s.sendFrame .plate p 0x10 (BitVec.ofNat 8 a.reader) [2] else s
  match a.enrol.bind fun e => s.job? p .admin e.index with
  | some j => ((s.tick 1).noButton p j.index).fail p j (s.openStatus [.quorum, .authFail, .range])
  | none => s

/-- The card session of plate `p`, if there is one, ends. -/
def State.endTries (s : State) (p : Plate) : State :=
  match (s.pl p).cus.attempt with
  | some a => s.endTry p a false
  | none => s

/-- Plate `p` owns nothing any longer as far as it knows; a card session on it ends (R245, R261). -/
def State.giveUpAll (s : State) (p : Plate) : State := (s.each (List.range 4) fun s r => s.giveUp p r).endTries p

/-- A link from sequence number 0 on, less its outstanding frames; those that wait and those accepted stay (R258). -/
def Link.restarted (l : Link) (asked : Bool) : Link := { waiting := l.waiting, inbox := l.inbox, resetting := asked }

/-- An end restarts its link; the Margin then releases every resource of the plate (R258, R261). -/
def State.restartLink (s : State) (e : End) (p : Plate) (asked : Bool) : State :=
  let s := s.updLink e p fun l => l.restarted asked
  match e with
  | .plate => s.giveUpAll p
  | .margin => s.disownAll p

/-- A plate sends its configuration: the custody page's sequence, and loops 0 without a policy record (R265,
Table 11.4). -/
def State.sendConfig (s : State) (p : Plate) : State :=
  let c := s.custody p
  let y := c.policy
  let body := leBytes 8 c.seq ++ leBytes 1 ((y.map fun y => y.loops.toNat).getD 0) ++
    fit 4 ((((y.getD {}).tDisc).map fun t => BitVec.ofNat 8 t)) ++ zeros 3
  (s.updMrg p fun m => { m with configured := false }).sendFrame .plate p 0x02 0xFF body

end Sys2Proof.Machine
end

