-- ==== Sys2Proof/Machine/Vaultops.lean ====
section
/-! DEFINITION. Key-state changes: admission, dual commit, the journal and NVM groups (09 R210 to R213, R371; 15 R333,
R334, R341), and read-repair (06 R159). -/

namespace Sys2Proof.Machine

/-! ## Admission -/

/-- Whether plate `p` commits alone now: SOLE, or the serving plate of a RESYNC (Table 9.4). -/
def State.commitsAlone (s : State) (p : Plate) : Bool :=
  let r := (s.pl p).pr
  r.mode == .sole || (r.mode == .resync && !r.rejoin)

/-- The wear state that decides a change: the worse of both plates while PAIRED, else the plate's own (R341). -/
def State.wear (s : State) (p : Plate) : Nat :=
  let x := s.pl p
  if x.pr.mode = .paired then max x.nvm.state x.nvm.peerWear else x.nvm.state

/-- Why plate `p` refuses a key-state change now, if it does. `ro`: Table 15.6 admits it in READ_ONLY. A source in hold
refuses every change (R186; the manual names no status, log 19). -/
def State.refuses (s : State) (p : Plate) (ro : Bool) : Option Status :=
  let x := s.pl p
  if x.vlt.hold.isSome then some .vaultRo
  else if x.pr.mode = .partition || (x.pr.mode = .resync && x.pr.rejoin) then some .partitioned
  else if s.wear p = 3 || (s.wear p = 2 && !ro) then some .vaultRo
  else none

/-! ## Logical pages (R332, Table 15.2) -/

/-- The metadata page that holds the tag and the commit sequence of ledger page `k`: the one with their first byte (R93). -/
def tagLpn (k : Nat) : Nat := 331776 + 24 * k / 256

/-- The page of journal position `n`: 8 entries of 32 bytes a page, of a journal of 16,384 (Table 15.2). -/
def journalLpn (n : Nat) : Nat := 337920 + n % 16384 / 8

/-- A system page. Their order in the region is the model's (DESIGN CHOICE, log 121): root 0, helper data 1, identity 2, lifecycle 3,
alarm page 4, counters 5, log mode 6, the custody page from 8, the imposition table from 16. -/
def systemLpn (n : Nat) : Nat := 339968 + n

/-- The page of the bad-page table with the bit of physical page `x`, counted through the vault, the log and the firmware. -/
def badPageLpn (x : Nat) : Nat := 340224 + x / 2048

/-- The logical pages that an item is written to. A root or a package writes its vault by groups ahead of the root page's, which the
model does not list (log 121). -/
def VItem.lpns : VItem → List Nat
  | .slot k _ => [2 * k, 2 * k + 1]
  | .ledger k _ => [262144 + k / 16, tagLpn (k / 16)]
  | .ledgerPage k _ => [262144 + k, tagLpn k]
  | .record k _ => [327680 + k]
  | .impo k _ => [systemLpn (16 + k / 32)]
  | .custody _ => (List.range 5).map fun n => systemLpn (8 + n)
  | .lifecycle _ => [systemLpn 3]
  | .identity _ => [systemLpn 2]
  | .logMode _ _ _ => [systemLpn 6]
  | .root _ _ _ => [systemLpn 0, systemLpn 1]
  | .package _ _ _ _ _ => [systemLpn 0]
  | .helper _ => [systemLpn 1]

/-! ## NVM groups (R333, R334) -/

/-- Whether a group writes a whole vault, and so every page. -/
def Group.whole (g : Group) : Bool := g.items.any fun v => match v with
  | .root _ _ _ | .package _ _ _ _ _ => true
  | _ => false

/-- Whether two groups write a logical page in common, the journal's included. -/
def Group.meets (g h : Group) : Bool := g.whole || h.whole || g.pages.any fun k => h.pages.contains k

/-- Items in parts that take at most seven logical pages each, so that the journal page still fits (R333). -/
def splitItems : List VItem → List VItem → List (List VItem)
  | part, [] => [part]
  | part, v :: t =>
    if 7 < ((part ++ [v]).map fun v => v.lpns.length).sum && !part.isEmpty then part :: splitItems [v] t
    else splitItems (part ++ [v]) t

/-- A group with the logical pages of its items, and for a journal entry the page of the next journal position. -/
def Group.withPages (g : Group) (jpos : Nat) : Group :=
  { g with jpos := jpos, pages := (g.pages ++ g.items.flatMap VItem.lpns).eraseDups ++ if g.journal.isSome then [journalLpn jpos] else [] }

/-- The groups of a write, in order: one, or for more pages than a group holds several, of which the last carries the journal entry and
what follows. -/
def Group.split (g : Group) : List Group :=
  let l := splitItems [] g.items
  (l.dropLast.map fun part => { items := part, kind := .part, comSeq := g.comSeq }) ++ [{ g with items := l.getLast?.getD [] }]

/-- Whether a group is a mirror write from the peer. -/
def Group.isMirror (g : Group) : Bool := match g.kind with
  | .mirror _ => true
  | _ => false

/-- Whether a group may begin step 2 now: at most 4 are in progress, SEQ q + 4 waits for q, and the plate's own groups leave one
place in four to mirror writes (R215, R334, log 122). -/
def Nvm.canStart (n : Nvm) (g : Group) : Bool :=
  decide (n.groups.length < 4) && (n.groups.all fun h => decide (n.nextSeq < h.seq + 4)) &&
    (g.isMirror || decide ((n.groups.filter fun h => !h.isMirror).length < 3))

/-- Whether a waiting group keeps a later one behind it: both are of one kind, or they write a page in common. A group that waits for a
place is not accepted yet; the controller accepts it as it gives it its SEQ (log 122). -/
def Group.blocks (w g : Group) : Bool := w.isMirror == g.isMirror || w.meets g

/-- A group begins with the next SEQ, and takes one free page for each member (Table 15.4 step 1). -/
def Nvm.begin_ (n : Nvm) (g : Group) : Nvm :=
  let r := n.takePages (g.kind == .wear) g.pages
  { r.1 with groups := n.groups ++ [{ g with seq := n.nextSeq, taken := r.2 }], nextSeq := n.nextSeq + 1 }

/-- A group that holds no more pages than it may enters the NVM controller: it begins where it may, or waits (R334). -/
def Nvm.enter (n : Nvm) (g : Group) : Nvm :=
  let g := g.withPages n.jpos
  let n := if g.journal.isSome then { n with jpos := n.jpos + 1 } else n
  if n.canStart g && !(n.waiting.any fun w => w.blocks g) then n.begin_ g else { n with waiting := n.waiting ++ [g] }

/-- A write enters the NVM controller as one group, or as several where it has more than eight pages (R333). -/
def Nvm.startGroup (n : Nvm) (g : Group) : Nvm := g.split.foldl Nvm.enter n

/-- The first group of a list that may begin, with the others, none of the groups before it keeping it back. -/
def Nvm.nextWaiting (n : Nvm) : List Group → List Group → Option (Group × List Group)
  | _, [] => none
  | seen, g :: t =>
    if n.canStart g && !(seen.any fun w => w.blocks g) then some (g, seen ++ t) else n.nextWaiting (seen ++ [g]) t

/-- Waiting groups begin while they may (R334). -/
def Nvm.promote (n : Nvm) : Nat → Nvm
  | 0 => n
  | fuel + 1 => match n.nextWaiting [] n.waiting with
    | some (g, t) => Nvm.promote (Nvm.begin_ { n with waiting := t } g) fuel
    | none => n

/-- The group in progress that finishes step 4 next among the mirror writes, or among the plate's own groups: one with which no
earlier group shares a page (R334). -/
def finishing (mirror : Bool) : List Group → List Group → Option Group
  | _, [] => none
  | seen, g :: t =>
    if g.isMirror == mirror && !(seen.any fun h => h.meets g) then some g else finishing mirror (seen ++ [g]) t

/-- A group starts on plate `p`. -/
def State.startGroup (s : State) (p : Plate) (g : Group) : State := s.updNvm p fun n => n.startGroup g

/-- The commit sequence number of counter `c` on plate `p` (R211). -/
def commitSeq (p : Plate) (c : Nat) : Nat := 2 * c + p.num

/-- An item stamped with its commit sequence (R211). -/
def VItem.stamp (q : Nat) : VItem → VItem
  | .slot k v => .slot k { v with seq := q }
  | .record k v => .record k { v with seq := q }
  | .impo k v => .impo k { v with seq := q }
  | .custody v => .custody { v with seq := q }
  | .lifecycle v => .lifecycle { v with seq := q }
  | i => i

/-- A ledger page's commit sequence on a plate: the higher of its own and the incoming one (R211, R212). -/
def Vault.raisePage (x : Vault) (k q : Nat) : Vault := { x with pageSeq := x.pageSeq.set 0 k (max (x.pageSeq.get 0 k) q) }

/-- The 1,024-bit codeword of 256 bits, block 0 first (R281). -/
def chaseCodeword (bits : Bytes) : Bytes := (List.range 8).flatMap fun k => fit 16 (Config.chaseCode (cut bits (4 * k) 4))

/-- Bytes XOR bytes. -/
def xorBytes (a b : Bytes) : Bytes := List.zipWith (· ^^^ ·) a b

/-- Helper data: a response of the chase XOR the codeword of the bits it is to yield (R282, R284). -/
def helperFor (response bits : Bytes) : Bytes := xorBytes (fit 128 response) (chaseCodeword bits)

/-! ## What a plate draws for pages under its own keys, and the transfer between the plates (R137, R164, R203) -/

/-- What an item takes of the instance 4,100 of each plate that seals it under its own keys: 256 bits of an enrolment and a nonce,
or a nonce. -/
def VItem.draws : VItem → List Nat
  | .root _ _ _ => [32, 12]
  | .identity _ => [12]
  | .package _ _ _ _ _ => [12]
  | _ => []

/-- What all items of a change take. -/
def itemDraws (items : List VItem) : List Nat := (items.map VItem.draws).flatten

/-- Plate `p` draws, and for an enrolment measures, what it needs to seal the items of a change (R138, R164, R284). -/
def State.prepare (s : State) (p : Plate) (items : List VItem) : State :=
  let l := itemDraws items
  if l.isEmpty then s
  else
    let x : SealPrep := { bits := if l.length = 2 then s.drawnAt p vaultInst l 0 else [], response := s.unknown 128
                          nonce := s.drawnAt p vaultInst l (l.length - 1) }
    ((s.drew p vaultInst l).updVlt p fun v => { v with prep := x }).tick 1

/-- The two vault controllers agree a one-time key by an ML-KEM-768 exchange: Plate B draws the 64 bytes of a key pair, Plate A the
32 of an encapsulation (R137). -/
def State.agree (s : State) : State :=
  let dz := s.drawn .b vaultInst 64
  let m := s.drawn .a vaultInst 32
  let k := fit 32 (Config.kemEncaps 0x51 (Config.pkPublic 0x51 dz) m).2
  ((s.drew .b vaultInst [64]).drew .a vaultInst [32]).each [.a, .b] fun s q =>
    s.updVlt q fun v => { v with kr := { v.kr with oneTime := k } }

/-- The most requests that a change with secrets makes of the instance 4,100 of one plate: those of its root, of the transfer, of
its own pages and of LCS_DBG_NONCE. -/
def dealDraws : Nat := 6

/-- Whether the plates that a change with secrets goes to can draw for it (R203, R204). -/
def State.canDeal (s : State) (p : Plate) : Bool :=
  s.canDraw p vaultInst dealDraws && ((s.pl p).pr.mode != .paired || s.canDraw p.peer vaultInst dealDraws)

/-- What a change that plate `p` sends to its peer is sealed under: the mirror key (R210), or the one-time key where it carries a
root or the identity seed (R137, R164). -/
def State.sealKey (s : State) (p : Plate) (items : List VItem) : Bytes :=
  if (itemDraws items).isEmpty then (s.pl p).vlt.kr.mirror else (s.pl p).vlt.kr.oneTime

/-- Whether plate `p` can open what is sealed under a key; before a root exists there is none (log 120). -/
def State.opens (s : State) (p : Plate) (key : Bytes) : Bool :=
  key.isEmpty || key == (s.pl p).vlt.kr.mirror || key == (s.pl p).vlt.kr.oneTime

/-- Plate `p` sends a change to its peer (R210 step 1), under a key agreed for it where it carries a root or the identity seed and
both plates can draw (R137). -/
def State.sendChange (s : State) (p : Plate) (c : Change) : State :=
  let s := if !(itemDraws c.items).isEmpty && s.canDraw .a vaultInst 1 && s.canDraw .b vaultInst 1 then s.agree else s
  s.send p (.mirror (s.sealKey p c.items) c)

/-- Plate `p` enrols afresh with what it prepared: 256 new bits, helper data for them from a measured response, and the SBK that
they give (R136, R284). -/
def State.enrol (s : State) (p : Plate) : State :=
  let x := (s.pl p).vlt.prep
  (s.updTmp p fun t => { t with helper := some (helperFor x.response x.bits) }).updVlt p fun v =>
    { v with kr := { v.kr with sbk := sbkOf p x.bits } }

/-- DRK and salt sealed into the root page of plate `p` under its own SBK, with the nonce drawn for it, and the keys of Table 6.3
derived (R137, R138, R140). -/
def State.sealRoot (s : State) (p : Plate) (drk salt : Bytes) (seq : Nat) : State :=
  s.updVlt p fun v => { v with
    root := some { seq := seq, nonce := v.prep.nonce
                   sealed := fit 80 (Config.sivSeal v.kr.sbk v.prep.nonce (rootHead seq v.prep.nonce)
                     (fit 32 drk ++ fit 32 salt)) }
    kr := v.kr.derive p drk salt v.bootNonce, keys := true }

/-- A vault formatted under a new root: every slot, slice record and ledger entry FREE, import counters and generations
kept (R251, R157). -/
def Vault.format (v : Vault) : Vault :=
  { v with
    slots := [], bad := [], badPages := [], leases := [], cache := []
    recs := v.recs.filterMap fun e => if e.2.imp = 0 then none else some (e.1, { imp := e.2.imp })
    ledger := v.ledger.filterMap fun e => if e.2.gen = 0 then none else some (e.1, { gen := e.2.gen }) }

/-- A root is created on plate `p`: fresh helper data, the root page, and a formatted vault (R284). Before a test root is used no
window holds anything (R141). -/
def State.createRoot (s : State) (p : Plate) (drk salt : Bytes) (test : Bool) (seq : Nat) : State :=
  let s := ((s.enrol p).sealRoot p drk salt seq).updVlt p fun v => { v.format with mounted := true, testRoot := test }
  s.updSl p fun x => { x with winData := [] }

/-- The ledger replaced. -/
def Vault.setLedger (x : Vault) (l : Tab Ledger) : Vault := { x with ledger := l }

/-! ## Meters (R77, R78) -/

/-- The bank entry that a latch of slice `i` makes. -/
def State.bankOf (s : State) (p : Plate) (i seq : Nat) : Bank :=
  { meter := (s.pl p).sl.live.get {} i, slots := s.slotsUsed p i, ledger := s.ledgerUsed p i, seq := BitVec.ofNat 32 seq }

/-- One latch of the slices of a list: MTR_SEQ and MTR_TIME, each bank entry, and cleared live sets, in one step. A slice
in FREE is never latched. -/
def State.latchMeters (s : State) (p : Plate) (l : List Nat) : State :=
  let seq := (s.pl p).sl.mtrSeq + 1
  let s := s.updSl p fun x => { x with mtrSeq := seq, mtrTime := s.optime p }
  s.each (l.filter fun i => (s.impo p i).st != .free) fun s i =>
    let b := s.bankOf p i seq.toNat
    s.updSl p fun x => { x with bank := x.bank.set {} i b, live := x.live.set {} i {} }

/-- A slice whose entry becomes `v` leaves its home plate `p` for FREE: the home latches its meters a last time, so that the bank
entry keeps the final counts (Table 3.6 step 6, R78). A broadcast latch of the slice while it is DRAINING (R75) comes before it
(DEDUCED, log 116). -/
def State.finalLatch (s : State) (p : Plate) (i : Nat) (v : Impo) : State :=
  if v.st == .free && (s.impo p i).home == p then s.latchMeters p [i] else s

/-! ## What a commit writes -/

/-- The import counter of a record is not below an older one's (R67). -/
def SliceRec.keepImp (r : SliceRec) (q imp : Nat) : SliceRec := if imp ≤ r.imp then r else { r with imp := imp, seq := q }

/-- The vault of a package in place of the old one, every item under the commit's sequence; no import counter of a slice index
falls (R67), and the package's counter is used up (R185, R211). -/
def Vault.adopt (v : Vault) (q : Nat) (recs : Tab SliceRec) (slots : Tab Slot) (ledger : Tab Ledger) : Vault :=
  { v with
    recs := v.recs.foldl (fun t e => t.mod {} e.1 fun r => r.keepImp q e.2.imp) (recs.map fun e => (e.1, { e.2 with seq := q }))
    slots := slots.map fun e => (e.1, { e.2 with seq := q })
    ledger := ledger, pageSeq := ledger.foldl (fun t e => t.set 0 (e.1 / 16) q) v.pageSeq
    badPages := [], bad := [], leases := [], exhausted := [], cache := [], migration := v.migration + 1, apply := none }

/-- One item written to plate `p`'s NVM by the commit of sequence `q`. `both`: it is committed on both plates (G_pair of R223). -/
def State.applyItem (s : State) (p : Plate) (both : Bool) (q : Nat) : VItem → State
  | .slot k v => s.updVlt p fun x => { x with slots := x.slots.set {} k v }
  | .ledger k v => s.updVlt p fun x =>
      (x.raisePage (k / 16) q).setLedger (x.ledger.set {} k (if both then { v with pair := v.granted } else v))
  | .ledgerPage k v => s.updVlt p fun x => { x.raisePage k q with
      badPages := x.badPages.filter (· != k)
      ledger := ((List.range 16).zip v).foldl (fun t e =>
        t.set {} (16 * k + e.1) (if both then { e.2 with pair := e.2.granted } else e.2)) x.ledger }
  | .record k v => s.updVlt p fun x => { x with recs := x.recs.set {} k v }
  | .impo k v => (s.finalLatch p k v).updSl p fun x => { x with impo := x.impo.mod {} k fun o =>
      if o.st == .free || v.st == .free then v else { v with groups := o.groups } }
  | .custody v => s.setCustody p v
  | .identity seed => s.sealIdentity p seed
  | .lifecycle v => (s.setLcPage p v).refreshOut p
  | .root drk salt test => s.createRoot p drk salt test q
  | .package drk salt recs slots ledger =>
    (s.sealRoot p drk salt q).updVlt p fun v => v.adopt q recs slots ledger
  | .helper h => s.updTmp p fun t => { t with helper := some h }
  | .logMode stop head clear =>
      let last := (s.pl p).nvm.nextLog
      let r : Record := { seq := last, profile := 0, trigger := 0x0601, time := s.optime p, pcycle := (s.pl p).nvm.pcycle,
                          detail := last - 1 }
      s.updNvm p fun n =>
        if clear then
          let n := { n with stopFull := stop, head := head }
          let pos := n.skip (2 * n.gone.length + 1) 0
          { n with log := Tab.set [] {} pos r, nextLog := last + 1, nextPos := n.after pos, full := false, clearing := false }
        else { n with stopFull := stop, head := head }

/-- Whether writing an item writes the whole of what a reference names, so that it is usable again. -/
def VItem.heals : VItem → PageRef → Bool
  | .slot k _, .slot i n => 32 * i + n == k
  | .ledgerPage k _, .ledger e => e / 16 == k
  | .record k _, .record i => i == k
  | .impo k _, .impo i => i == k
  | .custody _, .custody => true
  | .lifecycle _, .lifecycle => true
  | _, _ => false

/-- A group's items written in order, with the commit sequence `q` (R211). -/
def State.applyItems (s : State) (p : Plate) (both : Bool) (q : Nat) (l : List VItem) : State :=
  (s.each l fun s i => s.applyItem p both q i).updVlt p fun x =>
    { x with bad := x.bad.filter fun b => !(l.any fun v => v.heals b) }

/-- A journal entry added; the journal keeps the last 16,384 (R211, Table 9.2). -/
def State.addJournal (s : State) (p : Plate) (j : Option Journal) : State :=
  match j with
  | some e => s.updVlt p fun x => { x with journal := (x.journal ++ [e]).drop (x.journal.length + 1 - 16384) }
  | none => s

/-! ## Beginning a change (R210, R213, R371) -/

/-- Plate `p` begins a key-state change. It prepares what it is to seal under its own keys; while PAIRED its mirror write goes to
the peer, under a key agreed for it where it carries a root or the identity seed; alone it is committed at once on
the plate's own NVM; in PARTITION a margin grant is committed alone and any other change is held. -/
def State.beginChange (s : State) (p : Plate) (items : List VItem) (j : Option Journal) (after : After) (grant : Bool) :
    State :=
  let v := (s.pl p).vlt
  let q := commitSeq p (v.counter + 1)
  let c : Change := { id := v.nextId, seq := q, items := items.map (VItem.stamp q),
                      journal := j.map fun e => { e with seq := q }, after := after, grant := grant,
                      sent := (s.pl p).pr.mode == .paired }
  let s := s.prepare p items
  let s := s.updVlt p fun x => { x with counter := x.counter + 1, nextId := x.nextId + 1, changes := x.changes ++ [c] }
  if c.sent then s.sendChange p c
  else if s.commitsAlone p || grant then
    s.startGroup p { kind := .own c.id, items := c.items, journal := c.journal, comSeq := q }
  else s

/-- The ring byte of a journal entry (Table 9.2). -/
def journalRing : RingRef → Nat
  | .tenant _ r => r
  | .admin => 0xF0

/-- The journal entry of a job's completion. -/
def jobJournal (j : Job) (r : Result) (output : Nat) : Journal :=
  { slice := (ringSlice j.ring).getD 0, ring := journalRing j.ring, status := r.status, index := j.index, info := r.info,
    info2 := r.info2, output := output }

/-- A job's change: the job waits for the commit and then completes with `r` (R210 step 4). -/
def State.commitJob (s : State) (p : Plate) (j : Job) (items : List VItem) (r : Result) (output : Nat) (after : After) :
    State :=
  (s.updJob p j.ring j.index fun j => { j with stage := .commit, result := some r }).beginChange p items
    (some (jobJournal j r output)) after false

/-! ## Read-repair (R158, R159) -/

/-- The LPN that a record names for an item: its first page (R332). -/
def itemLpn : PageRef → Nat
  | .slot i k => 2 * (32 * i + k)
  | .ledger k => 262144 + k / 16
  | .record i => 327680 + i
  | .impo i => systemLpn (16 + i / 32)
  | .custody => systemLpn 8
  | .lifecycle => systemLpn 3

/-- An item failed its tag on plate `p` and the peer's copy, if there is one that passes, is written over it; otherwise
it is left unusable and counted once (R159). In NO_WRITE nothing is written over it (Table 15.5). -/
def State.repair (s : State) (p : Plate) (item : PageRef) (copy : Option VItem) : State :=
  match if (s.pl p).nvm.noWrite then none else copy with
  | some v =>
    if ((s.pl p).nvm.groups ++ (s.pl p).nvm.waiting).any fun g => g.items.contains v then s
    else
      let s := s.updVlt p fun x => { x with repaired := satAdd 16 x.repaired 1 }
      (s.record p 0x0310 6 (BitVec.ofNat 32 (itemLpn item))).startGroup p { kind := .repair item, items := [v] }
  | none =>
    if (s.pl p).vlt.bad.contains item then s
    else
      let s := s.updVlt p fun x => { x with failed := satAdd 16 x.failed 1, bad := x.bad ++ [item] }
      s.record p 0x0311 6 (BitVec.ofNat 32 (itemLpn item))

/-! ## Changes under way -/

/-- What the latest change of plate `p` that is under way writes, as `f` finds it in its items. The vault controller applies
the operations on one item in the order it accepts them (R190). -/
def State.pendingItem {α : Type} (s : State) (p : Plate) (f : VItem → Option α) : Option α :=
  (s.pl p).vlt.changes.reverse.findSome? fun c => c.items.reverse.findSome? f

/-- Slot number `k` of plate `p` as the changes under way will leave it. -/
def State.slotAhead (s : State) (p : Plate) (k : Nat) : Slot :=
  (s.pendingItem p fun v => match v with
    | .slot n v => if n = k then some v else none
    | _ => none).getD ((s.pl p).vlt.slots.get {} k)

/-- Ledger entry `k` of plate `p` as the changes under way will leave it. -/
def State.ledgerAhead (s : State) (p : Plate) (k : Nat) : Ledger :=
  (s.pendingItem p fun v => match v with
    | .ledger n v => if n = k then some v else none
    | _ => none).getD ((s.pl p).vlt.ledger.get {} k)

/-- The slice record of slice `i` on plate `p` as the changes under way will leave it. -/
def State.recAhead (s : State) (p : Plate) (i : Nat) : SliceRec :=
  (s.pendingItem p fun v => match v with
    | .record n v => if n = i then some v else none
    | _ => none).getD ((s.pl p).vlt.recs.get {} i)

end Sys2Proof.Machine
end

