-- ==== Sys2Proof/Machine/Keys.lean ====
section
/-! DEFINITION. Keys: derivation, references, resolution, the working key cache, invocation numbers and leases
(04 R89 to R96, 06, 07 R188). -/

namespace Sys2Proof.Machine

/-! ## Roots (R141) -/

/-- The test root TR. -/
def testRootKey : Bytes := fit 32 (Config.sha3 (ascii "GK4096 TEST ROOT 1"))

/-- The key that stands at K = DRK in Table 6.3: DRK, or the test root in DEBUG. -/
def State.drk (s : State) (p : Plate) : Bytes :=
  let v := (s.pl p).vlt
  if v.testRoot then testRootKey else fit 32 v.kr.drk

/-- Tenant root key of slice `i` (Table 6.3), while the key registers hold it. -/
def State.trk (s : State) (p : Plate) (i : Nat) : Bytes :=
  kdf (s.drk p) (ascii "slice") (leBytes 2 i ++ fit 32 ((s.pl p).vlt.recs.get {} i).nonce) 32

/-! ## Items (R152, R157, R158) -/

/-- The number of slot `j` of slice `i`. -/
def slotKey (i j : Nat) : Nat := 32 * i + j

/-- A slot of plate `p`. -/
def State.slotAt (s : State) (p : Plate) (i j : Nat) : Slot := (s.pl p).vlt.slots.get {} (slotKey i j)

/-- A ledger entry of plate `p`. -/
def State.ledgerAt (s : State) (p : Plate) (k : Nat) : Ledger := (s.pl p).vlt.ledger.get {} k

/-- Whether the page of ledger entry `k` fails its tag. -/
def State.ledgerBad (s : State) (p : Plate) (k : Nat) : Bool := (s.pl p).vlt.badPages.contains (k / 16)

/-- Whether an item of plate `p` passes its tag: a slot, the page of a ledger entry, the record of a slice, the custody or the
lifecycle page (R158, R238, R248); an imposition entry has none. -/
def State.itemOk (s : State) (p : Plate) : PageRef → Bool
  | .slot i j => (s.slotAt p i j).tagOk
  | .ledger k => !s.ledgerBad p k
  | .record i => ((s.pl p).vlt.recs.get {} i).tagOk
  | .impo _ => true
  | .custody => (s.pl p).cus.page.tagOk
  | .lifecycle => ((s.pl p).cus.lcPage.map LcPage.tagOk).getD false

/-- The copy of an item on plate `p`, as a repair writes it; for a ledger entry its whole page. -/
def State.itemCopy (s : State) (p : Plate) : PageRef → VItem
  | .slot i k => .slot (slotKey i k) { s.slotAt p i k with tagOk := true }
  | .ledger k => .ledgerPage (k / 16) ((List.range 16).map fun n => s.ledgerAt p (16 * (k / 16) + n))
  | .record i => .record i { (s.pl p).vlt.recs.get {} i with tagOk := true }
  | .impo i => .impo i (s.impo p i)
  | .custody => .custody { (s.pl p).cus.page with tag := [], tagOk := true }
  | .lifecycle => .lifecycle { ((s.pl p).cus.lcPage).getD {} with tag := [], tagOk := true }

/-- The peer's copy of an item, where the gutter is up and its tag passes (R159). -/
def State.peerCopy (s : State) (p : Plate) (item : PageRef) : Option VItem :=
  if s.gutterUp p && s.itemOk p.peer item then some (s.itemCopy p.peer item) else none

/-- An item that plate `p` reads: one whose tag fails is repaired from the peer's copy, or left unusable (R159). -/
def State.readRepair (s : State) (p : Plate) (item : PageRef) : State :=
  if s.itemOk p item then s else s.repair p item (s.peerCopy p item)

/-- Step 4 of Table 6.17: the entry is ACTIVE, of this slice and owner, at this generation. -/
def ledgerLive (e : Ledger) (i : Nat) (slug : Bool) (gen : Word) : Bool :=
  e.st == .active && e.slice == i && e.slug == slug && e.gen == gen

/-- The limit of a ledger entry. -/
def Ledger.limit (e : Ledger) : Nat := if e.limit2 = 0 then 0 else 2 ^ e.limit2
/-- The lease size of a ledger entry. -/
def Ledger.leaseSize (e : Ledger) : Nat := if e.lease2 = 0 then 0 else 2 ^ e.lease2

/-- Steps 3 and 4 of Table 6.17 for an entry `k`. A slug header may name an index at or above 1,048,576, for which the table
gives no status: there is no such entry, and it reads as FREE, which is KEY_GONE (DESIGN CHOICE, log 126). -/
def State.checkLedger (s : State) (p : Plate) (i : Nat) (k : Option Nat) (slug : Bool) (gen : Word) : Option Status :=
  match k with
  | none => none
  | some k =>
    if s.ledgerBad p k then some .keyBad
    else if ledgerLive (s.ledgerAt p k) i slug gen then none
    else some .keyGone

/-- Whether TRK_s of slice `i` stands in the key registers: it is erased at step 4 of Table 3.6, with the creation nonce or, in
NO_WRITE, alone (R69, R140, R374). -/
def State.hasTrk (s : State) (p : Plate) (i : Nat) : Bool :=
  !(s.pl p).vlt.noTrk.contains i && ((s.pl p).vlt.recs.get {} i).st == .active

/-- The key that an ACTIVE slot holds. -/
def Slot.key (v : Slot) (i j : Nat) : Key :=
  { alg := v.alg, attr := v.attr, gen := v.gen, ledger := v.ledger, kit := v.kit, created := v.created,
    src := .slot i j, material := v.material }

/-- The record of slice `i` and the page of a key's ledger entry read for a job, each repaired where its tag fails
(R159). -/
def State.readKey (s : State) (p : Plate) (i : Nat) (k : Option Nat) : State :=
  let s := s.readRepair p (.record i)
  match k with
  | some k => s.readRepair p (.ledger k)
  | none => s

/-- A slot KREF (after Table 6.17): the tag of the slice record, of the slot and of the ledger page, each with its
read-repair, and the states of the slot and the ledger entry. -/
def State.resolveSlot (s : State) (p : Plate) (i j : Nat) : State × Except Status Key :=
  let v := s.slotAt p i j
  if !((s.pl p).vlt.recs.get {} i).tagOk then (s.readKey p i none, .error .keyBad)
  else if !v.tagOk then (s.readRepair p (.slot i j), .error .keyBad)
  else if v.st != .active || !s.hasTrk p i then (s, .error .keyGone)
  else match s.checkLedger p i v.ledger false v.gen with
    | some st => (s.readKey p i v.ledger, .error st)
    | none => (s, .ok (v.key i j))

/-! ## The cache (R142 to R148) -/

/-- Whether the persistent key behind a key still stands: its slot ACTIVE at its generation, or its ledger entry (R148, R188). -/
def State.stands (s : State) (p : Plate) (i : Nat) (k : Key) : Bool :=
  match k.src with
  | .slot a b => let v := s.slotAt p a b; v.st == .active && v.gen == k.gen
  | .slug _ => match k.ledger with
    | some e => ledgerLive (s.ledgerAt p e) i true k.gen
    | none => false
  | .volatileKey => true

/-- The cache entry of slice `i` at a position. -/
def State.entryAt (s : State) (p : Plate) (i pos : Nat) : Option CacheEntry :=
  (s.pl p).vlt.cache.find? fun e => e.slice == i && e.pos == pos

/-- The masked words of an entry on their physical lines (R142, R143): its expanded key, 64 bytes to a line. -/
def State.maskedLines (s : State) (p : Plate) (e : CacheEntry) : List (Nat × Bytes) :=
  let v := (s.pl p).vlt
  let b := fit (64 * e.lines) (Config.expandedKey e.key.alg e.key.material)
  ((List.range e.lines).zip e.at_).map fun x =>
    let line := Config.physicalLine v.permKey e.slice x.2
    (line, (cut b (64 * x.1) 64).zipWith (· ^^^ ·) (fit 64 (Config.lineMask v.maskKey line v.maskEpoch)))

/-- The lines of an entry written, or masked anew, once it is filled. -/
def State.masked (s : State) (p : Plate) (e : CacheEntry) : CacheEntry :=
  { e with stored := if e.filled then s.maskedLines p e else [] }

/-- Every entry of a plate's cache masked under the present epoch (R142). -/
def State.remask (s : State) (p : Plate) : State :=
  s.updVlt p fun v => { v with cache := v.cache.map (s.masked p) }

/-- The state with `f` applied to a cache entry. -/
def State.updEntry (s : State) (p : Plate) (i pos : Nat) (f : CacheEntry → CacheEntry) : State :=
  s.updVlt p fun v => { v with cache := v.cache.map fun e => if e.slice == i && e.pos == pos then s.masked p (f e) else e }

/-- A handle KREF (R146): an entry whose stored value equals all 64 bits, whose persistent key still stands. -/
def State.resolveHandle (s : State) (p : Plate) (i : Nat) (h : DWord) : Except Status (Key × Nat) :=
  if !((s.pl p).vlt.recs.get {} i).tagOk then .error .keyBad
  else match (s.pl p).vlt.cache.find? fun e => e.slice == i && e.handle == some h && !e.ended with
    | some e => match s.checkLedger p i e.key.ledger (e.key.src matches .slug _) e.key.gen with
      | some st => .error st
      | none => if s.stands p i e.key then .ok (e.key, e.pos) else .error .keyGone
    | none => .error .keyGone

/-- The cached, non-handle entry of a slot key or of a slug with this header. -/
def State.cached (s : State) (p : Plate) (i : Nat) (k : Key) : Option CacheEntry :=
  (s.pl p).vlt.cache.find? fun e =>
    e.slice == i && e.handle.isNone && !e.ended && e.key.src == k.src && e.key.gen == k.gen && e.key.kit == k.kit &&
    k.src != .volatileKey

/-- Whether a job of slice `i` holds the entry at a position (R64). -/
def State.entryHeld (s : State) (p : Plate) (i pos : Nat) : Bool :=
  (s.pl p).sl.jobs.any fun j => ringSlice j.ring == some i &&
    (j.entry == some pos || j.entry2 == some pos || j.newPos == some pos)

/-- Outcome of a line reservation (R64). -/
inductive Lines where
  | quota
  | wait
  | got
  deriving DecidableEq, Repr

/-- The evictable entry of slice `i` used least recently. -/
def State.victim (s : State) (p : Plate) (i : Nat) : Option CacheEntry :=
  ((s.pl p).vlt.cache.filter fun e => e.slice == i && e.handle.isNone && !s.entryHeld p i e.pos).foldl
    (fun b e => match b with
      | none => some e
      | some b => if e.lastUse < b.lastUse then some e else some b) none

/-- Entries evicted, least recently used first, until slice `i` has `n` unoccupied lines (at most `fuel` of them). -/
def State.evict (s : State) (p : Plate) (i n : Nat) : Nat → State
  | 0 => s
  | fuel + 1 =>
    if s.linesUsed p i + n ≤ (s.quotaNow p i).lines then s
    else match s.victim p i with
      | some e => (s.updVlt p fun v => { v with cache := v.cache.filter fun x => !(x.slice == i && x.pos == e.pos) }).evict
          p i n fuel
      | none => s

/-- The rule of R64 for `n` lines of slice `i`; a job that waited goes on with step 2 (`again`). -/
def State.reserve (s : State) (p : Plate) (i n : Nat) (again : Bool) : State × Lines :=
  let q := (s.quotaNow p i).lines
  let evictable := (((s.pl p).vlt.cache.filter fun e => e.slice == i && e.handle.isNone && !s.entryHeld p i e.pos).map
    CacheEntry.lines).sum
  if !again && decide (q < s.linesHeld p i + n) then (s, .quota)
  else if q + evictable < s.linesUsed p i + n then (s, .wait)
  else (s.evict p i n (s.pl p).vlt.cache.length, .got)

/-- The key of a position's issue count: by slice, or by ERA. -/
def seqKey (i pos : Nat) : Nat := 2 ^ 20 * i + pos

/-- The era of a handle issued now by plate `p` for slice `i` (Table 6.6, R154). -/
def State.era (s : State) (p : Plate) (i : Nat) : Nat :=
  let r := (s.pl p).vlt.recs.get {} i
  let base := match p with
    | .a => r.eraA
    | .b => r.eraB
  ((s.pl p).vlt.epoch + 2 ^ 31 - base % 2 ^ 21) % 2 ^ 21

/-- The issue count that the next handle of slice `i` at a position takes: that of the position within the epoch, raised above every
SEQ with which any slice of the plate has been issued this ERA there, so that no value is issued twice (R146, R147, log 117). -/
def State.nextSeq (s : State) (p : Plate) (i pos : Nat) : Nat :=
  max ((s.pl p).vlt.seqs.get 0 (seqKey i pos)) ((s.pl p).vlt.issued.get 0 (seqKey (s.era p i) pos))

/-- The logical lines that slice `i`'s entries occupy. -/
def State.linesAt (s : State) (p : Plate) (i : Nat) : List Nat :=
  (((s.pl p).vlt.cache.filter fun e => e.slice == i).map CacheEntry.at_).flatten

/-- Whether a logical line of slice `i` can be the first of a new entry; one that is to carry a handle needs issue counts left
(R146). -/
def State.posFree (s : State) (p : Plate) (i pos : Nat) : Bool :=
  !(s.linesAt p i).contains pos && (s.entryAt p i pos).isNone && decide (s.nextSeq p i pos < 0xFFFFF)

/-- The lowest `n` lines from `k` on that `used` does not list, with `fuel` lines looked at. -/
def lowestLines (used : List Nat) : Nat → Nat → Nat → List Nat
  | 0, _, _ => []
  | _, _, 0 => []
  | fuel + 1, k, n + 1 => if used.contains k then lowestLines used fuel (k + 1) (n + 1) else k :: lowestLines used fuel (k + 1) n

/-- The first free position from `k` on, cyclically below `q`. -/
def State.findPos (s : State) (p : Plate) (i q : Nat) : Nat → Nat → Option Nat
  | 0, _ => none
  | fuel + 1, k => if s.posFree p i (k % q) then some (k % q) else s.findPos p i q fuel (k + 1)

/-- A new entry of slice `i` on logical lines the manual leaves to the cache: its first at a free position drawn from the free
values, the others the lowest free ones; no line is shared (R143, log 20). -/
def State.newEntry (s : State) (p : Plate) (i lines : Nat) (key : Key) (filled : Bool) : State × Option Nat :=
  let q := (s.quotaNow p i).lines
  match s.findPos p i q q (Config.freeNat s.free) with
  | some pos =>
    let used := pos :: s.linesAt p i
    let e : CacheEntry := { slice := i, pos := pos, lines := lines, key := key, lastUse := s.clock, filled := filled,
                            at_ := pos :: lowestLines used (used.length + lines) 0 (lines - 1) }
    ((s.tick 1).updVlt p fun v => { v with cache := v.cache ++ [s.masked p e] }, some pos)
  | none => (s, none)

/-- The entry at a position becomes a handle entry: its value and the raised issue count (R146). -/
def State.issue (s : State) (p : Plate) (i pos : Nat) : State × DWord :=
  let n := s.nextSeq p i pos
  let h := makeHandle p (s.era p i) n pos
  ((s.updEntry p i pos fun e => { e with handle := some h, filled := true }).updVlt p fun v =>
    { v with seqs := v.seqs.set 0 (seqKey i pos) (n + 1), issued := v.issued.set 0 (seqKey (s.era p i) pos) (n + 1) }, h)

/-- Whether a volatile key receives T and V: a GCM algorithm with SEAL (R90). -/
def needsVinst (k : Key) : Bool := isGcm k.alg && attrBit k.attr useSeal

/-- T of a volatile key (R90): the plate and its epoch. The manual does not say what becomes of the 31-bit epoch past 2^31 − 1:
here E counts on, and T and PLT_VEPOCH show it modulo 2^31 (DESIGN CHOICE, log 118). -/
def State.volatileT (s : State) (p : Plate) : Word := BitVec.ofNat 32 (p.num * 2 ^ 31 + (s.pl p).vlt.epoch % 2 ^ 31)

/-- The volatile epoch of plate `p` is raised, and goes to its NVM; until it has committed no key takes a V of it (R91). -/
def State.stepEpoch (s : State) (p : Plate) : State :=
  (s.updVlt p fun v => { v with epoch := v.epoch + 1, nextV := 0, epochUp := false }).startGroup p
    { pages := [systemLpn 5], kind := .epoch }

/-- Whether a volatile key waits for an epoch to commit: after a reset, or because V has come to 2^40 (R91). -/
def State.epochShort (s : State) (p : Plate) : Bool :=
  !(s.pl p).nvm.noWrite && (!(s.pl p).vlt.epochUp || decide (2 ^ 40 ≤ (s.pl p).vlt.nextV))

/-- What a volatile key that waits for an epoch begins: at 2^40 values the next epoch, which the peer is told (R67). -/
def State.wrapEpoch (s : State) (p : Plate) : State :=
  if (s.pl p).vlt.epochUp then
    ((s.updVlt p fun v => { v with seqs := [] }).stepEpoch p).send p (.epoch ((s.pl p).vlt.epoch + 1))
  else s

/-- A volatile key made on plate `p` (R90, R91): GCM sealing keys take the next V. None where the epoch cannot be stored
(NO_WRITE). Table 7.6 gives kit the value T for a volatile key, and R90 gives T to those keys
alone: the kit of any other volatile key is 0 (DESIGN CHOICE, log 127). -/
def State.makeVolatile (s : State) (p : Plate) (k : Key) : State × Option Key :=
  let k := { k with src := .volatileKey, gen := 0, ledger := none, created := s.optime p, kit := 0, vinst := none }
  if !needsVinst k then (s, some k)
  else
    let v := (s.pl p).vlt
    if !v.epochUp || decide (2 ^ 40 ≤ v.nextV) then (s, none)
    else
      let k := { k with kit := s.volatileT p, vinst := some v.nextV }
      (s.updVlt p fun v => { v with nextV := v.nextV + 1 }, some k)

/-! ## Reference counts (R188) -/

/-- Whether a job has started, in the sense of R188: it holds a copy of its key's material. -/
def Job.holdsKey (j : Job) : Bool :=
  (j.stage == .started || j.stage == .parked || j.stage == .restart || j.stage == .filling ||
    (j.stage == .accepted && j.desc.op != 0x32 && j.desc.op != 0x31 && j.desc.op != 0x30))

/-- Whether a job's key comes from an item. -/
def Job.fromItem (j : Job) (item : ItemRef) : Bool :=
  let f (k : Key) : Bool := match item with
    | .slot i n => k.src == .slot i n
    | .ledger n => k.ledger == some n
    | .handle _ _ => false
  match item with
  | .handle i pos => ringSlice j.ring == some i && (j.entry == some pos || j.entry2 == some pos)
  | _ => (j.key.map f).getD false || (j.key2.map f).getD false

/-- The reference count of an item on plate `p`. -/
def State.refcount (s : State) (p : Plate) (item : ItemRef) : Nat :=
  ((s.pl p).sl.jobs.filter fun j => j.holdsKey && j.fromItem item).length

/-! ## Invocation numbers and leases (R92 to R96) -/

/-- Whether a key draws invocation numbers from a ledger entry. -/
def Key.ledgered (k : Key) : Bool := hasLedger k.alg && k.ledger.isSome

/-- Whether the lease of entry `k` has an unused number. -/
def Lease.any (l : Lease) : Bool := decide (l.next < l.stop) || l.ahead.isSome

/-- The lease after drawing one number, and that number (R92, R93). -/
def Lease.draw (l : Lease) : Option (Nat × Lease) :=
  if l.next < l.stop then some (l.next, { l with next := l.next + 1 })
  else match l.ahead with
    | some (lo, hi) => if lo < hi then some (lo, { l with base := lo, next := lo + 1, stop := hi, ahead := none }) else none
    | none => none

/-- Whether half of the current lease has been drawn and no next one is held or asked for (R93). -/
def Lease.half (l : Lease) : Bool := decide (l.stop - l.base ≤ 2 * (l.next - l.base)) && l.ahead.isNone && !l.asking

/-- Why a lease of entry `k` cannot be granted now; an entry of a page whose tag fails is not granted from (R158); `none` where
it can be asked for. G has not reached the limit. PARTITION: only within the margin of R223. -/
def State.leaseRefused (s : State) (p : Plate) (k : Nat) : Option Status :=
  let e := s.ledgerAt p k
  let x := s.pl p
  if s.ledgerBad p k then some .keyBad
  else if x.pr.mode = .partition then
    if min e.limit (e.pair + 4 * e.leaseSize) < min (e.granted + e.leaseSize) e.limit then some .partitioned
    else if 2 ≤ x.nvm.state then some .vaultRo else none
  else s.refuses p false

/-- A lease of entry `k` is asked for (R93): G is raised to the end of the next range, as one commit with a journal entry
of ring 0xFE. In PARTITION it is a margin grant. -/
def State.askLease (s : State) (p : Plate) (k : Nat) : State :=
  let e := s.ledgerAhead p k
  let hi := min (e.granted + e.leaseSize) e.limit
  if e.st = .active ∧ e.granted < e.limit ∧ (s.leaseRefused p k) = none then
    (s.updVlt p fun v => { v with leases := v.leases.mod {} k fun l => { l with asking := true } }).beginChange p
      [.ledger k { e with granted := hi }] (some { slice := e.slice, ring := 0xFE }) (.lease k e.granted hi)
      true
  else s

/-- A grant of entry `k` took effect: the range becomes drawable (R93). -/
def Lease.grant (l : Lease) (lo hi : Nat) : Lease :=
  if l.next < l.stop then { l with ahead := some (lo, hi), asking := false }
  else { l with base := lo, next := lo, stop := hi, asking := false }

/-- The lease that plate `p` holds of a key's ledger entry: none once the entry has passed to another generation, whose numbers
are not the key's (R92). -/
def State.leaseOf (s : State) (p : Plate) (k : Key) (e : Nat) : Lease :=
  if (s.ledgerAt p e).gen == k.gen then (s.pl p).vlt.leases.get {} e else {}

/-- Whether no grant can give a key of entry `e` more numbers: G is at the limit, or the entry is no longer ACTIVE at the key's
generation (R86, R95). -/
def State.noGrant (s : State) (p : Plate) (k : Key) (e : Nat) : Bool :=
  let x := s.ledgerAt p e
  decide (x.limit ≤ x.granted) || x.gen != k.gen || x.st != .active

/-- Whether no number is left below the key's limit and no held lease has one (R95); for a volatile GCM key, whether its
count has reached 16,777,216 (R90). -/
def State.exhausted (s : State) (p : Plate) (i : Nat) (k : Key) (pos : Option Nat) : Bool :=
  match k.ledger, k.vinst with
  | some e, _ => hasLedger k.alg && !(s.leaseOf p k e).any && s.noGrant p k e
  | none, some _ => match pos with
    | some pos => match s.entryAt p i pos with
      | some c => decide (16777216 ≤ c.count)
      | none => false
    | none => false
  | none, none => false

/-- What stands for a key in the list of keys whose KEY_EXHAUSTED is recorded: its ledger entry and generation, or its T and V. -/
def Key.exhaustTag (k : Key) : Nat :=
  match k.ledger, k.vinst with
  | some e, _ => k.gen.toNat * 2 ^ 20 + e
  | none, some v => 2 ^ 60 + k.kit.toNat * 2 ^ 40 + v
  | none, none => 2 ^ 80

/-- The event record of a key's first KEY_EXHAUSTED (R95, trigger 0x0400). The peer learns of it, and a reset keeps it, so that no
key is recorded twice (log 119). -/
def State.noteExhausted (s : State) (p : Plate) (k : Key) : State :=
  let tag := k.exhaustTag
  if (s.pl p).vlt.exhausted.contains tag then s
  else
    let note (s : State) (p : Plate) : State := s.updVlt p fun v =>
      { v with exhausted := if v.exhausted.contains tag then v.exhausted else v.exhausted ++ [tag] }
    (s.each (if s.gutterUp p then [p, p.peer] else [p]) note).record p 0x0400 7
      (match k.ledger with
        | some e => BitVec.ofNat 32 e
        | none => k.kit)

/-- The invocation number of a seal with this key, drawn in the step that starts it (R92), and the request for the next
lease at half of the current one (R93). None: it must wait for a grant, or its key is exhausted. -/
def State.drawNumber (s : State) (p : Plate) (i : Nat) (k : Key) (pos : Option Nat) : Option (State × Nat) :=
  match k.ledger, k.vinst, pos with
  | some e, _, _ =>
    match (s.leaseOf p k e).draw with
    | some (n, l) =>
      let s := s.updVlt p fun v => { v with leases := v.leases.set {} e l }
      some (if l.half then s.askLease p e else s, n)
    | none => none
  | none, some v, some pos =>
    match s.entryAt p i pos with
    | some c =>
      if c.count < 16777216 then
        some (s.updEntry p i pos fun c => { c with count := c.count + 1 }, v * 2 ^ 24 + c.count)
      else none
    | none => none
  | _, _, _ => none

/-- Whether an opcode is a seal that draws an invocation number. -/
def isSeal (op : Nat) : Bool := op == 0x10 || op == 0x12

/-- Whether a seal with this key draws numbers at all (R91: volatile GCM-SIV keys draw none). -/
def drawsNumber (op : Nat) (k : Key) : Bool := isSeal op && (k.ledger.isSome || k.vinst.isSome)

end Sys2Proof.Machine
end

