-- ==== Sys2Proof/Machine/Content.lean ====
section
/-! DEFINITION. The bytes of the vault: items, and the logical pages that hold them (06 R152 to R158; 09 Table 9.2; 15 R332). -/

namespace Sys2Proof.Machine

/-! ## The bytes of the vault's items (06) -/

/-- The code of a vault state (Table 6.11). -/
def VState.code : VState → Nat
  | .free => 0x00
  | .active => 0x0F
  | .erasing => 0xF0
  | .cont => 0x3C

/-- The state that a code names. -/
def stateOf (c : Nat) : Option VState :=
  if c = 0x00 then some .free else if c = 0x0F then some .active else if c = 0xF0 then some .erasing
  else if c = 0x3C then some .cont else none

/-- An integrity tag (R158): location and bytes under VIK. -/
def itemTag (vik label loc bytes : Bytes) : Bytes := kdf vik label (loc ++ bytes) 16

/-- A tag as the item shows it: a wrong one where the item fails its tag. -/
def shownTag (ok : Bool) (t : Bytes) : Bytes := if ok then t else t.map fun b => ~~~ b

/-- A slice record less its tag (Table 6.12). -/
def recordBody (i : Nat) (v : SliceRec) : Bytes :=
  leBytes 1 v.st.code ++ zeros 1 ++ leBytes 2 i ++ zeros 4 ++ leBytes 8 v.seq ++ fit 32 v.nonce ++ leBytes 8 v.imp ++
  leBytes 1 v.impAlg ++ zeros 7 ++ fit 32 v.impKey ++ zeros 16 ++ leBytes 4 v.eraA ++ leBytes 4 v.eraB ++ zeros 120

/-- A slice record (Table 6.12). -/
def sliceRecordBytes (vik : Bytes) (i : Nat) (v : SliceRec) : Bytes :=
  recordBody i v ++ shownTag v.tagOk (itemTag vik (ascii "slice") (leBytes 2 i) (recordBody i v))

/-- Bytes 0x000 to 0x03F of slot `k`; `m` is the length of the key's material (Table 6.13). -/
def slotHead (k : Nat) (v : Slot) (m : Nat) : Bytes :=
  leBytes 1 v.st.code ++ leBytes 1 v.alg ++ leBytes 2 (k / 32) ++ leBytes 4 v.attr.toNat ++ leBytes 4 v.gen.toNat ++
  leBytes 4 (v.ledger.getD 0xFFFFFFFF) ++ leBytes 4 v.kit.toNat ++ leBytes 2 m ++ leBytes 2 v.span ++
  leBytes 8 (v.created % 2 ^ 48) ++ fit 12 v.nonce ++ zeros 4 ++ leBytes 8 v.seq ++ zeros 8

/-- The sealed string of the ACTIVE slot `k` (R155). -/
def sealedString (vek : Bytes) (k : Nat) (v : Slot) : Bytes :=
  fit (v.material.length + 16) (Config.sivSeal vek (fit 12 v.nonce) (slotHead k v v.material.length) v.material)

/-- A slot less its tag; `lead` is the slot before it, whose key a CONT slot carries on (R156). -/
def slotBody (vek : Bytes) (k : Nat) (v lead : Slot) : Bytes :=
  match v.st with
  | .cont => slotHead k v lead.material.length ++ fit 432 ((sealedString vek (k - 1) lead).drop 432)
  | _ => slotHead k v v.material.length ++ fit 432 (sealedString vek k v)

/-- A slot (Table 6.13). -/
def slotBytes (vek vik : Bytes) (k : Nat) (v lead : Slot) : Bytes :=
  slotBody vek k v lead ++ shownTag v.tagOk (itemTag vik (ascii "slot") (leBytes 2 (k / 32) ++ leBytes 1 (k % 32))
    (slotBody vek k v lead))

/-- A ledger entry (Table 6.14). -/
def ledgerBytes (v : Ledger) : Bytes :=
  leBytes 1 v.st.code ++ leBytes 1 v.limit2 ++ leBytes 1 v.lease2 ++ leBytes 1 (if v.slug then 1 else 0) ++
  leBytes 2 v.slice ++ leBytes 6 v.granted ++ leBytes 4 v.gen.toNat

/-- The 256 bytes of ledger page `k`. -/
def ledgerPageBody (t : Tab Ledger) (k : Nat) : Bytes :=
  ((List.range 16).map fun n => ledgerBytes (t.get {} (16 * k + n))).flatten

/-- A ledger page and its tag. -/
def ledgerPageBytes (vik : Bytes) (t : Tab Ledger) (k : Nat) : Bytes :=
  ledgerPageBody t k ++ itemTag vik (ascii "ledger") (leBytes 2 k) (ledgerPageBody t k)

/-! ## Logical pages (R332) -/

/-- A journal entry (Table 9.2). -/
def Journal.bytes (j : Journal) : Bytes :=
  leBytes 8 j.seq ++ leBytes 2 j.slice ++ leBytes 1 j.ring ++ [j.status.code] ++ leBytes 4 j.index.toNat ++
  leBytes 4 j.info.toNat ++ leBytes 4 j.info2.toNat ++ leBytes 1 j.output ++ zeros 7

/-- The tag and the commit sequence of ledger page `k`, 24 bytes. -/
def tagEntry (vik : Bytes) (v : Vault) (k : Nat) : Bytes :=
  shownTag (!v.badPages.contains k) (itemTag vik (ascii "ledger") (leBytes 2 k) (ledgerPageBody v.ledger k)) ++
  leBytes 8 (v.pageSeq.get 0 k)

/-- The 256 bytes of the bad-page table's page `m`. -/
def Nvm.badPageBytes (n : Nvm) (m : Nat) : Bytes :=
  (List.range 256).map fun k =>
    BitVec.ofNat 8 ((List.range 8).map fun b => if n.bad.contains (8 * (256 * m + k) + b) then 2 ^ b else 0).sum

/-- The 256 data bytes of logical page `l` of plate `p` as its items stand; none for the journal, which is written entry by entry, and
for pages whose layout the manual does not give: alarm page, counters, log mode and the imposition table. -/
def State.lpnBytes (s : State) (p : Plate) (l : Nat) : Option Bytes :=
  let x := s.pl p
  let v := x.vlt
  if l < 262144 then
    some (cut (slotBytes v.kr.vek v.kr.vik (l / 2) (v.slots.get {} (l / 2)) (v.slots.get {} (l / 2 - 1))) (256 * (l % 2)) 256)
  else if l < 327680 then some (ledgerPageBody v.ledger (l - 262144))
  else if l < 331776 then some (sliceRecordBytes v.kr.vik (l - 327680) (v.recs.get {} (l - 327680)))
  else if l < 337920 then
    let o := 256 * (l - 331776)
    some (cut ((List.range 12).flatMap fun k => tagEntry v.kr.vik v (o / 24 + k)) (o % 24) 256)
  else if l < 339968 then none
  else if l = systemLpn 0 then v.root.map RootPage.bytes
  else if l = systemLpn 1 then x.tmp.helper.map (fit 256)
  else if l = systemLpn 2 then v.idPage.map fun i => fit 256 (fit 12 i.nonce ++ i.sealed)
  else if l = systemLpn 3 then x.cus.lcPage.map fun c => fit 256 (c.bytes ++ fit 16 c.tag)
  else if systemLpn 8 ≤ l ∧ l < systemLpn 13 then
    some (fit 256 ((x.cus.page.bytes ++ fit 16 x.cus.page.tag).drop (256 * (l - systemLpn 8))))
  else if 340224 ≤ l ∧ l < 340544 then some (x.nvm.badPageBytes (l - 340224))
  else if l < 340224 then none
  else some (zeros 256)

/-- What member `n` of a group writes to logical page `l`: the journal page with the entry laid over it, a page that is only rewritten
as it stands, another one as the items stand; where the manual gives no layout, bytes that nothing fixes. -/
def State.memberBytes (s : State) (p : Plate) (g : Group) (l n : Nat) : Bytes :=
  let v := (s.pl p).nvm.page ((s.pl p).nvm.pageOf l)
  let old := fit 256 v.data
  if 337920 ≤ l ∧ l < 339968 then
    match g.journal with
    | some j => fit 256 (overlay old (32 * (g.jpos % 8)) (fit 32 j.bytes))
    | none => old
  else (s.lpnBytes p l).getD (if g.items.isEmpty && g.kind != .epoch then old else fit 256 (Config.freeBytes (s.free + n)))

/-- A group of plate `p` is committed: the map points at its new pages, and the old ones rejoin the free pool (Table 15.4 step 4). A
group that had taken no page takes it now. -/
def State.commitPages (s : State) (p : Plate) (g : Group) : State :=
  let n := (s.pl p).nvm
  let r := if g.taken.isEmpty then n.takePages false g.pages else (n, g.taken)
  let k := g.pages.length - 1
  let n := ((g.pages.zip r.2).zip (List.range g.pages.length)).foldl (fun n e =>
    n.mapPage e.1.2 { seq := g.seq, k := k, lpn := e.1.1 } (s.memberBytes p g e.1.1 e.2)) r.1
  (s.updNvm p fun _ => n).tick g.pages.length

end Sys2Proof.Machine
end

