-- ==== Sys2Proof/Machine/Checks.lean ====
section
/-! DEFINITION. A fetched job's way through checks 4 to 7 of Table 2.7: KREF resolution, cache lines and fills, use bits,
quotas, output length (02 R40, 03 R64, 06 R144, R161, 07 R168). -/

namespace Sys2Proof.Machine

/-! ## Reads the plate issues (R24, R27) -/

/-- A read that plate `p` issues under a ring's tag; without a PASID binding none is issued (R24). -/
def State.readUnder (s : State) (p : Plate) (q : RingRef) (addr : DWord) (len : Nat) : State :=
  let tag := match q with
    | .tenant i _ => s.pasid p i
    | .admin => none
  if s.reaches p q then (s.translate p tag addr).emit (.read p tag addr len false) else s

/-- A read issued by plate `p` under a ring's tag and noted for its time-out (R24, R27). -/
def State.issueRead (s : State) (p : Plate) (q : RingRef) (kind : ReadKind) (addr : DWord) (len : Nat) : State :=
  if s.reaches p q then
    (s.readUnder p q addr len).updSl p fun x => { x with reads := x.reads ++ [(kind, s.clock)] }
  else s

/-- A read has returned. -/
def State.retireRead (s : State) (p : Plate) (kind : ReadKind) : State :=
  s.updSl p fun x => { x with reads := x.reads.filter fun e => e.1 != kind }

/-- The oldest read of a kind has returned. -/
def State.retireFirst (s : State) (p : Plate) (kind : ReadKind) : State :=
  s.updSl p fun x => { x with reads := x.reads.eraseP fun e => e.1 == kind }

/-- Whether a read has been outstanding for 50 ms (R27). -/
def State.readExpired (s : State) (p : Plate) (kind : ReadKind) : Bool :=
  (s.pl p).sl.reads.any fun e => e.1 == kind && s.past e.2 50000

/-! ## What an opcode needs -/

/-- Whether key_ref names no key (Tables 4.2, 5.2, 6.18, 7.2). -/
def keyless (d : Desc) : Bool :=
  d.op == 0x18 || d.op == 0x31 || d.op == 0x40 || d.op == 0x50 || d.op == 0x51 || d.op == 0x30 ||
  ((d.op == 0x21 || d.op == 0x23) && noKey d)

/-- Whether an opcode uses its key from the cache. KEY_LOAD's lines are those of the handle it makes, reserved and
filled at check 6 (R162, log 22). -/
def usesCache (d : Desc) : Bool := !(d.op == 0x32) && !(d.op == 0x33) && !keyless d

/-- Lines a job reserves for a key it makes, at check 6 (R114, R162, R163). -/
def newLines (d : Desc) (k : Option Key) : Nat :=
  if d.op == 0x33 then (match k with
    | some k => keyLines k.alg k.material.length
    | none => 0)
  else if d.op == 0x26 then keyLines d.al (materialLen d.al (d.fl 8 8))
  else if (d.op == 0x22 || d.op == 0x23 || d.op == 0x24) && !d.clear then 2
  else 0

/-- Whether a KEY_GENERATE takes a ledger entry (R156). -/
def takesLedger (d : Desc) : Bool := d.op == 0x30 && (hasLedger d.al || d.toSlug)

/-- Whether a lane job's message is read while it runs (R373). -/
def Job.messageJob (j : Job) : Bool := j.cls == .lane && messageMode j.desc

/-- The reads a lane job makes before it starts (R373): in_addr unless it holds a message, aad_addr where it is an input,
param where it is an address, out_addr for an inline VERIFY key. -/
def lanePrefetch (d : Desc) : List (DWord × Nat) :=
  (if d.inLen != 0 && !messageMode d then [(d.inAddr, d.inLen.toNat)] else []) ++
  (if d.op != 0x23 && d.op != 0x30 && d.aadLen != 0 then [(d.aadAddr, d.aadLen.toNat)] else []) ++
  (if d.op == 0x21 then [(d.param, signatureLen d.al)]
   else if (d.op == 0x34 || d.op == 0x50) && d.param != 0 then [(d.param, 32)] else []) ++
  (if d.op == 0x21 && noKey d then [(d.outAddr, publicLen d.al)] else [])

/-! ## Ledger entries for new keys (R168) -/

/-- Ledger entries held by jobs of either plate. -/
def State.ledgerHeld (s : State) : List Nat := (s.pa.sl.jobs ++ s.pb.sl.jobs).filterMap Job.ledgerNew

/-- Whether entry `k` can be taken: FREE, reusable, its page sound and no job holds it (R157, R168). -/
def State.ledgerTakable (s : State) (p : Plate) (k : Nat) : Bool :=
  let e := s.ledgerAt p k
  e.st == .free && e.gen != 0xFFFFFFFF && !s.ledgerHeld.contains k && !s.ledgerBad p k

/-- The lowest-numbered entry that can be taken. -/
def State.lowestLedger (s : State) (p : Plate) : Option Nat :=
  (List.range (min 1048576 ((s.pl p).vlt.ledger.length + s.ledgerHeld.length + 16 * (s.pl p).vlt.badPages.length + 1))).find?
    fun k => s.ledgerTakable p k

/-- An entry for slice `i`: none where its quota is spent, with the entries that jobs have taken and not yet committed, or the
pool has none left. -/
def State.takeLedger (s : State) (p : Plate) (i : Nat) : Option Nat :=
  let held := ((s.pl p).sl.jobs.filter fun j => ringSlice j.ring == some i &&
    (match j.ledgerNew with
      | some k => (s.ledgerAt p k).st == .free
      | none => false)).length
  if (s.quotaNow p i).ledger ≤ s.ledgerUsed p i + held then none else s.lowestLedger p

/-! ## Fills (R144) -/

/-- Lanes in service that no job or fill occupies. -/
def State.freeLane (s : State) (p : Plate) : Option Nat :=
  (List.range 64).find? fun n => hasSrc (s.pl p).sl.lanes n &&
    !((s.pl p).sl.jobs.any fun j => (j.cls == .lane || j.stage == .filling) && j.unit == some n)

/-- The scratch windows slice `i` may use now: its quota, or the smaller one that a resize in progress waits for (R68). -/
def State.windowCap (s : State) (p : Plate) (i : Nat) : Nat :=
  let cap (x : Slices) (n : Nat) : Nat := match x.ops.get none i with
    | some o => if o.destroy then n else min n o.quota.windows
    | none => n
  cap s.pa.sl (cap s.pb.sl (s.impo p i).quota.windows)

/-- The window set of a slice on one plate. -/
def Impo.windowSet (e : Impo) : Plate → List (Nat × Nat)
  | .a => e.winA
  | .b => e.winB

/-- The new window set of a resize on one plate. -/
def SliceOp.windowSet (o : SliceOp) : Plate → List (Nat × Nat)
  | .a => o.winA
  | .b => o.winB

/-- The windows that slice `i` may use on plate `p` now: its set, or while a resize commits the set that it leaves (R68). -/
def State.windowsOf (s : State) (p : Plate) (i : Nat) : List (Nat × Nat) :=
  let f (x : Slices) (l : List (Nat × Nat)) : List (Nat × Nat) := match x.ops.get none i with
    | some o => if o.destroy || o.step != 2 then l else o.windowSet p
    | none => l
  f s.pa.sl (f s.pb.sl ((s.impo p i).windowSet p))

/-- Whether a job or a fill on plate `p` holds physical window `w`. -/
def State.windowHeld (s : State) (p : Plate) (w : Nat) : Bool := (s.pl p).sl.jobs.any fun j => j.window == some w

/-- The first window of slice `i`'s set that nothing holds (R63, log 112). -/
def State.pickWindow (s : State) (p : Plate) (i : Nat) : Option Nat :=
  (s.windowsOf p i).findSome? fun e =>
    ((List.range e.2).find? fun k => !s.windowHeld p (e.1 + k)).map fun k => e.1 + k

/-- Whether slice `i` has a scratch window free on plate `p` (R63). -/
def State.windowFree (s : State) (p : Plate) (i : Nat) : Bool :=
  decide (s.winUsed p i < s.windowCap p i) && (s.pickWindow p i).isSome

/-- A job's state is what its window holds from now on; what the window held before is overwritten (R126). -/
def State.fillWindow (s : State) (p : Plate) (w : Option Nat) (q : RingRef) (i : Word) : State :=
  match w with
  | some w => s.updSl p fun x => { x with winData := x.winData.set none w (some (q, i)) }
  | none => s

/-- The windows of some runs are scrubbed (R126). -/
def State.scrubWindows (s : State) (p : Plate) (l : List (Nat × Nat)) : State :=
  s.updSl p fun x => { x with
    winData := x.winData.filter fun e => !(l.any fun r => decide (r.1 ≤ e.1 ∧ e.1 < r.1 + r.2)) }

/-- A slice's deficit in a class is 0 (R70). -/
def Sched.forget (d : Sched) (i : Nat) : Sched :=
  { d with deficit := d.deficit.set 0 i 0, passed := d.passed.filter (· != i) }

/-- The number a ring's slice has in the round; the admin ring's DEVICE_ATTEST jobs stand as one more (log 21). -/
def roundKey : RingRef → Nat
  | .tenant i _ => i
  | .admin => 4096

/-- The schedulers with `f` applied to one class's. -/
def Slices.modSched (x : Slices) (c : EngClass) (f : Sched → Sched) : Slices :=
  match c with
  | .lane => { x with lane := f x.lane }
  | .cipher => { x with cipher := f x.cipher }
  | .random => { x with random := f x.random }
  | .vault => { x with vault := f x.vault }

/-- Bucket levels brought up to now (R72): each rises at its rate up to its burst, in millionths of a unit. -/
def Buckets.refill (b : Buckets) (r : SliceRegs) (now : Nat) : Buckets :=
  let dt : Int := Int.ofNat (now - b.atUs)
  { pk := min (Int.ofNat r.burstPk.toNat * 1000000) (b.pk + dt * Int.ofNat r.ratePk.toNat)
    ci := min (Int.ofNat r.burstCi.toNat * 1024 * 1000000) (b.ci + dt * Int.ofNat r.rateCi.toNat * 1024)
    rn := min (Int.ofNat r.burstRn.toNat * 1024 * 1000000) (b.rn + dt * Int.ofNat r.rateRn.toNat * 1024)
    atUs := now }

/-- Slice `i`'s buckets brought up to now. -/
def State.bucketsNow (s : State) (p : Plate) (i : Nat) : Buckets :=
  ((s.pl p).sl.buckets.get {} i).refill ((s.pl p).sl.regs.get {} i) s.clock

/-- Slice `i` loses its deficit in a class whose bucket is not above 0: it is not ready in it (R70). -/
def Slices.emptied (x : Slices) (i : Nat) (c : EngClass) (level : Int) : Slices :=
  if 0 < level then x else x.modSched c fun d => d.forget i

/-- A change of slice `i`'s buckets. -/
def State.setBuckets (s : State) (p : Plate) (i : Nat) (b : Buckets) : State :=
  s.updSl p fun x => ((({ x with buckets := x.buckets.set {} i b }).emptied i .lane b.pk).emptied i .cipher b.ci).emptied i
    .random b.rn

/-- The lane bucket of slice `i` charged `n` work units. -/
def State.chargePk (s : State) (p : Plate) (i n : Nat) : State :=
  let b := s.bucketsNow p i
  s.setBuckets p i { b with pk := b.pk - Int.ofNat n * 1000000 }

/-! ## Check 4 for the target slot of a new key (R168) -/

/-- A target slot read with its tag verified and, where needed, repaired from the peer; `error` is the status of check 4
or of the state check. -/
def State.targetSlot (s : State) (p : Plate) (i j : Nat) : State × Except Status Slot :=
  let v := s.slotAt p i j
  if v.tagOk then (s, .ok v)
  else match s.peerCopy p (.slot i j) with
    | some (.slot k w) => ((s.readRepair p (.slot i j)).applyItems p false w.seq [.slot k w], .ok w)
    | _ => (s.readRepair p (.slot i j), .error .keyBad)

/-- Whether a KEY_GENERATE job that is past its checks has slot `n` of slice `i` as its target. -/
def generatesInto (j : Job) (i n : Nat) : Bool :=
  j.desc.op == 0x30 && !j.desc.toSlug && ringSlice j.ring == some i && j.stage != .queued && j.stage != .resolving &&
  (match parseKref j.desc.keyRef with
    | .slot m => m == n || (j.desc.al == 0x4A && m + 1 == n)
    | _ => false)

/-- Whether a FREE slot is already to hold another key: a change under way fills it, or a KEY_GENERATE on its way does
(log 26). -/
def State.slotTaken (s : State) (p : Plate) (i n : Nat) : Bool :=
  (s.slotAhead p (slotKey i n)).st != .free || (s.pl p).sl.jobs.any fun j => generatesInto j i n

/-- The slot target of KEY_GENERATE: FREE, and for RSA-4096 the next one too (R168). -/
def State.freeTarget (s : State) (p : Plate) (i j alg : Nat) : State × Option Status :=
  match s.targetSlot p i j with
  | (s, .error e) => (s, some e)
  | (s, .ok v) =>
    if v.st != .free || s.slotTaken p i j then (s, some .range)
    else if alg == 0x4A then
      match s.targetSlot p i (j + 1) with
      | (s, .error e) => (s, some e)
      | (s, .ok w) =>
        (s, if w.st != .free || s.slotTaken p i (j + 1) || decide ((s.quotaNow p i).slots ≤ j + 1) then some .range else none)
    else (s, none)

/-! ## The checks in order -/

/-- A job comes to wait for a class, a lane job once its inputs are there: a slice with no other such job was not ready in it
and has no deficit (R70). -/
def State.joinClass (s : State) (p : Plate) (j : Job) (cls : EngClass) : State :=
  let others := (s.pl p).sl.jobs.any fun k =>
    k.stage == .ready && k.cls == cls && (k.begun || cls != .lane || k.prefetched) &&
      roundKey k.ring == roundKey j.ring && !(k.ring == j.ring && k.index == j.index)
  if others then s else s.updSl p fun x => x.modSched cls fun d => d.forget (roundKey j.ring)

/-- A started job goes on with a step in another class (Table 3.7): a lane step of M + D1, or a key-state step. -/
def State.nextStep (s : State) (p : Plate) (j : Job) (cls : EngClass) (phase addOn d1 : Nat) : State :=
  (s.joinClass p j cls).updJob p j.ring j.index fun j =>
    { j with stage := .ready, cls := cls, begun := true, phase := phase, unit := none, window := none, result := none,
             rawDone := false, cost := if cls == .lane then addOn + d1 else 1, addOn := addOn, d1 := d1, attempts := 1,
             boundary := 1, rawA := 0, charged := 1 }

/-- A job is ready for its class: its cost is fixed and a lane job's inputs are asked for. -/
def State.makeReady (s : State) (p : Plate) (j : Job) : State :=
  let cls := opClass j.desc.op j.desc.al
  let reads := if cls == .lane then lanePrefetch j.desc else []
  let s := (s.joinClass p j cls).updJob p j.ring j.index fun j =>
    { j with stage := if j.desc.op == 0x51 then .queued else .ready, cls := cls, cost := jobCost j.desc j.key,
             prefetched := reads.isEmpty, addOn := jobCost j.desc j.key - laneD1 j.desc.op j.desc.al,
             d1 := laneD1 j.desc.op j.desc.al }
  s.each reads fun s r => s.issueRead p j.ring (.input j.ring j.index) r.1 r.2

/-- Whether the key that KEY_LOAD names needs a fill for its handle: no expanded copy of it is in the cache and its fill
has a cost (R144, R162). -/
def State.loadFills (s : State) (p : Plate) (i : Nat) (j : Job) : Bool :=
  match j.key with
  | some k => j.desc.op == 0x33 && fillCost k.alg != 0 && k.src != .volatileKey && j.entry.isNone &&
      !((s.cached p i k).map CacheEntry.filled).getD false
  | none => false

/-- A fill begins on a free lane with a window, charged to the slice's lane bucket (R144); otherwise the job waits. -/
def State.beginFill (s : State) (p : Plate) (i : Nat) (j : Job) (cost : Nat) : State :=
  match s.freeLane p with
  | some lane =>
    if s.windowFree p i && decide (0 < (s.bucketsNow p i).pk) then
      let w := s.pickWindow p i
      ((s.chargePk p i cost).fillWindow p w j.ring j.index).updJob p j.ring j.index fun j =>
        { j with stage := .filling, unit := some lane, window := w, startedAt := s.clock }
    else s.updJob p j.ring j.index fun j => { j with stage := .waitLines }
  | none => s.updJob p j.ring j.index fun j => { j with stage := .waitLines }

/-- A job waits for lines of its slice, step 1 of R64 behind it. -/
def State.waitLines (s : State) (p : Plate) (j : Job) : State :=
  s.updJob p j.ring j.index fun j => { j with stage := .waitLines, reserving := true }

/-- Check 7 and readiness; a KEY_LOAD fills its handle's entry after it (R144). -/
def State.check7Ready (s : State) (p : Plate) (j : Job) : State :=
  let i := (ringSlice j.ring).getD 0
  match check7 j.desc j.key with
  | some need => s.finish p j { status := .outSmall, outLen := need }
  | none =>
    match j.newPos.bind (s.entryAt p i) with
    | some e =>
      if s.loadFills p i j && !e.filled then s.beginFill p i j (fillCost ((j.key.map Key.alg).getD 0))
      else s.makeReady p j
    | none => s.makeReady p j

/-- Checks 6 and 7 of a job whose key is at hand (R40). A job that must wait for lines waits (R64). -/
def State.checks67 (s : State) (p : Plate) (j : Job) : State :=
  let i := (ringSlice j.ring).getD 0
  let d := j.desc
  let n := newLines d j.key
  if n != 0 && j.newPos.isNone then
    match s.reserve p i n j.reserving with
    | (s, .quota) => s.fail p j .quota
    | (s, .wait) => s.waitLines p j
    | (s, .got) =>
      match s.newEntry p i n {} false with
      | (s, some pos) =>
        let set (j : Job) : Job := { j with newPos := some pos, reserving := false }
        (s.updJob p j.ring j.index set).check7Ready p (set j)
      | (s, none) => s.waitLines p j
  else if takesLedger d && j.ledgerNew.isNone then
    match s.takeLedger p i with
    | some k =>
      (s.updJob p j.ring j.index fun j => { j with ledgerNew := some k }).check7Ready p { j with ledgerNew := some k }
    | none => s.fail p j .quota
  else s.check7Ready p j

/-- Check 5, with the suitability of the wrapping key of KEY_EXPORT_WRAPPED (R182). -/
def State.checks567 (s : State) (p : Plate) (j : Job) : State :=
  let wrapOk := match j.key2 with
    | some k => k.alg == 0x0D && attrBit k.attr useWrap
    | none => true
  match j.key with
  | some k => if permOk j.desc k && wrapOk then s.checks67 p j else s.fail p j .keyPerm
  | none => s.checks67 p j

/-- Whether a new seal finds no number left at check 4 (R95). -/
def State.exhaustedNow (s : State) (p : Plate) (i : Nat) (j : Job) (k : Key) : Bool :=
  isSeal j.desc.op && s.exhausted p i k j.entry

/-- The key of key_ref is to be in the cache: a cached copy is used, or lines are reserved and a fill begins or is done at
once where its cost is 0 (R64, R144). `second` is the wrapping key of KEY_EXPORT_WRAPPED. Answers the job once its entry
is filled, none while it waits or has completed. -/
def State.needEntry (s : State) (p : Plate) (j : Job) (second : Bool) : State × Option Job :=
  let i := (ringSlice j.ring).getD 0
  let have_ := if second then j.entry2 else j.entry
  let setE (j : Job) (pos : Nat) : Job := 
    if second then { j with entry2 := some pos, reserving := false } else { j with entry := some pos, reserving := false }
  let byHandle := (parseKref (if second then j.desc.param else j.desc.keyRef)) matches .handle _
  match (if second then j.key2 else j.key) with
  | none => (s, some j)
  | some k =>
    match have_.bind fun pos => (s.entryAt p i pos) with
    | some e => if e.filled then (s, some j)
                else (s.updJob p j.ring j.index fun j => { j with stage := .waitLines }, none)
    | none =>
      if byHandle then (s.fail p j .keyGone, none)
      else
      match s.cached p i k with
      | some e =>
        let s := (s.updEntry p i e.pos fun e => { e with lastUse := s.clock }).updJob p j.ring j.index fun j => setE j e.pos
        if e.filled then (s, some (setE j e.pos))
        else (s.updJob p j.ring j.index fun j => { j with stage := .waitLines }, none)
      | none =>
        let n := keyLines k.alg k.material.length
        let cost := fillCost k.alg
        match s.reserve p i n j.reserving with
        | (s, .quota) => (s.fail p j .quota, none)
        | (s, .wait) => (s.waitLines p j, none)
        | (s, .got) =>
          if cost = 0 then
            match s.newEntry p i n k true with
            | (s, some pos) => (s.updJob p j.ring j.index fun j => setE j pos, some (setE j pos))
            | (s, none) => (s.waitLines p j, none)
          else
            if (s.freeLane p).isSome && s.windowFree p i && decide (0 < (s.bucketsNow p i).pk) then
              match s.newEntry p i n k false with
              | (s, some pos) => ((s.updJob p j.ring j.index fun j => setE j pos).beginFill p i j cost, none)
              | (s, none) => (s.waitLines p j, none)
            else (s.waitLines p j, none)

/-- The rest of check 4 and the checks after it, once every KREF has named its key. -/
def State.afterResolve (s : State) (p : Plate) (j : Job) : State :=
  let i := (ringSlice j.ring).getD 0
  if !usesCache j.desc then s.checks567 p j
  else match s.needEntry p j false with
    | (s, none) => s
    | (s, some j) =>
      match j.key with
      | some k =>
        if s.exhaustedNow p i j k then (s.noteExhausted p k).fail p j .keyExhausted
        else match s.needEntry p j true with
          | (s, none) => s
          | (s, some j) => s.checks567 p j
      | none => s.checks567 p j

/-- A slug KREF is to be read: its header is asked for (step 1 of Table 6.17). -/
def State.askSlug (s : State) (p : Plate) (j : Job) (addr : Nat) : State :=
  (s.updJob p j.ring j.index fun j => { j with stage := .resolving }).issueRead p j.ring (.slug j.ring j.index)
    (BitVec.ofNat 64 addr) 48

/-- Check 4 of one KREF: a slot or handle names its key at once, a slug must be read. -/
def State.resolveRef (s : State) (p : Plate) (i : Nat) (ref : DWord) : State × Except Status (Option (Key × Option Nat)) :=
  match parseKref ref with
  | .slot n => match s.resolveSlot p i n with
    | (s, .ok k) => (s, .ok (some (k, none)))
    | (s, .error e) => (s, .error e)
  | .handle h => match s.resolveHandle p i h with
    | .ok (k, pos) => (s, .ok (some (k, some pos)))
    | .error e => (s.readKey p i (((s.pl p).vlt.cache.find? fun e => e.slice == i && e.handle == some h).bind
        fun e => e.key.ledger), .error e)
  | .slug _ => (s, .ok none)
  | .bad => (s, .error .range)

/-- The host address in a slug KREF. -/
def slugAddr (ref : DWord) : Nat := ref.toNat % 2 ^ 62

/-- The second KREF of KEY_EXPORT_WRAPPED, in param (R182). -/
def State.resolve2 (s : State) (p : Plate) (j : Job) : State :=
  let i := (ringSlice j.ring).getD 0
  if j.desc.op == 0x36 && j.key2.isNone then
    match s.resolveRef p i j.desc.param with
    | (s, .error e) => s.fail p j e
    | (s, .ok none) => s.askSlug p j (slugAddr j.desc.param)
    | (s, .ok (some (k, pos))) =>
      (s.updJob p j.ring j.index fun j => { j with key2 := some k, entry2 := pos }).afterResolve p
        { j with key2 := some k, entry2 := pos }
  else s.afterResolve p j

/-- What KEY_ERASE needs of its KREF: a handle's entry, or the item in ACTIVE; a slot whose tag fails on both copies is
erased unread (R187). -/
def State.resolveErase (s : State) (p : Plate) (j : Job) : State :=
  let i := (ringSlice j.ring).getD 0
  match parseKref j.desc.keyRef with
  | .slot n =>
    match s.targetSlot p i n with
    | (s, .error _) => s.checks567 p j
    | (s, .ok _) => match s.resolveSlot p i n with
      | (s, .ok k) =>
        (s.updJob p j.ring j.index fun j => { j with key := some k }).checks567 p { j with key := some k }
      | (s, .error e) => s.fail p j e
  | .handle h => match (s.pl p).vlt.cache.find? fun e => e.slice == i && e.handle == some h && !e.ended with
    | some e =>
      let j' := { j with key := some e.key, entry := some e.pos }
      (s.updJob p j.ring j.index fun _ => j').checks567 p j'
    | none => s.fail p j .keyGone
  | .slug a => s.askSlug p j a
  | .bad => s.fail p j .range

/-- Checks 4 to 7 of a job that passed checks 1 to 3 (R40). -/
def State.checks47 (s : State) (p : Plate) (j : Job) : State :=
  let i := (ringSlice j.ring).getD 0
  let d := j.desc
  if d.op == 0x32 then s.resolveErase p j
  else if d.op == 0x30 && !d.toSlug then
    match parseKref d.keyRef with
    | .slot n => match s.freeTarget p i n d.al with
      | (s, some e) => s.fail p j e
      | (s, none) => s.checks567 p j
    | _ => s.fail p j .range
  else if keyless d then
    if (d.op == 0x30 || d.op == 0x31) && !((s.pl p).vlt.recs.get {} i).tagOk then
      (s.readKey p i none).fail p j .keyBad
    else s.checks567 p j
  else match s.resolveRef p i d.keyRef with
    | (s, .error e) => s.fail p j e
    | (s, .ok none) => s.askSlug p j (slugAddr d.keyRef)
    | (s, .ok (some (k, pos))) =>
      (s.updJob p j.ring j.index fun j => { j with key := some k, entry := pos }).resolve2 p
        { j with key := some k, entry := pos }

/-! ## Slugs (Table 6.16, Table 6.17) -/

/-- The key a slug header describes; its material is found at step 7. -/
def slugKey (h : Bytes) : Key :=
  { alg := leAt h 0x01 1, attr := BitVec.ofNat 32 (leAt h 0x04 4), gen := BitVec.ofNat 32 (leAt h 0x08 4),
    ledger := some (leAt h 0x0C 4), kit := BitVec.ofNat 32 (leAt h 0x10 4), created := leAt h 0x24 6, src := .slug h }

/-- Step 2 of Table 6.17. -/
def slugHeaderOk (h : Bytes) (i : Nat) : Bool :=
  leAt h 0x00 1 == 1 && leAt h 0x02 2 == i && materialLenOk (leAt h 0x01 1) (leAt h 0x14 4) && leAt h 0x2A 2 == 0 &&
  leAt h 0x2C 4 == 0

/-- The 48 bytes of a slug header (Table 6.16). -/
def slugHeader (k : Key) (i mlen : Nat) (nonce : Bytes) : Bytes :=
  leBytes 1 1 ++ leBytes 1 k.alg ++ leBytes 2 i ++ leBytes 4 k.attr.toNat ++ leBytes 4 k.gen.toNat ++
  leBytes 4 (k.ledger.getD 0) ++ leBytes 4 k.kit.toNat ++ leBytes 4 mlen ++ fit 12 nonce ++ leBytes 8 (k.created % 2 ^ 48) ++
  zeros 4

/-- A slug: header, wrapped material and tag (R160). -/
def makeSlug (trk : Bytes) (k : Key) (i : Nat) (nonce : Bytes) : Bytes :=
  let h := slugHeader k i k.material.length nonce
  h ++ fit (k.material.length + 16) (Config.sivSeal trk (fit 12 nonce) h k.material)

/-- The slug's key once its material is open, in the place of key_ref or of param. -/
def State.slugResolved (s : State) (p : Plate) (j : Job) (k : Key) : State :=
  if j.key.isSome then
    (s.updJob p j.ring j.index fun j => { j with key2 := some k }).afterResolve p { j with key2 := some k }
  else
    (s.updJob p j.ring j.index fun j => { j with key := some k }).resolve2 p { j with key := some k }

/-- The address of the slug that a resolving job reads: that of key_ref, then that of param. -/
def Job.slugAt (j : Job) : Nat := slugAddr (if j.key.isSome then j.desc.param else j.desc.keyRef)

/-- Step 6 of Table 6.17: wrapped material and tag, `mlen` + 16 bytes after the header, are read under the slice's PASID. -/
def State.askMaterial (s : State) (p : Plate) (j : Job) (k : Key) (mlen : Nat) : State :=
  (s.updJob p j.ring j.index fun j => { j with slug := some k }).issueRead p j.ring (.slug j.ring j.index)
    (BitVec.ofNat 64 (j.slugAt + 48)) (mlen + 16)

/-- Step 7 of Table 6.17: the material opens under TRK, or KEY_BAD. -/
def State.openSlug (s : State) (p : Plate) (j : Job) (k : Key) (material : Dma) : State :=
  let i := (ringSlice j.ring).getD 0
  let h := match k.src with
    | .slug h => h
    | _ => []
  let s := s.updJob p j.ring j.index fun j => { j with slug := none }
  match material with
  | .fault => s.fail p j .dmaFault
  | .ok w => match Config.sivOpen (s.trk p i) (cut h 0x18 12) h (fit (leAt h 0x14 4 + 16) w) with
    | some m => s.slugResolved p { j with slug := none } { k with material := fit (leAt h 0x14 4) m }
    | none => s.fail p j .keyBad

/-- Steps 1 to 5 of Table 6.17 with the header that its read returned; step 6 reads the material. KEY_ERASE runs steps 1 to 4
only (R187). -/
def State.resolveSlug (s : State) (p : Plate) (j : Job) (header : Dma) : State :=
  let i := (ringSlice j.ring).getD 0
  match header with
  | .fault => s.fail p j .dmaFault
  | .ok b =>
    let h := fit 48 b
    let k := slugKey h
    if !((s.pl p).vlt.recs.get {} i).tagOk || !slugHeaderOk h i then (s.readKey p i none).fail p j .keyBad
    else match s.checkLedger p i k.ledger true k.gen with
      | some e => (s.readKey p i k.ledger).fail p j e
      | none =>
        if j.desc.op == 0x32 then
          (s.updJob p j.ring j.index fun j => { j with key := some k }).checks567 p { j with key := some k }
        else if !s.hasTrk p i then s.fail p j .keyGone
        else match s.cached p i k with
          | some e => s.slugResolved p j e.key
          | none => s.askMaterial p j k (leAt h 0x14 4)

end Sys2Proof.Machine
end

