-- ==== Sys2Proof/Machine/Rings.lean ====
section
/-! DEFINITION. The ring engine: doorbells, nudges, cancels, descriptor fetch, the admin doorbell, enabling, draining and
clearing rings (02 R34 to R58). -/

namespace Sys2Proof.Machine

/-! ## Polling (R34 to R38) -/

/-- DBP_BOUNDS.MIN. -/
def Slices.pollMin (x : Slices) : Nat := x.dbpBounds.toNat % 65536
/-- DBP_BOUNDS.MAX. -/
def Slices.pollMax (x : Slices) : Nat := x.dbpBounds.toNat / 65536

/-- Whether plate `p` fetches for slice `i`: its serving home, the slice ACTIVE, and a PASID bound (R24, R209). -/
def State.fetches (s : State) (p : Plate) (i : Nat) : Bool :=
  s.homes p i && (s.impo p i).st == .active && (s.pasid p i).isSome

/-- Whether ring r of slice `i` takes producer indices: enabled, in service, not draining. -/
def Ring.takesP (r : Ring) : Bool := r.enabled && r.active && !r.draining

/-- Whether slice `i` has an enabled ring. -/
def State.anyRing (s : State) (p : Plate) (i : Nat) : Bool :=
  (List.range 16).any fun r => (s.ring p (.tenant i r)).takesP

/-- One doorbell read of slice `i` begins, on the timer or after a nudge (R34, R35, R38). -/
def State.readDoorbell (s : State) (p : Plate) (i : Nat) (timer : Bool) : State :=
  let db := ((s.pl p).sl.regs.get {} i).db
  let s := s.updSl p fun x => { x with
    poll := x.poll.mod {} i fun q => { q with reading := q.reading + 1, lastRead := s.clock }
    dbpLog := recentPolls s p ++ [(s.clock, timer)] }
  s.issueRead p (.tenant i 0) (.doorbell i) db 64

/-- Whether the timer asks for a read of slice `i` now: homed, with an enabled ring, and its interval has passed (R34). -/
def State.pollDue (s : State) (p : Plate) (i : Nat) : Bool :=
  let q := (s.pl p).sl.poll.get {} i
  s.fetches p i && s.anyRing p i && q.reading == 0 && s.past q.lastRead (max q.interval (s.pl p).sl.pollMin)

/-- Whether slice `j` is served ahead of slice `i` when the reads that are due exceed the cap: the longest idle wait. -/
def Slices.busier (x : Slices) (j i : Nat) : Bool :=
  let a := (x.poll.get {} j).idleFrom
  let b := (x.poll.get {} i).idleFrom
  decide (b < a) || (a == b && decide (j < i))

/-- Whether the cap of 2 % leaves room for the read of slice `i` that is due, after the reads due of busier slices (R35). -/
def State.pollFits (s : State) (p : Plate) (i : Nat) : Bool :=
  let x := (s.pl p).sl
  let spent := ((recentPolls s p).filter Prod.snd).length
  let ahead := (x.impo.filter fun e => s.pollDue p e.1 && x.busier e.1 i).length
  decide (spent + ahead < (s.pl p).pow.pollCap)

/-- DOORBELL_POLL (R34, R35): a slice whose read is due is read; where the cap has no room for it, its interval is lengthened
beyond DBP_BOUNDS.MAX instead (log 11). -/
def execDoorbellPoll (p : Plate) (i : Nat) (s : State) : Host.Outcome State Fault Refusal :=
  .next (if !s.pollDue p i then s
    else if s.pollFits p i then s.readDoorbell p i true
    else s.updSl p fun x => { x with poll := x.poll.mod {} i fun q => { q with interval := 2 * max q.interval x.pollMax } })

/-- The producer index `v` read for a ring (R36): RING_FAULT reason 1 or 2, or accepted, and the descriptors that it adds are
read. An index below one accepted before, and not below F, adds none and takes none back (R33). -/
def State.takeP (s : State) (p : Plate) (q : RingRef) (v : Word) : State :=
  let g := s.ring p q
  if g.size < dist v g.low then s.ringFault p q 1 v
  else if g.size < dist v g.fetched then s.ringFault p q 2 v
  else if dist v g.fetched ≤ dist g.prod g.fetched then s
  else
    let s := s.updRing p q fun g => { g with prod := v }
    s.each (List.range (dist v g.prod)) fun s k =>
      let i := g.prod + BitVec.ofNat 32 k
      s.issueRead p q (.descriptor q i) (g.sqEntry i) 64

/-- The interval after a read: MIN after a change, else doubled up to MAX (R34). -/
def Slices.nextInterval (x : Slices) (q : Poll) (changed : Bool) : Nat :=
  if changed then x.pollMin else min x.pollMax (2 * max q.interval x.pollMin)

/-- A doorbell read of slice `i` ended without data: every ring taking producer indices faults with reason 3 (R48). -/
def State.doorbellFault (s : State) (p : Plate) (i : Nat) : State :=
  s.each (List.range 16) fun s r =>
    let g := s.ring p (.tenant i r)
    if g.takesP && !g.faulted then s.ringFault p (.tenant i r) 3 g.fetched else s

/-- The producer indices that a doorbell line shows are noted, to be compared with the next read (R34). -/
def State.noteLine (s : State) (p : Plate) (i : Nat) (b : Bytes) : State :=
  s.each (List.range 16) fun s r =>
    if (s.ring p (.tenant i r)).takesP then
      s.updRing p (.tenant i r) fun g => { g with lastP := BitVec.ofNat 32 (leAt b (4 * r) 4) }
    else s

/-- A doorbell read of slice `i` ended with its line or without data (R36). A producer index changed if it differs from the one
that the read before showed (R34). -/
def State.doorbellDone (s : State) (p : Plate) (i : Nat) (line : Dma) : State :=
  let changed := match line with
    | .ok b => (List.range 16).any fun r =>
        (s.ring p (.tenant i r)).takesP && leAt b (4 * r) 4 != (s.ring p (.tenant i r)).lastP.toNat
    | .fault => false
  let s := match line with
    | .ok b => s.noteLine p i b
    | .fault => s
  let s := (s.retireFirst p (.doorbell i)).updSl p fun x => { x with
    poll := x.poll.mod {} i fun q => { q with
      reading := q.reading - 1, interval := x.nextInterval q changed, idleFrom := if changed then s.clock else q.idleFrom } }
  if !s.fetches p i then s
    else match line with
      | .ok b => s.each (List.range 16) fun s r =>
          let g := s.ring p (.tenant i r)
          if g.takesP && !g.faulted then s.takeP p (.tenant i r) (BitVec.ofNat 32 (leAt b (4 * r) 4)) else s
      | .fault => s.doorbellFault p i

/-- DOORBELL_READ_DONE (R36). -/
def execDoorbellReadDone (p : Plate) (i : Nat) (line : Dma) (s : State) : Host.Outcome State Fault Refusal :=
  .next (if ((s.pl p).sl.poll.get {} i).reading != 0 then s.doorbellDone p i line else s)

/-- A NUDGE accepted at the home plate: the interval returns to MIN and a read of the whole line starts (R38). -/
def State.nudgeHome (s : State) (p : Plate) (i : Nat) : State :=
  let s := s.updSl p fun x => { x with poll := x.poll.mod {} i fun q => { q with interval := x.pollMin } }
  if s.fetches p i && s.anyRing p i then s.readDoorbell p i false else s

/-- NUDGE (R37, R38): a 4-byte write at offset 0 with the reserved bits zero; at the other plate it is forwarded. -/
def execNudge (p : Plate) (i offset size : Nat) (value : DWord) (s : State) : Host.Outcome State Fault Refusal :=
  .next (if offset != 0 || size != 4 || decide (2 ^ 16 ≤ value.toNat) || (s.impo p i).st = .free || !s.up p then s
    else if (s.impo p i).home = p then s.nudgeHome p i
    else s.send p (.nudge i))

/-- NUDGE_FORWARD_ARRIVE (R38): a forwarded NUDGE takes effect at the home plate. -/
def execNudgeForwardArrive (p : Plate) (s : State) : Host.Outcome State Fault Refusal :=
  match s.receive p (fun m => match m with
    | .nudge i => some i
    | _ => none) with
  | some (i, s) => .next (if (s.impo p i).home = p then s.nudgeHome p i else s)
  | none => .next s

/-! ## Cancellation (R49 to R52) -/

/-- The jobs of a ring that an arming fence completes at once: seals that wait for a lease (R50) and parked jobs (R131). -/
def State.cancelNow (s : State) (p : Plate) (q : RingRef) : State :=
  s.each ((s.pl p).sl.jobs.filter fun j => j.ring == q && (j.stage == .waitLease || j.stage == .parked))
    fun s j => if (s.ring p q).covers j.index then s.fail p j .cancelled else s

/-- Fence `f` arms for ring `q` if f − L ≤ size and it is higher than the armed one; otherwise CANCEL_BAD (R49). -/
def State.arm (s : State) (p : Plate) (q : RingRef) (f : Word) : State :=
  let g := s.ring p q
  let d := dist f g.low
  if g.size < d then s.updRing p q fun g => { g with cancelBad := true }
  else if d = 0 then s
  else match g.fence with
    | some o => if dist o g.low < d then (s.updRing p q fun g => { g with fence := some f }).cancelNow p q else s
    | none => (s.updRing p q fun g => { g with fence := some f }).cancelNow p q

/-- The non-home plate keeps every CANCEL of the slice; which of them still lies above L is decided when it becomes the home
(R52). -/
def State.keepCancel (s : State) (p : Plate) (i r : Nat) (f : Word) : State :=
  s.updSl p fun x => { x with cancels := x.cancels.mod [] (ringKey i r) fun l => if l.contains f then l else l ++ [f] }

/-- Whether the state of slice `i` is already on its way to plate `n` (Table 9.9 step 3). -/
def State.movedSent (s : State) (n : Plate) (i : Nat) : Bool :=
  (s.pl n).pr.pending.any (fun e => e.1 == i) || (s.gut n).any fun m => match m with
    | .moved _ m => m.slice == i
    | _ => false

/-- CANCEL (R37, R49, R51, R52): one aligned 8-byte write at offset 8 with bits [63:36] zero. While the slice moves its fence is
sent on to the new home, which alone applies it once the state has been sent (Table 9.9). -/
def execCancel (p : Plate) (i offset size : Nat) (value : DWord) (s : State) : Host.Outcome State Fault Refusal :=
  let r := (value.toNat / 2 ^ 32) % 16
  let f := BitVec.ofNat 32 value.toNat
  .next (if offset != 8 || size != 8 || decide (2 ^ 36 ≤ value.toNat) || (s.impo p i).st = .free || !s.up p then s
    else if (s.impo p i).home = p then
      let s := if s.movedSent p.peer i then s else s.arm p (.tenant i r) f
      if (s.impo p i).st = .moving then s.send p (.cancel i r f) else s
    else (s.keepCancel p i r f).send p (.cancel i r f))

/-- CANCEL_FORWARD_ARRIVE (R51): a forwarded CANCEL arms at the home plate; the new home of a slice in MOVING keeps it
(Table 9.9). -/
def execCancelForwardArrive (p : Plate) (s : State) : Host.Outcome State Fault Refusal :=
  match s.receive p (fun m => match m with
    | .cancel i r f => some (i, r, f)
    | _ => none) with
  | some ((i, r, f), s) => .next (if (s.impo p i).home = p && !s.movedSent p.peer i then s.arm p (.tenant i r) f else s.keepCancel p i r f)
  | none => .next s

/-! ## Descriptor fetch (R39, R40) -/

/-- Admin opcodes that hardware carries out without firmware (R324). -/
def hardwareAdmin (op : Nat) : Bool := op == 0x90 || op == 0x91

/-- Whether an admin descriptor proceeds in this lifecycle (R253, R296). -/
def lifecycleAdmits (lc : Byte) (ko : Bool) (op : Nat) : Bool :=
  if lc = 0x66 then op == 0x50
  else if lc = 0x55 || ko then op == 0x50 || op == 0x84 || op == 0x85 || op == 0x87 || op == 0x8D
  else true

/-- The reads of an admin command's input and of its second operand (R24). -/
def adminReads (d : Desc) : List (DWord × Nat) :=
  (if d.inLen != 0 then [(d.inAddr, d.inLen.toNat)] else []) ++
  (if d.op == 0x8D && d.aadLen != 0 then [(d.aadAddr, d.aadLen.toNat)] else [])

/-- A descriptor of the admin ring that passed checks 1 to 3 (R323, R325): its reads are issued, and it joins the queue; under
mixed firmware past its 24 h only FW_SWAP and FW_MAKEREADY proceed (R230). -/
def State.acceptAdmin (s : State) (p : Plate) (j : Job) : State :=
  let m := (s.pl p).mgt
  if (s.pl p).pr.mixed && !(j.desc.op == 0x88 || j.desc.op == 0x89) then s.fail p j .busy
  else if j.desc.op == 0x50 then s.checks47 p j
  else if hardwareAdmin j.desc.op then s.updJob p j.ring j.index fun j => { j with stage := .queued }
  else if m.sec != .running || decide (256 ≤ m.queue.length) then s.fail p j .busy
  else
    let s := s.each (adminReads j.desc) fun s r => s.issueRead p j.ring (.input j.ring j.index) r.1 r.2
    (s.updJob p j.ring j.index fun j => { j with stage := .queued }).setQueue p fun q => q ++ [j.index]

/-- The plate that first fetched descriptor `i` of a ring which plate `p` now serves (R56). -/
def Ring.fetcher (g : Ring) (p : Plate) (i : Word) : Plate :=
  match g.peerF with
  | some f => if dist i g.low < dist f g.low then p.peer else p
  | none => p

/-- A descriptor has been read: it becomes a job and runs the checks of Table 2.7; on a draining ring it is cancelled
(R55), and after knockout or retirement it completes with KNOCKOUT (R253, R296). -/
def State.fetched (s : State) (p : Plate) (q : RingRef) (i : Word) (d : Desc) : State :=
  let j : Job := { ring := q, index := i, desc := d, fetchedBy := (s.ring p q).fetcher p i }
  let slots := match q with
    | .tenant n _ => (s.quotaNow p n).slots
    | .admin => 0
  let s' := s.updSl p fun x => { x with jobs := x.jobs ++ [j] }
  if (s.ring p q).draining then s'.finishBatch p j { status := .cancelled }
  else if q == .admin && !lifecycleAdmits (s.lifecycle p) (s.pl p).tmp.ko d.op then s'.fail p j .knockout
  else match checks13 q slots d with
    | some st => s'.fail p j st
    | none => match q with
      | .admin => s'.acceptAdmin p j
      | .tenant _ _ => s'.checks47 p j

/-- A plate fetches for a ring: the serving home of its slice, or the plate itself for its admin ring. -/
def State.servesRing (s : State) (p : Plate) : RingRef → Bool
  | .tenant i _ => s.homes p i && (s.impo p i).st != .moving && (s.pasid p i).isSome
  | .admin => s.up p && (s.pl p).pow.ready && (s.pl p).pr.mode != .yielded && (s.pl p).flt.react != .isolated

/-- Whether descriptor `i` of a ring has its record or its job on plate `p` already, as after a hand-over or a takeover. -/
def State.settled (s : State) (p : Plate) (q : RingRef) (i : Word) : Bool :=
  ((s.ring p q).posted.any fun e => e.1 == i) || (s.job? p q i).isSome

/-- The first index from `i` on that is still to be fetched, below `e`. -/
def State.nextFetch (s : State) (p : Plate) (q : RingRef) (e : Word) : Nat → Word → Word
  | 0, i => i
  | fuel + 1, i => if i != e && s.settled p q i then s.nextFetch p q e fuel (i + 1) else i

/-- Indices that may be settled out of order: at most the ring's size. -/
def Ring.reach (g : Ring) : Nat := dist g.prod g.low

/-- One descriptor read of a ring ended; F passes it (R36, R40). A descriptor that cannot be read completes with
DMA_FAULT and cookie 0 (R48). -/
def State.fetchDone (s : State) (p : Plate) (q : RingRef) (data : Dma) : State :=
  let g := s.ring p q
  let i := g.fetched
  let s := (s.retireRead p (.descriptor q i)).updRing p q fun g =>
    { g with fetched := s.nextFetch p q g.prod g.reach (i + 1) }
  match data with
  | .ok b => s.fetched p q i (decodeDesc (fit 64 b))
  | .fault => s.post p q i none { status := .dmaFault } false (g.fetcher p i != p) g.draining

/-- Whether a descriptor of the ring may still be read: fetching stops after RING_FAULT (R48), but a draining ring reads every
submitted descriptor (R55). -/
def Ring.fetchOpen (g : Ring) : Bool := g.active && (!g.faulted || g.draining) && g.fetched != g.prod

/-- Reads of the submitted descriptors from F on that have no record, no job and no read (R33, R48). -/
def State.issueFetch (s : State) (p : Plate) (q : RingRef) : State :=
  let g := s.ring p q
  s.each (List.range (dist g.prod g.fetched)) fun s k =>
    let i := g.fetched + BitVec.ofNat 32 k
    if s.settled p q i || (s.pl p).sl.reads.any (fun e => e.1 == .descriptor q i) then s
    else s.issueRead p q (.descriptor q i) (g.sqEntry i) 64

/-- DESCRIPTOR_FETCH (R40): the read of the next descriptor in order returns. -/
def execDescriptorFetch (r : JobRef) (data : Dma) (s : State) : Host.Outcome State Fault Refusal :=
  let g := s.ring r.plate r.ring
  .next (if s.servesRing r.plate r.ring && g.fetchOpen && r.index == g.fetched
    then s.fetchDone r.plate r.ring data else s)

/-- The read that a resolving job waits for returned: its slug's material, or before it the header. -/
def State.slugRead (s : State) (p : Plate) (j : Job) (header material : Dma) : State :=
  let s := s.retireRead p (.slug j.ring j.index)
  match j.slug with
  | some k => s.openSlug p j k material
  | none => s.resolveSlug p j header

/-- SLUG_RESOLVE (R161): one read of Table 6.17 returns, the header's first and the material's after it. -/
def execSlugResolve (r : JobRef) (header material : Dma) (s : State) : Host.Outcome State Fault Refusal :=
  match s.jobAt r with
  | some j => .next (if j.stage == .resolving then s.slugRead r.plate j header material else s)
  | none => .next s

/-- LINE_RESERVE_RETRY (R64): a job that waits for lines, a fill or a free lane tries again. -/
def execLineReserveRetry (r : JobRef) (s : State) : Host.Outcome State Fault Refusal :=
  match s.jobAt r with
  | some j => .next (if j.stage == .waitLines then s.afterResolve r.plate j else s)
  | none => .next s

/-- FILL_DONE (R144): the fill's cost has passed on its lane; its entry is filled and the job goes on. -/
def execFillDone (r : JobRef) (s : State) : Host.Outcome State Fault Refusal :=
  match s.jobAt r with
  | some j =>
    let second := j.entry2.isSome
    let pos := (if j.desc.op == 0x33 then j.newPos else if second then j.entry2 else j.entry).getD 0
    let k := ((if second then j.key2 else j.key).getD {})
    if j.stage == .filling && s.past j.startedAt (fillCost k.alg) then
      let i := (ringSlice j.ring).getD 0
      let j' := { j with stage := .waitLines, unit := none, window := none }
      .next (((s.updEntry r.plate i pos fun e => { e with filled := true }).updJobAt r fun _ => j').afterResolve r.plate j')
    else .next s
  | none => .next s

/-- What a prefetch read gave, where the job asks for it. -/
def takeRead (d : Dma) (want : Bool) (n : Nat) : Option Bytes :=
  if want then (match d with
    | .ok b => some (fit n b)
    | .fault => none)
  else some []

/-- The lane inputs that returned (R373): none where one of those asked for failed. -/
def lanePrefetched (d : Desc) (x : Inputs) : Option (Bytes × Bytes × Bytes × Bytes) :=
  let wantIn := d.inLen != 0 && !messageMode d
  let wantAad := d.op != 0x23 && d.op != 0x30 && d.aadLen != 0
  let parLen := if d.op == 0x21 then signatureLen d.al else if (d.op == 0x34 || d.op == 0x50) && d.param != 0 then 32 else 0
  let wantPub := d.op == 0x21 && noKey d
  match takeRead x.inp wantIn d.inLen.toNat, takeRead x.aad wantAad d.aadLen.toNat, takeRead x.par (parLen != 0) parLen,
    takeRead x.pub wantPub (publicLen d.al) with
  | some a, some b, some c, some e => some (a, b, c, e)
  | _, _, _, _ => none

/-- A lane job's inputs have returned, or one of them failed: then it completes with DMA_FAULT before it starts (R373). -/
def State.prefetched (s : State) (p : Plate) (j : Job) (d : Inputs) : State :=
  let s := s.retireRead p (.input j.ring j.index)
  match lanePrefetched j.desc d with
  | some (a, b, c, e) => (s.joinClass p j .lane).updJob p j.ring j.index fun j =>
      { j with inp := a, aad := b, par := c, pub := e, prefetched := true }
  | none => s.fail p j .dmaFault

/-- INPUT_PREFETCH (R373). -/
def execInputPrefetch (r : JobRef) (d : Inputs) (s : State) : Host.Outcome State Fault Refusal :=
  match s.jobAt r with
  | some j => .next (if j.stage == .ready && j.cls == .lane && !j.prefetched then s.prefetched r.plate j d else s)
  | none => .next s

/-! ## FENCE (R53) -/

/-- FENCE: it completes with OK once every lower descriptor of its ring has its completion posted; an armed fence that
covers it cancels it, since it has not started before (Table 2.11). -/
def execFence (r : JobRef) (s : State) : Host.Outcome State Fault Refusal :=
  match s.jobAt r with
  | some j =>
    let g := s.ring r.plate r.ring
    .next (if j.stage == .queued && j.desc.op == 0x51 && g.low == r.index then
      s.finish r.plate j { status := if g.covers r.index then .cancelled else .ok } else s)
  | none => .next s

/-! ## Enabling and disabling (R54, R55, R57) -/

/-- Reserved bits of RING_CFG cleared. -/
def ringCfgMask : Word := 0x87FF031F
/-- Reserved bits of ADM_CFG cleared. -/
def admCfgMask : Word := 0x87FF001F

/-- Whether a job has started (Table 2.11, R55). -/
def Job.started (j : Job) : Bool :=
  j.begun || j.stage == .started || j.stage == .parked || j.stage == .restart || j.stage == .accepted || j.stage == .running ||
  j.stage == .commit || j.stage == .draining

/-- The ring goes out of service: started jobs go on, every other fetched descriptor completes with CANCELLED, and the
rest follow as they are read (R55). -/
def State.disableRing (s : State) (p : Plate) (q : RingRef) : State :=
  let s := s.updRing p q fun g => { g with cfg := g.cfg &&& 0x7FFFFFFF, draining := true }
  let s := if (s.ring p q).faulted then s.issueFetch p q else s
  s.each ((s.pl p).sl.jobs.filter fun j => j.ring == q && !j.started) fun s j =>
    s.finishBatch p j { status := .cancelled }

/-- A drained ring leaves service (R55). -/
def State.endDrain (s : State) (p : Plate) (q : RingRef) : State :=
  let g := s.ring p q
  if g.draining && g.fetched == g.prod && g.low == g.prod then
    s.updRing p q fun g => { g with draining := false, active := false }
  else s

/-- The ring goes into service: indices 0, no fence, L = 0 in the progress line (R54). -/
def State.enableRing (s : State) (p : Plate) (q : RingRef) (cfg : Word) : State :=
  let s := s.updRing p q fun g => { g with
    cfg := cfg, prod := 0, lastP := 0, fetched := 0, low := 0, count := 0, fence := none, posted := [], irqCount := 0,
    irqSince := none, active := true, peerF := none, clrFault := false, clrBad := false }
  match q with
  | .tenant i r => (s.updSl p fun x => { x with cancels := x.cancels.set [] (ringKey i r) [] }).writeProgress p i
  | .admin => s

/-- Whether a ring drains: on its home, which the peer learns across the gutter (R55, R57). -/
def State.ringDraining (s : State) (p : Plate) (i r : Nat) : Bool :=
  (s.ring p (.tenant i r)).draining ||
  ((s.impo p i).home != p && s.gutterUp p && (s.ring p.peer (.tenant i r)).draining)

/-- RING_CFG with ENABLE 0 → 1, 1 → 0, or its other fields, on the plate where it takes effect. While the ring drains there the
write is ignored (R55). The manual does not say whether a ring of a DRAINING slice may be enabled again: here ENABLE of one is
ignored (DESIGN CHOICE, log 111). -/
def State.applyRingCfg (s : State) (p : Plate) (i r : Nat) (v : Word) : State :=
  let q : RingRef := .tenant i r
  let g := s.ring p q
  let cfg := v &&& ringCfgMask
  let home := (s.impo p i).home == p
  if (s.impo p i).st = .free || g.draining then s
  else if v.getLsbD 31 then
    if g.enabled then s.updRing p q fun g => { g with cfg := (cfg &&& 0xFFFFFFE0) ||| (g.cfg &&& 0x1F) }
    else if (s.impo p i).st = .draining || (s.quotaNow p i).rings ≤ r || v.toNat % 32 < 6 || 16 < v.toNat % 32 ||
      (s.pl p).vlt.hold.isSome then s
    else if home then s.enableRing p q cfg
    else s.updRing p q fun g => { g with cfg := cfg }
  else if g.enabled then
    if home then
      (s.disableRing p q).updRing p q fun g => { g with cfg := (cfg &&& 0xFFFFFFE0) ||| (g.cfg &&& 0x1F) }
    else s.updRing p q fun g => { g with cfg := (cfg &&& 0xFFFFFFE0) ||| (g.cfg &&& 0x1F) }
  else s.updRing p q fun g => { g with cfg := cfg }

/-- Whether a write that R57 copies is accepted on plate `p`: while the gutter is lost only on the slice's home (R57). -/
def State.acceptsCopied (s : State) (p : Plate) (i : Nat) : Bool :=
  s.up p && (s.pl p).pow.ready && (s.gutterUp p || (s.impo p i).home == p)

/-- BAR0 offset of a field of a ring's set-up entry. -/
def ringOffset (i r o : Nat) : Nat := 0x400000 + ringKey i r * 0x20 + o

/-- A copied write is noted for the peer: it goes across the gutter, or waits until the gutter returns (R57). -/
def State.copyOut (s : State) (p : Plate) (offset size : Nat) (v : DWord) : State :=
  if s.gutterUp p then s.send p (.copy offset size v)
  else s.updPr p fun x => { x with held := x.held ++ [(offset, size, v)] }

/-- RING_ENABLE (R54, R57): RING_CFG written with ENABLE 1 on a ring that is not enabled. -/
def execRingEnable (p : Plate) (i r : Nat) (cfg : Word) (s : State) : Host.Outcome State Fault Refusal :=
  .next (if s.acceptsCopied p i && cfg.getLsbD 31 && !(s.ring p (.tenant i r)).enabled && !s.ringDraining p i r then
    (s.applyRingCfg p i r cfg).copyOut p (ringOffset i r 0x10) 4 (cfg.setWidth 64) else s)

/-- RING_DISABLE (R55, R57): RING_CFG written with ENABLE 0 on an enabled ring. -/
def execRingDisable (p : Plate) (i r : Nat) (cfg : Word) (s : State) : Host.Outcome State Fault Refusal :=
  .next (if s.acceptsCopied p i && !cfg.getLsbD 31 && (s.ring p (.tenant i r)).enabled && !s.ringDraining p i r then
    (s.applyRingCfg p i r cfg).copyOut p (ringOffset i r 0x10) 4 (cfg.setWidth 64) else s)

/-- Fetching resumes from F after a ring fault (R48), with the reads of what was submitted; the admin ring takes the ADM_PI that it
then holds (R36). -/
def State.clearFault (s : State) (p : Plate) (q : RingRef) : State :=
  if !(s.ring p q).faulted then s
  else
    let s := (s.updRing p q fun g => { g with faulted := false }).issueFetch p q
    if q == .admin && (s.ring p q).takesP then s.takeP p q (s.pl p).sl.admPi else s

/-- 1 written to FAULTED or CANCEL_BAD of a ring at plate `p`: it takes effect on the home, and a ring on its way to another plate
takes it with it (R48, R49, R57). -/
def State.clearRing (s : State) (p : Plate) (i r : Nat) (fault bad : Bool) : State :=
  let q : RingRef := .tenant i r
  if (s.impo p i).st = .moving && (s.impo p i).home != p then
    s.updRing p q fun g => { g with clrFault := g.clrFault || fault, clrBad := g.clrBad || bad }
  else
    let s := if bad then s.updRing p q fun g => { g with cancelBad := false } else s
    if fault then s.clearFault p q else s

/-- RING_FAULT_CLEAR (R48): 1 written to RING_STATE.FAULTED. -/
def execRingFaultClear (p : Plate) (i r : Nat) (s : State) : Host.Outcome State Fault Refusal :=
  .next (if s.acceptsCopied p i && (s.impo p i).st != .free then
    (s.clearRing p i r true false).copyOut p (ringOffset i r 0x18) 4 2 else s)

/-! ## The admin ring (02, Table 2.13) -/

/-- ADM_PI takes a producer index under R36 while the ring is in service. -/
def State.adminPi (s : State) (p : Plate) (v : Word) : State :=
  let s := s.updSl p fun x => { x with admPi := v }
  if (s.ring p .admin).takesP && !(s.ring p .admin).faulted then s.takeP p .admin v else s

/-- ADMIN_DOORBELL (R36). -/
def execAdminDoorbell (p : Plate) (pi : Word) (s : State) : Host.Outcome State Fault Refusal :=
  .next (if s.up p && (s.pl p).pow.ready then s.adminPi p pi else s)

/-- ADMIN_RING_ENABLE (R54): sizes 64 to 1,024. -/
def execAdminRingEnable (p : Plate) (cfg : Word) (s : State) : Host.Outcome State Fault Refusal :=
  let g := s.ring p .admin
  .next (if s.up p && (s.pl p).pow.ready && cfg.getLsbD 31 && !g.enabled && !g.draining &&
      decide (6 ≤ cfg.toNat % 32 ∧ cfg.toNat % 32 ≤ 10) && (s.pl p).vlt.hold.isNone then
    (s.enableRing p .admin (cfg &&& admCfgMask)).updSl p fun x => { x with admPi := 0 } else s)

/-- ADMIN_RING_DISABLE (R55): commands taken from the queue go on, every other submitted descriptor is cancelled. -/
def execAdminRingDisable (p : Plate) (cfg : Word) (s : State) : Host.Outcome State Fault Refusal :=
  let g := s.ring p .admin
  if s.up p && (s.pl p).pow.ready && !cfg.getLsbD 31 && g.enabled && !g.draining then
    let s := (s.disableRing p .admin).setQueue p fun _ => []
    .next (s.updRing p .admin fun g => { g with cfg := (cfg &&& admCfgMask &&& 0xFFFFFFE0) ||| (g.cfg &&& 0x1F) })
  else .next s

/-- ADMIN_FAULT_CLEAR (R48): 1 written to ADM_STATE.FAULTED; fetching resumes from F. -/
def execAdminFaultClear (p : Plate) (s : State) : Host.Outcome State Fault Refusal :=
  .next (if s.up p && (s.pl p).pow.ready then s.clearFault p .admin else s)

end Sys2Proof.Machine
end

