-- ==== Sys2Proof/Machine/Sched.lean ====
section
/-! DEFINITION. Scheduling: deficit round robin, starts, the resume queue, parking, and the justifier's clock (03 R70 to R74,
R372; 05 R105, R119 to R131; 06 R188; 08 R206). -/

namespace Sys2Proof.Machine

/-! ## Classes (Table 3.7) -/

/-- Base quantum q. -/
def quantum : EngClass → Nat
  | .lane => 64
  | .cipher => 16384
  | .random => 4096
  | .vault => 1

/-- A slice's weight in a class (SLC_WEIGHT). -/
def State.weight (s : State) (p : Plate) (c : EngClass) (i : Nat) : Nat :=
  let w := ((s.pl p).sl.regs.get {} i).weight.toNat
  if i = 4096 then 16 else match c with
    | .lane => w % 256
    | .cipher => w / 2 ^ 8 % 256
    | .random => w / 2 ^ 16 % 256
    | .vault => w / 2 ^ 24

/-- The scheduler of a class. -/
def Slices.sched (x : Slices) : EngClass → Sched
  | .lane => x.lane
  | .cipher => x.cipher
  | .random => x.random
  | .vault => x.vault

/-- The state with a class's scheduler replaced. -/
def State.setSched (s : State) (p : Plate) (c : EngClass) (v : Sched) : State :=
  s.updSl p fun x => match c with
    | .lane => { x with lane := v }
    | .cipher => { x with cipher := v }
    | .random => { x with random := v }
    | .vault => { x with vault := v }

/-- Whether slice `i`'s bucket of a class is above 0 (R70); the vault class has none. -/
def State.levelUp (s : State) (p : Plate) (c : EngClass) (i : Nat) : Bool :=
  let b := s.bucketsNow p i
  if i = 4096 then true else match c with
    | .lane => decide (0 < b.pk)
    | .cipher => decide (0 < b.ci)
    | .random => decide (0 < b.rn)
    | .vault => true

/-- The bucket of a class charged at a start (R72, R123). -/
def State.charge (s : State) (p : Plate) (c : EngClass) (i n : Nat) : State :=
  let b := s.bucketsNow p i
  if i = 4096 then s else match c with
    | .lane => s.setBuckets p i { b with pk := b.pk - Int.ofNat n * 1000000 }
    | .cipher => s.setBuckets p i { b with ci := b.ci - Int.ofNat n * 1000000 }
    | .random => s.setBuckets p i { b with rn := b.rn - Int.ofNat n * 1000000 }
    | .vault => s

/-! ## Units -/

/-- The lowest cipher engine in service and free. -/
def State.freeEngine (s : State) (p : Plate) : Option Nat :=
  (List.range 8).find? fun n => (s.pl p).sl.engines.getLsbD n &&
    !((s.pl p).sl.jobs.any fun j => j.cls == .cipher && j.stage == .started && j.unit == some n)

/-- The hash path, where it is in service and free. -/
def State.freeHash (s : State) (p : Plate) : Option Nat :=
  if (s.pl p).sl.hash && !((s.pl p).sl.jobs.any fun j => j.cls == .cipher && j.stage == .started && j.unit == some 8) then
    some 8 else none

/-- A free unit for a job: a lane, an engine or the hash path, its slice's DRBG instance, a place among the 64 accepted
vault jobs (R70, R202, R372). -/
def State.unitFor (s : State) (p : Plate) (j : Job) : Option Nat :=
  match j.cls with
  | .lane => s.freeLane p
  | .cipher => if j.desc.op == 0x18 then s.freeHash p else s.freeEngine p
  | .random =>
    if (s.pl p).sl.jobs.any fun k => k.cls == .random && k.stage == .started && roundKey k.ring == roundKey j.ring then
      none else some 0
  | .vault =>
    if ((s.pl p).sl.jobs.filter fun k => k.cls == .vault && k.ring != .admin &&
        (k.stage == .accepted || k.stage == .commit || k.stage == .draining)).length < 64 then some 0 else none

/-! ## Readiness and the round (R70) -/

/-- Whether a FENCE below a job has not completed (R53). -/
def State.behindFence (s : State) (p : Plate) (j : Job) : Bool :=
  let low := (s.ring p j.ring).low
  (s.pl p).sl.jobs.any fun f => f.ring == j.ring && f.desc.op == 0x51 && f.stage == .queued &&
    decide (dist f.index low < dist j.index low)

/-- Whether a started job of a ring may go on with a further step: also while its slice is in MOVING (Table 9.9 step 2). -/
def State.goesOn (s : State) (p : Plate) : RingRef → Bool
  | .tenant i _ => s.homes p i && (s.pasid p i).isSome
  | .admin => s.servesRing p .admin

/-- What random output says at a job's start step (R196, R206): `none` go on; `some false` wait for start-up or for the takeover;
`some true` ENTROPY_HALT. -/
def State.entropyAtStart (s : State) (p : Plate) (j : Job) : Option Bool :=
  if !needsRandom j.desc.op || (s.pl p).rng.st = .serving then none
  else if (s.pl p).rng.st = .startUp then some false
  else if s.peerInService p && (s.pl p.peer).rng.st != .halted then some false
  else some true

/-- Whether a checked job's turn in its class has come: its inputs are there (R373), no FENCE below it is open (R53), its
plate serves its ring, and the random values that it needs do not wait for start-up or for a takeover (R196, R206). -/
def State.mayGo (s : State) (p : Plate) (j : Job) : Bool :=
  if j.begun then s.goesOn p j.ring
  else (j.cls != .lane || j.prefetched) && !s.behindFence p j && s.servesRing p j.ring &&
    s.entropyAtStart p j != some false

/-- Whether a job waits for its class and may start. -/
def State.waits (s : State) (p : Plate) (c : EngClass) (j : Job) : Bool := j.stage == .ready && j.cls == c && s.mayGo p j

/-- The job of a list with the lowest index above L. -/
def lowestJob (low : Word) (l : List Job) : Option Job :=
  l.foldl (fun b j => match b with
    | none => some j
    | some b => if dist j.index low < dist b.index low then some j else some b) none

/-- The next waiting job of one ring: of its checked jobs of the class the one with the lowest index, once it may start. No job
of a higher index overtakes it (R70). -/
def State.nextOfRing (s : State) (p : Plate) (c : EngClass) (q : RingRef) : Option Job :=
  match lowestJob (s.ring p q).low ((s.pl p).sl.jobs.filter fun j => j.ring == q && j.stage == .ready && j.cls == c) with
  | some j => if s.mayGo p j then some j else none
  | none => none

/-- The next waiting job of slice `i`: its rings take turns from ring `t`. -/
def State.nextOfSlice (s : State) (p : Plate) (c : EngClass) (i t : Nat) : Option Job :=
  if i = 4096 then s.nextOfRing p c .admin
  else (List.range 16).findSome? fun k => s.nextOfRing p c (.tenant i ((t + k) % 16))

/-- Whether a slice is ready in a class: a waiting job, its bucket above 0, and for a lane job a free window. -/
def State.sliceReady (s : State) (p : Plate) (c : EngClass) (i : Nat) : Bool :=
  (s.nextOfSlice p c i 0).isSome && s.levelUp p c i && (c != .lane || i == 4096 || s.windowFree p i)

/-- The slices ready in a class. -/
def State.readySlices (s : State) (p : Plate) (c : EngClass) : List Nat :=
  (((s.pl p).sl.jobs.filter fun j => j.stage == .ready && j.cls == c).map fun j => roundKey j.ring).eraseDups.filter
    fun i => s.sliceReady p c i

/-- The ready slice that follows `last` in the round. DESIGN CHOICE (log 21): the manual states no order of the slices; the round
goes by ascending slice index, cyclically after the slice visited last. -/
def nextInRound (last : Nat) (l : List Nat) : Option Nat :=
  l.foldl (fun b i => match b with
    | none => some i
    | some b => if (i + 4096 - last) % 4097 < (b + 4096 - last) % 4097 then some i else some b) none

/-- The ring number that takes its slice's turns. -/
def turnRing : RingRef → Nat
  | .tenant _ r => r
  | .admin => 0

/-- A visit to slice `i` begins: its deficit grows by weight × q, unless its last visit was passed over with what it had added
(R70, R74, log 21). -/
def Sched.visit (d : Sched) (i add : Nat) : Sched :=
  if d.passed.contains i then { d with visiting := some i, passed := d.passed.filter (· != i) }
  else { d with visiting := some i, deficit := d.deficit.set 0 i (d.deficit.get 0 i + add) }

/-- One pass of the round until a job may start: the scheduler after it, and the job (R70). A slice whose next job finds no unit
is passed over and keeps its deficit; each start subtracts its cost (`State.startOn`). -/
def State.pick (s : State) (p : Plate) (c : EngClass) (ready : List Nat) : Nat → Sched → Sched × Option Job
  | 0, d => (d, none)
  | fuel + 1, d =>
    match d.visiting with
    | some i =>
      if !ready.contains i then s.pick p c ready fuel { d.forget i with visiting := none, last := i }
      else match s.nextOfSlice p c i (d.turn.get 0 i) with
        | none => (d, none)
        | some j =>
          if c != .lane && (s.unitFor p j).isNone then
            s.pick p c ready fuel { d with visiting := none, last := i, passed := d.passed ++ [i] }
          else if d.deficit.get 0 i < j.cost then s.pick p c ready fuel { d with visiting := none, last := i }
          else ({ d with turn := d.turn.set 0 i ((turnRing j.ring + 1) % 16) }, some j)
    | none => match nextInRound d.last ready with
      | none => (d, none)
      | some i => s.pick p c ready fuel (d.visit i (s.weight p c i * quantum c))

/-- The scheduler's choice of the job to start next in a class; slices that stopped being ready lose their deficit. -/
def State.choose (s : State) (p : Plate) (c : EngClass) : State × Option Job :=
  let ready := s.readySlices p c
  let d := (s.pl p).sl.sched c
  let d := { d with deficit := d.deficit.filter (fun e => ready.contains e.1), passed := d.passed.filter ready.contains }
  let jobs := ready.filterMap fun i => s.nextOfSlice p c i (d.turn.get 0 i)
  if c != .lane && jobs.all fun j => (s.unitFor p j).isNone then (s.setSched p c d, none)
  else
    let fuel := (2 * ready.length + 2) * ((jobs.map Job.cost).foldl max 0 / quantum c + 3)
    let (d, j) := s.pick p c ready fuel d
    (s.setSched p c d, j)

/-! ## The start step -/

/-- The item that a KEY_ERASE job names. -/
def eraseItem (j : Job) : Option ItemRef :=
  let i := (ringSlice j.ring).getD 0
  match parseKref j.desc.keyRef with
  | .slot n => some (.slot i n)
  | .slug _ => (j.key.bind Key.ledger).map fun k => .ledger k
  | .handle _ => j.entry.map fun pos => .handle i pos
  | .bad => none

/-- Whether a KEY_ERASE has been accepted and its item is in ERASING (Table 7.10 step 2). -/
def Job.erasing (e : Job) : Bool :=
  e.desc.op == 0x32 && ((e.stage == .accepted && e.result.isNone) || e.stage == .commit || e.stage == .draining)

/-- Whether an accepted KEY_ERASE has put a slot in ERASING (Table 7.10, R190). -/
def State.slotErasing (s : State) (p : Plate) (i n : Nat) : Bool :=
  (s.slotAt p i n).st == .erasing ||
  (s.pl p).sl.jobs.any fun e => e.erasing && ringSlice e.ring == some i && parseKref e.desc.keyRef == .slot n

/-- Whether another KEY_ERASE has already put this job's item in ERASING. -/
def State.alreadyErasing (s : State) (p : Plate) (j : Job) : Bool :=
  (s.pl p).sl.jobs.any fun e => e.erasing && !(e.ring == j.ring && e.index == j.index) && eraseItem e == eraseItem j &&
    (eraseItem j).isSome

/-- Whether the handle that a reference names stands at a position: all 64 bits of the entry's value (R146). -/
def State.handleStands (s : State) (p : Plate) (i pos : Nat) (ref : DWord) : Bool :=
  match s.entryAt p i pos, parseKref ref with
  | some e, .handle h => !e.ended && e.handle == some h
  | some e, _ => !e.ended
  | none, _ => false

/-- Why the vault controller does not accept a KEY_ERASE (R187 to R189): its item is not ACTIVE, superseded or already in ERASING,
its handle has ended, the gutter is lost while the plate is not alone, or no commit can be made. -/
def State.eraseRefused (s : State) (p : Plate) (j : Job) : Option Status :=
  match eraseItem j with
  | none => some .keyGone
  | some (.handle i pos) => if s.handleStands p i pos j.desc.keyRef then none else some .keyGone
  | some item =>
    let gone := match item with
      | .slot i n =>
        let v := s.slotAhead p (slotKey i n)
        v.tagOk && v.st != .active
      | .ledger k =>
        let e := s.ledgerAhead p k
        e.st != .active || some e.gen != j.key.map Key.gen
      | _ => false
    if s.alreadyErasing p j || gone then some .keyGone
    else if (s.pl p).pr.mode == .paired && !s.gutterUp p then some .partitioned
    else s.refuses p (item matches .ledger _)

/-- Whether an accepted KEY_ERASE names a job's item: the item is in ERASING (R188, Table 7.10). -/
def State.beingErased (s : State) (p : Plate) (j : Job) : Bool :=
  (s.pl p).sl.jobs.any fun e => e.erasing && ringSlice e.ring == ringSlice j.ring &&
    (match parseKref e.desc.keyRef with
      | .slot n => (match ringSlice j.ring with
        | some i => j.fromItem (.slot i n)
        | none => false)
      | .slug _ => (match e.key.bind Key.ledger with
        | some k => j.fromItem (.ledger k)
        | none => false)
      | .handle _ => e.entry.isSome && (j.entry == e.entry || j.entry2 == e.entry)
      | .bad => false)

/-- Whether an item that a job's key needs has a tag that fails at its start step (R159): the slice record, the ledger page of its
entry, or the slot that it names. -/
def State.keyBadAtStart (s : State) (p : Plate) (j : Job) : Bool :=
  let i := (ringSlice j.ring).getD 0
  let bad (k : Option Key) (ref : DWord) : Bool := match k with
    | some k => !((s.pl p).vlt.recs.get {} i).tagOk || (match k.ledger with
        | some e => s.ledgerBad p e
        | none => false) || (match parseKref ref with
        | .slot n => !(s.slotAt p i n).tagOk
        | _ => false)
    | none => false
  j.desc.op != 0x32 && (bad j.key j.desc.keyRef || bad j.key2 j.desc.param)

/-- Whether a job's keys no longer stand at its start step (R188): the persistent key is gone or superseded, an accepted
KEY_ERASE names it, or the handle it names, all 64 bits of it, has ended. -/
def State.keyGoneAtStart (s : State) (p : Plate) (j : Job) : Bool :=
  let i := (ringSlice j.ring).getD 0
  let gone (k : Option Key) : Bool := match k with
    | some k => !s.stands p i k
    | none => false
  let ended (pos : Option Nat) (ref : DWord) : Bool := match pos with
    | some pos => !s.handleStands p i pos ref
    | none => false
  j.desc.op != 0x32 && (gone j.key || gone j.key2 || ended j.entry j.desc.keyRef || ended j.entry2 j.desc.param ||
    s.beingErased p j)

/-- What the state of a job's keys at its start step makes of it: KEY_BAD, KEY_GONE, or for a KEY_ERASE why it is not accepted. -/
def State.keyAtStart (s : State) (p : Plate) (j : Job) : Option Status :=
  if j.desc.op == 0x32 then s.eraseRefused p j
  else if s.keyBadAtStart p j then some .keyBad
  else if s.keyGoneAtStart p j then some .keyGone
  else none

/-- The fields of a job that starts on a unit with a window. A DEVICE_ATTEST of the admin ring belongs to no slice and holds no
window of the sets of Table 3.1 (DESIGN CHOICE, log 112). -/
def startJob (j : Job) (unit now : Nat) (window : Option Nat) : Job :=
  let lane := j.cls == .lane
  { j with
    stage := if j.cls == .vault then .accepted else .started
    unit := if j.cls == .vault then none else some unit
    window := if lane then window else none
    startedAt := now, accBase := 0
    waitingMsg := j.messageJob && j.desc.inLen != 0
    resumedAt := if lane then some now else none }

/-- The reads of a cipher, hash, random or vault job from in_addr and aad_addr (Tables 4.2, 6.18, 7.3, 8.7). -/
def dataReads (d : Desc) : List (DWord × Nat) :=
  (if d.inLen != 0 && d.op != 0x40 then [(d.inAddr, d.inLen.toNat)] else []) ++
  (if d.aadLen != 0 && d.op != 0x30 && d.op != 0x31 then [(d.aadAddr, d.aadLen.toNat)] else [])

/-- All reads that such a job makes when it starts: an IV, nonce or expected tag at param with them (Table 4.2). -/
def unitReads (d : Desc) : List (DWord × Nat) :=
  dataReads d ++
  (if d.op == 0x11 || d.op == 0x12 || d.op == 0x13 then [(d.param, 12)]
   else if d.op == 0x15 then [(d.param, macLen d.al (d.fl 8 8))] else [])

/-- Reads of a job's inputs, under its slice's PASID and with the time-out of R27 (R24). -/
def State.issueInputs (s : State) (p : Plate) (j : Job) (l : List (DWord × Nat)) : State :=
  s.each l fun s r => s.issueRead p j.ring (.input j.ring j.index) r.1 r.2

/-- Slice `i`'s deficit after a start in class `c`: less its cost, and 0 once the slice is no longer ready (R70). -/
def State.settle (s : State) (p : Plate) (c : EngClass) (i cost : Nat) : State :=
  let ready := s.sliceReady p c i
  s.updSl p fun x => x.modSched c fun d =>
    if ready then { d with deficit := d.deficit.set 0 i (d.deficit.get 0 i - cost) } else d.forget i

/-- What a unit reads once its job has started on it. -/
def State.startReads (s : State) (p : Plate) (j : Job) : State :=
  if j.messageJob && j.desc.inLen != 0 then
    s.issueRead p j.ring (.message j.ring j.index) j.desc.inAddr j.desc.inLen.toNat
  else if j.cls != .lane && !j.begun then s.issueInputs p j (unitReads j.desc)
  else s

/-- A job starts on a unit: charge, window and start (R63, R70, R72, R119); it asks for the inputs that it reads as it runs
(R24, R373). -/
def State.startOn (s : State) (p : Plate) (j : Job) (unit : Nat) : State :=
  let w := if j.cls == .lane then (ringSlice j.ring).bind (s.pickWindow p) else none
  let s := ((s.charge p j.cls (roundKey j.ring) j.cost).fillWindow p w j.ring j.index).updJob p j.ring j.index fun j =>
    startJob j unit s.clock w
  (s.settle p j.cls (roundKey j.ring) j.cost).startReads p j

/-- A seal at its start step draws its number, or completes with KEY_EXHAUSTED, or waits for a grant, which is asked for;
a grant that cannot be made completes it (R92, R95, R96). `again`: it restarts under R86. -/
def State.sealStart (s : State) (p : Plate) (j : Job) (k : Key) (go : State → Nat → State) : State :=
  let i := (ringSlice j.ring).getD 0
  match s.drawNumber p i k j.entry with
  | some (s, n) => go s n
  | none =>
    if s.exhausted p i k j.entry then (s.noteExhausted p k).fail p j .keyExhausted
    else match k.ledger with
      | some e =>
        if ((s.pl p).vlt.leases.get {} e).asking then s.updJob p j.ring j.index fun j => { j with stage := .waitLease }
        else match s.leaseRefused p e with
          | some st => s.fail p j st
          | none => (s.askLease p e).updJob p j.ring j.index fun j => { j with stage := .waitLease }
      | none => s.fail p j .keyExhausted

/-- The start step of a chosen job on a free unit: fence, key state, random values, invocation number, start
(R50, R188, R206, R92). A job that goes on in another class has started before (Table 3.7). -/
def State.startStep (s : State) (p : Plate) (j : Job) (unit : Nat) : State :=
  if j.begun then s.startOn p j unit
  else if (s.ring p j.ring).covers j.index then s.fail p j .cancelled
  else match s.keyAtStart p j, s.entropyAtStart p j with
    | some st, _ => s.fail p j st
    | none, some true => s.fail p j .entropyHalt
    | none, some false => s
    | none, none => match j.key with
      | some k =>
        if drawsNumber j.desc.op k then
          s.sealStart p j k fun s n => (s.updJob p j.ring j.index fun j => { j with inv := some n }).startOn p
            { j with inv := some n } unit
        else s.startOn p j unit
      | none => s.startOn p j unit

/-- A cipher job restarts on another engine, ahead of every new start and without a further charge; a seal draws a new
number (R86). -/
def State.restartCipher (s : State) (p : Plate) (j : Job) (unit : Nat) : State :=
  let go (s : State) (inv : Option Nat) : State := (s.updJob p j.ring j.index fun j =>
    { j with stage := .started, unit := some unit, startedAt := s.clock, inv := inv }).issueInputs p j (unitReads j.desc)
  match j.key with
  | some k =>
    if drawsNumber j.desc.op k then
      let i := (ringSlice j.ring).getD 0
      match s.drawNumber p i k j.entry with
      | some (s, n) => go s (some n)
      | none =>
        if s.exhausted p i k j.entry then (s.noteExhausted p k).fail p j .keyExhausted
        else match k.ledger with
          | some e =>
            if ((s.pl p).vlt.leases.get {} e).asking then s
            else match s.leaseRefused p e with
              | some st => s.fail p j st
              | none => s.askLease p e
          | none => s.fail p j .keyExhausted
    else go s j.inv
  | none => go s j.inv

/-- Whether a seal that restarts waits for a grant that is asked for, or for a change under way that takes its ledger entry; no job with another key is held up by it (R86, R96). -/
def State.restartWaits (s : State) (p : Plate) (j : Job) : Bool :=
  match j.key with
  | some k => drawsNumber j.desc.op k && (s.drawNumber p ((ringSlice j.ring).getD 0) k j.entry).isNone &&
      !s.exhausted p ((ringSlice j.ring).getD 0) k j.entry && (match k.ledger with
      | some e => ((s.pl p).vlt.leases.get {} e).asking || (s.ledgerAhead p e).st != .active
      | none => false)
  | none => false

/-- The first cipher job that waits to restart and has a unit. -/
def State.cipherRestart (s : State) (p : Plate) : Option (Job × Nat) :=
  (s.pl p).sl.jobs.findSome? fun j =>
    if j.stage == .restart && j.cls == .cipher && !s.restartWaits p j then (s.unitFor p j).map fun u => (j, u) else none

/-- The job the lane class selected to start next, while it still waits and its slice is still ready (R70, R128). -/
def State.selectedJob (s : State) (p : Plate) : Option Job :=
  match (s.pl p).sl.selected with
  | some (q, i, _) => match s.job? p q i with
    | some j => if s.waits p .lane j && s.sliceReady p .lane (roundKey q) then some j else none
    | none => none
  | none => none

/-- JOB_START of the lane class: the selected job, or the next of the round, starts on a free lane unless the resume queue
goes first; with no lane free it is selected and waits (R70, R128, R129). Where the slice of a selected job is ready no more,
the round goes on to another (R63, R70, R72). -/
def State.startLane (s : State) (p : Plate) : State :=
  let (s, j) := match s.selectedJob p with
    | some j => (s, some j)
    | none => (s.updSl p fun x => { x with selected := none }).choose p .lane
  match j with
  | none => s
  | some j => match s.freeLane p with
    | some n =>
      if (s.pl p).sl.resume.isEmpty then (s.updSl p fun x => { x with selected := none }).startStep p j n
      else s.updSl p fun x => { x with selected := some (x.selected.getD (j.ring, j.index, s.clock)) }
    | none => s.updSl p fun x => { x with selected := some (x.selected.getD (j.ring, j.index, s.clock)) }

/-- JOB_START (R70): one job of the class starts, where one may. -/
def execJobStart (p : Plate) (c : EngClass) (s : State) : Host.Outcome State Fault Refusal :=
  .next (if !s.up p then s
    else match c with
    | .lane => s.startLane p
    | .cipher => match s.cipherRestart p with
      | some (j, u) => s.restartCipher p j u
      | none => match s.choose p .cipher with
        | (s, some j) => (match s.unitFor p j with
          | some u => s.startStep p j u
          | none => s)
        | (s, none) => s
    | .random => match s.choose p .random with
      | (s, some j) => s.startStep p j 0
      | (s, none) => s
    | .vault => match s.choose p .vault with
      | (s, some j) => s.startStep p j 0
      | (s, none) => s)

/-! ## The justifier's clock (R119, R121) -/

/-- Justified time up to which a lane that reads its message can run on `n` bytes of it, by the pace of R122: 1,024 bytes in
each µs (log 24). -/
def messagePace (n : Nat) : Nat := n / 1024

/-- Accrued justified time of a job. While the lane waits for message bytes that have not returned, none accrues (R373). -/
def State.accrued (s : State) (j : Job) : Nat :=
  let t := match j.resumedAt with
    | some t => j.accBase + (s.clock - t)
    | none => j.accBase
  if j.waitingMsg then min t (max j.accBase (messagePace j.msgGot)) else t

/-- The release target M + a × D1 (R121). -/
def Job.target (j : Job) : Nat := j.addOn + j.attempts * j.d1

/-- The boundary of the attempt or quantum in progress. -/
def Job.bound (j : Job) : Nat := j.addOn + j.boundary * j.d1

/-- Accrual stops now. -/
def State.pauseJob (s : State) (j : Job) : Job := { j with accBase := s.accrued j, resumedAt := none }

/-! ## Parking (R127 to R131) -/

/-- Remaining justified time, or of the current attempt (R128). -/
def State.remaining (s : State) (j : Job) : Nat := j.bound - s.accrued j

/-- Whether a running job can be chosen to be parked for a waiting job (R128); one whose RSA result failed its check stays where
it is (R116). -/
def State.parkable (s : State) (w j : Job) : Bool :=
  j.stage == .started && j.cls == .lane && j.unit.isSome && !j.desc.noYield && !j.toPark && !j.rawDone && !j.critical &&
  decide (50 ≤ s.accrued j - j.accFrom) && decide (j.parks < 8) && decide (4 * w.cost < s.remaining j)

/-- The parkable job with the most remaining time; of several with equal time the first in the plate's list of jobs, which is
the order in which they were fetched (DESIGN CHOICE, log 113). -/
def State.parkChoice (s : State) (p : Plate) (w : Job) : Option Job :=
  ((s.pl p).sl.jobs.filter fun j => s.parkable w j).foldl
    (fun b j => match b with
      | none => some j
      | some b => if s.remaining b < s.remaining j then some j else some b) none

/-- PARK_SELECT (R128): with every lane busy and the selected job waiting for more than 20 µs, the job with the most
remaining time is chosen; one waiting job causes at most one park. -/
def execParkSelect (p : Plate) (s : State) : Host.Outcome State Fault Refusal :=
  match s.selectedJob p, (s.pl p).sl.selected with
  | some w, some (_, _, t) =>
    .next (if (s.freeLane p).isNone && decide (20 < s.clock - t) && !w.causedPark then
      match s.parkChoice p w with
      | some j => (s.updJob p j.ring j.index fun j => { j with toPark := true }).updJob p w.ring w.index fun w =>
          { w with causedPark := true }
      | none => s
    else s)
  | _, _ => .next s

/-- The chosen job reaches a yield point: it parks, keeps its window and joins the resume queue (R129); a fence that covers
it cancels it (R131). The freed lane starts the waiting job, unless the resume queue already held another (R129). -/
def State.parkJob (s : State) (p : Plate) (j : Job) : State :=
  let queued := !(s.pl p).sl.resume.isEmpty
  let lane := j.unit.getD 0
  let s := s.updJob p j.ring j.index fun j =>
    { s.pauseJob j with stage := .parked, unit := none, toPark := false, parks := j.parks + 1, wasParked := true }
  let s := if (s.ring p j.ring).covers j.index then
      (match s.job? p j.ring j.index with
        | some j => s.fail p j .cancelled
        | none => s)
    else s.updSl p fun x => { x with resume := x.resume ++ [(j.ring, j.index)] }
  match s.selectedJob p with
  | some w =>
    if queued then s
    else (s.updSl p fun x => { x with selected := none }).startStep p w lane
  | none => s

/-- PARK (R129). -/
def execPark (r : JobRef) (s : State) : Host.Outcome State Fault Refusal :=
  match s.jobAt r with
  | some j => .next (if j.toPark && j.stage == .started && !j.rawDone && !j.critical then s.parkJob r.plate j else s)
  | none => .next s

/-- A job of the resume queue starts on a lane: a parked one goes on, a restarted one begins anew (R105, R129). -/
def resumeJob (j : Job) (lane now : Nat) : Job :=
  if j.stage == .parked then { j with stage := .started, unit := some lane, resumedAt := some now, accFrom := j.accBase }
  else
    { j with
      stage := .started, unit := some lane, startedAt := now, accBase := 0, accFrom := 0
      waitingMsg := j.messageJob && j.desc.inLen != 0, resumedAt := some now }

/-- A resumed job whose message has not all returned, and no read of it is under way on this plate: the rest is read (R373). -/
def State.readRest (s : State) (p : Plate) (j : Job) : State :=
  if j.waitingMsg && !((s.pl p).sl.reads.any fun e => e.1 == .message j.ring j.index) then
    s.issueRead p j.ring (.message j.ring j.index) (j.desc.inAddr + BitVec.ofNat 64 j.msgGot) (j.desc.inLen.toNat - j.msgGot)
  else s

/-- Whether a plate starts jobs of a ring: not while its KNOCKOUT line is asserted, but for a DEVICE_ATTEST of the admin ring,
which R296 lets proceed. -/
def State.mayRun (s : State) (p : Plate) (q : RingRef) : Bool := s.up p && (!(s.pl p).tmp.ko || q == .admin) && s.reaches p q

/-- JOB_RESUME (R129): the head of the resume queue starts on a free lane. -/
def execJobResume (p : Plate) (s : State) : Host.Outcome State Fault Refusal :=
  match (s.pl p).sl.resume, s.freeLane p with
  | (q, i) :: t, some n =>
    if !s.mayRun p q then .next s
    else
      let s := s.updSl p fun x => { x with resume := t }
      match s.job? p q i with
      | some j =>
        .next ((s.updJob p q i fun j => resumeJob j n s.clock).readRest p (resumeJob j n s.clock))
      | none => .next s
  | _, _ => .next s

end Sys2Proof.Machine
end

