-- ==== Sys2Proof/Machine/Cipher.lean ====
section
/-! DEFINITION. The cipher engines and the hash path: the cipher opcodes, DERIVE, KEY_EXPORT_WRAPPED, the first pass of a
two-pass open, and the completion of an engine's job (04; 06 R163; 07 R182). -/

namespace Sys2Proof.Machine

/-! ## The unit's work -/

/-- A job that a cipher engine, the hash path or a DRBG instance runs with this opcode and has not finished. -/
def State.working (s : State) (r : JobRef) (op : Nat) : Option Job :=
  match s.jobAt r with
  | some j => if j.stage == .started && j.unit.isSome && j.desc.op == op && j.result.isNone then some j else none
  | none => none

/-- The unit of a job has computed its outcome from what its reads returned. -/
def State.computed (s : State) (r : JobRef) (x : Result) : State :=
  (s.retireRead r.plate (.input r.ring r.index)).updJobAt r fun j => { j with result := some x }

/-- The second pass of an open reads the ciphertext and the additional data again (R99). -/
def State.readAgain (s : State) (r : JobRef) (j : Job) : State :=
  s.issueInputs r.plate j (dataReads { j.desc with inLen := j.desc.inLen - 16 })

/-- The buffers of a cipher job as its reads returned them: in_addr, aad_addr and `par` bytes at param; none where one of
them failed. -/
def cipherReads (d : Desc) (x : Inputs) (par : Nat) : Option (Bytes × Bytes × Bytes) :=
  match takeRead x.inp (d.inLen != 0) d.inLen.toNat, takeRead x.aad (d.aadLen != 0) d.aadLen.toNat,
    takeRead x.par (par != 0) par with
  | some a, some b, some c => some (a, b, c)
  | _, _, _ => none

/-- The outcome of a cipher job: DMA_FAULT where a read failed, else `f` of what was read. -/
def cipherResult (d : Desc) (x : Inputs) (par : Nat) (f : Bytes → Bytes → Bytes → Result) : Result :=
  match cipherReads d x par with
  | some (a, b, c) => f a b c
  | none => { status := .dmaFault }

/-- The material of a job's key. -/
def Job.mat (j : Job) : Bytes := (j.key.map Key.material).getD []

/-- The invocation number fields of a seal's completion (Table 4.4). -/
def invInfo (n : Nat) (r : Result) : Result :=
  { r with info := BitVec.ofNat 32 n, info2 := BitVec.ofNat 32 (n / 2 ^ 32) }

/-- The IV T ‖ N, most significant bytes first (R87). -/
def deviceIv (kit : Word) (n : Nat) : Bytes := beBytes 4 kit.toNat ++ beBytes 8 n

/-- The outcome of an AEAD_SEAL: ciphertext ‖ tag, and the IV at param where param is not 0 (R87, R88). -/
def aeadSealResult (j : Job) (x : Inputs) : Result :=
  let n := j.inv.getD 0
  let iv := deviceIv ((j.key.map Key.kit).getD 0) n
  cipherResult j.desc x 0 fun pt aad _ =>
    let out := fit (j.desc.inLen.toNat + 16) (Config.gcmSeal j.mat iv aad pt)
    invInfo n { outLen := out.length,
                writes := (j.desc.outAddr, out) :: (if j.desc.param != 0 then [(j.desc.param, iv)] else []) }

/-- AEAD_SEAL (R87). -/
def execAeadSeal (r : JobRef) (d : Inputs) (s : State) : Host.Outcome State Fault Refusal :=
  match s.working r 0x10 with
  | some j => .next (s.computed r (aeadSealResult j d))
  | none => .next s

/-- Whether an open runs in two passes (R99). -/
def twoPass (d : Desc) : Bool :=
  (d.op == 0x11 || d.op == 0x13) && decide (65536 + 16 < d.inLen.toNat)

/-- The tag of a sealed string. -/
def sealTag (b : Bytes) : Bytes := b.drop (b.length - 16)

/-- The strings of one pass of an open, ciphertext ‖ tag, additional data and IV: the first pass reads them all, the second
one reads the ciphertext and the additional data again and keeps the tag and the IV (R99). -/
def openStrings (j : Job) (x : Inputs) : Option (Bytes × Bytes × Bytes) :=
  if j.passes = 1 then cipherReads j.desc x 12
  else (cipherReads { j.desc with inLen := j.desc.inLen - 16 } x 0).map fun (ct, aad, _) => (ct ++ j.inp, aad, j.par)

/-- The outcome of one pass of an open: the plaintext, or AUTH_FAIL with the area zeroed; info counts the passes
(R98 to R100, Table 4.4). -/
def openResult (j : Job) (m : Option Bytes) : Result :=
  match m with
  | some m =>
    let out := fit (j.desc.inLen.toNat - 16) m
    { outLen := out.length, writes := [(j.desc.outAddr, out)], info := BitVec.ofNat 32 j.passes }
  | none => { status := .authFail, info := BitVec.ofNat 32 j.passes }

/-- One pass of an open with the operation `f` (R98, R99). A first pass of two keeps the tag and the IV it read. -/
def State.openPass (s : State) (r : JobRef) (j : Job) (x : Inputs) (f : Bytes → Bytes → Bytes → Bytes → Option Bytes) :
    State :=
  match openStrings j x with
  | none => s.computed r { status := .dmaFault }
  | some (ct, aad, iv) =>
    let s := if twoPass j.desc && j.passes == 1 then s.updJobAt r fun j => { j with inp := sealTag ct, par := iv } else s
    s.computed r (openResult j (f j.mat iv aad ct))

/-- AEAD_OPEN (R98, R99): one pass of the open. -/
def execAeadOpen (r : JobRef) (d : Inputs) (s : State) : Host.Outcome State Fault Refusal :=
  match s.working r 0x11 with
  | some j => .next (s.openPass r j d Config.gcmOpen)
  | none => .next s

/-- SIV_OPEN (R98, R99): one pass of the open. -/
def execSivOpen (r : JobRef) (d : Inputs) (s : State) : Host.Outcome State Fault Refusal :=
  match s.working r 0x13 with
  | some j => .next (s.openPass r j d Config.sivOpen)
  | none => .next s

/-- OPEN_FIRST_PASS_DONE (R99): the second pass starts only on a match; a mismatch completes the job (R100). -/
def execOpenFirstPassDone (r : JobRef) (s : State) : Host.Outcome State Fault Refusal :=
  match s.jobAt r with
  | some j =>
    match j.result with
    | some x =>
      if j.stage == .started && twoPass j.desc && j.passes == 1 then
        .next (if x.status = .ok then (s.updJobAt r fun j => { j with passes := 2, result := none }).readAgain r j
          else s.finish r.plate j x)
      else .next s
    | none => .next s
  | none => .next s

/-- The completed SIV_SEAL. A volatile key draws no number (R91) and the manual states no info for it: a free value
(log 23). -/
def sivSealed (j : Job) (out : Bytes) (open_ : Nat) : Result :=
  invInfo (j.inv.getD open_) { outLen := out.length, writes := [(j.desc.outAddr, out)] }

/-- The ciphertext ‖ tag of a SIV_SEAL of these strings. -/
def sivSealOf (j : Job) (pt aad nonce : Bytes) : Bytes :=
  fit (j.desc.inLen.toNat + 16) (Config.sivSeal j.mat nonce aad pt)

/-- SIV_SEAL (R101): up to 65,536 bytes the plaintext is read once. Above, the first reading keeps its strings, and at the
second one a different tag wipes the output area and completes with DMA_FAULT. -/
def execSivSeal (r : JobRef) (d : Inputs) (s : State) : Host.Outcome State Fault Refusal :=
  match s.working r 0x12 with
  | none => .next s
  | some j =>
    let s' := s.tick (bit j.inv.isNone)
    match cipherReads j.desc d 12 with
    | none => .next (s.computed r { status := .dmaFault })
    | some (pt, aad, nonce) =>
      if j.desc.inLen.toNat ≤ 65536 then
        .next (s'.computed r (sivSealed j (sivSealOf j pt aad nonce) (Config.freeNat s.free)))
      else if j.passes = 1 then
        .next (((s.retireRead r.plate (.input r.ring r.index)).updJobAt r fun j =>
          { j with passes := 2, inp := pt, aad := aad, par := nonce }).issueInputs r.plate j [(j.desc.inAddr, j.desc.inLen.toNat)])
      else
        let out := sivSealOf j pt j.aad j.par
        .next (if sealTag out = sealTag (sivSealOf j j.inp j.aad j.par) then
            s'.computed r (sivSealed j out (Config.freeNat s.free))
          else s.computed r { status := .dmaFault, zeroed := true })

/-- The MAC of a message under a job's key (Table 4.1, Table 4.3). -/
def macOf (j : Job) (m custom : Bytes) : Bytes :=
  let n := macLen j.desc.al (j.desc.fl 8 8)
  fit n (if j.desc.al == 0x08 then Config.cmac j.mat m
    else if j.desc.al == 0x0C then Config.kmac256 j.mat m n custom
    else Config.hmac j.desc.al j.mat m)

/-- MAC_GEN (R82). -/
def execMacGen (r : JobRef) (d : Inputs) (s : State) : Host.Outcome State Fault Refusal :=
  match s.working r 0x14 with
  | some j => .next (s.computed r (cipherResult j.desc d 0 fun m c _ =>
      { outLen := (macOf j m c).length, writes := [(j.desc.outAddr, macOf j m c)] }))
  | none => .next s

/-- MAC_VERIFY (R97, R100): match or mismatch and nothing else. -/
def execMacVerify (r : JobRef) (d : Inputs) (s : State) : Host.Outcome State Fault Refusal :=
  match s.working r 0x15 with
  | some j => .next (s.computed r (cipherResult j.desc d (macLen j.desc.al (j.desc.fl 8 8)) fun m c t =>
      { status := if macOf j m c = t then .ok else .authFail }))
  | none => .next s

/-- Length of a KWP wrap of `n` bytes (Table 4.3). -/
def kwpLen (n : Nat) : Nat := 8 * ceilDiv n 8 + 8

/-- WRAP (R83). -/
def execWrap (r : JobRef) (d : Inputs) (s : State) : Host.Outcome State Fault Refusal :=
  match s.working r 0x16 with
  | some j => .next (s.computed r (cipherResult j.desc d 0 fun m _ _ =>
      let out := fit (kwpLen j.desc.inLen.toNat) (Config.kwpWrap j.mat m)
      { outLen := out.length, writes := [(j.desc.outAddr, out)] }))
  | none => .next s

/-- UNWRAP (R98): the data leaves only after the integrity and length checks pass; out_len is the length it carries. -/
def execUnwrap (r : JobRef) (d : Inputs) (s : State) : Host.Outcome State Fault Refusal :=
  match s.working r 0x17 with
  | some j => .next (s.computed r (cipherResult j.desc d 0 fun m _ _ =>
      match Config.kwpUnwrap j.mat m with
      | some k =>
        let out := k.take (j.desc.inLen.toNat - 8)
        { outLen := out.length, writes := [(j.desc.outAddr, out)] }
      | none => { status := .authFail }))
  | none => .next s

/-- DIGEST (R82). -/
def execDigest (r : JobRef) (d : Inputs) (s : State) : Host.Outcome State Fault Refusal :=
  match s.working r 0x18 with
  | some j => .next (s.computed r (cipherResult j.desc d 0 fun m _ _ =>
      let out := fit (digestLen j.desc.al) (Config.hash j.desc.al m)
      { outLen := out.length, writes := [(j.desc.outAddr, out)] }))
  | none => .next s

/-! ## Keys that a job makes (R90, R114, R162, R163) -/

/-- The key a job makes stands in its reserved lines; it has no handle yet. -/
def State.placeKey (s : State) (p : Plate) (j : Job) (k : Key) : State :=
  match j.newPos with
  | some pos => s.updEntry p ((ringSlice j.ring).getD 0) pos fun e => { e with key := k, filled := true }
  | none => s

/-- Whether a job that is to issue a handle of key `k` waits for its plate's epoch to commit (R91). -/
def State.waitsEpoch (s : State) (p : Plate) (j : Job) (k : Key) : Bool :=
  j.newPos.isSome && k.src == .volatileKey && needsVinst k && s.epochShort p

/-- The key that stands in a job's reserved lines. -/
def State.newKey (s : State) (p : Plate) (j : Job) : Key :=
  ((j.newPos.bind (s.entryAt p ((ringSlice j.ring).getD 0))).map CacheEntry.key).getD {}

/-- The handle of a job's new entry in info and info2 (R162); a volatile key first receives T and V (R90), which is
VAULT_RO where the epoch cannot be stored (R341). -/
def State.issueFor (s : State) (p : Plate) (j : Job) (x : Result) : State × Result :=
  let i := (ringSlice j.ring).getD 0
  let issued (s : State) (pos : Nat) : State × Result :=
    let (s, h) := s.issue p i pos
    (s, { x with info := wordOf h 0, info2 := wordOf h 1 })
  match j.newPos with
  | none => (s, x)
  | some pos =>
    match s.entryAt p i pos with
    | none => (s, x)
    | some e =>
      if e.key.src = .volatileKey then
        match s.makeVolatile p e.key with
        | (s, some k) => issued (s.updEntry p i pos fun e => { e with key := k, lastUse := s.clock }) pos
        | (s, none) => (s, { status := .vaultRo })
      else issued s pos

/-- Attributes of a derived key: its use bits and EXPORTABLE (R163). -/
def deriveAttr (d : Desc) : Word := BitVec.ofNat 32 d.param.toNat &&& 0xFF01

/-- DERIVE (R163): KDF(K_src, "derive:" ‖ label, context, 8 × length) in the lines reserved for it. -/
def execDerive (r : JobRef) (d : Inputs) (s : State) : Host.Outcome State Fault Refusal :=
  match s.working r 0x26 with
  | some j =>
    .next (match cipherReads j.desc d 0 with
    | some (ctx, label, _) =>
      let m := kdf j.mat (ascii "derive:" ++ label) ctx (materialLen j.desc.al (j.desc.fl 8 8))
      (s.placeKey r.plate j { alg := j.desc.al, attr := deriveAttr j.desc, material := m }).computed r {}
    | none => s.computed r { status := .dmaFault })
  | none => .next s

/-- The 16-byte export header (R182). -/
def exportHeader (k : Key) : Bytes :=
  leBytes 1 1 ++ leBytes 1 k.alg ++ leBytes 2 k.material.length ++ leBytes 4 k.attr.toNat ++ leBytes 4 k.kit.toNat ++
  zeros 4

/-- KEY_EXPORT_WRAPPED (R182): the wrap of the export header and the material under the wrapping key. -/
def execKeyExportWrapped (r : JobRef) (s : State) : Host.Outcome State Fault Refusal :=
  match s.working r 0x36 with
  | some j =>
    let k := j.key.getD {}
    let kek := (j.key2.map Key.material).getD []
    let out := fit (kwpLen (16 + k.material.length)) (Config.kwpWrap kek (exportHeader k ++ k.material))
    .next (s.computed r { outLen := out.length, writes := [(j.desc.outAddr, out)] })
  | none => .next s

/-! ## The end of a job on an engine (R84, R43) -/

/-- Whether an engine's outcome completes its job: the first pass of a two-pass open completes nothing but a fault. -/
def Job.engineEnds (j : Job) (x : Result) : Bool :=
  !(twoPass j.desc && j.passes == 1 && (x.status == .ok || x.status == .authFail))

/-- The outcome of an engine's job is posted; a key it made is issued first, once the epoch that it needs has committed (R91). -/
def State.engineDone (s : State) (p : Plate) (j : Job) (x : Result) : State :=
  if x.status = .ok && s.waitsEpoch p j (s.newKey p j) then s.wrapEpoch p
  else if x.status = .ok && j.newPos.isSome then
    match s.issueFor p j x with
    | (s, x) => s.finish p j x
  else s.finish p j x

/-- ENGINE_JOB_DONE (R84): a cipher engine, the hash path or a DRBG instance finishes a job. -/
def execEngineJobDone (r : JobRef) (s : State) : Host.Outcome State Fault Refusal :=
  match s.jobAt r with
  | some j =>
    match j.result with
    | some x =>
      .next (if j.stage == .started && (j.cls == .cipher || j.cls == .random) && j.engineEnds x then
        s.engineDone r.plate j x else s)
    | none => .next s
  | none => .next s

end Sys2Proof.Machine
end

