-- ==== Sys2Proof/Machine/KeyOps.lean ====
section
/-! DEFINITION. Keys made, imported, described and erased by the vault controller: KEY_LOAD, KEY_GENERATE, KEY_IMPORT,
KEY_ERASE, KEY_INFO, and the ends of vault-class jobs (06 R162; 07 R166 to R178, R187 to R191; 03 R372). -/

namespace Sys2Proof.Machine

/-! ## The vault controller's part of a job -/

/-- An accepted vault-class job with this opcode whose outcome is not yet there. -/
def State.accepted (s : State) (r : JobRef) (op : Nat) : Option Job :=
  match s.jobAt r with
  | some j => if j.stage == .accepted && j.desc.op == op && j.result.isNone then some j else none
  | none => none

/-- A vault-class job has its outcome; VAULT_JOB_DONE posts it (R372). -/
def State.vaultDone (s : State) (p : Plate) (q : RingRef) (i : Word) (r : Result) : State :=
  s.updJob p q i fun j => { j with stage := .accepted, unit := none, result := some r }

/-- The lane finishes the next attempt or quantum of a job whose outcome it has (R121): any later command of the job's opcode. -/
def State.laneNext (s : State) (r : JobRef) (op : Nat) : State :=
  match s.jobAt r with
  | some j =>
    if j.stage == .started && j.cls == .lane && j.unit.isSome && j.desc.op == op && j.result.isSome &&
        decide (j.rawA < j.attempts) then s.updJobAt r fun j => { j with rawA := j.rawA + 1 }
    else s
  | none => s

/-- A lane job with this opcode whose raw work is done: it has its lane, its inputs, and its whole message (R373). -/
def State.laneWorking (s : State) (r : JobRef) (op : Nat) : Option Job :=
  match s.working r op with
  | some j => if j.cls == .lane && !j.waitingMsg && j.forced.isNone then some j else none
  | none => none

/-- VAULT_JOB_DONE (R372): an accepted job whose outcome is there completes. -/
def execVaultJobDone (r : JobRef) (s : State) : Host.Outcome State Fault Refusal :=
  match s.jobAt r with
  | some j =>
    match j.result with
    | some x => .next (if j.stage == .accepted then s.finish r.plate j x else s)
    | none => .next s
  | none => .next s

/-! ## KEY_LOAD (R162) -/

/-- KEY_LOAD: a new handle of a persistent key, or a copy of a volatile key with a new V; it waits while the epoch that V
needs is not committed (R91). -/
def execKeyLoad (r : JobRef) (s : State) : Host.Outcome State Fault Refusal :=
  match s.accepted r 0x33 with
  | some j =>
    if s.waitsEpoch r.plate j (j.key.getD {}) then .next (s.wrapEpoch r.plate)
    else match (s.placeKey r.plate j (j.key.getD {})).issueFor r.plate j {} with
    | (s, x) => .next (s.vaultDone r.plate r.ring r.index x)
  | none => .next s

/-! ## Key records (R177) -/

/-- The public part of a key as the key record gives it: Table 5.6, or the key digest. -/
def publicField (k : Key) : Bytes :=
  if isAsym k.alg then fit (publicLen k.alg) (Config.pkPublic k.alg k.material)
  else fit 32 (Config.sha3 (ascii "GK4096 key digest" ++ leBytes 4 k.kit.toNat ++ k.material))

/-- G of a key's ledger entry; for a volatile GCM key its next N; otherwise 0. -/
def State.grantedField (s : State) (p : Plate) (i : Nat) (k : Key) (pos : Option Nat) : Nat :=
  match k.ledger, k.vinst with
  | some e, _ => (s.ledgerAt p e).granted
  | none, some v => v * 2 ^ 24 + ((pos.bind (s.entryAt p i)).map CacheEntry.count).getD 0
  | none, none => 0

/-- The key record of Table 7.6. -/
def State.keyRecord (s : State) (p : Plate) (i : Nat) (k : Key) (pos : Option Nat) : Bytes :=
  let e := (k.ledger.map (s.ledgerAt p)).getD {}
  let (form, slot) := match k.src with
    | .slot _ j => (0, j)
    | .slug _ => (1, 0xFF)
    | .volatileKey => (2, 0xFF)
  let pub := publicField k
  leBytes 2 i ++ leBytes 1 form ++ leBytes 1 k.alg ++ leBytes 4 k.attr.toNat ++ leBytes 4 k.gen.toNat ++
  leBytes 4 (k.ledger.getD 0xFFFFFFFF) ++ leBytes 4 k.kit.toNat ++ leBytes 1 slot ++ leBytes 1 e.limit2 ++
  leBytes 1 e.lease2 ++ zeros 1 ++ leBytes 8 (s.grantedField p i k pos) ++ leBytes 8 (k.created % 2 ^ 48) ++
  leBytes 2 pub.length ++ zeros 6 ++ pub

/-- KEY_INFO (R177, R178): the key record, unsigned. -/
def execKeyInfo (r : JobRef) (s : State) : Host.Outcome State Fault Refusal :=
  match s.accepted r 0x35 with
  | some j =>
    let b := s.keyRecord r.plate ((ringSlice j.ring).getD 0) (j.key.getD {}) j.entry
    .next (s.vaultDone r.plate r.ring r.index { outLen := b.length, writes := [(j.desc.outAddr, b)] })
  | none => .next s

/-! ## New persistent keys (R155 to R160, R168) -/

/-- What a new persistent key is to be. -/
structure NewKey where
  alg    : Nat
  attr   : Word
  limit2 : Nat
  lease2 : Nat
  mat    : Bytes
  deriving Repr

/-- limit_log2 with its default (Table 7.2). -/
def limitOf (alg v : Nat) : Nat := if hasLedger alg then (if v = 0 then 32 else v) else 0

/-- lease_log2 with its default (Table 7.2). -/
def leaseOf (alg limit v : Nat) : Nat := if hasLedger alg then (if v = 0 then min 20 limit else v) else 0

/-- A ledger entry of a new key with G = 0 (R168). -/
def newLedger (k : NewKey) (i : Nat) (slug : Bool) (gen : Word) : Ledger :=
  { st := .active, limit2 := limitOf k.alg k.limit2, lease2 := leaseOf k.alg (limitOf k.alg k.limit2) k.lease2, slug := slug,
    slice := i, granted := 0, gen := gen, pair := 0 }

/-- The items of a new slot key: the slot, the second slot of an RSA-4096 key, and the ledger entry (R155, R156). -/
def slotItems (k : NewKey) (i n : Nat) (gen kit : Word) (created : Nat) (nonce : Bytes) (entry : Option Nat) :
    List VItem :=
  let v : Slot := { st := .active, alg := k.alg, attr := k.attr, gen := gen, ledger := entry, kit := kit,
                    span := if k.alg = 0x4A then 2 else 1, created := created, nonce := nonce, material := k.mat }
  .slot (slotKey i n) v ::
    ((if k.alg = 0x4A then [.slot (slotKey i (n + 1)) { v with st := .cont, material := [] }] else []) ++
      (match entry with
        | some e => [.ledger e (newLedger k i false gen)]
        | none => []))

/-- A ledger entry that a new key takes starts with no lease. -/
def State.freshEntry (s : State) (p : Plate) (e : Option Nat) : State :=
  match e with
  | some e => s.updVlt p fun v => { v with leases := v.leases.set {} e {} }
  | none => s

/-- The slug of a new slug key that takes ledger entry `e` (R160). -/
def State.slugOf (s : State) (p : Plate) (k : NewKey) (i e : Nat) (gen kit : Word) (created : Nat) (nonce : Bytes) :
    Bytes :=
  makeSlug (s.trk p i) { alg := k.alg, attr := k.attr, gen := gen, ledger := some e, kit := kit, created := created,
                         material := k.mat } i nonce

/-! ## KEY_GENERATE (R166 to R169) -/

/-- GENERATED_INSIDE. -/
def attrInside : Word := 4

/-- What a KEY_GENERATE asks for, with its material. -/
def generated (d : Desc) (mat : Bytes) : NewKey :=
  { alg := d.al, attr := BitVec.ofNat 32 d.param.toNat ||| attrInside, limit2 := (d.param.toNat / 2 ^ 32) % 256,
    lease2 := (d.param.toNat / 2 ^ 40) % 256, mat := mat }

/-- The completion of a KEY_GENERATE (R169). -/
def generateResult (d : Desc) (attempts work : Nat) (entry : Option Nat) (pub : Bytes) (slug : Option Bytes) : Result :=
  { outLen := pub.length, info := BitVec.ofNat 32 attempts, info2 := BitVec.ofNat 32 (entry.getD 0xFFFFFFFF),
    writes := (if pub.isEmpty then [] else [(d.outAddr, pub)]) ++ (match slug with
      | some b => [(d.aadAddr, b)]
      | none => []),
    work := work }

/-- The vault controller commits a generated key: its tag, creation time and generation, the slot or the ledger entry, and
one journal entry; or the job completes with PARTITIONED or VAULT_RO and nothing is written (R168, R169). -/
def State.commitGenerated (s : State) (p : Plate) (j : Job) (mat : Bytes) (attempts work : Nat) : State :=
  let d := j.desc
  let i := (ringSlice j.ring).getD 0
  let k := generated d mat
  let kit := BitVec.ofNat 32 (leNat (s.drawnAt p vaultInst [4, 12] 0))
  let nonce := s.drawnAt p vaultInst [4, 12] 1
  let created := s.optime p
  let gen := match j.ledgerNew with
    | some e => (s.ledgerAt p e).gen + 1
    | none => 1
  let pub := if isAsym d.al then fit (publicLen d.al) (Config.pkPublic d.al mat) else []
  match s.refuses p d.toSlug with
  | some st => s.fail p j st
  | none =>
    let s' := (s.drew p vaultInst [4, 12]).freshEntry p j.ledgerNew
    if d.toSlug then
      let e := j.ledgerNew.getD 0
      let r := generateResult d attempts work (some e) pub (some (s.slugOf p k i e gen kit created nonce))
      s'.commitJob p j [.ledger e (newLedger k i true gen)] r 2 (.finish j.ring j.index r)
    else match parseKref d.keyRef with
      | .slot n =>
        let r := generateResult d attempts work j.ledgerNew pub none
        s'.commitJob p j (slotItems k i n gen kit created nonce j.ledgerNew) r (if pub.isEmpty then 0 else 1)
          (.finish j.ring j.index r)
      | _ => s.fail p j .range

/-- The instance that a lane job draws from (Table 8.3). -/
def Job.drbg (j : Job) : Nat := laneInst (j.unit.getD 0)

/-- One try of a lane at private material: what it draws is kept only where it is valid for the algorithm (Table 5.6, R151). A
rejected ML-DSA seed is an attempt, and a search for RSA primes without a result a quantum, that the lane has finished; how many
quanta an RSA search took is a free value (R121, R370). -/
def State.tryMaterial (s : State) (p : Plate) (j : Job) : Job :=
  let a := j.desc.al
  let m := s.drawn p j.drbg (materialLen a 0)
  if !generatedOk a m then
    let j := { j with rejects := j.rejects + 1 }
    if isRsa a || isDsa a then { j with attempts := j.rejects + 1, rawA := j.rejects } else j
  else
    let first := if isRsa a || isDsa a then j.rejects + 1 else 1
    let n := if isRsa a then first + Config.freeNat s.free else first
    { j with par := m, attempts := n, rawA := first, result := some { info := BitVec.ofNat 32 n } }

/-- KEY_GENERATE (R169): the lane step of an asymmetric key, whose material the justifier releases to the vault controller; or
the vault controller's key-state step, which commits that key or generates and commits a symmetric one. Each waits until its
instance can give what it draws (R118, R203). -/
def execKeyGenerate (r : JobRef) (s : State) : Host.Outcome State Fault Refusal :=
  match s.laneWorking r 0x30 with
  | some j =>
    .next (if s.canDraw r.plate j.drbg 1 then
      ((s.drew r.plate j.drbg [materialLen j.desc.al 0]).tick 1).updJobAt r (s.tryMaterial r.plate)
    else s)
  | none =>
    match s.accepted r 0x30 with
    | some j =>
      .next (if !s.canDraw r.plate vaultInst 3 then s
        else if j.begun then s.commitGenerated r.plate j j.par j.attempts j.target
        else
          let n := materialLen j.desc.al (j.desc.fl 8 8)
          (s.drew r.plate vaultInst [n]).commitGenerated r.plate j (s.drawn r.plate vaultInst n) 1 0)
    | none => .next (s.laneNext r 0x30)

/-! ## KEY_IMPORT (R170 to R175) -/

/-- The fields of an update message (Table 7.3). -/
structure Update where
  b       : Bytes
  version : Nat
  type    : Nat
  slice   : Nat
  sigAlg  : Nat
  target  : Nat
  slot    : Nat
  alg     : Nat
  counter : Nat
  device  : Bytes
  attr    : Word
  limit2  : Nat
  lease2  : Nat
  mlen    : Nat
  deriving Repr

/-- The update message that a byte string spells. -/
def parseUpdate (b : Bytes) : Update where
  b       := b
  version := leAt b 0x000 1
  type    := leAt b 0x001 1
  slice   := leAt b 0x002 2
  sigAlg  := leAt b 0x004 1
  target  := leAt b 0x005 1
  slot    := leAt b 0x006 1
  alg     := leAt b 0x007 1
  counter := leAt b 0x008 8
  device  := cut b 0x010 32
  attr    := BitVec.ofNat 32 (leAt b 0x030 4)
  limit2  := leAt b 0x034 1
  lease2  := leAt b 0x035 1
  mlen    := leAt b 0x036 2

/-- Whether a code is an importer algorithm (R170). -/
def importerAlg (a : Nat) : Bool := a == 0x41 || a == 0x59

/-- Step 1 of Table 7.4 after the read: the length of R170 and mlen. -/
def updateStep1 (u : Update) (inLen : Nat) : Option Status :=
  if decide (0x500 ≤ inLen) && importerAlg u.sigAlg &&
      inLen == 0x500 + u.mlen + publicLen u.sigAlg + signatureLen u.sigAlg &&
      (if u.type == 2 then importerAlg u.alg && u.mlen == publicLen u.alg else materialLenOk u.alg u.mlen) then none
  else some .range

/-- Reserved bytes and fields that the type fixes. Table 7.3 gives limit_log2 and lease_log2 no value in a message of type 0x02,
which carries no key: any value is taken (DESIGN CHOICE, log 114). A slot index is checked at step 8. -/
def updateFixed (u : Update) : Bool :=
  allZero (cut u.b 0x038 8) && allZero (cut u.b 0x4E1 3) &&
  (if u.type == 2 then u.target == 0 && u.slot == 0 && u.attr == 0 else u.target == 0 || (u.target == 1 && u.slot == 0))

/-- Step 2 of Table 7.4; the second number is the length that OUT_SMALL reports. -/
def updateStep2 (u : Update) (d : Desc) (i impAlg : Nat) : Option (Status × Nat) :=
  if !(u.version == 1 && (u.type == 1 || u.type == 2) && u.slice == i && updateFixed u) then some (.range, 0)
  else if (u.type == 2 || u.target == 0) && !noAad d then some (.range, 0)
  else if u.type == 1 && u.target == 1 && d.aadAddr == 0 then some (.range, 0)
  else if u.type == 1 && u.target == 1 && decide (d.aadLen.toNat < 64 + u.mlen) then some (.outSmall, 64 + u.mlen)
  else if impAlg == 0 then some (.keyPerm, 0)
  else none

/-- Flags of an ECDSA signature over a SHA-384 digest (Table 5.3: HASH 2, PREHASHED). -/
def ecdsa384Flags : Nat := 0x0600

/-- Whether a signature of the device's own paths verifies: ECDSA P-384 over SHA-384, or pure ML-DSA-65. -/
def sigOk (alg : Nat) (pub ctx msg sig : Bytes) : Bool :=
  Config.pkValid alg pub &&
  (if alg == 0x41 then Config.pkVerify 0x41 pub ecdsa384Flags [] (Config.sha384 msg) sig
   else Config.pkVerify alg pub 0 ctx msg sig)

/-- Offset of the signer's public key. -/
def Update.signerAt (u : Update) : Nat := 0x500 + u.mlen

/-- Bytes that the signature covers (Table 7.3). -/
def Update.signedLen (u : Update) : Nat := 0x500 + u.mlen + publicLen u.sigAlg

/-- The device import keys (Table 7.1): ML-KEM-768 and ECDH P-384. -/
def importPq (seed : Bytes) : Bytes := cut seed 80 64
/-- The classical import key. -/
def importEc (seed : Bytes) : Bytes := cut seed 144 48

/-- The key of R171, and of R184 with its own H. -/
def importKek (seed ct eph h : Bytes) : Option Bytes :=
  match Config.pkAgree 0x45 (importEc seed) eph with
  | some z =>
    some (fit 32 (Config.sha3 (ascii "GK4096 import" ++ fit 32 (Config.kemDecaps 0x51 (importPq seed) ct) ++ fit 48 z ++ h)))
  | none => none

/-- Step 7 of Table 7.4: the opened body. -/
def updateBody (seed : Bytes) (u : Update) : Option Bytes :=
  match importKek seed (cut u.b 0x040 1088) (cut u.b 0x480 97) (fit 32 (Config.sha3 (cut u.b 0 0x4E4))) with
  | some kek =>
    (Config.gcmOpen kek (cut u.b 0x4E4 12) (cut u.b 0 0x4F0) (cut u.b 0x4F0 (u.mlen + 16))).map (fit u.mlen)
  | none => none

/-- Cost of the signature check of a KEY_IMPORT before the add-on of R122 (R173). -/
def signD1 (u : Update) : Nat := signCost u.sigAlg

/-- Work units of a KEY_IMPORT (R173). -/
def importWork (u : Update) : Nat := signD1 u + msgAddOn u.signedLen + 20 + 92

/-- The attributes, limit and lease that step 8 allows (R149, R150, R167, Table 7.2). -/
def updateAttrs (u : Update) : Bool :=
  let limit := if u.limit2 == 0 then 32 else u.limit2
  attrOk u.alg u.attr && !attrBit u.attr 2 && (u.target == 0 || attrBit u.attr attrMigratable) &&
  (if hasLedger u.alg then
    (u.limit2 == 0 || decide (16 ≤ u.limit2 ∧ u.limit2 ≤ 48)) &&
      (u.lease2 == 0 || decide (16 ≤ u.lease2 ∧ u.lease2 ≤ 24 ∧ u.lease2 ≤ limit))
   else u.limit2 == 0 && u.lease2 == 0)

/-- The slot target of step 8: FREE for a new key, ACTIVE for a rewrite; the second slot of an RSA-4096 key is FREE or
belongs to the key that is rewritten. -/
def State.importTarget (s : State) (p : Plate) (i n alg : Nat) : State × Except Status Slot :=
  let q := (s.quotaNow p i).slots
  if q ≤ n then (s, .error .range)
  else if s.slotErasing p i n then (s, .error .keyGone)
  else match s.targetSlot p i n with
    | (s, .error e) => (s, .error e)
    | (s, .ok _) =>
      let v := s.slotAhead p (slotKey i n)
      if (v.st != .free && v.st != .active) || (s.pl p).sl.jobs.any fun j => generatesInto j i n then (s, .error .range)
      else if alg == 0x4A && !(v.st == .active && v.alg == 0x4A) then
        if q ≤ n + 1 then (s, .error .range)
        else match s.targetSlot p i (n + 1) with
          | (s, .error e) => (s, .error e)
          | (s, .ok w) => (s, if w.st == .free && !s.slotTaken p i (n + 1) then .ok v else .error .range)
      else (s, .ok v)

/-- The larger of two generations. -/
def maxGen (a b : Word) : Word := if a.toNat < b.toNat then b else a

/-- Step 9 of Table 7.4: the commit of an update message's items with the slice's new import counter; `bind` is what the
message does to the importer binding. The counter is compared again, with that of a message whose commit is done or under way
(R173). -/
def State.importCommit (s : State) (p : Plate) (j : Job) (u : Update) (bind : SliceRec → SliceRec) (items : List VItem)
    (r : Result) (output : Nat) (after : After) : State :=
  let i := (ringSlice j.ring).getD 0
  if u.counter ≤ (s.recAhead p i).imp then s.fail p j .counterStale
  else match s.refuses p false with
    | some st => s.fail p j st
    | none => s.commitJob p j (.record i { bind (s.recAhead p i) with imp := u.counter } :: items) r output after

/-- The completion of a KEY_IMPORT (R173). -/
def importResult (u : Update) (gen : Word) (entry : Option Nat) (writes : List (DWord × Bytes)) : Result :=
  { info := gen, info2 := BitVec.ofNat 32 (entry.getD 0xFFFFFFFF), writes := writes, work := importWork u }

/-- The key that an update message brings. -/
def Update.newKey (u : Update) (mat : Bytes) : NewKey :=
  { alg := u.alg, attr := u.attr, limit2 := u.limit2, lease2 := u.lease2, mat := mat }

/-- Steps 8 and 9 for a slug target. -/
def State.importSlug (s : State) (p : Plate) (j : Job) (u : Update) (mat : Bytes) : State :=
  let i := (ringSlice j.ring).getD 0
  match s.takeLedger p i with
  | none => s.fail p j .quota
  | some e =>
    let gen := (s.ledgerAt p e).gen + 1
    let k := u.newKey mat
    let slug := s.slugOf p k i e gen (BitVec.ofNat 32 (leNat (s.drawnAt p vaultInst [4, 12] 0))) (s.optime p)
      (s.drawnAt p vaultInst [4, 12] 1)
    let r := importResult u gen (some e) [(j.desc.aadAddr, slug)]
    (((s.drew p vaultInst [4, 12]).freshEntry p (some e)).updJob p j.ring j.index fun j => { j with ledgerNew := some e }).importCommit p
      { j with ledgerNew := some e } u id [.ledger e (newLedger k i true gen)] r 2 (.finish j.ring j.index r)

/-- Steps 8 and 9 for a slot target: a new key, or a rewrite of an ACTIVE slot with the next generation (R174). The manual gives
no outcome for a rewrite at generation 0xFFFF_FFFF: the next one is 0 (DESIGN CHOICE, log 129). -/
def State.importSlot (s : State) (p : Plate) (j : Job) (u : Update) (mat : Bytes) : State :=
  let i := (ringSlice j.ring).getD 0
  match s.importTarget p i u.slot u.alg with
  | (s, .error e) => s.fail p j e
  | (s, .ok old) =>
    let rewrite := old.st == .active
    let had := if rewrite then old.ledger else none
    let need := hasLedger u.alg
    let entry := if !need then none else match had with
      | some e => some e
      | none => s.takeLedger p i
    if need && entry.isNone then s.fail p j .quota
    else
      let base : Word := if rewrite then old.gen + 1 else 1
      let gen := match entry, had with
        | some _, some _ => base
        | some e, none => if rewrite then maxGen base ((s.ledgerAt p e).gen + 1) else (s.ledgerAt p e).gen + 1
        | none, _ => base
      let k := u.newKey mat
      let kit := BitVec.ofNat 32 (leNat (s.drawnAt p vaultInst [4, 12] 0))
      let freed := match had with
        | some e => if need then [] else [VItem.ledger e { gen := (s.ledgerAhead p e).gen }]
        | none => []
      let cont := if rewrite && old.alg == 0x4A && u.alg != 0x4A then [VItem.slot (slotKey i (u.slot + 1)) {}] else []
      let r := importResult u gen entry []
      let j' := { j with ledgerNew := if had.isNone then entry else none, oldGen := old.gen }
      (((s.drew p vaultInst [4, 12]).freshEntry p j'.ledgerNew).updJob p j.ring j.index fun _ => j').importCommit p j' u id
        (slotItems k i u.slot gen kit (s.optime p) (s.drawnAt p vaultInst [4, 12] 1) entry ++ freed ++ cont) r 0
        (if rewrite then .rewritten j.ring j.index i u.slot r else .finish j.ring j.index r)

/-- Steps 8 and 9 of Table 7.4 with the opened body. A message of type 0x02 creates no key: info of its completion, which R173
makes the generation of the key, is 0 (DESIGN CHOICE, log 128). -/
def State.importBody (s : State) (p : Plate) (j : Job) (u : Update) (body : Bytes) : State :=
  if u.type == 2 then
    if Config.pkValid u.alg body then
      let r := importResult u 0 none []
      s.importCommit p j u (fun v => { v with impAlg := u.alg, impKey := fit 32 (Config.sha3 body) }) [] r 0
        (.finish j.ring j.index r)
    else s.fail p j .range
  else if !(materialOk u.alg body && updateAttrs u) then s.fail p j .range
  else if u.target == 1 then s.importSlug p j u body
  else s.importSlot p j u body

/-- Steps 3 and 4 of Table 7.4; then step 5 is a lane step of the job (Table 3.7). -/
def State.importChecked (s : State) (p : Plate) (j : Job) (u : Update) (rec : SliceRec) : State :=
  let signer := cut u.b u.signerAt (publicLen u.sigAlg)
  if !(u.sigAlg == rec.impAlg && u.device == s.identityDigest p) then s.fail p j .range
  else if fit 32 (Config.sha3 signer) != rec.impKey then s.fail p j .authFail
  else (s.updJob p j.ring j.index fun j => { j with inp := u.b }).nextStep p j .lane 5 (msgAddOn u.signedLen) (signD1 u)

/-- Steps 1 to 4 of Table 7.4 on the message that was read. -/
def State.importRead (s : State) (p : Plate) (j : Job) (msg : Dma) : State :=
  let i := (ringSlice j.ring).getD 0
  let rec_ := (s.pl p).vlt.recs.get {} i
  match msg with
  | .fault => s.fail p j .dmaFault
  | .ok b =>
    let u := parseUpdate (fit j.desc.inLen.toNat b)
    match updateStep1 u j.desc.inLen.toNat with
    | some st => s.fail p j st
    | none => match updateStep2 u j.desc i rec_.impAlg with
      | some (st, n) => s.finish p j { status := st, outLen := n }
      | none => s.importChecked p j u rec_

/-- The lane's part of a KEY_IMPORT: step 5, the signature, or step 7, the decapsulation and the ECDH, with the body opened. -/
def importLane (seed : Bytes) (j : Job) : Job :=
  let u := parseUpdate j.inp
  if j.phase = 5 then
    let signer := cut u.b u.signerAt (publicLen u.sigAlg)
    let ok := sigOk u.sigAlg signer [] (cut u.b 0 u.signedLen) (cut u.b u.signedLen (signatureLen u.sigAlg))
    { j with rawA := 1, result := some { status := if ok then .ok else .authFail } }
  else match updateBody seed u with
    | some body => { j with rawA := 1, par := body, result := some {} }
    | none => { j with rawA := 1, result := some { status := .authFail } }

/-- What follows a lane step of a KEY_IMPORT that was released (Table 7.4): AUTH_FAIL, with the work of the lane steps that ran;
after step 5 the counter of step 6 and the lane step 7; after step 7 the key-state step. -/
def State.importStepped (s : State) (p : Plate) (j : Job) (x : Result) : State :=
  let u := parseUpdate j.inp
  let rec_ := (s.pl p).vlt.recs.get {} ((ringSlice j.ring).getD 0)
  if x.status != .ok then
    s.finish p j { x with work := if j.phase = 5 then signD1 u + msgAddOn u.signedLen else importWork u }
  else if j.phase = 5 then
    if u.counter ≤ rec_.imp then s.fail p j .counterStale else s.nextStep p j .lane 7 0 112
  else s.nextStep p j .vault 8 0 0

/-- KEY_IMPORT (R172): the steps of Table 7.4. The vault controller runs steps 1 to 4 on the message that was read and steps 8 and
9 on its body, with what it draws for a new key; a lane runs step 5 and step 7. A stalled secure world completes it with BUSY
(R323). -/
def execKeyImport (r : JobRef) (msg : Dma) (s : State) : Host.Outcome State Fault Refusal :=
  match s.accepted r 0x31 with
  | some j =>
    let s := s.retireRead r.plate (.input r.ring r.index)
    .next (if (s.pl r.plate).mgt.sec != .running then s.fail r.plate j .busy
      else if j.phase = 8 then
        if (parseUpdate j.inp).type != 2 && !s.canDraw r.plate vaultInst 2 then s
        else s.importBody r.plate j (parseUpdate j.inp) j.par
      else s.importRead r.plate j msg)
  | none => .next (match s.working r 0x31 with
    | some j => if j.cls == .lane then s.updJobAt r (importLane (s.seed r.plate)) else s
    | none => s)

/-! ## KEY_ERASE (R187 to R191) -/

/-- The lines of an ended handle are free at reference count 0 (R191). -/
def State.freeEnded (s : State) (p : Plate) (i pos : Nat) : State :=
  match s.entryAt p i pos with
  | some e =>
    if e.ended && s.refcount p (.handle i pos) == 0 then
      s.updVlt p fun v => { v with cache := v.cache.filter fun e => !(e.slice == i && e.pos == pos) }
    else s
  | none => s

/-- The slots that an erase of slot `n` covers. -/
def slotSpan (v : Slot) (k : Nat) : List Nat := if v.alg == 0x4A then [k, k + 1] else [k]

/-- The generation an erase reports; that of a slot which cannot be read is not known: a free value (log 27). -/
def State.erasedGen (s : State) (p : Plate) (j : Job) : Word :=
  match parseKref j.desc.keyRef with
  | .slot n =>
    let v := s.slotAhead p (slotKey ((ringSlice j.ring).getD 0) n)
    if v.tagOk then v.gen else BitVec.ofNat 32 (Config.freeNat s.free)
  | _ => (j.key.map Key.gen).getD 0

/-- The items of step 3 of Table 7.10. -/
def State.erasingItems (s : State) (p : Plate) (item : ItemRef) : List VItem :=
  match item with
  | .slot i n =>
    let v := s.slotAhead p (slotKey i n)
    if v.tagOk then
      ((slotSpan v (slotKey i n)).map fun k => VItem.slot k { s.slotAhead p k with st := .erasing }) ++
        (match v.ledger with
          | some e => [.ledger e { s.ledgerAhead p e with st := .erasing }]
          | none => [])
    else [.slot (slotKey i n) { st := .erasing }]
  | .ledger e => [.ledger e { s.ledgerAhead p e with st := .erasing }]
  | .handle _ _ => []

/-- The items of step 6 of Table 7.10: zero slots, the ledger entry FREE with its generation kept. -/
def State.erasedItems (s : State) (p : Plate) (item : ItemRef) : List VItem :=
  match item with
  | .slot i n =>
    let v := s.slotAt p i n
    ((slotSpan v (slotKey i n)).map fun k => VItem.slot k {}) ++ (match v.ledger with
      | some e => [.ledger e { gen := (s.ledgerAt p e).gen }]
      | none => [])
  | .ledger e => [.ledger e { gen := (s.ledgerAt p e).gen }]
  | .handle _ _ => []

/-- KEY_ERASE (R187, Table 7.10 steps 2 and 3). -/
def execKeyErase (r : JobRef) (s : State) : Host.Outcome State Fault Refusal :=
  match s.accepted r 0x32 with
  | some j =>
    let p := r.plate
    .next (match s.eraseRefused p j, eraseItem j with
    | some st, _ => s.fail p j st
    | none, some (.handle i pos) =>
      let gen := s.erasedGen p j
      ((s.updEntry p i pos fun e => { e with ended := true }).freeEnded p i pos).vaultDone p r.ring r.index { info := gen }
    | none, some item =>
      let x : Result := { info := s.erasedGen p j }
      (s.tick 1).commitJob p j (s.erasingItems p item) x 0 (.erasing r.ring r.index)
    | none, none => s.fail p j .keyGone)
  | none => .next s

/-- Whether a job that drains may go on: reference count 0 of its item, or of the generation that a rewrite superseded (R190). -/
def State.drained (s : State) (p : Plate) (j : Job) : Bool :=
  match eraseItem j, j.desc.op == 0x32 with
  | some item, true => s.refcount p item == 0
  | _, true => true
  | _, false => match j.key, j.result with
    | some k, some _ => !((s.pl p).sl.jobs.any fun e => e.holdsKey && [e.key, e.key2].any fun o => match o with
        | some h => h.src == k.src && h.gen == j.oldGen
        | none => false)
    | _, _ => true

/-- Step 6 of Table 7.10 for a KEY_ERASE that has drained: its final commit; in PARTITION it waits, and in NO_WRITE it
completes with VAULT_RO (R189). -/
def State.eraseFinal (s : State) (p : Plate) (j : Job) : State :=
  match eraseItem j with
  | none => s
  | some item =>
    if s.wear p == 3 then s.fail p j .vaultRo
    else if (s.refuses p true).isSome then s
    else s.commitJob p j (s.erasedItems p item) (j.result.getD {}) 0
      (.erased j.ring j.index (((j.result.map Result.info)).getD 0))

/-- The reference count of a job's item is 0: an erase goes to step 6, a rewrite completes (R188, R190). -/
def State.drainNext (s : State) (p : Plate) (j : Job) : State :=
  if !s.drained p j then s
  else if j.desc.op == 0x32 then s.eraseFinal p j
  else s.vaultDone p j.ring j.index (j.result.getD {})

/-- Whether a draining job waits for this item. -/
def drainsItem (j : Job) (item : ItemRef) : Bool :=
  if j.desc.op == 0x32 then eraseItem j == some item
  else match item, j.key with
    | .slot i n, some k => k.src == .slot i n
    | _, _ => false

/-- REFCOUNT_ZERO (R188, R190): every erase or rewrite that waits for the item and whose count is 0 proceeds, and an ended handle
frees its lines. -/
def execRefcountZero (p : Plate) (item : ItemRef) (s : State) : Host.Outcome State Fault Refusal :=
  let s := match item with
    | .handle i pos => s.freeEnded p i pos
    | _ => s
  .next (s.each ((s.pl p).sl.jobs.filter fun j => j.stage == .draining && drainsItem j item) fun s j => s.drainNext p j)

/-- Step 6 has committed: the non-handle lines of the item are freed and the job has its outcome (Table 7.10). -/
def State.eraseDone (s : State) (p : Plate) (q : RingRef) (i : Word) (gen : Word) : State :=
  let same (item : Option ItemRef) (e : CacheEntry) : Bool := e.handle.isNone && (match item with
    | some (.slot a b) => e.key.src == .slot a b
    | some (.ledger k) => e.key.ledger == some k
    | _ => false)
  let s := match s.job? p q i with
    | some j => s.updVlt p fun v => { v with cache := v.cache.filter fun e => !same (eraseItem j) e }
    | none => s
  s.vaultDone p q i { info := gen }

/-- A rewrite has committed: the old generation's copies stop serving starts, and the completion waits for them (R190). -/
def State.rewriteDone (s : State) (p : Plate) (q : RingRef) (idx : Word) (i n : Nat) (r : Result) : State :=
  let v := s.slotAt p i n
  let s := ((s.updJob p q idx fun j => { j with stage := .draining, result := some r, key := some (v.key i n) }).updVlt p
    fun x => { x with
      cache := x.cache.filter fun e => !(e.handle.isNone && e.key.src == .slot i n && e.key.gen != v.gen) }).freshEntry p
      v.ledger
  match s.job? p q idx with
  | some j => s.drainNext p j
  | none => s

end Sys2Proof.Machine
end

