-- ==== Sys2Proof/Machine/Lanes.lean ====
section
/-! DEFINITION. The public-key lanes and the justifier: the lane opcodes, statements, message data, attempt boundaries and
release (05; 07 R178 to R180; 10 R242). -/

namespace Sys2Proof.Machine

/-! ## Statements (R179, R180, R242) -/

/-- The quorum policy digest (R242). -/
def State.policyDigest (s : State) (p : Plate) : Bytes :=
  fit 32 (Config.sha3 (policyBytes (s.policy p) ++ ((List.range 8).map fun k =>
    let e := (s.custody p).table.get {} k
    if e.active then leBytes 1 0x0F ++ fit 32 (Config.sha3 e.key) else leBytes 1 0 ++ zeros 32).flatten))

/-- Bytes 0 to 0x5F + body_len of a statement (Table 7.7). -/
def State.statementHead (s : State) (p : Plate) (kind : Nat) (challenge body : Bytes) : Bytes :=
  [0x4B, 0x4C, 0x53, 0x54] ++ leBytes 1 1 ++ leBytes 1 kind ++ leBytes 1 (s.lifecycle p).toNat ++ leBytes 1 0x11 ++
  leBytes 4 body.length ++ zeros 4 ++ s.identityDigest p ++ fit 32 challenge ++ leBytes 8 (s.optime p % 2 ^ 48) ++ zeros 8 ++
  body

/-- The ECDSA P-384 attestation key (Table 7.1). -/
def attestEc (seed : Bytes) : Bytes := cut seed 0 48
/-- The ML-DSA-65 attestation key. -/
def attestPq (seed : Bytes) : Bytes := cut seed 48 32
/-- The context of the second signature (R179). -/
def statementCtx : Bytes := ascii "GK4096 statement"

/-- A context string ahead of a message, as an ML-DSA signature covers both. -/
def withCtx (ctx m : Bytes) : Bytes := leBytes 1 ctx.length ++ ctx ++ m

/-- A statement with both signatures of a device identity, under two random values. -/
def signStatement (seed head rndEc rndPq : Bytes) : Bytes :=
  head ++ fit 96 (Config.pkSign 0x41 (attestEc seed) ecdsa384Flags [] (Config.sha384 head) rndEc) ++
  fit 3309 (Config.pkSign 0x59 (attestPq seed) 0 statementCtx head rndPq)

/-- Bytes that a SIGN draws: the rnd of ML-DSA, 32 of them; for the other algorithms the manual gives no length, and the model draws
64 (DESIGN CHOICE, log 141). -/
def signRandom (alg : Nat) : Nat := if isDsa alg then 32 else 64

/-- Lengths of the random values that sign `m` statements: for each those of its ECDSA and of its ML-DSA part. -/
def signDraws (m : Nat) : List Nat := (List.range m).flatMap fun _ => [signRandom 0x41, signRandom 0x59]

/-- The attempts of a statement's ML-DSA-65 signature. -/
def statementAttempts (seed head rndPq : Bytes) : Nat :=
  1 + Config.dsaAttempts 0x59 (attestPq seed) (withCtx statementCtx head) rndPq

/-- The colophon body (Table 7.8). -/
def State.colophonBody (s : State) (p : Plate) : Bytes :=
  ascii "GK4096-FB1920-C" ++ zeros 1 ++ leBytes 8 Config.serial.toNat ++ leBytes 8 (Config.plateId .a).toNat ++
  leBytes 8 (Config.plateId .b).toNat ++ leBytes 8 (s.pl p).vlt.migration ++ s.policyDigest p ++
  fit 32 s.pa.mgt.measS ++ fit 32 s.pa.mgt.measN ++ fit 32 s.pb.mgt.measS ++ fit 32 s.pb.mgt.measN ++ s.identityParts p ++ zeros 2 ++
  leBytes 4 (s.pl p).cus.chain.length ++ (s.pl p).cus.chain

/-! ## A lane's work -/

/-- The lane computed `x` in `a` attempts, the first of which it has finished (R121). -/
def State.laneDone (s : State) (r : JobRef) (a : Nat) (x : Result) : State :=
  s.updJobAt r fun j => { j with attempts := a, rawA := 1, result := some x }

/-- The flags that select an operation's options: DET, PREHASHED, HASH and PAD (Table 5.3). -/
def optionFlags (d : Desc) : Nat := d.flags.toNat &&& 0x27F0

/-- The attempts of a SIGN (R121, R370). -/
def signAttempts (j : Job) (rnd : Bytes) : Nat :=
  if isDsa j.desc.al then 1 + Config.dsaAttempts j.desc.al j.mat (withCtx j.aad j.inp) rnd else 1

/-- SIGN (R108, R117): hedged, or with 32 zero bytes under DET. -/
def execSign (r : JobRef) (s : State) : Host.Outcome State Fault Refusal :=
  match s.laneWorking r 0x20 with
  | some j =>
    let det := j.desc.fl 13 1 == 1
    let n := signRandom j.desc.al
    let rnd := if det then zeros 32 else s.drawn r.plate j.drbg n
    let a := signAttempts j rnd
    let sig := fit (signatureLen j.desc.al) (Config.pkSign j.desc.al j.mat (optionFlags j.desc) j.aad j.inp rnd)
    .next (if !det && !s.canDraw r.plate j.drbg 1 then s
      else (if det then s else s.drew r.plate j.drbg [n]).laneDone r a
        { outLen := sig.length, info := BitVec.ofNat 32 a, writes := [(j.desc.outAddr, sig)] })
  | none => .next (s.laneNext r 0x20)

/-- The public key a VERIFY or KEM_ENCAPS uses: inline, or the public part of its key. -/
def publicOf (j : Job) (inline : Bytes) : Bytes :=
  match j.key with
  | some k => fit (publicLen k.alg) (Config.pkPublic k.alg k.material)
  | none => inline

/-- VERIFY (R108, Table 5.7): an inline public key that fails its check is RANGE, a signature that does not verify is
AUTH_FAIL. -/
def execVerify (r : JobRef) (s : State) : Host.Outcome State Fault Refusal :=
  match s.laneWorking r 0x21 with
  | some j =>
    let pub := publicOf j j.pub
    .next (s.laneDone r 1 { status :=
      if j.key.isNone && !Config.pkValid j.desc.al pub && !isRsa j.desc.al then .range
      else if Config.pkVerify j.desc.al pub (optionFlags j.desc) j.aad j.inp j.par then .ok
      else .authFail })
  | none => .next (s.laneNext r 0x21)

/-- The outcome that carries a shared secret: written in clear to `addr`, or left in the job's reserved lines as a KMAC256
key with DERIVE alone (R114). -/
def State.secretDone (s : State) (r : JobRef) (j : Job) (ss : Bytes) (addr : DWord) (x : Result) : State :=
  if j.desc.clear then s.laneDone r 1 { x with writes := x.writes ++ [(addr, ss)] }
  else (s.placeKey r.plate j { alg := 0x0C, attr := 0x2000, material := ss }).laneDone r 1 x

/-- KEM_DECAPS (R115): implicit rejection; the status is always OK. -/
def execKemDecaps (r : JobRef) (s : State) : Host.Outcome State Fault Refusal :=
  match s.laneWorking r 0x22 with
  | some j =>
    let ss := fit 32 (Config.kemDecaps j.desc.al j.mat j.inp)
    .next (s.secretDone r j ss j.desc.outAddr { outLen := if j.desc.clear then 32 else 0 })
  | none => .next (s.laneNext r 0x22)

/-- KEM_ENCAPS (R114): the ciphertext at out_addr, the secret at aad_addr or in the cache. -/
def execKemEncaps (r : JobRef) (s : State) : Host.Outcome State Fault Refusal :=
  match s.laneWorking r 0x23 with
  | some j =>
    let ek := publicOf j j.inp
    .next (if j.key.isNone && !Config.pkValid j.desc.al ek then s.laneDone r 1 { status := .range }
      else if !s.canDraw r.plate j.drbg 1 then s
      else
        let o := Config.kemEncaps j.desc.al ek (s.drawn r.plate j.drbg 32)
        let ct := fit (kemCtLen j.desc.al) o.1
        (s.drew r.plate j.drbg [32]).secretDone r j (fit 32 o.2) j.desc.aadAddr { outLen := ct.length, writes := [(j.desc.outAddr, ct)] })
  | none => .next (s.laneNext r 0x23)

/-- ECDH (R113, R114): a peer key that fails its check is RANGE. -/
def execEcdh (r : JobRef) (s : State) : Host.Outcome State Fault Refusal :=
  match s.laneWorking r 0x24 with
  | some j =>
    .next (match Config.pkAgree j.desc.al j.mat j.inp with
    | some z => s.secretDone r j (fit (secretLen j.desc.al) z) j.desc.outAddr
        { outLen := if j.desc.clear then secretLen j.desc.al else 0 }
    | none => s.laneDone r 1 { status := .range })
  | none => .next (s.laneNext r 0x24)

/-- RSA_DECRYPT (R116, Table 5.7). -/
def execRsaDecrypt (r : JobRef) (s : State) : Host.Outcome State Fault Refusal :=
  match s.laneWorking r 0x25 with
  | some j =>
    .next (match Config.rsaOaep j.desc.al j.mat (j.desc.fl 8 2) j.aad j.inp with
    | some m =>
      let m := m.take (publicLen j.desc.al - 2 * hashLen (j.desc.fl 8 2) - 2)
      s.laneDone r 1 { outLen := m.length, writes := [(j.desc.outAddr, m)] }
    | none => s.laneDone r 1 { status := .authFail })
  | none => .next (s.laneNext r 0x25)

/-- The outcome of a statement job (R179, R180), once its lane's instance can give both random values (R118). -/
def State.statementDone (s : State) (r : JobRef) (j : Job) (head : Bytes) : State :=
  let l := signDraws 1
  let rnd := s.drawnAt r.plate j.drbg l 1
  let b := signStatement (s.seed r.plate) head (s.drawnAt r.plate j.drbg l 0) rnd
  let a := statementAttempts (s.seed r.plate) head rnd
  if !s.canDraw r.plate j.drbg l.length then s
  else (s.drew r.plate j.drbg l).laneDone r a { outLen := b.length, info := BitVec.ofNat 32 a, writes := [(j.desc.outAddr, b)] }

/-- KEY_ATTEST (R178): an imprint, kind 0x02, of the key record. -/
def execKeyAttest (r : JobRef) (s : State) : Host.Outcome State Fault Refusal :=
  match s.laneWorking r 0x34 with
  | some j =>
    let body := s.keyRecord r.plate ((ringSlice j.ring).getD 0) (j.key.getD {}) j.entry
    .next (s.statementDone r j (s.statementHead r.plate 0x02 j.par body))
  | none => .next (s.laneNext r 0x34)

/-- DEVICE_ATTEST (R180): a colophon, kind 0x01. -/
def execDeviceAttest (r : JobRef) (s : State) : Host.Outcome State Fault Refusal :=
  match s.laneWorking r 0x50 with
  | some j => .next (s.statementDone r j (s.statementHead r.plate 0x01 j.par (s.colophonBody r.plate)))
  | none => .next (s.laneNext r 0x50)

/-! ## The justifier (R119 to R125) -/

/-- A message read of a lane job failed: the job ends with DMA_FAULT at the boundary of its attempt. -/
def State.messageFails (s : State) (r : JobRef) : State :=
  (s.retireRead r.plate (.message r.ring r.index)).updJobAt r fun j =>
    { j with waitingMsg := false, accBase := s.accrued j, forced := some .dmaFault, attempts := j.boundary
             resumedAt := if j.stage == .started then some s.clock else none }

/-- MESSAGE_DATA_ARRIVE (R373): message bytes return, and the lane runs on over them (log 24); a read that fails completes the job
at the boundary of its attempt. -/
def execMessageDataArrive (r : JobRef) (data : Dma) (s : State) : Host.Outcome State Fault Refusal :=
  match s.jobAt r with
  | some j =>
    if (j.stage == .started || j.stage == .parked) && j.waitingMsg then
      let from_ : Option Nat := if j.stage == .started then some s.clock else none
      match data with
      | .ok b =>
        let n := min (j.msgGot + b.length) j.desc.inLen.toNat
        let m := (j.inp ++ b).take j.desc.inLen.toNat
        .next (if n = j.desc.inLen.toNat then
          (s.retireRead r.plate (.message r.ring r.index)).updJobAt r fun j =>
            { j with inp := m, msgGot := n, waitingMsg := false, accBase := s.accrued j, resumedAt := from_ }
        else s.updJobAt r fun j =>
          { j with inp := m, msgGot := n, accBase := s.accrued j, resumedAt := from_ })
      | .fault => .next (s.messageFails r)
    else .next s
  | none => .next s

/-- LANE_RESULT_READY (R121): the lane hands its result to the justifier and is free. A lane whose RSA result failed its
check keeps it (R116). -/
def execLaneResultReady (r : JobRef) (s : State) : Host.Outcome State Fault Refusal :=
  match s.jobAt r with
  | some j =>
    .next (if j.stage == .started && j.cls == .lane && j.unit.isSome && !j.critical &&
        ((j.result.isSome && j.rawA == j.attempts) || j.forced.isSome)
      then s.updJobAt r fun j => { j with rawDone := true, unit := none, toPark := false } else s)
  | none => .next s

/-- A job is posted with TIMING_FAULT at its target and its lane's error pin is raised (R125). -/
def State.timingFault (s : State) (p : Plate) (j : Job) : State :=
  let s := s.updSl p fun x => { x with pkeTf := x.pkeTf + 1 }
  let s := s.fail p j .timingFault
  match j.unit with
  | some n => s.raiseUnit p 28 (.lane n)
  | none => s.raise p 28

/-- A lane job's outcome leaves: a generated key waits for its key-state step (R169, Table 3.7), a KEY_IMPORT goes on, a made key
gets its handle, once the epoch that it needs has committed (R91), and every other outcome is posted. WORK_UNITS is D (R123). -/
def State.release (s : State) (p : Plate) (j : Job) (x : Result) : State :=
  let x := { x with work := j.target }
  if j.desc.op == 0x31 then s.importStepped p j x
  else if j.desc.op == 0x30 && x.status == .ok then
    (s.joinClass p j .vault).updJob p j.ring j.index fun j =>
      { j with stage := .ready, cls := .vault, begun := true, unit := none, window := none, result := none, cost := 1 }
  else if x.status = .ok && s.waitsEpoch p j (s.newKey p j) then s.wrapEpoch p
  else if x.status = .ok && j.newPos.isSome then
    match s.issueFor p j x with
    | (s, x) => s.finish p j x
  else s.finish p j x

/-- ATTEMPT_BOUNDARY (R121, R123): attempt `boundary` has reached its justified boundary. The lane must have finished it; the next
attempt is charged D1, unless it was charged before its job restarted (R105). -/
def execAttemptBoundary (r : JobRef) (s : State) : Host.Outcome State Fault Refusal :=
  match s.jobAt r with
  | some j =>
    if j.stage == .started && j.cls == .lane && !j.critical && j.forced.isNone && !j.waitingMsg &&
        decide (j.bound ≤ s.accrued j) then
      if j.rawA < j.boundary then .next (s.timingFault r.plate j)
      else if j.boundary < j.attempts then
        let s := if j.charged ≤ j.boundary then s.charge r.plate .lane (roundKey j.ring) j.d1 else s
        .next (s.updJobAt r fun j => { j with boundary := j.boundary + 1, charged := max j.charged (j.boundary + 1) })
      else if j.rawDone then .next s
      else .next (s.timingFault r.plate j)
    else .next s
  | none => .next s

/-- A lane job at its target: its outcome is released, or TIMING_FAULT where the lane has none (R119, R125). -/
def State.reachTarget (s : State) (p : Plate) (j : Job) : State :=
  match j.forced, j.result, j.rawDone with
  | some st, _, _ => s.fail p j st
  | none, some x, true => s.release p j x
  | _, _, _ => s.timingFault p j

/-- Whether a lane job has reached its target. -/
def State.atTarget (s : State) (j : Job) : Bool :=
  j.stage == .started && j.cls == .lane && !j.critical && !j.waitingMsg && j.boundary == j.attempts &&
    decide (j.target ≤ s.accrued j)

end Sys2Proof.Machine
end

