-- ==== Sys2Proof/Machine/Random.lean ====
section
/-! DEFINITION. Random number generation: health tests, conditioner, DRBG instances, RANDOM, RNG_DATA and the halted state
(08). -/

namespace Sys2Proof.Machine

/-! ## Health tests (R193) -/

/-- A cell after one raw bit; the repetition count and the adaptive proportion count include it (SP 800-90B, log 28). -/
def Cell.feed (c : Cell) (b : Bool) : Cell :=
  let run := if c.run != 0 && c.last == b then c.run + 1 else 1
  let first := if c.pos = 0 then b else c.first
  let seen := if c.pos = 0 then 1 else if b == first then c.seen + 1 else c.seen
  { last := b, run := run, first := first, pos := (c.pos + 1) % 1024, seen := seen }

/-- The cause that a cell's counts show: 3 repetition count, 4 adaptive proportion (Table 8.1). -/
def Cell.fails (c : Cell) : Option Nat := if 61 ≤ c.run then some 3 else if 812 ≤ c.seen then some 4 else none

/-- A cell after a run of bits, the first failure, and the highest counts seen. -/
def Cell.feedAll : Cell → List Bool → Option Nat → Nat → Nat → Cell × Option Nat × Nat × Nat
  | c, [], f, apt, rct => (c, f, apt, rct)
  | c, b :: t, f, apt, rct =>
    let c := c.feed b
    Cell.feedAll c t (f <|> c.fails) (max apt c.seen) (max rct c.run)

/-- The bits of a cell's share of a conditioner input, in order. -/
def rawBits (v : BitVec 256) : List Bool := (List.range 256).map v.getLsbD

/-! ## HALTED (R204 to R206) -/

/-- Whether a started job of the halted plate still waits for random values (R206): a lane job whose raw result has not reached
the justifier, any other that has issued no output write. A job whose change has begun to commit goes on with its real outcome,
as R371 has it (log 29). -/
def Job.waitsRandom (j : Job) : Bool :=
  needsRandom j.desc.op &&
  (j.stage == .running || (j.stage == .ready && j.begun) ||
  (if j.cls == .lane then
    !j.rawDone && (j.stage == .started || j.stage == .parked || j.stage == .restart)
   else j.stage == .started || (j.stage == .accepted && (j.result.map fun r => r.status == .ok) != some true)))

/-- Started jobs at the halt: a lane job ends at the boundary of the attempt in progress, any other at once (R206). -/
def State.haltJobs (s : State) (p : Plate) : State :=
  s.each ((s.pl p).sl.jobs.filter Job.waitsRandom) fun s j =>
    if j.cls == .lane && j.stage != .ready then
      s.updJob p j.ring j.index fun j => { j with forced := some .entropyHalt, attempts := j.boundary, result := none }
    else s.fail p j .entropyHalt

/-- Stalled RNG_DATA reads end with a bus error (R205). -/
def State.stallsFail (s : State) (p : Plate) : State :=
  let x := (s.pl p).rng
  (s.updRng p fun x => { x with stalls := [] }).emits (x.stalls.map fun _ => .reply p none)

/-- The plate's random service becomes HALTED with its cause (Table 8.6): the pool is discarded, ENTROPY is raised, the
started jobs that wait end under R206. -/
def State.entropyHalt (s : State) (p : Plate) (cell cause : Nat) : State :=
  if (s.pl p).rng.st = .halted then s
  else
    let s := s.updRng p fun x =>
      { x with
        st := .halted, cause := cause, cell := if cause = 5 then 0 else cell, pool := []
        cells := if cause = 5 then 0 else if cause = 0 then x.cells else x.cells &&& ~~~ BitVec.ofNat 8 (2 ^ cell) }
    ((s.stallsFail p).haltJobs p).raise p 27

/-! ## The commands -/

/-- The health tests of one conditioner input: the cells after it, the first failure, and the highest counts. -/
def testAll (h : Tab Cell) (apt rct : Nat) : Nat → List (BitVec 256) → Tab Cell × Option (Nat × Nat) × Nat × Nat
  | _, [] => (h, none, apt, rct)
  | k, v :: t =>
    let (c, f, apt, rct) := (h.get {} k).feedAll (rawBits v) none apt rct
    let (h, g, apt, rct) := testAll (h.set {} k c) apt rct (k + 1) t
    (h, (f.map fun e => (k, e)) <|> g, apt, rct)

/-- The block that 256 consecutive raw bits of each cell give, in cell order (R194). -/
def conditioned (raw : List (BitVec 256)) : Bytes := fit 32 (Config.sha3 (raw.flatMap fun v => leBytes 32 v.toNat))

/-- One conditioner input: its bits pass both tests, and 256 of each cell give one block, which a full pool discards; a failure
halts the plate (R193, R194). -/
def State.condition (s : State) (p : Plate) (raw : List (BitVec 256)) : State :=
  let x := (s.pl p).rng
  let (h, f, apt, rct) := testAll x.health x.aptMax x.rctMax 0 (raw.take 8)
  let s := s.updRng p fun x => { x with health := h, aptMax := apt, rctMax := rct }
  match f with
  | some (cell, cause) => s.entropyHalt p cell cause
  | none =>
    if raw.length = 8 ∧ (s.pl p).rng.pool.length < 64 then s.updRng p fun x => { x with pool := x.pool ++ [conditioned raw] }
    else s

/-- CONDITIONER_BLOCK (R193, R194). -/
def execConditionerBlock (p : Plate) (raw : List (BitVec 256)) (s : State) : Host.Outcome State Fault Refusal :=
  .next (if !s.gives p || !s.up p then s else s.condition p raw)

/-! ## Start-up (R196, Table 8.2) -/

/-- Step 2 for one cell: its first 4,096 samples run through both tests; a cell that passes is shown in CELLS, one that fails
halts the plate with cause 1 or 2. -/
def State.startCell (s : State) (p : Plate) (k : Nat) (bits : List Bool) : State :=
  if (s.pl p).rng.st == .halted then s
  else
    let x := (s.pl p).rng
    let (c, f, apt, rct) := (x.health.get {} k).feedAll (bits.take 4096) none x.aptMax x.rctMax
    let s := s.updRng p fun x => { x with health := x.health.set {} k c, aptMax := apt, rctMax := rct }
    match f with
    | some cause => s.entropyHalt p k (cause - 2)
    | none => s.updRng p fun x => { x with cells := x.cells ||| BitVec.ofNat 8 (2 ^ k) }

/-- Step 3, and the conditioner's work while the instances take blocks: inputs are conditioned until the pool is full; the inputs
left. -/
def State.fillPool (s : State) (p : Plate) : List (List (BitVec 256)) → State × List (List (BitVec 256))
  | [] => (s, [])
  | b :: t =>
    if (s.pl p).rng.st == .halted || decide (64 ≤ (s.pl p).rng.pool.length) then (s, b :: t)
    else (s.condition p b).fillPool p t

/-- Steps 4 and 5: instances made in turn, the pool filled again ahead of each. One that finds fewer than two blocks cannot be made:
its step fails, with cause 0, which the manual gives such a failure no code for (DESIGN CHOICE, log 142). -/
def State.startInstances (s : State) (p : Plate) : List Nat → List (List (BitVec 256)) → State
  | [], _ => s
  | k :: t, bs =>
    let (s, bs) := s.fillPool p bs
    let s := if (s.pl p).rng.pool.length < 2 then s.entropyHalt p 0 0 else s
    if (s.pl p).rng.st == .halted then (s.updInst p k fun _ => { live := true }).startInstances p t bs
    else (s.instantiate p k).startInstances p t bs

/-- Random start-up (R196): the known-answer tests, the start-up samples, the pool, the 8 internal instances and one for every
slice that is not FREE; a step that fails, the filling of the pool to 64 blocks among them, halts the plate. -/
def State.startRandom (s : State) (p : Plate) (x : RandomStart) : State :=
  let mine := ((s.pl p).sl.impo.filter fun e => e.2.st != .free).map Prod.fst
  let s := if x.kat then s else s.entropyHalt p 0 5
  let s := s.each (List.range 8) fun s k => s.startCell p k (x.samples.getD k [])
  let (s, bs) := s.fillPool p x.blocks
  let s := if (s.pl p).rng.pool.length < 64 then s.entropyHalt p 0 0 else s
  let s := s.startInstances p ((List.range 8).map (4096 + ·) ++ mine) bs
  if (s.pl p).rng.st == .halted then s else s.updRng p fun x => { x with st := .serving }

/-- HEALTH_TEST_FAIL (R204). -/
def execHealthTestFail (p : Plate) (cell cause : Nat) (s : State) : Host.Outcome State Fault Refusal :=
  .next (if s.up p && decide (1 ≤ cause ∧ cause ≤ 5 ∧ cell < 8) then s.entropyHalt p cell cause else s)

/-- RESEED_DUE (R199): a due instance is reseeded in the background, or instantiated where it has not been yet (R198, R208). -/
def execReseedDue (p : Plate) (k : Nat) (s : State) : Host.Outcome State Fault Refusal :=
  .next (if s.gives p && (s.inst p k).live && s.due p k &&
      decide ((if (s.inst p k).made then 1 else 2) ≤ (s.pl p).rng.pool.length) then s.readied p k else s)

/-- How many instances of plate `p` are due: their reseeds go before those that jobs ask for (R199, R202). -/
def State.dueCount (s : State) (p : Plate) : Nat :=
  ((s.pl p).rng.inst.filter fun e => e.2.live && e.2.due s.clock).length

/-- Whether a RANDOM job waits (R199, R202): for its instance that is due, or under PR for a block that no due instance takes. -/
def State.randomWaits (s : State) (p : Plate) (k : Nat) (pr : Bool) : Bool :=
  if pr && (s.inst p k).made then
    decide ((s.pl p).rng.pool.length ≤ s.dueCount p - (if s.due p k then 1 else 0))
  else s.due p k

/-- RANDOM (R202): a reseed first under PR, then one generate request with the additional input, to its slice's instance. -/
def execRandom (r : JobRef) (d : Inputs) (s : State) : Host.Outcome State Fault Refusal :=
  match s.working r 0x40 with
  | some j =>
    let p := r.plate
    let k := (ringSlice j.ring).getD 0
    let pr := j.desc.fl 8 1 == 1
    .next (if !s.gives p || s.randomWaits p k pr then s
      else match takeRead d.aad (j.desc.aadLen != 0) j.desc.aadLen.toNat with
        | none => s.computed r { status := .dmaFault }
        | some add =>
          let s := if pr then s.reseed p k else s
          let n := j.desc.inLen.toNat
          let out := (s.inst p k).out add n
          (s.updInst p k fun x => x.next add n).computed r { outLen := out.length, writes := [(j.desc.outAddr, out)], bytes := out.length })
  | none => .next s

/-- The instance of a world (Table 8.3). -/
def worldInst : World → Nat
  | .secure => 4102
  | .normal => 4103

/-- The stalled read of a world that is answered next, and the others. -/
def takeStall (w : World) : List (World × Nat) → Option (Nat × List (World × Nat))
  | [] => none
  | e :: t => if e.1 == w then some (e.2, t) else (takeStall w t).map fun x => (x.1, e :: x.2)

/-- RNG_DATA_READ (R203, R205): the read stalls until its bits are ready; on a HALTED plate it ends with a bus error. -/
def execRngDataRead (p : Plate) (w : World) (width : Nat) (s : State) : Host.Outcome State Fault Refusal :=
  .next (if !s.up p || !(width == 32 || width == 64) then s
    else if (s.pl p).rng.st == .halted then s.emit (.reply p none)
    else s.updRng p fun x => { x with stalls := x.stalls ++ [(w, width)] })

/-- RNG_DATA_READY (R203): the first stalled read of a world returns fresh bits of its width. -/
def execRngDataReady (p : Plate) (w : World) (s : State) : Host.Outcome State Fault Refusal :=
  match takeStall w (s.pl p).rng.stalls with
  | some (n, rest) =>
    .next (if !s.canDraw p (worldInst w) 1 then s
      else ((s.drew p (worldInst w) [n / 8]).updRng p fun x => { x with stalls := rest }).emit
        (.reply p (some (BitVec.ofNat 64 (leNat (s.drawn p (worldInst w) (n / 8)))))))
  | none => .next s

end Sys2Proof.Machine
end

