-- ==== Sys2Proof/Machine/Custody.lean ====
section
/-! DEFINITION. The admin queue, quorum sessions and custodians (10 R238 to R247; 14 R325). -/

namespace Sys2Proof.Machine

/-! ## The admin queue (R323, R325) -/

/-- An admin command that the secure world can take now: the head of the queue, while the secure world runs. -/
def State.adminHead (s : State) (r : JobRef) (op : Nat) : Option Job :=
  match s.jobAt r, r.ring with
  | some j, .admin =>
    if j.stage == .queued && j.desc.op == op && (s.pl r.plate).mgt.sec == .running &&
        (s.pl r.plate).mgt.queue.head? == some r.index then some j else none
  | _, _ => none

/-- The secure world takes the command. -/
def State.adminTake (s : State) (r : JobRef) : State :=
  (s.setQueue r.plate fun q => q.drop 1).updJobAt r fun j => { j with stage := .running }

/-- An admin command is taken and runs `f`; one that needs random values completes with ENTROPY_HALT, or waits for a
takeover, while they are halted (R206, Table 8.7). -/
def State.admin (s : State) (r : JobRef) (op : Nat) (f : State → Job → State) : State :=
  match s.adminHead r op with
  | some j => match s.entropyAtStart r.plate j with
    | some true => (s.adminTake r).fail r.plate j .entropyHalt
    | some false => s
    | none => f (s.adminTake r) { j with stage := .running }
  | none => s

/-- An untagged read of the admin ring's data leaves (R24). -/
def State.readAdmin (s : State) (p : Plate) (addr : DWord) (n : Nat) : State :=
  if n = 0 then s else (s.translate p none addr).emit (.read p none addr n false)

/-- The `n` bytes of an admin command at an address; DMA_FAULT completes the command where they could not be read (R27). -/
def State.withData (s : State) (p : Plate) (j : Job) (addr : DWord) (d : Dma) (n : Nat) (f : State → Bytes → State) : State :=
  let s := s.readAdmin p addr n
  match d with
  | .ok b => f s (fit n b)
  | .fault => s.fail p j .dmaFault

/-- The bytes of a command's input, of known length: the reads that acceptance issued have returned (R27). -/
def State.withInput (s : State) (p : Plate) (j : Job) (d : Dma) (n : Nat) (f : State → Bytes → State) : State :=
  let s := s.retireRead p (.input j.ring j.index)
  match d with
  | .ok b => f s (fit n b)
  | .fault => s.fail p j .dmaFault

/-! ## Sessions (R243 to R247) -/

/-- Policy class A opcodes (Table 10.2). -/
def classA (op : Nat) : Bool :=
  op == 0x86 || op == 0x87 || op == 0x88 || op == 0x8A || op == 0x8B || op == 0x8C || op == 0x8E || op == 0x8F
/-- Policy class B opcodes. -/
def classB (op : Nat) : Bool := decide (0x80 ≤ op ∧ op ≤ 0x83)

/-- H of R243: the digest of A over the command with param and cookie zero. -/
def State.approvalDigest (s : State) (p : Plate) (d : Desc) (input nonce : Bytes) : Bytes :=
  fit 48 (Config.sha384 (ascii "GK4096 approval" ++ leBytes 1 p.num ++ encodeDesc { d with param := 0, cookie := 0 } ++
    fit 48 (Config.sha384 input) ++ fit 32 nonce ++ s.identityDigest p))

/-- The session record of Table 10.5. -/
def sessionRecord (x : Session) : Bytes :=
  leBytes 4 x.number.toNat ++ leBytes 1 (if x.classA then 1 else 2) ++ leBytes 1 x.m ++ leBytes 1 x.locals ++ zeros 1 ++
  fit 32 x.nonce ++ fit 48 x.h ++ leBytes 8 (x.expiry % 2 ^ 48)

/-- An open session of plate `p` with this number. -/
def State.session (s : State) (p : Plate) (n : Word) : Option Session :=
  (s.pl p).cus.sessions.find? fun x => x.number == n && decide (s.optime p < x.expiry)

/-- The state with `f` applied to a session. -/
def State.updSession (s : State) (p : Plate) (n : Word) (f : Session → Session) : State :=
  s.updCus p fun c => { c with sessions := c.sessions.map fun x => if x.number == n then f x else x }

/-- A session ends. -/
def State.endSession (s : State) (p : Plate) (n : Word) : State :=
  s.updCus p fun c => { c with
    sessions := c.sessions.filter fun x => x.number != n
    attempt := match c.attempt with
      | some a => if a.session == n && a.enrol.isNone then none else some a
      | none => none }

/-- Every session of plate `p` ends, and a local approval with it; an enrolment has used its session up. -/
def State.endSessions (s : State) (p : Plate) : State :=
  s.updCus p fun c => { c with sessions := [], attempt := c.attempt.filter fun a => a.enrol.isSome }

/-- Whether a signature of custodian `k` over `h` verifies now (R243, R246). -/
def State.approves (s : State) (p : Plate) (k : Nat) (h sig : Bytes) : Bool :=
  let e := (s.custody p).table.get {} k
  e.active && Config.pkVerify 0x41 e.key ecdsa384Flags [] h sig

/-- Whether enough counted approvals come from custodians ACTIVE now, and enough of them local (R247). -/
def State.enough (s : State) (p : Plate) (x : Session) : Bool :=
  let ok := x.approvals.filter fun a => s.approves p a.cust x.h a.sig
  decide (x.m ≤ ok.length) && decide (x.locals ≤ (ok.filter Approval.isLocal).length)

/-- The code by which a session for MIGRATE_OUT PACKAGE or MIGRATE_IN APPLY stays open (R247). -/
def migrateCode (d : Desc) : Option Nat :=
  if (d.op == 0x8B || d.op == 0x8C) && d.fl 2 2 == 0 then some d.op else none

/-- The checks of R247 on a class A or B command and its input: the state with the session consumed, or none: QUORUM. -/
def State.quorum (s : State) (p : Plate) (d : Desc) (input : Bytes) : Option State :=
  match s.session p (BitVec.ofNat 32 d.param.toNat) with
  | none => none
  | some x =>
    if x.matched.isSome then (if x.matched == migrateCode d then some s else none)
    else if x.h != s.approvalDigest p d input x.nonce || !s.enough p x then none
    else match migrateCode d with
      | some c => some (s.updSession p x.number fun x => { x with matched := some c })
      | none => some (s.endSession p x.number)

/-- A command whose session must pass R247 runs `f` with the session consumed, or completes with QUORUM. -/
def State.withQuorum (s : State) (p : Plate) (j : Job) (input : Bytes) (f : State → State) : State :=
  match s.quorum p j.desc input with
  | some s => f s
  | none => s.fail p j .quorum

/-- QUORUM_OPEN (R243). It waits until instance 4,100 can give its nonce (R203, R204). -/
def execQuorumOpen (r : JobRef) (intended input : Dma) (s : State) : Host.Outcome State Fault Refusal :=
  let p := r.plate
  .next (if !s.canDraw p vaultInst 1 then s else s.admin r 0x84 fun s j =>
    if j.desc.outCap.toNat < 96 then s.finish p j { status := .outSmall, outLen := 96 }
    else s.withInput p j intended 64 fun s b =>
      let d := decodeDesc b
      if !(classA d.op || classB d.op) then s.fail p j .unsupported
      else if (checks13 .admin 0 d).isSome then s.fail p j .range
      else if 16 ≤ (s.liveSessions p).length then s.fail p j .busy
      else s.withData p j d.inAddr (if d.inLen = 0 then .ok [] else input) d.inLen.toNat fun s b =>
        let y := s.policy p
        let c := (s.pl p).cus
        let nonce := s.drawn p vaultInst 32
        let x : Session :=
          { number := BitVec.ofNat 32 (p.num * 2 ^ 31 + (c.opened + 1) % 2 ^ 31), classA := classA d.op,
            m := if classA d.op then y.mA else y.mB, locals := if classA d.op then y.localA else 0,
            nonce := nonce, h := s.approvalDigest p d b nonce, expiry := s.optime p + 600000, op := d.op }
        let live := s.liveSessions p
        ((s.drew p vaultInst [32]).updCus p fun c => { c with sessions := live ++ [x], opened := c.opened + 1 }).finish p j
          { outLen := 96, info := x.number, writes := [(j.desc.outAddr, sessionRecord x)] })

/-- Approvals of a session that count as local. -/
def Session.localCount (x : Session) : Nat := (x.approvals.filter Approval.isLocal).length

/-- QUORUM_APPROVE (R246, Table 10.6). -/
def execQuorumApprove (r : JobRef) (approval : Dma) (s : State) : Host.Outcome State Fault Refusal :=
  let p := r.plate
  .next (s.admin r 0x85 fun s j => s.withInput p j approval 104 fun s b =>
    let n := BitVec.ofNat 32 (leAt b 0 4)
    let k := leAt b 4 1
    if !(allZero (cut b 5 3)) || decide (7 < k) then s.fail p j .range
    else match s.session p n with
      | none => s.fail p j .quorum
      | some x =>
        if !s.approves p k x.h (cut b 8 96) then s.fail p j .quorum
        else if x.approvals.any fun a => a.cust == k then s.fail p j .range
        else (s.updSession p n fun x => { x with approvals := x.approvals ++ [{ cust := k, sig := cut b 8 96 }] }).finish p j
          { info := BitVec.ofNat 32 (x.approvals.length + 1), info2 := BitVec.ofNat 32 x.localCount })

/-- QUORUM_SESSION_EXPIRE (R244). -/
def execQuorumSessionExpire (p : Plate) (n : Word) (s : State) : Host.Outcome State Fault Refusal :=
  .next (match (s.pl p).cus.sessions.find? fun x => x.number == n with
  | some x => if x.expiry ≤ s.optime p then s.endSession p n else s
  | none => s)

/-! ## Custodians (R238, R239) -/

/-- The custodian index of a CUSTODIAN_ENROLL. -/
def custodianIndex (d : Desc) : Nat := d.fl 4 3

/-- ACTIVE custodians. -/
def CustodyPage.count (c : CustodyPage) : Nat := ((List.range 8).filter fun k => (c.table.get {} k).active).length

/-- A change of the custody page commits on both plates; while the gutter is lost it ends with PARTITIONED (R238). -/
def State.commitPage (s : State) (p : Plate) (j : Job) (c : CustodyPage) (r : Result) (after : After) : State :=
  if !s.gutterUp p then s.fail p j .partitioned
  else match s.refuses p false with
  | some st => s.fail p j st
  | none => s.commitJob p j [.custody c] r 0 after

/-! ## Card sessions (R236, R237, Table 10.1) -/

/-- SELECT of the custodian application. -/
def apduSelect : Bytes := [0x00, 0xA4, 0x04, 0x00, 8, 0xF0, 0x52, 0x41, 0x4D, 0x41, 0x52, 0x44, 0x01]
/-- GET KEY: 97 bytes of public key and 16 of serial. -/
def apduGetKey : Bytes := [0x80, 0xCA, 0x00, 0x01, 113]
/-- The header of VERIFY PIN, which the Margin alone completes (R237). -/
def pinHeader : Bytes := [0x00, 0x20, 0x00, 0x81]
/-- SIGN APPROVAL over H. -/
def apduSign (h : Bytes) : Bytes := [0x80, 0x2A, 0x9E, 0x9A, 48] ++ fit 48 h ++ [96]

/-- The card of the session is asked something, in one APDU segment. -/
def State.askCard (s : State) (p : Plate) (a : LocalTry) (step : CardStep) (b : Bytes) : State :=
  (s.updCus p fun c => { c with attempt := some { a with
    step := step, segs := [], askedAt := s.clock, lastKey := s.clock } }).sendFrame .plate p 0x12 (BitVec.ofNat 8 a.reader) ([1] ++ b)

/-- The PIN of 4 to 12 digits is collected on the keypad (R237, R268). -/
def State.askPin (s : State) (p : Plate) (a : LocalTry) : State :=
  (s.updCus p fun c => { c with attempt := some { a with step := .pin, segs := [], lastKey := s.clock } }).sendFrame .plate p 0x14
    (BitVec.ofNat 8 a.reader) ([4, 12] ++ pinHeader)

/-- Whether plate `p` can hold a card session at a reader: the field side is up, and the plate owns the reader and the console. -/
def State.reachesCard (s : State) (p : Plate) (r : Nat) : Bool :=
  let m := (s.pl p).mrg
  m.fieldUp && m.own.getLsbD r && m.own.getLsbD 3

/-- The status that stands for an enrolment's end. -/
def enrolStatus : EnrolEnd → Status
  | .quorum => .quorum
  | .authFail => .authFail
  | .range => .range

/-- CUSTODIAN_ENROLL with its session used up, or as it is accepted in UNINITIALISED: the index must be FREE, and the card in the
named reader is asked (R239). `e`: how the command ends with no card within reach. DESIGN CHOICE (log 146): RANGE at an index that
is not FREE; R239 names no status for it. -/
def State.beginEnrol (s : State) (p : Plate) (j : Job) (label h : Bytes) (e : Status) : State :=
  let r := j.desc.fl 8 1
  if ((s.custody p).table.get {} (custodianIndex j.desc)).active then (s.noButton p j.index).fail p j .range
  else if !s.reachesCard p r then (s.noButton p j.index).fail p j e
  else s.askCard p { reader := r, enrol := some { index := j.index, h := h, label := label } } .select apduSelect

/-- The custodian whose card signed is committed (R239). -/
def State.enrolCommit (s : State) (p : Plate) (j : Job) (e : EnrolTry) : State :=
  let c := s.custody p
  s.commitPage p j
    { c with table := c.table.set {} (custodianIndex j.desc)
               { active := true, key := e.key, serial := e.serial, label := fit 16 e.label } } {} (.finish j.ring j.index {})

/-- The card signed: its key and serial must be new and the signature its proof of possession. The custodian is committed, in
UNINITIALISED once button 1 has been pressed too (R239, R249, Table 10.10 step 2). -/
def State.enrolDone (s : State) (p : Plate) (a : LocalTry) (e : EnrolTry) (j : Job) (sig : Bytes) : State :=
  let k := custodianIndex j.desc
  let c := s.custody p
  if (c.table.get {} k).active || (List.range 8).any fun i => (c.table.get {} i).active &&
      ((c.table.get {} i).key == e.key || (c.table.get {} i).serial == e.serial) then
    ((s.updCus p fun c => { c with attempt := none }).noButton p j.index).fail p j .range
  else if !Config.pkVerify 0x41 e.key ecdsa384Flags [] e.h sig then s.endTry p a false
  else if s.lifecycle p = 0x33 then
    s.updCus p fun c => { c with attempt := none, button := c.button.map fun w => { w with signed := some e } }
  else (s.updCus p fun c => { c with attempt := none }).enrolCommit p j e

/-- A removal, unless too few ACTIVE custodians would remain (R239). -/
def State.unenroll (s : State) (p : Plate) (j : Job) : State :=
  let k := custodianIndex j.desc
  let c := s.custody p
  let y := s.policy p
  let c' := { c with table := c.table.set {} k {} }
  if !(c.table.get {} k).active || decide (c'.count < 2) || decide (c'.count < y.mA) || decide (c'.count < y.mB) then
    s.fail p j .range
  else s.commitPage p j c' {} (.finish j.ring j.index {})

/-- The command waits for button 1 (R249). -/
def State.waitButton (s : State) (p : Plate) (j : Job) (input : Bytes) : State :=
  s.updCus p fun c => { c with button := some { index := j.index, since := s.clock, input := input } }

/-- CUSTODIAN_ENROLL (R239): under a session, whose H the card is to sign, or in UNINITIALISED with an H of a nonce drawn for it and
button 1 after the card has signed, all within 60 s (Table 10.10). One card session at a time is held; the command waits for the
one in progress. `card`: how it ends with no card within reach, a point that the spec leaves open (DESIGN CHOICE, log 30). -/
def execCustodianEnroll (r : JobRef) (label : Dma) (card : EnrolEnd) (s : State) : Host.Outcome State Fault Refusal :=
  let p := r.plate
  match s.jobAt r with
  | none => .next s
  | some j0 =>
    if j0.desc.fl 2 2 != 0 || (s.pl p).cus.attempt.isSome ||
        (s.lifecycle p = 0x33 && ((s.pl p).cus.button.isSome || !s.canDraw p vaultInst 1)) then .next s
    else .next (s.admin r 0x86 fun s j => s.withInput p j label 16 fun s b =>
      if s.lifecycle p = 0x33 then
        let h := s.approvalDigest p j.desc b (s.drawn p vaultInst 32)
        ((s.drew p vaultInst [32]).waitButton p j b).beginEnrol p j b h (enrolStatus card)
      else
        let h := ((s.session p (BitVec.ofNat 32 j.desc.param.toNat)).map Session.h).getD []
        s.withQuorum p j b fun s => s.beginEnrol p j b h (enrolStatus card))

/-- CUSTODIAN_REMOVE (R239). -/
def execCustodianRemove (r : JobRef) (s : State) : Host.Outcome State Fault Refusal :=
  let p := r.plate
  match s.jobAt r with
  | none => .next s
  | some j0 =>
    if j0.desc.fl 2 2 != 1 || (s.lifecycle p = 0x33 && (s.pl p).cus.button.isSome) then .next s
    else .next (s.admin r 0x86 fun s j =>
      if s.lifecycle p = 0x33 then s.waitButton p j []
      else s.withQuorum p j [] fun s => s.unenroll p j)

/-! ## IMPORTER_BIND (R176) -/

/-- IMPORTER_BIND: an ACTIVE slice's importer binding is replaced; its counter stays. -/
def execImporterBind (r : JobRef) (key : Dma) (s : State) : Host.Outcome State Fault Refusal :=
  let p := r.plate
  .next (s.admin r 0x83 fun s j => s.withInput p j key j.desc.inLen.toNat fun s b =>
    s.withQuorum p j b fun s =>
      let i := j.desc.fl 4 12
      if (s.impo p i).st != .active || !Config.pkValid j.desc.al b then s.fail p j .range
      else match s.refuses p false with
        | some st => s.fail p j st
        | none =>
          let v := s.recAhead p i
          s.commitJob p j [.record i { v with impAlg := j.desc.al, impKey := fit 32 (Config.sha3 b) }] {} 0
            (.finish j.ring j.index {}))

end Sys2Proof.Machine
end

