-- ==== Sys2Proof/Machine/Slices.lean ====
section
/-! DEFINITION. Creating, resizing and destroying slices, and the meter latch (03 R59 to R69, R77, R78, R374). -/

namespace Sys2Proof.Machine

/-! ## Acting on both plates -/

/-- The plates that hold a slice's tables now: the plate and, while it is PAIRED, its peer. -/
def State.holders (s : State) (p : Plate) : List Plate :=
  if (s.pl p).pr.mode == .paired then [p, p.peer] else [p]

/-! ## The slice record (Table 3.5) -/

/-- The slice index of a record. -/
def recSlice (b : Bytes) : Nat := leAt b 0x00 2

/-- The quotas of a record. -/
def recQuota (b : Bytes) : Quota :=
  { rings := leAt b 0x03 1, slots := leAt b 0x04 1, windows := leAt b 0x0C 2, lines := leAt b 0x08 4,
    ledger := leAt b 0x10 4 }

/-- A PASID field of a record. -/
def recPasid (b : Bytes) (o : Nat) : Option (BitVec 20) :=
  let v := leAt b o 4
  if 2 ^ 31 ≤ v then some (BitVec.ofNat 20 v) else none

/-- Whether a PASID field is well formed: bits [30:20] zero. -/
def pasidOk (b : Bytes) (o : Nat) : Bool := leAt b o 4 / 2 ^ 20 % 2 ^ 11 == 0

/-- Whether quotas lie in the ranges of Table 3.3. -/
def quotaOk (q : Quota) : Bool :=
  decide (1 ≤ q.rings ∧ q.rings ≤ 16 ∧ q.slots ≤ 32 ∧ 1 ≤ q.windows ∧ q.windows ≤ 6144 ∧ 32 ≤ q.lines ∧
    q.lines ≤ 524288 ∧ q.ledger ≤ 1048576)

/-- Reserved bytes of a record are zero and its index exists. -/
def recFixed (b : Bytes) : Bool :=
  decide (recSlice b < 4096) && allZero (cut b 0x05 1) && allZero (cut b 0x0E 2) && allZero (cut b 0x1C 36)

/-- The fields of a SLICE_CREATE record are in range. -/
def createFields (b : Bytes) : Bool :=
  recFixed b && quotaOk (recQuota b) && decide (leAt b 0x02 1 ≤ 1) && pasidOk b 0x14 && pasidOk b 0x18

/-- The fields of a SLICE_RESIZE record: those of SLICE_CREATE only are zero. -/
def resizeFields (b : Bytes) : Bool :=
  recFixed b && quotaOk (recQuota b) && allZero (cut b 0x02 1) && allZero (cut b 0x06 2) && allZero (cut b 0x14 8)

/-- The fields of a SLICE_DESTROY record: every field but the index is zero. -/
def destroyFields (b : Bytes) : Bool := decide (recSlice b < 4096) && allZero (cut b 0x02 62)

/-- The home plate a record names. -/
def recHome (b : Bytes) : Plate := if leAt b 0x02 1 = 0 then .a else .b

/-- Whether a valid PASID is already bound on the same function to another slice that is not FREE (R66). -/
def State.pasidTaken (s : State) (p : Plate) (i : Nat) (onA : Bool) (v : Option (BitVec 20)) : Bool :=
  v.isSome && (s.pl p).sl.impo.any fun e =>
    e.1 != i && e.2.st != .free && (if onA then e.2.pasidA == v else e.2.pasidB == v)

/-- Whether the pool holds quotas `q` beside what `own` gives back (R62, R66, R68); before the vault is
mounted it is empty (Table 3.4). -/
def State.poolHolds (s : State) (p : Plate) (q own : Quota) : Bool :=
  (s.pl p).vlt.mounted &&
  decide (q.lines ≤ s.poolLines p + own.lines ∧ q.windows ≤ s.poolWindows p + own.windows ∧
    q.ledger ≤ s.poolLedger p + own.ledger)

/-- Whether a change of an imposition entry, or the adoption of a package, is under way on either plate; the secure world takes
the next slice command after it (R59). -/
def State.impoBusy (s : State) : Bool :=
  let f (x : PlateState) : Bool :=
    (x.vlt.changes.any fun c => c.items.any fun v => match v with
      | .impo _ _ => true
      | .package _ _ _ _ _ => true
      | _ => false) ||
    x.sl.ops.any fun e => match e.2 with
      | some o => !o.destroy
      | none => false
  f s.pa || f s.pb

/-- Whether a change of slice `i`'s imposition entry is under way on either plate. -/
def State.impoChanging (s : State) (i : Nat) : Bool :=
  (s.pa.vlt.changes ++ s.pb.vlt.changes).any fun c => c.items.any fun v => match v with
    | .impo k _ => k == i
    | _ => false

/-- Whether a slice command on slice `i` waits in the admin queue: for MOVING (R60) or for a change under way. -/
def State.sliceWaits (s : State) (p : Plate) (rec : Dma) : Bool :=
  match rec with
  | .ok b => s.impoBusy || (s.impo p (recSlice (fit 64 b))).st == .moving
  | .fault => false

/-- Whether plate `p` is in PARTITION: SLICE_RESIZE and SLICE_DESTROY then complete with PARTITIONED before they have any effect
(R374). -/
def State.inPartition (s : State) (p : Plate) : Bool := (s.pl p).pr.mode == .partition

/-! ## SLICE_CREATE (R66) -/

/-- Operational registers after SLICE_CREATE (Table 3.8). -/
def createdRegs : SliceRegs :=
  { weight := 0x10101010, ratePk := 64000000, burstPk := 10000, rateCi := 24414062, burstCi := 1024, rateRn := 4882812,
    burstRn := 64 }

/-- The three buckets at their bursts (R73). -/
def fullBuckets (r : SliceRegs) (now : Nat) : Buckets :=
  { pk := Int.ofNat r.burstPk.toNat * 1000000, ci := Int.ofNat r.burstCi.toNat * 1024 * 1000000,
    rn := Int.ofNat r.burstRn.toNat * 1024 * 1000000, atUs := now }

/-- A slice's registers (R61) and what the ring engine keeps for it cleared; its ring set-up entries stay. -/
def Slices.clearSlice (x : Slices) (i : Nat) : Slices :=
  { x with
    regs := x.regs.set {} i {}
    buckets := x.buckets.set {} i {}
    poll := x.poll.set {} i {}
    cancels := x.cancels.filter fun e => e.1 / 16 != i
    progress := x.progress.filter (· != i) }

/-- The slice's DRBG instance is instantiated (R198), at once where the pool has two blocks, or else by RESEED_DUE before its
first request. -/
def State.newInstance (s : State) (p : Plate) (i : Nat) : State :=
  if s.gives p && decide (2 ≤ (s.pl p).rng.pool.length) then s.instantiate p i
  else s.updInst p i fun _ => { live := true }

/-- What follows the commit of SLICE_CREATE on plate `p`: operational registers, full buckets, the bank entry, the DRBG
instance (Table 3.2, R78). -/
def State.openSlice (s : State) (p : Plate) (i : Nat) : State :=
  (s.updSl p fun x => { x.clearSlice i with
    regs := x.regs.set {} i createdRegs
    buckets := x.buckets.set {} i (fullBuckets createdRegs s.clock)
    bank := x.bank.set {} i {}
    live := x.live.set {} i {} }).newInstance p i

/-- The slice record of a new slice: a fresh creation nonce, the counter it had, and the era bases (R66, R67, R154). -/
def State.newRecord (s : State) (p : Plate) (i : Nat) : SliceRec :=
  let v := (s.pl p).vlt
  let mine := v.epoch
  let other := v.peerEpoch
  { st := .active, nonce := s.drawn p vaultInst 32, imp := (v.recs.get {} i).imp,
    eraA := if p = .a then mine else other, eraB := if p = .a then other else mine }

/-! ## Window sets (R63, Table 3.1) -/

/-- A run put in its place in a list of runs in rising order. -/
def insertRun (r : Nat × Nat) : List (Nat × Nat) → List (Nat × Nat)
  | [] => [r]
  | x :: t => if r.1 ≤ x.1 then r :: x :: t else x :: insertRun r t

/-- The runs of windows from `k` to 6,143 that a list of runs in rising order leaves. -/
def gapRuns (k : Nat) : List (Nat × Nat) → List (Nat × Nat)
  | [] => if k < 6144 then [(k, 6144 - k)] else []
  | (a, n) :: t => (if k < a then [(k, a - k)] else []) ++ gapRuns (max k (a + n)) t

/-- The first `n` windows of some runs. -/
def takeRuns (n : Nat) : List (Nat × Nat) → List (Nat × Nat)
  | [] => []
  | (a, k) :: t => if n = 0 then [] else if n ≤ k then [(a, n)] else (a, k) :: takeRuns (n - k) t

/-- Some runs without window `w`. -/
def dropWindow (w : Nat) (l : List (Nat × Nat)) : List (Nat × Nat) :=
  (l.map fun r => if r.1 ≤ w ∧ w < r.1 + r.2 then
      [(r.1, w - r.1), (w + 1, r.1 + r.2 - (w + 1))].filter fun x => x.2 != 0
    else [r]).flatten

/-- The windows of plate `q` that no slice's set holds, by plate `p`'s table. -/
def State.freeRuns (s : State) (p q : Plate) : List (Nat × Nat) :=
  gapRuns 0 ((((s.pl p).sl.impo.filter fun e => e.2.st != .free).map fun e => e.2.windowSet q).flatten.foldl
    (fun l r => insertRun r l) [])

/-- The windows of slice `i` that jobs hold on plate `q`. -/
def State.heldWindows (s : State) (q : Plate) (i : Nat) : List Nat :=
  ((s.pl q).sl.jobs.filter fun j => ringSlice j.ring == some i).filterMap Job.window

/-- The window set of slice `i` on plate `q` at a new count: it grows by the lowest free windows, and shrinks by windows that
nothing holds (R68, log 112). -/
def State.resizedSet (s : State) (p q : Plate) (i n : Nat) : List (Nat × Nat) :=
  let old := (s.impo p i).windowSet q
  let size := (old.map Prod.snd).sum
  if size ≤ n then old ++ takeRuns (n - size) (s.freeRuns p q)
  else
    let held := s.heldWindows q i
    let free := held.foldl (fun l w => dropWindow w l) old
    (held.map fun w => (w, 1)) ++ takeRuns (n - held.length) free

/-- Windows of some runs that others do not hold, as runs. -/
def leavingRuns (old new : List (Nat × Nat)) : List (Nat × Nat) :=
  old.filter (fun r => !new.contains r) |>.map (fun r =>
    ((List.range r.2).filter fun k => !(new.any fun x => decide (x.1 ≤ r.1 + k ∧ r.1 + k < x.1 + x.2))).map fun k =>
      (r.1 + k, 1)) |>.flatten

/-- The imposition entry that a record makes. -/
def recImpo (b : Bytes) : Impo :=
  { st := .active, home := recHome b, pasidA := recPasid b 0x14, pasidB := recPasid b 0x18,
    groups := BitVec.ofNat 16 (leAt b 0x06 2), quota := recQuota b }

/-- SLICE_CREATE with its session consumed. -/
def State.createSlice (s : State) (p : Plate) (j : Job) (b : Bytes) : State :=
  let i := recSlice b
  let e := recImpo b
  let homePasid := match e.home with
    | .a => e.pasidA
    | .b => e.pasidB
  if !createFields b || (s.impo p i).st != .free || homePasid.isNone || s.pasidTaken p i true e.pasidA ||
      s.pasidTaken p i false e.pasidB then s.fail p j .range
  else if !s.poolHolds p e.quota {} then s.fail p j .quota
  else match s.refuses p false with
    | some st => s.fail p j st
    | none =>
      let n := e.quota.windows
      let e := { e with winA := takeRuns n (s.freeRuns p .a), winB := takeRuns n (s.freeRuns p .b) }
      (s.drew p vaultInst [32]).commitJob p j [.record i (s.newRecord p i), .impo i e] { info := BitVec.ofNat 32 i } 0
        (.created i j.index)

/-- SLICE_CREATE (R65, R66). -/
def execSliceCreate (r : JobRef) (rec : Dma) (s : State) : Host.Outcome State Fault Refusal :=
  let p := r.plate
  .next (if s.impoBusy || s.drawWaits p vaultInst 1 then s
    else s.admin r 0x80 fun s j => s.withInput p j rec 64 fun s b => s.withQuorum p j b fun s => s.createSlice p j b)

/-! ## SLICE_RESIZE (R68) -/

/-- Ledger entries that changes under way on either plate are to give slice `i` beside those in use. -/
def State.ledgerComing (s : State) (p : Plate) (i : Nat) : Nat :=
  let new (c : Change) : List Nat := c.items.filterMap fun v => match v with
    | .ledger k e => if e.st != .free && e.slice == i && (s.ledgerAt p k).st == .free then some k else none
    | _ => none
  (((s.pa.vlt.changes ++ s.pb.vlt.changes).map new).flatten.eraseDups).length

/-- Whether a shrink to `q` would go below current use. A key whose change is under way uses its slot and its entry already. -/
def State.belowUse (s : State) (p : Plate) (i : Nat) (q : Quota) : Bool :=
  let home := (s.impo p i).home
  let used (n : Nat) : Bool := (s.slotAt p i n).st != .free || (s.slotAhead .a (slotKey i n)).st != .free ||
    (s.slotAhead .b (slotKey i n)).st != .free
  ((List.range 16).any fun r => decide (q.rings ≤ r) && (s.ring home (.tenant i r)).enabled) ||
  ((List.range 32).any fun n => decide (q.slots ≤ n) && used n) ||
  decide (q.ledger < s.ledgerUsed p i + s.ledgerComing p i) || decide (q.lines < s.linesHeld .a i) || decide (q.lines < s.linesHeld .b i)

/-- A slice command in progress at plate `p` ends: its job, where plate `p` accepted it, completes. -/
def State.endOp (s : State) (p : Plate) (i : Nat) (r : Result) : State :=
  match (s.pl p).sl.ops.get none i with
  | some o =>
    let s := s.updSl p fun x => { x with ops := x.ops.set none i none }
    if o.by_ != p then s
    else match s.job? p .admin o.index with
      | some j => s.finish p j r
      | none => s
  | none => s

/-- The next step of a slice command is recorded. -/
def State.opStep (s : State) (p : Plate) (i n : Nat) : State :=
  s.updSl p fun x => { x with ops := x.ops.mod none i fun o => o.map fun o => { o with step := n } }

/-- The journal entry of a slice command's commits: its completion on the admin ring. -/
def opJournal (o : SliceOp) (i : Nat) : Journal :=
  { ring := journalRing .admin, index := o.index, info := BitVec.ofNat 32 i }

/-- SLICE_RESIZE goes on: once the windows that leave are free and scrubbed and the lines fit, all quotas change at once by one
commit; while a hand-over of the slice is under way it waits. Use that has grown past the new quotas meanwhile ends it with
QUOTA (R68). -/
def State.resizeNext (s : State) (p : Plate) (i : Nat) : State :=
  match (s.pl p).sl.ops.get none i with
  | some o =>
    if o.destroy || o.step != 1 || decide (o.quota.windows < s.winUsed .a i) || decide (o.quota.windows < s.winUsed .b i) ||
        (s.impo p i).st == .moving || s.impoChanging i then s
    else
      let cut (s : State) (p : Plate) : State :=
        s.evict p i ((s.impo p i).quota.lines - o.quota.lines) (s.pl p).vlt.cache.length
      let s := s.each [.a, .b] cut
      if s.belowUse p i o.quota then s.endOp p i { status := .quota }
      else if o.quota.lines < s.linesUsed .a i ∨ o.quota.lines < s.linesUsed .b i then s
      else match s.refuses p false with
        | some st => s.endOp p i { status := st }
        | none =>
          let e := s.impo p i
          let n := o.quota.windows
          let e' := { e with quota := o.quota, winA := s.resizedSet p .a i n, winB := s.resizedSet p .b i n }
          let s := (s.scrubWindows .a (leavingRuns e.winA e'.winA)).scrubWindows .b (leavingRuns e.winB e'.winB)
          let s := s.updSl p fun x => { x with
            ops := x.ops.mod none i fun o => o.map fun o => { o with step := 2, winA := e'.winA, winB := e'.winB } }
          s.beginChange p [.impo i e'] (some (opJournal o i)) (.resized i) false
  | none => s

/-- SLICE_RESIZE with its session consumed. -/
def State.resizeSlice (s : State) (p : Plate) (j : Job) (b : Bytes) : State :=
  let i := recSlice b
  let e := s.impo p i
  let q := recQuota b
  if !resizeFields b || e.st == .free || e.st == .draining then s.fail p j .range
  else if !s.poolHolds p q e.quota || s.belowUse p i q then s.fail p j .quota
  else match s.refuses p false with
    | some st => s.fail p j st
    | none => (s.updSl p fun x => { x with
        ops := x.ops.set none i (some { index := j.index, by_ := p, step := 1, quota := q }) }).resizeNext p i

/-- SLICE_RESIZE (R65, R68, R374); for a slice in MOVING it waits in the admin queue (R60), and one that waits for windows
goes on. -/
def execSliceResize (r : JobRef) (rec : Dma) (s : State) : Host.Outcome State Fault Refusal :=
  let p := r.plate
  .next (match (s.pl p).sl.ops.find? fun e => (e.2.map SliceOp.index) == some r.index with
  | some (i, _) => if r.ring == .admin then s.resizeNext p i else s
  | none =>
    if !s.inPartition p && s.sliceWaits p rec then s
    else s.admin r 0x81 fun s j =>
      if s.inPartition p then s.fail p j .partitioned
      else s.withInput p j rec 64 fun s b => s.withQuorum p j b fun s => s.resizeSlice p j b)

/-! ## SLICE_DESTROY (Table 3.6, R69, R374) -/

/-- Step 2: the home disables every enabled ring of the slice, with the effect of R55; the peer's copy of the set-up
follows (R57). -/
def State.disableRings (s : State) (i : Nat) (home : Plate) : State :=
  s.each (List.range 16) fun s r =>
    let q : RingRef := .tenant i r
    let s := if (s.ring home q).enabled then s.disableRing home q else s
    (s.updRing home.peer q fun g => { g with cfg := g.cfg &&& 0x7FFFFFFF }).endDrain home q

/-- Step 3: every ring of the slice has posted its last record. -/
def State.ringsEnded (s : State) (i : Nat) (home : Plate) : Bool :=
  (List.range 16).all fun r => !(s.ring home (.tenant i r)).active

/-- The items that step 5 overwrites: the slice's slots and ledger entries, their generations kept. -/
def State.sliceItems (s : State) (p : Plate) (i : Nat) : List VItem :=
  (((s.pl p).vlt.slots.filter fun e => e.1 / 32 == i).map fun e => VItem.slot e.1 {}) ++
  (((s.pl p).vlt.ledger.filter fun e => e.2.st != .free && e.2.slice == i).map fun e =>
    VItem.ledger e.1 { gen := e.2.gen })

/-- Whether an item belongs to slice `i`. -/
def itemOf (i : Nat) : PageRef → Bool
  | .slot a _ => a == i
  | .record a => a == i
  | .impo a => a == i
  | .ledger _ => false
  | .custody => false
  | .lifecycle => false

/-- What step 5 does on one plate without a commit: cache lines evicted, windows scrubbed, the DRBG uninstantiated, leases
gone. -/
def State.scrubSlice (s : State) (p : Plate) (i : Nat) : State :=
  let mine := ((s.pl p).vlt.ledger.filter fun e => e.2.slice == i).map Prod.fst
  ((s.updVlt p fun v => { v with
    cache := v.cache.filter fun e => e.slice != i
    leases := v.leases.filter fun e => !mine.contains e.1
    bad := v.bad.filter fun r => !itemOf i r }).scrubWindows p ((s.impo p i).windowSet p)).updInst p i fun _ => {}

/-- TRK_s erased from the key registers of one plate (R374). -/
def State.dropTrk (s : State) (p : Plate) (i : Nat) : State :=
  s.updVlt p fun v => { v with noTrk := if v.noTrk.contains i then v.noTrk else v.noTrk ++ [i] }

/-- Steps 2 to 7 of Table 3.6, each when it may come: step 2 disables the rings, step 4 waits for step 3, step 5 for the
commit of step 4, steps 6 and 7 for the overwrites: the home latches the meters as the state becomes FREE. A commit that cannot be made in PARTITION waits; in NO_WRITE TRK_s is
erased from the key registers, the command ends with VAULT_RO and the slice stays DRAINING (R374). -/
def State.destroyNext (s : State) (p : Plate) (i : Nat) : State :=
  let home := (s.impo p i).home
  match (s.pl p).sl.ops.get none i with
  | none => s
  | some o =>
    if !o.destroy || (home != p && !s.gutterUp p) then s
    else
      let s := if o.step == 2 then (s.disableRings i home).opStep p i 3 else s
      let step := if o.step == 2 then 3 else o.step
      if step == 1 || !s.ringsEnded i home then s
      else if step == 4 || step == 6 || step == 8 then s
      else if s.wear p == 3 then
        (((((s.dropTrk .a i).dropTrk .b i).scrubSlice .a i).scrubSlice .b i).latchMeters home [i]).endOp p i
          { status := .vaultRo }
      else if (s.refuses p true).isSome then s
      else if step == 3 then
        (s.opStep p i 4).beginChange p [.record i { imp := (s.recAhead p i).imp }] (some (opJournal o i))
          (.destroyStep i 4) false
      else if step == 5 then
        (((s.scrubSlice .a i).scrubSlice .b i).opStep p i 6).beginChange p (s.sliceItems p i) (some (opJournal o i))
          (.destroyStep i 6) false
      else
        (s.opStep p i 8).beginChange p [.impo i {}] (some (opJournal o i)) (.destroyStep i 8) false

/-- A commit of the destroy sequence has taken effect. -/
def State.destroyCommitted (s : State) (p : Plate) (i step : Nat) : State :=
  if step == 8 then
    let s := s.each (s.holders p) fun s p => s.updSl p fun x => x.clearSlice i
    s.endOp p i { info := BitVec.ofNat 32 i }
  else (s.opStep p i (step + 1)).destroyNext p i

/-- SLICE_DESTROY with its session consumed: step 1. -/
def State.destroySlice (s : State) (p : Plate) (j : Job) (b : Bytes) : State :=
  let i := recSlice b
  let e := s.impo p i
  if !destroyFields b || e.st == .free || e.st == .draining then s.fail p j .range
  else match s.refuses p false with
    | some st => s.fail p j st
    | none =>
      let o : SliceOp := { index := j.index, by_ := p, destroy := true, step := 1 }
      (s.updSl p fun x => { x with ops := x.ops.set none i (some o) }).beginChange p [.impo i { e with st := .draining }]
        (some (opJournal o i)) (.destroyStep i 1) false

/-- SLICE_DESTROY (R65, Table 3.6, R374); for a slice in MOVING it waits (R60), and one that waits for its next step goes
on. -/
def execSliceDestroy (r : JobRef) (rec : Dma) (s : State) : Host.Outcome State Fault Refusal :=
  let p := r.plate
  .next (match (s.pl p).sl.ops.find? fun e => (e.2.map SliceOp.index) == some r.index with
  | some (i, _) => if r.ring == .admin then s.destroyNext p i else s
  | none =>
    if !s.inPartition p && s.sliceWaits p rec then s
    else s.admin r 0x82 fun s j =>
      if s.inPartition p then s.fail p j .partitioned
      else s.withInput p j rec 64 fun s b => s.withQuorum p j b fun s => s.destroySlice p j b)

/-- A slice command in progress on slice `i`, at whichever plate accepted it, goes on where it can. -/
def State.sliceOpNext (s : State) (i : Nat) : State :=
  s.each [.a, .b] fun s p => (s.resizeNext p i).destroyNext p i

/-- Every slice command in progress goes on where it can (R374). -/
def State.sliceOpsNext (s : State) : State :=
  s.each ((s.pa.sl.ops ++ s.pb.sl.ops).map Prod.fst) State.sliceOpNext

/-! ## Rings and lane jobs whose end a slice command may wait for -/

/-- RING_DRAIN_END (R55): a drained ring leaves service, and a destroy sequence that waited for it goes on. -/
def execRingDrainEnd (p : Plate) (q : RingRef) (s : State) : Host.Outcome State Fault Refusal :=
  let s := s.endDrain p q
  .next (match q with
  | .tenant i _ => s.sliceOpNext i
  | .admin => s)

/-- JUSTIFIER_RELEASE (R119): accrued justified time has reached the target; the outcome is released, or TIMING_FAULT where
the lane has none (R125). A resize that waited for the window goes on (R68). -/
def execJustifierRelease (r : JobRef) (s : State) : Host.Outcome State Fault Refusal :=
  match s.jobAt r with
  | some j =>
    if s.atTarget j then
      let s := s.reachTarget r.plate j
      .next (match r.ring with
      | .tenant i _ => s.sliceOpNext i
      | .admin => s)
    else .next s
  | none => .next s

end Sys2Proof.Machine
end

