-- ==== Sys2Proof/Machine/Lifecycle.lean ====
section
/-! DEFINITION. Certificates, POLICY_SET, LIFECYCLE_SET, KNOCKOUT_CMD and commands that wait for button 1
(07 R164, R181; 10 R241, R248 to R253; 12 R284). -/

namespace Sys2Proof.Machine

/-! ## Certificates (R179, R181) -/

/-- Whether both signatures of a statement with `n` body bytes verify under public parts: ECDSA P-384, then ML-DSA-65. -/
def bothSigs (b keys : Bytes) (n : Nat) : Bool :=
  let head := cut b 0 (0x60 + n)
  sigOk 0x41 (cut keys 0 97) [] head (cut b (0x60 + n) 96) &&
  sigOk 0x59 (cut keys 97 1952) statementCtx head (cut b (0xC0 + n) 3309)

/-- Whether a string begins as a statement of this kind with `n` body bytes (Table 7.7). -/
def isStatement (b : Bytes) (kind n : Nat) : Bool :=
  cut b 0 4 == [0x4B, 0x4C, 0x53, 0x54] && leAt b 4 1 == 1 && leAt b 5 1 == kind && leAt b 8 4 == n &&
  decide (statementLen n ≤ b.length)

/-- The subject's public parts of a certificate. -/
def certSubject (b : Bytes) (n : Nat) : Bytes := cut b 0x70 n

/-- Whether a byte string is a certificate of the subject kind with public parts of `n` bytes. -/
def isCert (b : Bytes) (subject n : Nat) : Bool :=
  isStatement b 0x04 (0x10 + n) && leAt b 0x60 2 == subject && allZero (cut b 0x62 6) &&
  (subject == 2 || allZero (cut b 0x68 8))

/-- The device certificate of a chain. -/
def chainDevice (c : Bytes) : Bytes := cut c 0 deviceCertLen
/-- The issuing certificate of a chain. -/
def chainIssuing (c : Bytes) : Bytes := cut c deviceCertLen issuingCertLen
/-- The issuing key's public parts of a chain. -/
def chainIssuer (c : Bytes) : Bytes := certSubject (chainIssuing c) 2049

/-- The four public parts that a chain certifies under Kelalmed's root, where its certificates verify (R181). -/
def chainIdentity (c : Bytes) : Option Bytes :=
  if c.length == chainLen && isCert (chainDevice c) 2 3330 && isCert (chainIssuing c) 1 2049 &&
      bothSigs (chainIssuing c) (fit 2049 Config.rootPublic) (0x10 + 2049) &&
      bothSigs (chainDevice c) (chainIssuer c) (0x10 + 3330) then
    some (certSubject (chainDevice c) 3330)
  else none

/-! ## POLICY_SET (R241, Table 10.4) -/

/-- The policy that a record's bytes spell. -/
def parsePolicy (b : Bytes) : Policy :=
  { mA := leAt b 1 1, mB := leAt b 2 1, localA := leAt b 3 1, flags := BitVec.ofNat 8 (leAt b 4 1),
    loops := BitVec.ofNat 8 (leAt b 5 1), tDisc := (List.range 4).map fun k => leAt b (8 + k) 1, opKey := cut b 0x10 32 }

/-- The conditions of R241, with N the ACTIVE custodians (log 34). -/
def policyOk (b : Bytes) (n : Nat) : Bool :=
  let y := parsePolicy b
  leAt b 0 1 == 1 && decide (2 ≤ y.mA ∧ y.mA ≤ n ∧ 2 ≤ y.mB ∧ y.mB ≤ n ∧ y.localA ≤ y.mA) &&
  (y.tDisc.all fun t => decide (1 ≤ t ∧ t ≤ 100)) && decide (y.flags.toNat < 8 ∧ y.loops.toNat < 16) &&
  allZero (cut b 6 2) && allZero (cut b 0x0C 4) && allZero (cut b 0x30 16)

/-- POLICY_SET with its session or button: the record is checked and committed (R238, R241). -/
def State.applyPolicy (s : State) (p : Plate) (j : Job) (b : Bytes) : State :=
  let c := s.custody p
  if !policyOk b c.count then s.fail p j .range
  else s.commitPage p j { c with policy := some (parsePolicy b) } {} (.policy j.index {})

/-- POLICY_SET (R241): under a session, or in UNINITIALISED under button 1 (R249). -/
def execPolicySet (r : JobRef) (rec : Dma) (s : State) : Host.Outcome State Fault Refusal :=
  let p := r.plate
  .next (if s.lifecycle p = 0x33 && (s.pl p).cus.button.isSome then s
    else s.admin r 0x8A fun s j => s.withInput p j rec 64 fun s b =>
      if s.lifecycle p = 0x33 then s.waitButton p j b
      else s.withQuorum p j b fun s => s.applyPolicy p j b)

/-! ## Roots (R137, R141, R251, R284) -/

/-- The plate whose internal DRBG gives the identity seed, the DRK and the vault salt: Plate A, while the change goes to both plates
(R137, R164); a plate that is alone draws them itself (DESIGN CHOICE, log 140). -/
def State.dealer (s : State) (p : Plate) : Plate := if (s.pl p).pr.mode == .paired then .a else p

/-- The identity seed from 192 drawn bytes: what is drawn for a P-384 scalar is mapped to one, by a rule that the manual does not
give (log 140). -/
def identityOf (b : Bytes) : Bytes :=
  fit 48 (Config.scalarOf (cut b 0 48)) ++ cut b 48 96 ++ fit 48 (Config.scalarOf (cut b 144 48))

/-- LIFECYCLE_SET draws these lengths for a destination from the instance of the dealing plate: the identity seed; the vault salt,
and the DRK where no test root takes its place (R164, R137, R141). -/
def dealt (dest : Nat) : List Nat :=
  if dest == 0x0F then [192] else if dest == 0x5A then [32] else [32, 32]

/-- What a lifecycle change deals out beside the lifecycle page: the identity seed, or the root on whose commit each plate enrols,
seals and formats; in OPERATIONAL the policy of Table 10.3 is the record where POLICY_SET has written none (R241). -/
def State.dealtItems (s : State) (p : Plate) (dest : Nat) : List VItem :=
  let v (k : Nat) : Bytes := s.drawnAt (s.dealer p) vaultInst (dealt dest) k
  if dest == 0x0F then [.identity (identityOf (v 0))]
  else if dest == 0x5A then [.root testRootKey (v 0) true]
  else
    let c := s.custody p
    [.root (v 1) (v 0) false] ++ (if c.policy.isNone then [.custody { c with policy := some {} }] else [])

/-! ## LIFECYCLE_SET (R249, Table 10.8) -/

/-- What a transition of Table 10.8 asks for. -/
inductive Gate where
  | none
  | session
  | button
  | both
  deriving DecidableEq, Repr

/-- The transitions of Table 10.8 that LIFECYCLE_SET makes, and their gates; any other is RANGE. -/
def transition (from_ dest : Nat) : Option Gate :=
  if from_ == 0x00 && dest == 0x0F then some .none
  else if from_ == 0x0F && (dest == 0x0F || dest == 0x33) then some .none
  else if from_ == 0x33 && dest == 0x3C then some .session
  else if from_ == 0x55 && dest == 0x33 then some .session
  else if from_ == 0x33 && dest == 0x5A then some .button
  else if from_ == 0x55 && dest == 0x5A then some .both
  else if from_ == 0x5A && dest == 0x55 then some .none
  else if (from_ == 0x3C || from_ == 0x55) && dest == 0x66 then some .session
  else if (from_ == 0x33 || from_ == 0x5A) && dest == 0x66 then some .button
  else none

/-- Length of the material of a transition; none where any length is read (Table 10.8). -/
def transitionInput (from_ dest : Nat) : Option Nat :=
  if dest == 0x5A then some 3509 else if from_ == 0x0F && dest == 0x0F then none else some 0

/-- A debug authorisation is valid (R252, Table 10.9). -/
def State.debugAuth (s : State) (p : Plate) (b : Bytes) : Bool :=
  let c := (s.pl p).cus
  let issuer := chainIssuer c.chain
  cut b 0 4 == [0x4B, 0x4C, 0x44, 0x42] && leAt b 4 1 == 1 && allZero (cut b 5 3) && cut b 0x08 32 == s.identityDigest p &&
  cut b 0x28 32 == fit 32 c.dbgNonce && cut b 0x48 32 == fit 32 (Config.sha3 issuer) &&
  sigOk 0x41 (cut issuer 0 97) [] (cut b 0 0x68) (cut b 0x68 96) &&
  sigOk 0x59 (cut issuer 97 1952) (ascii "GK4096 debug") (cut b 0 0x68) (cut b 0xC8 3309)

/-- Why a lifecycle change is not committed on both plates under R238, if it is not; it is admitted short of NO_WRITE (Table
15.6). -/
def State.lifecycleRefused (s : State) (p : Plate) : Option Status :=
  if !s.gutterUp p then some .partitioned else s.refuses p true

/-- The commit of a lifecycle change on both plates under R238. -/
def State.commitLifecycle (s : State) (p : Plate) (j : Job) (items : List VItem) (code : Byte) (r : Result) : State :=
  match s.lifecycleRefused p with
  | some st => s.fail p j st
  | none => s.commitJob p j (items ++ [.lifecycle (LcPage.of code)]) r 0 (.lifecycle j.index code r)

/-- The commit of a lifecycle change that deals out random values. `f`: the command's result, from what is dealt. -/
def State.dealLifecycle (s : State) (p : Plate) (j : Job) (dest : Nat) (code : Byte) (f : List VItem → Result) : State :=
  match s.lifecycleRefused p with
  | some st => s.fail p j st
  | none =>
    let items := s.dealtItems p dest
    (s.drew (s.dealer p) vaultInst (dealt dest)).commitLifecycle p j items code (f items)

/-- The command's knockout: KO_CMD is raised on its plate, and `retire` blows RTF after it (R250, Table 10.8). Where the
line is already asserted, RTF is blown at once and the command completes. -/
def State.knockoutBy (s : State) (p : Plate) (j : Job) (retire : Bool) : State :=
  if (s.pl p).tmp.ko then
    (s.each [.a, .b] fun s q => (s.updCus q fun c => { c with rtf := if retire then 0x66 else c.rtf }).refreshOut q).finish
      p j {}
  else
    (s.each [.a, .b] fun s q => s.updCus q fun c => { c with retire := retire }).tamper p 40 p.num 0

/-- LCS_DBG_NONCE drawn afresh (R252). -/
def State.newDebugNonce (s : State) (p : Plate) : State :=
  let nonce := s.drawn p vaultInst 32
  (s.drew p vaultInst [32]).updCus p fun c => { c with dbgNonce := nonce }

/-- The identity seed among the items of a change. -/
def seedOf (items : List VItem) : Bytes :=
  (items.findSome? fun v => match v with
    | .identity seed => some seed
    | _ => none).getD []

/-- The action of a transition, its gate passed. An accepted authorisation draws a new LCS_DBG_NONCE (R252). -/
def State.lifecycleAct (s : State) (p : Plate) (j : Job) (b : Bytes) : State :=
  let dest := j.desc.fl 8 8
  let from_ := (s.lifecycle p).toNat
  if dest == 0x55 then s.knockoutBy p j false
  else if dest == 0x66 then s.knockoutBy p j true
  else if dest == 0x0F && from_ == 0 then
    if j.desc.outCap.toNat < 3330 then s.finish p j { status := .outSmall, outLen := 3330 }
    else
      s.dealLifecycle p j dest 0x0F fun items =>
        { outLen := 3330, writes := [(j.desc.outAddr, publicParts (seedOf items))] }
  else if dest == 0x0F then
    if chainIdentity b == some (s.identityParts p) then
      (s.each (s.holders p) fun s q => s.updCus q fun c => { c with chain := b }).finish p j {}
    else s.fail p j .authFail
  else if dest == 0x33 then s.commitLifecycle p j [.custody {}] 0x33 {}
  else if dest == 0x3C then s.dealLifecycle p j dest 0x3C fun _ => {}
  else if s.debugAuth p b then
    (if (s.lifecycleRefused p).isNone then s.newDebugNonce p else s).dealLifecycle p j dest 0x5A fun _ => {}
  else s.fail p j .authFail

/-- Conditions of a transition beside its gate: a stored chain; two ACTIVE custodians (Table 10.8). -/
def State.lifecycleReady (s : State) (p : Plate) (from_ dest : Nat) : Bool :=
  if from_ == 0x0F && dest == 0x33 then !(s.pl p).cus.chain.isEmpty
  else if dest == 0x3C then decide (2 ≤ (s.custody p).count)
  else true

/-- LIFECYCLE_SET taken: RANGE for a transition not listed, then its session and its button (R247, R249). DESIGN CHOICE (log 147):
whether param counts as unused, which Table 10.8 makes depend on the lifecycle, is judged by the lifecycle in which the command is
carried out, after its queue and its input read, and not at check 3 of its fetch (R10); and out_addr and out_cap count as unused in
every state but BLANK, the one whose transition writes there, so that setting either completes with RANGE. -/
def State.lifecycleSet (s : State) (p : Plate) (j : Job) (b : Bytes) : State :=
  let from_ := (s.lifecycle p).toNat
  let dest := j.desc.fl 8 8
  match transition from_ dest with
  | none => s.fail p j .range
  | some g =>
    if ((transitionInput from_ dest).map fun n => n != j.desc.inLen.toNat).getD false || !s.lifecycleReady p from_ dest ||
        ((g == .none || g == .button) && !noParam j.desc) || (from_ != 0 && !noOut j.desc) then
      s.fail p j .range
    else match g with
      | .none => s.lifecycleAct p j b
      | .session => s.withQuorum p j b fun s => s.lifecycleAct p j b
      | .button => s.waitButton p j b
      | .both => s.withQuorum p j b fun s => s.waitButton p j b

/-- Whether a LIFECYCLE_SET job's transition draws random values: an identity seed, or a root (R164, R137). -/
def State.lifecycleDraws (s : State) (p : Plate) (j : Job) : Bool :=
  let dest := j.desc.fl 8 8
  (dest == 0x0F && s.lifecycle p == 0) || dest == 0x3C || dest == 0x5A

/-- LIFECYCLE_SET (R249). A transition that draws waits until the instances 4,100 that it takes values from can give them (R203,
R204). -/
def execLifecycleSet (r : JobRef) (material : Dma) (s : State) : Host.Outcome State Fault Refusal :=
  let p := r.plate
  .next (if (s.pl p).cus.button.isSome || (!s.canDeal p && ((s.jobAt r).map (s.lifecycleDraws p)).getD false) then s
    else s.admin r 0x87 fun s j =>
      s.withInput p j (if j.desc.inLen = 0 then .ok [] else material) j.desc.inLen.toNat fun s b => s.lifecycleSet p j b)

/-- What a committed lifecycle state brings on both plates beside its items: IDF blown, or the Margin configured for the policy in
force (R165, R265, Table 10.8). -/
def State.lifecycleDone (s : State) (p : Plate) (code : Byte) : State :=
  if code = 0x0F then
    (s.each (s.holders p) fun s q => (s.updCus q fun c => { c with idf := 0x0F, chain := [] }).refreshOut q)
  else if code = 0x3C then s.each (s.holders p) fun s q => s.sendConfig q
  else s

/-! ## KNOCKOUT_CMD (R250) -/

/-- KNOCKOUT_CMD (R250): RANGE where there is nothing to destroy; in OPERATIONAL and DEBUG it raises KO_CMD, and its completion
comes at step 5 of Table 12.3. DESIGN CHOICE (log 148): RANGE in BLANK and IDENTIFIED too, which R250 does not list. -/
def execKnockoutCmd (r : JobRef) (s : State) : Host.Outcome State Fault Refusal :=
  let p := r.plate
  .next (s.admin r 0x8F fun s j =>
    let lc := s.lifecycle p
    if lc = 0x3C || lc = 0x5A then s.withQuorum p j [] fun s => s.knockoutBy p j false
    else s.fail p j .range)

/-! ## Commands that wait for button 1 (R249) -/

/-- Button 1 has been pressed: the command that waits for it goes on, an enrolment once its card has signed (Table 10.10); one that
draws is not taken while the instances 4,100 cannot give what it needs (R203). -/
def State.buttonOne (s : State) (p : Plate) : State :=
  match (s.pl p).cus.button with
  | none => s
  | some w =>
    let s' := s
    let s := s.updCus p fun c => { c with button := none }
    match s.job? p .admin w.index with
    | none => s
    | some j =>
      if j.desc.op == 0x87 && s.lifecycleDraws p j && !s.canDeal p then s'
      else if j.desc.op == 0x8A then s.applyPolicy p j w.input
      else if j.desc.op == 0x87 then s.lifecycleAct p j w.input
      else if j.desc.fl 2 2 == 1 then s.unenroll p j
      else match w.signed with
        | some e => s.enrolCommit p j e
        | none => s'

/-- BUTTON_WAIT_TIMEOUT (R249): 60 s without button 1 complete the command with QUORUM. -/
def execButtonWaitTimeout (p : Plate) (s : State) : Host.Outcome State Fault Refusal :=
  .next (match (s.pl p).cus.button with
  | some w =>
    if s.past w.since 60000000 then
      let s := s.updCus p fun c => { c with
        button := none, attempt := c.attempt.filter fun a => (a.enrol.map EnrolTry.index) != some w.index }
      match s.job? p .admin w.index with
      | some j => s.fail p j .quorum
      | none => s
    else s
  | none => s)

end Sys2Proof.Machine
end

