-- ==== Sys2Proof/Machine/Margin.lean ====
section
/-! DEFINITION. The Margin and the plates' side of it: frames, cards, console, SD slot, tamper inputs, field power
(10 R236, R245; 11). -/

namespace Sys2Proof.Machine

/-! ## Receiving (R257 to R259) -/

/-- A frame is counted as dropped at an end (R259). -/
def State.countDrop (s : State) (e : End) (p : Plate) : State :=
  match e with
  | .plate => s.updMrg p fun m => { m with dropped := satAdd 16 m.dropped 1 }
  | .margin => s.updMargin fun g => { g with dropped := satAdd 16 g.dropped 1 }

/-- A frame with a valid CRC at an end; one that R259 drops is counted wherever it stands in the sequence (R17). ACK and
LINK_RESET stand outside the sequence; any other is accepted if it is the next in order, and answered with an ACK in any case.
-/
def State.frameArrives (s : State) (e : End) (p : Plate) (f : Frame) : State :=
  let bare := f.type == 0x03 || f.type == 0x04
  let s := match e with
    | .plate => s.setLinkUp p true
    | .margin => s
  let s := if frameOk e f then s else s.countDrop e p
  let deliver (s : State) : State :=
    if frameOk e f then s.updLink e p fun l => { l with inbox := l.inbox ++ [{ f with came := s.clock }] } else s
  if bare then deliver s
  else
    let l := s.link e p
    let next := f.seq == l.expect
    let s := if next then deliver (s.updLink e p fun l => { l with expect := l.expect + 1, accepted := f.seq }) else s
    s.sendBare e p 0x03 (s.link e p).accepted

/-- BRIPA_FRAME_RECV (R257 to R259). A plate whose all-clear is lost sends no mailbox frame (R264). -/
def execBripaFrameRecv (e : End) (p : Plate) (bytes : Bytes) (idle : Bool) (s : State) :
    Host.Outcome State Fault Refusal :=
  .next (if !s.endUp e p then s
    else match parseFrame bytes idle with
    | some f =>
      if e == .margin && toMargin f.type && !hardwareFrame f.type && !(s.pl p).mrg.fieldUp then s else s.frameArrives e p f
    | none => match e with
      | .plate => s.updMrg p fun m => { m with crcErr := satAdd 16 m.crcErr 1 }
      | .margin => s)

/-- Whether a frame is one of those outside the sequence. -/
def Frame.bare (f : Frame) : Bool := f.type == 0x03 || f.type == 0x04

/-- The first frame of an end's inbox that satisfies `f`, and the inbox without it. -/
def takeFrame (f : Frame → Bool) : List Frame → Option (Frame × List Frame)
  | [] => none
  | x :: t =>
    if f x then some (x, t)
    else match takeFrame f t with
      | some (y, u) => some (y, x :: u)
      | none => none

/-- An end takes the ACK or LINK_RESET that came first. -/
def State.takeBare (s : State) (e : End) (p : Plate) (type : Nat) : Option (Frame × State) :=
  match takeFrame (fun f => f.type == type) (s.link e p).inbox with
  | some (f, l) => some (f, s.updLink e p fun x => { x with inbox := l })
  | none => none

/-- An end takes its oldest accepted frame, where that has this type. -/
def State.takeNext (s : State) (e : End) (p : Plate) (type : Nat) : Option (Frame × State) :=
  match takeFrame (fun f => !f.bare) (s.link e p).inbox with
  | some (f, l) => if f.type == type then some (f, s.updLink e p fun x => { x with inbox := l }) else none
  | none => none

/-- Plate `p` takes a frame into the mailbox channel of its resource; the owning world reads it there (R260), and its anchor core
is interrupted (R313). -/
def State.toMailbox (s : State) (p : Plate) (f : Frame) : State :=
  (s.updMrg p fun m => { m with mailbox := m.mailbox ++ [f] }).blockIrq p (14 + f.res.toNat % 4)

/-- The mailbox channel of a resource sends a frame of the world that owns it (R260); with RELEASE, the plate owns the resource no
longer as far as it knows (R261), and a card session on it ends. -/
def State.fromMailbox (s : State) (p : Plate) (type r : Nat) (b : Bytes) : State :=
  let s := s.sendFrame .plate p type (BitVec.ofNat 8 r) b
  if type != 0x07 then s
  else
    let s := s.giveUp p r
    match (s.pl p).cus.attempt with
    | some a => if a.reader == r || r == 3 then s.endTry p a false else s
    | none => s

/-- A mailbox row: a world's frame leaves its plate, or `f` handles it at the Margin. -/
def State.mailboxRow (s : State) (c : MboxCmd) (type : Nat) (f : State → State) : State :=
  match c.send with
  | some (r, b) => if s.up c.plate then s.fromMailbox c.plate type r.val b else s
  | none => f s

/-- Byte `k` of a payload. -/
def Frame.at_ (f : Frame) (k : Nat) : Nat := leAt f.payload k 1

/-- The Margin handles a mailbox frame of plate `p` that names a resource it owns; otherwise it answers GRANT 1 (R261). -/
def State.owned (s : State) (p : Plate) (type : Nat) (f : State → Frame → Nat → State) : State :=
  match s.takeNext .margin p type with
  | some (x, s) =>
    let r := x.res.toNat
    if r < 4 && s.owner r == some p then f s x r else s.sendFrame .margin p 0x06 x.res [1]
  | none => s

/-! ## Acknowledgement and retransmission (R258) -/

/-- Outstanding frames that an ACK naming `n` covers are acknowledged. -/
def ackUpTo (n : Byte) : List Outstanding → List Outstanding × List Outstanding
  | [] => ([], [])
  | o :: t => if (n - o.frame.seq).toNat < 128 then
      let (a, b) := ackUpTo n t
      (o :: a, b)
    else ([], o :: t)

/-- ACK (R258): frames up to the highest accepted are done; an acknowledged CONFIG, if it is the latest, is known to be
held (MRG_STATUS.CONFIGURED). -/
def execAck (e : End) (p : Plate) (s : State) : Host.Outcome State Fault Refusal :=
  match s.takeBare e p 0x03 with
  | some (f, s) =>
    let (done, left) := ackUpTo f.seq (s.link e p).sent
    let s := (s.updLink e p fun l => { l with sent := left }).pumpLink e p
    let l := s.link e p
    let config (o : Outstanding) : Bool := o.frame.type == 0x02
    .next (if e == .plate && done.any config && !(l.sent.any config) && !(l.waiting.any fun f => f.type == 0x02) then
      s.updMrg p fun m => { m with configured := true } else s)
  | none => .next s

/-- The link is given up: this end restarts and sends LINK_RESET; a plate raises MARGIN_LINK. -/
def State.giveUpLink (s : State) (e : End) (p : Plate) : State :=
  let s := (s.restartLink e p true).sendBare e p 0x04 0
  match e with
  | .plate => (s.setLinkUp p false).raise p 10
  | .margin => s

/-- BRIPA_RETRANSMIT (R258): a frame not acknowledged within 1 ms is sent again with every later one outstanding; after its
third retransmission the link is reset. -/
def execBripaRetransmit (e : End) (p : Plate) (s : State) : Host.Outcome State Fault Refusal :=
  .next (match (s.link e p).sent with
  | o :: _ =>
    if !s.endUp e p || !s.past o.sent 1000 then s
    else if 3 ≤ o.tries then s.giveUpLink e p
    else
      let again := (s.link e p).sent
      (s.updLink e p fun l => { l with
        sent := l.sent.map fun o => { o with sent := s.clock, tries := o.tries + 1 } }).emits
        (again.map fun o => .bripa e p o.frame)
  | [] => s)

/-- LINK_RESET (R258): sequence numbers restart at 0, outstanding frames are lost and the plate's resources are released; an
end that did not ask for it answers with its own. -/
def execLinkReset (e : End) (p : Plate) (s : State) : Host.Outcome State Fault Refusal :=
  match s.takeBare e p 0x04 with
  | some (_, s) =>
    if (s.link e p).resetting then .next ((s.updLink e p fun l => { l with resetting := false }).pumpLink e p)
    else
      let s := ((s.restartLink e p false).sendBare e p 0x04 0).pumpLink e p
      .next (match e with
      | .plate => s.raise p 10
      | .margin => s)
  | none => .next s

/-! ## HELLO, CONFIG, ownership (R261, R265, Table 11.4) -/

/-- HELLO at a plate: presence and power-up count; every ownership ends; the plate answers with CONFIG. -/
def execHello (p : Plate) (s : State) : Host.Outcome State Fault Refusal :=
  match s.takeNext .plate p 0x01 with
  | some (f, s) =>
    let s := (s.giveUpAll p).updMrg p fun m => { m with
      presence := BitVec.ofNat 4 (f.at_ 1), powerups := leAt f.payload 2 2 }
    .next (s.sendConfig p)
  | none => .next s

/-- Whether input `i` is enabled and may decide tamper now. -/
def Margin.senses (g : Margin) (i : Nat) : Bool := g.powered && g.configured && !g.frozen && g.loops.getLsbD i

/-- Tamper is decided on an input: LED 3 is forced on, and the knockout channel follows (R256). -/
def State.decideTamper (s : State) (i cause : Nat) : State :=
  s.updMargin fun g => { g with ledTamper := true, koDecided := g.koDecided ++ [(i, cause)] }

/-- The instant at which an input's timer expires (R277). The later of the ticks' T_disc and 0.986 × T_disc of the oscillator, and at
most 1.014 × T_disc of it, lies between 0.98 and 1.02 × T_disc of the model's one clock; where is a free value (log 37). -/
def Margin.expiry (g : Margin) (i : Nat) : Option Nat :=
  let x := g.inputs.get {} i
  x.since.map fun t => t + 980 * g.tDisc.getD i 0 + x.slack

/-- The discrepancy of an input is closed. -/
def State.closeDisc (s : State) (i : Nat) : State :=
  s.updMargin fun g => { g with inputs := g.inputs.mod {} i fun x => { x with since := none, okFrom := none } }

/-- A discrepancy that ended at `e` is closed: one that its timer outlasted is counted, and otherwise tamper was decided when the
timer expired (R277, R278). -/
def State.endDisc (s : State) (i e : Nat) : State :=
  let late := ((s.margin.expiry i).map fun t => decide (t ≤ e)).getD false
  let s := s.closeDisc i
  if late then s.decideTamper i 2
  else s.updMargin fun g => { g with inputs := g.inputs.mod {} i fun x => { x with counted := x.counted + 1 } }

/-- A discrepancy begins on an input at `t`, its timer with it. -/
def State.openDisc (s : State) (i t : Nat) : State :=
  let slack := Config.freeNat s.free % (40 * s.margin.tDisc.getD i 0 + 1)
  (s.tick 1).updMargin fun g => { g with inputs := g.inputs.mod {} i fun x => { x with since := some t, slack := slack, okFrom := none } }

/-- An input's loops looked at with the first sample at `t`: both tripped decides tamper, which ends a discrepancy that is open; one
opens a discrepancy, or goes on with the one that ended less than 50 µs before (R276, R277). -/
def State.judge (s : State) (i t : Nat) : State :=
  let x := s.margin.inputs.get {} i
  if !s.margin.senses i then s
  else if x.loopA != .ok && x.loopB != .ok then (s.closeDisc i).decideTamper i 1
  else if x.loopA != .ok || x.loopB != .ok then
    match x.since, x.okFrom with
    | some _, none => s
    | some _, some e =>
      if t < e + 50 then s.updMargin fun g => { g with inputs := g.inputs.mod {} i fun x => { x with okFrom := none } }
      else (s.endDisc i e).openDisc i t
    | none, _ => s.openDisc i t
  else s

/-- A configuration applied to one input: a change restarts its discrepancy timer at the arrival (R265). -/
def State.reconfigure (s : State) (old : Margin) (i : Nat) : State :=
  let g := s.margin
  let changed := old.loops.getLsbD i != g.loops.getLsbD i || !old.configured || old.tDisc.getD i 0 != g.tDisc.getD i 0
  if !changed then s
  else
    (s.closeDisc i).judge i s.clock

/-- CONFIG at the Margin (R265): applied if its policy sequence is not below the one it holds; the all-clear starts. -/
def execConfig (p : Plate) (s : State) : Host.Outcome State Fault Refusal :=
  match s.takeNext .margin p 0x02 with
  | some (f, s) =>
    let q := leAt f.payload 0 8
    let old := s.margin
    if old.configured && q < old.polSeq then .next s
    else
      let s := s.updMargin fun g => { g with
        configured := true, polSeq := q, loops := BitVec.ofNat 8 (f.at_ 8)
        tDisc := (List.range 4).map fun k => f.at_ (9 + k), allClear := !g.frozen && g.checks
        clearAt := if g.allClear then g.clearAt else s.clock }
      .next (s.each (List.range 4) fun s i => s.reconfigure old i)
  | none => .next s

/-- Whether a CLAIM of plate `p` comes before every other one for its resource that has arrived: in the order of their arrival, and
channel 0's first where that is the same (R261). -/
def State.claimFirst (s : State) (p : Plate) (f : Frame) : Bool :=
  (s.link .margin p.peer).inbox.all fun x =>
    x.type != 0x05 || x.res != f.res || decide (f.came < x.came) || (f.came == x.came && p == .a)

/-- CLAIM at the Margin (R261): granted to one plate at a time; a claim waits for the other plate's that came before it. -/
def State.takeClaim (s : State) (p : Plate) : State :=
  match s.takeNext .margin p 0x05 with
  | some (f, s') =>
    let r := f.res.toNat
    if !s.claimFirst p f then s
    else if 4 ≤ r then s'
    else match s'.owner r with
      | none => (s'.updMargin fun g => { g with owners := g.owners.set none r (some p) }).sendFrame .margin p 0x06 f.res [0]
      | some q => s'.sendFrame .margin p 0x06 f.res [if q = p then 0 else 1]
  | none => s

/-- CLAIM (R260, R261). -/
def execClaim (p : MboxCmd) (s : State) : Host.Outcome State Fault Refusal :=
  .next (s.mailboxRow p 0x05 fun s => s.takeClaim p.plate)

/-- GRANT at a plate (R261). -/
def execGrant (p : Plate) (s : State) : Host.Outcome State Fault Refusal :=
  match s.takeNext .plate p 0x06 with
  | some (f, s) =>
    if 4 ≤ f.res.toNat then .next s
    else
      let s := if f.at_ 0 == 0 then s.noteOwner p f.res.toNat true else s.giveUp p f.res.toNat
      .next (s.toMailbox p f)
  | none => .next s

/-- RELEASE (R260, R261). -/
def execReleaseFrame (p : MboxCmd) (s : State) : Host.Outcome State Fault Refusal :=
  .next (s.mailboxRow p 0x07 fun s => s.owned p.plate 0x07 fun s _ r => s.disown p.plate r)

/-! ## Card readers (R236, R245, R266, R267) -/

/-- One group of an ATR's interface characters (ISO/IEC 7816-3): its TA, TC and TD, where it has them. -/
structure AtrGroup where
  ta : Option Byte := none
  tc : Option Byte := none
  td : Option Byte := none
  deriving DecidableEq, Repr, Inhabited

/-- The interface characters of an ATR in their groups. `t` holds the indicator bits of the group to come. -/
def atrGroups : Nat → Nat → Bytes → List AtrGroup
  | 0, _, _ => []
  | fuel + 1, t, b =>
    let ta := if t % 2 = 1 then b.head? else none
    let tc := if t / 4 % 2 = 1 then (b.drop (t % 2 + t / 2 % 2)).head? else none
    let rest := b.drop (t % 2 + t / 2 % 2 + t / 4 % 2)
    if t / 8 % 2 = 0 then [{ ta := ta, tc := tc }]
    else match rest with
      | d :: rest => { ta := ta, tc := tc, td := some d } :: atrGroups fuel (d.toNat / 16) rest
      | [] => [{ ta := ta, tc := tc }]

/-- The groups of an ATR: TS, T0, then its interface characters. -/
def atrOf (b : Bytes) : List AtrGroup :=
  match b with
  | _ :: t0 :: rest => atrGroups 8 (t0.toNat / 16) rest
  | _ => []

/-- Whether an ATR offers T=1: one of its TD bytes names protocol 1. -/
def offersT1 (b : Bytes) : Bool := (atrOf b).any fun g => (g.td.map fun d => d.toNat % 16 == 1).getD false

/-- The group that follows the first TD naming protocol `t`. -/
def atrGroupOf (t : Nat) : List AtrGroup → Option AtrGroup
  | g :: h :: rest => if (g.td.map fun d => d.toNat % 16) == some t then some h else atrGroupOf t (h :: rest)
  | _ => none

/-- The class indicator: the first TA after the TD that names T=15. -/
def classIndicator (l : List AtrGroup) : Option Byte := (atrGroupOf 15 l).bind AtrGroup.ta

/-- The group of the characters specific to T=1: the first one after TD2 or a later TD that names it. -/
def atrT1 (b : Bytes) : AtrGroup := (atrGroupOf 1 ((atrOf b).drop 1)).getD {}

/-- Whether T=1 blocks end in a CRC, and otherwise in an LRC. -/
def atrCrc (b : Bytes) : Bool := ((atrT1 b).tc.map fun c => c.getLsbD 0).getD false

/-- IFSC of T=1: 32 where the ATR gives none. -/
def atrIfsc (b : Bytes) : Nat := ((atrT1 b).ta.map BitVec.toNat).getD 32

/-- Whether an ATR allows class B (3 V). -/
def allowsB (b : Bytes) : Bool := ((classIndicator (atrOf b)).map fun c => c.getLsbD 1).getD true

/-- Whether a Di code stands for 16 or less. -/
def diOk (ta : Byte) : Bool := [1, 2, 3, 4, 5, 8].contains (ta.toNat % 16)

/-- TA1 of an ATR. -/
def atrTa1 (b : Bytes) : Option Byte := ((atrOf b).head?.bind AtrGroup.ta)
/-- TA2 of an ATR: it is in specific mode. -/
def atrTa2 (b : Bytes) : Option Byte := (((atrOf b).drop 1).head?.bind AtrGroup.ta)

/-- The Fi and Di codes used with a card: those of TA1 where Di is at most 16, else Fd and Dd (Table 11.5). -/
def atrSpeed (b : Bytes) : Byte := ((atrTa1 b).filter diOk).getD 0x11

/-- A usable ATR: T=1, and a specific mode only with T=1 and a Di of at most 16. -/
def atrOk (b : Bytes) : Bool :=
  decide (b.length ≤ 33) && offersT1 b && ((atrTa2 b).map fun t => t.toNat % 16 == 1 && diOk ((atrTa1 b).getD 0x11)).getD true

/-- The PPS exchange that a card in negotiable mode takes up its speed with. -/
def ppsFor (b : Bytes) : List Bytes :=
  if (atrTa2 b).isSome || atrSpeed b == 0x11 then [] else [[0xFF, 0x11, atrSpeed b, 0xFF ^^^ 0x11 ^^^ atrSpeed b]]

/-- The speed after the card's answer to the PPS request: that of the request where it repeats it, Fd and Dd where it leaves PPS1
out; none where it is neither, and the activation fails (ISO/IEC 7816-3). -/
def ppsSpeed (b : Bytes) (answer : Option Bytes) : Option Byte :=
  match ppsFor b with
  | [] => some (atrSpeed b)
  | r :: _ => if answer == some r then some (atrSpeed b) else if answer == some [0xFF, 0x01, 0xFE] then some 0x11 else none

/-- A T=1 block with its prologue and its LRC or CRC (ISO/IEC 7816-3). -/
def t1Block (crc : Bool) (pcb : Nat) (inf : Bytes) : Bytes :=
  let b := [0] ++ leBytes 1 pcb ++ leBytes 1 inf.length ++ inf
  b ++ (if crc then fit 2 (Config.t1Crc b) else [b.foldl (· ^^^ ·) 0])

/-- The I-blocks of a command APDU, chained where it is longer than the card's IFSC: N(S) alternates, and all but the last have the
M bit. -/
def t1Chain (crc : Bool) (ifsc : Nat) : Nat → Bool → Bytes → List Bytes
  | 0, _, _ => []
  | fuel + 1, ns, b =>
    if b.length ≤ max 1 ifsc then [t1Block crc (64 * bit ns) b]
    else t1Block crc (64 * bit ns + 32) (b.take (max 1 ifsc)) :: t1Chain crc ifsc fuel (!ns) (b.drop (max 1 ifsc))

/-- The T=1 blocks that carry a command APDU to a reader's card. -/
def Reader.blocks (x : Reader) (b : Bytes) : List Bytes := t1Chain x.crc x.ifsc (b.length + 1) x.ns b

/-- A command APDU goes to a reader's card, in T=1 blocks. The card's own blocks, their R-blocks and their recovery are part of the
operand that brings its answer (log 152). -/
def State.toCard (s : State) (r : Nat) (b : Bytes) : State :=
  let l := (s.margin.readers.get {} r).blocks b
  (s.updMargin fun g => { g with readers := g.readers.mod {} r fun x => { x with ns := x.ns ^^ (l.length % 2 == 1) } }).emits
    (l.map (Out.card r))

/-- Whether a command APDU has a form with short length fields (ISO/IEC 7816-4). -/
def shortApdu (b : Bytes) : Bool :=
  let lc := leAt b 4 1
  b.length == 4 || b.length == 5 || (decide (5 < b.length) && lc != 0 && (b.length == 5 + lc || b.length == 6 + lc))

/-- The S(IFS request) that makes IFSD 254. -/
def ifsRequest (crc : Bool) : Bytes := t1Block crc 0xC1 [254]

/-- Activation: class B first, then class A if no ATR arrives or the ATR's class indicator excludes class B; the ATR, and whether
class A is used (Table 11.5). -/
def activation (atrB atrA : Option Bytes) : Option (Bytes × Bool) :=
  match atrB.filter allowsB with
  | some b => if atrOk b then some (b, false) else none
  | none => (atrA.filter atrOk).map fun b => (b, true)

/-- CARD_EVENT for the owner of a reader. -/
def State.cardToOwner (s : State) (r : Nat) (body : Bytes) : State :=
  match s.owner r with
  | some p => s.sendFrame .margin p 0x11 (BitVec.ofNat 8 r) body
  | none => s

/-- A Margin frame on both channels. -/
def State.toBoth (s : State) (type : Nat) (res : Byte) (body : Bytes) : State :=
  (s.sendFrame .margin .a type res body).sendFrame .margin .b type res body

/-- A reader with its card activated: 4 MHz, which no fmax of ISO/IEC 7816-3 is below, and stays (log 152). -/
def Reader.activated (x : Reader) (b : Bytes) (classA : Bool) (speed : Byte) : Reader :=
  { x with active := true, apdu := false, classA := classA, speed := speed, mhz := 4, crc := atrCrc b, ifsc := atrIfsc b, ns := false }

/-- A card's activation at a reader: its ATR, the class and the speed it took, where it is present and all of it is in order. -/
def Margin.activates (g : Margin) (r : Nat) (atr : CardAtr) : Option (Bytes × Bool × Byte) :=
  if !(g.readers.get {} r).present then none
  else (activation atr.classB atr.classA).bind fun x => (ppsSpeed x.1 atr.pps).map fun v => (x.1, x.2, v)

/-- CARD_CTRL at the Margin (R266): activation, with the ATR that the card gives in each class, or deactivation. -/
def execCardCtrl (p : MboxCmd) (atr : CardAtr) (s : State) : Host.Outcome State Fault Refusal :=
  .next (s.mailboxRow p 0x10 fun s => s.owned p.plate 0x10 fun s f r =>
    if 2 ≤ r then s
    else if f.at_ 0 == 1 then
      match s.margin.activates r atr with
      | some (b, classA, speed) =>
        ((s.updMargin fun g => { g with readers := g.readers.mod {} r fun x => x.activated b classA speed }).emits
          (([] :: ppsFor b ++ [ifsRequest (atrCrc b)]).map fun d => .card r d)).cardToOwner r ([3] ++ b)
      | none => (s.deactivate r 3).cardToOwner r [4]
    else if f.at_ 0 == 2 then s.deactivate r 3
    else s)

/-- The card session of plate `p` that uses reader `r` ends (R236, R245). -/
def State.abandon (s : State) (p : Plate) (r : Nat) : State :=
  match (s.pl p).cus.attempt with
  | some a => if a.reader == r then s.endTry p a false else s
  | none => s

/-- CARD_EVENT at a plate: removal and a supply fault end a local approval (R245). -/
def execCardEvent (p : Plate) (s : State) : Host.Outcome State Fault Refusal :=
  match s.takeNext .plate p 0x11 with
  | some (f, s) =>
    let r := f.res.toNat
    let b := BitVec.ofNat 4 (2 ^ (r % 2))
    let s := if f.at_ 0 == 1 then s.updMrg p fun m => { m with presence := m.presence ||| b }
      else if f.at_ 0 == 2 then s.updMrg p fun m => { m with presence := m.presence &&& ~~~ b } else s
    let s := if f.at_ 0 == 2 || f.at_ 0 == 4 || f.at_ 0 == 5 then s.abandon p r else s
    .next (s.toMailbox p f)
  | none => .next s

/-- APDU at the Margin (R266): segments are gathered, and the last one sends the command to the card. VERIFY PIN goes there through
PIN_COLLECT alone, and one that comes so is dropped (R237); so is one of extended length, which the Margin does not support (DESIGN
CHOICE, log 152: Table 11.5 names no answer). -/
def execApdu (p : MboxCmd) (s : State) : Host.Outcome State Fault Refusal :=
  .next (s.mailboxRow p 0x12 fun s => s.owned p.plate 0x12 fun s f r =>
    if 2 ≤ r || !(s.margin.readers.get {} r).active then s
    else
      let all := (s.margin.readers.get {} r).segs ++ f.payload.drop 1
      if f.at_ 0 % 2 == 1 && (all.take 4 == pinHeader || !shortApdu all) then
        s.updMargin fun g => { g with readers := g.readers.mod {} r fun x => { x with segs := [] } }
      else if f.at_ 0 % 2 == 1 then
        (s.updMargin fun g => { g with
          readers := g.readers.mod {} r fun x => { x with segs := [], apdu := true, sentAt := s.clock } }).toCard r all
      else s.updMargin fun g => { g with readers := g.readers.mod {} r fun x => { x with segs := all } })

/-- The custodian whose key verifies a signature over H (R245, R246). -/
def State.signerOf (s : State) (p : Plate) (h sig : Bytes) : Option Nat :=
  (List.range 8).find? fun k => s.approves p k h sig

/-- The card's answer to SIGN APPROVAL: a signature of an ACTIVE custodian not yet counted is counted as local (R245). -/
def State.countLocal (s : State) (p : Plate) (a : LocalTry) (sig : Bytes) : State :=
  let s := s.updCus p fun c => { c with attempt := none }
  match s.session p a.session with
  | some x => match s.signerOf p x.h sig with
    | some k =>
      if x.approvals.any fun y => y.cust == k then s
      else s.updSession p x.number fun x => { x with
        approvals := x.approvals ++ [{ cust := k, isLocal := true, sig := sig }] }
    | none => s
  | none => s

/-- The card answered in full: a status word other than 90 00, or an answer of another length, ends the card session; the next
step of Table 10.1 follows otherwise. -/
def State.cardAnswers (s : State) (p : Plate) (a : LocalTry) (b : Bytes) : State :=
  let data := b.take (b.length - 2)
  if b.length < 2 || b.drop (b.length - 2) != [0x90, 0x00] then s.endTry p a true
  else match a.step, a.enrol with
    | .select, some _ => s.askCard p a .getKey apduGetKey
    | .select, none => s.askPin p a
    | .getKey, some e =>
      if data.length != 113 then s.endTry p a true
      else s.askPin p { a with enrol := some { e with key := cut data 0 97, serial := cut data 97 16 } }
    | .sign, some e => match s.job? p .admin e.index with
      | some j => if data.length != 96 then s.endTry p a true else s.enrolDone p a e j data
      | none => s.endTry p a false
    | .sign, none => if data.length != 96 then s.endTry p a true else s.countLocal p a data
    | _, _ => s

/-- Whether the session's card owes an answer to the plate. -/
def LocalTry.waits (a : LocalTry) : Bool := a.step == .select || a.step == .getKey || a.step == .sign

/-- A response APDU in its segments of up to 63 bytes (Table 11.3). -/
def respSegments (b : Bytes) : Nat → List Bytes
  | 0 => []
  | fuel + 1 => if b.length ≤ 63 then [[1] ++ b] else ([0] ++ b.take 63) :: respSegments (b.drop 63) fuel

/-- RESP: the card in a reader has answered, and the Margin sends its answer to the owner; or a plate takes a RESP frame, and
the last segment of an answer carries its card session on (R236, R245, R266). -/
def execResp (c : RespCmd) (s : State) : Host.Outcome State Fault Refusal :=
  let p := c.plate
  match c.card with
  | some (r, b) =>
    .next (if (s.margin.readers.get {} r).apdu && s.owner r == some p && s.margin.powered then
      (s.updMargin fun g => { g with readers := g.readers.mod {} r fun x => { x with apdu := false } }).each
        (respSegments b (b.length + 1)) fun s x => s.sendFrame .margin p 0x13 (BitVec.ofNat 8 r) x
    else s)
  | none => match s.takeNext .plate p 0x13 with
    | some (f, s) =>
      let s := s.toMailbox p f
      .next (match (s.pl p).cus.attempt with
        | some a =>
          let all := a.segs ++ f.payload.drop 1
          if a.reader != f.res.toNat || !a.waits then s
          else if f.at_ 0 % 2 == 1 then s.cardAnswers p a all
          else s.updCus p fun c => { c with attempt := some { a with segs := all } }
        | none => s)
    | none => .next s

/-- CARD_PRESENCE (R267): the contact of a reader, debounced; an opened one deactivates the card. Events go on both
channels. -/
def execCardPresence (r : Nat) (present : Bool) (s : State) : Host.Outcome State Fault Refusal :=
  .next (if 2 ≤ r || (s.margin.readers.get {} r).present == present then s
    else
      let s := s.updMargin fun g => { g with readers := g.readers.mod {} r fun x => { x with present := present } }
      if !s.margin.powered then s
      else if present then s.toBoth 0x11 (BitVec.ofNat 8 r) [1]
      else (s.deactivate r 2).toBoth 0x11 (BitVec.ofNat 8 r) [2])

/-- CARD_OVERCURRENT (R267). -/
def execCardOvercurrent (r : Nat) (s : State) : Host.Outcome State Fault Refusal :=
  .next (if s.margin.powered && (s.margin.readers.get {} r).active then
    (s.deactivate r 3).toBoth 0x11 (BitVec.ofNat 8 r) [5] else s)

/-- CARD_RESPONSE_TIMEOUT (R236): no answer within 2 s ends the card session at each end that waited; nothing is counted. -/
def execCardResponseTimeout (p : Plate) (r : Nat) (s : State) : Host.Outcome State Fault Refusal :=
  let x := s.margin.readers.get {} r
  let s := if x.apdu && s.past x.sentAt 2000000 && s.owner r == some p then s.deactivate r 3 else s
  .next (match (s.pl p).cus.attempt with
    | some a => if a.reader == r && a.waits && s.past a.askedAt 2000000 then s.endTry p a true else s
    | none => s)

/-! ## Console (R245, R268, R269) -/

/-- What the display shows during a local approval: its four lines (R245). -/
def State.showApproval (s : State) (p : Plate) (x : Session) : State :=
  s.each (List.range 4) fun s n => s.sendFrame .plate p 0x32 3 (leBytes 1 n ++
    fit 20 (Config.approvalLine x.classA x.op p (x.number.toNat % 65536) (cut x.h 0 8) n))

/-- PIN_COLLECT: the plate begins a local approval for a session at a reader, shows what it approves and asks the card (R245);
or the Margin takes the frame of a plate that owns the reader and the console, and collects the PIN (R268). -/
def execPinCollect (c : PinCmd) (s : State) : Host.Outcome State Fault Refusal :=
  let p := c.plate
  match c.local_ with
  | some (r, n) =>
    .next (match s.session p n with
      | some x =>
        if (s.pl p).cus.attempt.isSome || !s.reachesCard p r || !s.up p then s
        else (s.showApproval p x).askCard p { session := n, reader := r } .select apduSelect
      | none => s)
  | none =>
    .next (s.owned p 0x14 fun s f r =>
      if s.owner 3 != some p then s.sendFrame .margin p 0x06 3 [1]
      else if 2 ≤ r || s.margin.pin.isSome then s
      else s.updMargin fun g => { g with
        pin := some { plate := p, reader := r, min := f.at_ 0, max := f.at_ 1, header := cut f.payload 2 4 } })

/-- PIN_RESULT at a plate (R268): a PIN that the card accepted carries the card session on; anything else ends it. -/
def execPinResult (p : Plate) (s : State) : Host.Outcome State Fault Refusal :=
  match s.takeNext .plate p 0x15 with
  | some (f, s) =>
    let ok := f.at_ 0 == 0 && leAt f.payload 2 2 == 0x9000
    let s := s.toMailbox p f
    .next (match (s.pl p).cus.attempt with
      | some a =>
        if a.reader != f.res.toNat || a.step != .pin then s
        else if !ok then s.endTry p a true
        else match a.enrol with
          | some e => s.askCard p a .sign (apduSign e.h)
          | none => s.updCus p fun c => { c with attempt := some { a with step := .button } }
      | none => s)
  | none => .next s

/-- A console frame for its owner. -/
def State.toConsole (s : State) (type : Nat) (body : Bytes) : State :=
  match s.owner 3 with
  | some p => s.sendFrame .margin p type 3 body
  | none => s

/-- Whether a byte is a digit of the keypad. -/
def isDigit (b : Byte) : Bool := decide (0x30 ≤ b.toNat ∧ b.toNat ≤ 0x39)

/-- Whether the keypad has this key. -/
def isKey (b : Byte) : Bool := isDigit b || decide (0x41 ≤ b.toNat ∧ b.toNat ≤ 0x44) || b == 0x2A || b == 0x23

/-- KEYPAD_PRESS on the Margin (R268, Table 11.6). `status` is the card's answer where the press ends the entry. -/
def execKeypadPress (ch : Byte) (status : Option (BitVec 16)) (s : State) : Host.Outcome State Fault Refusal :=
  .next (if !s.margin.powered || !isKey ch then s
    else match s.margin.pin with
    | none => s.toConsole 0x30 [ch]
    | some t =>
      let set (d : Bytes) : State := s.updMargin fun g => { g with pin := some { t with digits := d } }
      if isDigit ch then
        if t.digits.length < t.max then (set (t.digits ++ [ch])).toConsole 0x30 [0xFF] else s
      else if ch == 0x2A then set t.digits.dropLast
      else if ch == 0x23 && decide (t.min ≤ t.digits.length) then
        (s.toCard t.reader (t.header ++ leBytes 1 t.digits.length ++ t.digits)).endPin 0 (status.getD 0)
      else s)

/-- BUTTON_PRESS on the Margin (R268, Table 11.6): button 2 ends PIN collection. -/
def execButtonPress (n : Nat) (pressed : Bool) (s : State) : Host.Outcome State Fault Refusal :=
  .next (if !s.margin.powered || !(n == 1 || n == 2) then s
    else
      let s := if n == 2 && pressed then s.endPin 1 0 else s
      s.toConsole 0x31 [BitVec.ofNat 8 n, if pressed then 1 else 0])

/-- KEY at a plate (R268): a key press keeps a local approval alive (R245). -/
def execKey (p : Plate) (s : State) : Host.Outcome State Fault Refusal :=
  match s.takeNext .plate p 0x30 with
  | some (f, s) =>
    .next ((s.toMailbox p f).updCus p fun c => { c with
      attempt := c.attempt.map fun a => { a with lastKey := s.clock } })
  | none => .next s

/-- Button 1 during a local approval: the plate sends H to the card in SIGN APPROVAL (R245, Table 10.1). -/
def State.approveNow (s : State) (p : Plate) (a : LocalTry) : State :=
  match s.session p a.session with
  | some x => s.askCard p a .sign (apduSign x.h)
  | none => s.endTry p a false

/-- BUTTON at a plate (R245, R249): button 1 approves, or lets the waiting command go on; button 2 abandons the card session. -/
def execButton (p : Plate) (s : State) : Host.Outcome State Fault Refusal :=
  match s.takeNext .plate p 0x31 with
  | some (f, s) =>
    let s := s.toMailbox p f
    if f.at_ 1 != 1 then .next s
    else match (s.pl p).cus.attempt with
      | some a => .next (if f.at_ 0 == 2 then s.endTry p a false else if a.step == .button then s.approveNow p a else s)
      | none => .next (if f.at_ 0 == 2 then s else s.buttonOne p)
  | none => .next s

/-- LOCAL_APPROVAL_TIMEOUT (R245): 60 s without a key press. -/
def execLocalApprovalTimeout (p : Plate) (s : State) : Host.Outcome State Fault Refusal :=
  .next (match (s.pl p).cus.attempt with
  | some a => if s.past a.lastKey 60000000 then s.endTry p a false else s
  | none => s)

/-- DISPLAY at the Margin (R269): one I2C write of the line byte and its 20 characters. -/
def execDisplay (p : MboxCmd) (s : State) : Host.Outcome State Fault Refusal :=
  .next (s.mailboxRow p 0x32 fun s => s.owned p.plate 0x32 fun s f r =>
    if r = 3 && f.at_ 0 < 4 then
      (s.updMargin fun g => { g with display := g.display.set [] (f.at_ 0) (cut f.payload 1 20) }).emit (.i2c f.payload)
    else s)

/-- LED at the Margin (Table 11.6). -/
def execLed (p : MboxCmd) (s : State) : Host.Outcome State Fault Refusal :=
  .next (s.mailboxRow p 0x33 fun s => s.owned p.plate 0x33 fun s f r =>
    if r = 3 && f.at_ 0 < 3 && f.at_ 1 < 3 then
      s.updMargin fun g => { g with led1 := BitVec.ofNat 8 (f.at_ 0), led3 := BitVec.ofNat 8 (f.at_ 1) }
    else s)

/-- The four LEDs as they are lit: LED 0 while the supplies are in range, LED 1 and LED 3 as the console owner set them, LED 2
while a card or the SD card is activated, LED 3 on from any tamper decision (Table 11.6). -/
def Margin.leds (g : Margin) : List Byte :=
  let active := (g.readers.get {} 0).active || (g.readers.get {} 1).active || g.sd.isSome
  if !g.powered then [0, 0, 0, 0]
  else [1, g.led1, if active then 1 else 0, if g.ledTamper then 1 else g.led3]

/-! ## SD slot (R270 to R273) -/

/-- SD_DONE to a plate (Table 11.3). -/
def State.sdDone (s : State) (p : Plate) (status done capacity : Nat) : State :=
  let c := s.margin.sd
  let mode := (c.map fun c => bit c.wide + 2 * bit c.fast).getD 0
  s.sendFrame .margin p 0x22 2 (leBytes 1 status ++ leBytes 1 ((c.map SdInfo.cardType).getD 0) ++ leBytes 1 mode ++
    zeros 1 ++ leBytes 4 done ++ leBytes 8 capacity)

/-- A block's address on the card: in bytes for SDSC, in blocks for SDHC and SDXC (R270). -/
def Margin.sdAddr (g : Margin) (lba : Nat) : Nat := if (g.sd.map SdInfo.cardType) == some 1 then 512 * lba else lba

/-- An application command: CMD55 with the card's address goes ahead of it. -/
def appCmd (rca : BitVec 16) (index arg : Nat) : List Out := [.sdCmd 55 (65536 * rca.toNat), .sdCmd index arg]

/-- The commands of an initialisation, with what the card showed (Table 11.8); with nothing shown, the first two of them. -/
def sdInitOuts : Option SdShow → List Out
  | none => [.sdCmd 0 0, .sdCmd 8 0x1AA]
  | some c =>
    let r := c.rca
    let sel := 65536 * r.toNat
    let ref := Out.sdCmd 17 (if c.cardType == 1 then 512 * 2048 else 2048)
    [.sdCmd 0 0, .sdCmd 8 0x1AA] ++ appCmd 0 41 (if c.cmd8 then 0x40300000 else 0x00300000) ++
    [.sdCmd 2 0, .sdCmd 3 0, .sdCmd 9 sel, .sdCmd 7 sel] ++ appCmd r 42 0 ++ appCmd r 51 0 ++
    (if c.cardType == 1 then [.sdCmd 16 512] else []) ++ [ref] ++
    (if !c.refOk then [] else
      (if !c.scr4 then [] else appCmd r 6 2 ++ appCmd r 13 0 ++ (if c.status4 then [ref] else []) ++
        (if c.status4 && c.same4 then [] else appCmd r 6 0)) ++
      [.sdCmd 6 0x00FFFFF1] ++ (if c.offers50 then [.sdCmd 6 0x80FFFFF1] ++ (if c.chosen50 then [ref] else []) else []))

/-- What the Margin takes from an initialisation: a width or speed only where its switch status and its read-back were good, and
with LBA 2048 read (R271, Table 11.8). -/
def sdInfoOf (c : SdShow) : SdInfo :=
  { rca := c.rca, cardType := c.cardType, capacity := c.capacity, csdProtect := c.csdProtect
    wide := c.refOk && c.scr4 && c.status4 && c.same4, fast := c.refOk && c.offers50 && c.chosen50 && c.same50 }

/-- The presence byte (HELLO, SD_EVENT). -/
def Margin.presence (g : Margin) : Nat :=
  bit (g.readers.get {} 0).present + 2 * bit (g.readers.get {} 1).present + 4 * bit g.sdPresent +
    8 * bit (g.sdPresent && g.sdLocked)

/-- Why a command on the card is refused at once: removed 1, locked 2, card error 3, out of range 5 (R273). -/
def Margin.sdRefuses (g : Margin) (op lba blocks : Nat) : Option Nat :=
  if !g.sdPresent then some 1
  else match g.sd with
    | none => some 3
    | some c =>
      if op == 2 && (g.sdLocked || c.csdProtect) then some 2
      else if c.capacity < lba + blocks || (op == 2 && decide (lba < 2048)) then some 5
      else none

/-- SD_CMD at the Margin (R270, R273): read, write, or initialise under Table 11.8 with what the card showed. The write-protect
switch is read before a write. DESIGN CHOICE (log 149): a command that comes while an operation is in progress, and one whose op
or count of blocks Table 11.3 does not list, is acknowledged and has no other effect, with no SD_DONE; the spec names no answer. -/
def State.sdCommand (s : State) (p : Plate) (card : Option SdShow) (locked : Bool) : State :=
  s.owned p 0x20 fun s f r =>
    let op := f.at_ 0
    let blocks := leAt f.payload 2 2
    let lba := leAt f.payload 4 8
    if r != 2 || s.margin.sdOp.isSome then s
    else if op == 3 then
      if !s.margin.sdPresent then s.sdDone p 1 0 0
      else
        let s := (s.updMargin fun g => { g with sd := card.map sdInfoOf }).emits (sdInitOuts card)
        match card with
        | some c => s.sdDone p 0 0 c.capacity
        | none => s.sdDone p 3 0 0
    else if !(op == 1 || op == 2) || blocks == 0 || decide (128 < blocks) then s
    else
      let s := if op == 2 && s.margin.sdPresent then s.updMargin fun g => { g with sdLocked := locked } else s
      match s.margin.sdRefuses op lba blocks with
      | some st => s.sdDone p st 0 0
      | none => (s.updMargin fun g => { g with
          sdOp := some { op := op, lba := lba, blocks := blocks, plate := p } }).emit (.sd op (s.margin.sdAddr lba) blocks)

/-! ## The spool (R274, Table 11.9) -/

/-- The first block of the spool: its anchor. -/
def anchorLba : Nat := 2048

/-- A spool header block. -/
def spoolHeader (kind : Nat) (id : DWord) (number : Nat) (payload : Bytes) (time : Nat) (device : Bytes) : Bytes :=
  let b := [0x4B, 0x53, 0x50, 0x4C, 0x01] ++ leBytes 1 kind ++ zeros 2 ++ leBytes 8 id.toNat ++ leBytes 4 number ++
    leBytes 4 payload.length ++ leBytes 4 (crc32c payload).toNat ++ zeros 4 ++ leBytes 8 (time % 2 ^ 48) ++ fit 32 device ++ zeros 436
  b ++ leBytes 4 (crc32c b).toNat

/-- Blocks that a payload of `n` bytes fills. -/
def payloadBlocks (n : Nat) : Nat := (n + 511) / 512

/-- A block of the card as it was read. -/
def blockAt (t : List (Nat × Bytes)) (lba : Nat) : Bytes := fit 512 (((t.find? fun e => e.1 == lba).map Prod.snd).getD [])

/-- Whether a block has the magic and the CRC of a header. -/
def headerSound (b : Bytes) : Bool :=
  cut b 0 4 == [0x4B, 0x53, 0x50, 0x4C] && leAt b 0x1FC 4 == (crc32c (b.take 0x1FC)).toNat

/-- The payload of the header at a block. -/
def payloadAt (t : List (Nat × Bytes)) (lba n : Nat) : Bytes :=
  (((List.range (payloadBlocks n)).map fun k => blockAt t (lba + 1 + k)).flatten).take n

/-- Whether the block is the header of the record after `number`: the five checks of R274. -/
def recordSound (t : List (Nat × Bytes)) (id : DWord) (number lba : Nat) : Bool :=
  let b := blockAt t lba
  headerSound b && leAt b 8 8 == id.toNat && leAt b 0x10 4 == number + 1 &&
    leAt b 0x18 4 == (crc32c (payloadAt t lba (leAt b 0x14 4))).toNat

/-- Where the spool ends: the block of the first header that fails, and the last record's number; at most `fuel` records are
followed. -/
def spoolEnd (t : List (Nat × Bytes)) (id : DWord) : Nat → Nat → Nat → Nat × Nat
  | 0, number, lba => (lba, number)
  | fuel + 1, number, lba =>
    if recordSound t id number lba then
      spoolEnd t id fuel (number + 1) (lba + 1 + payloadBlocks (leAt (blockAt t lba) 0x14 4))
    else (lba, number)

/-- The spool that the blocks of a card hold; without a valid anchor it is empty. -/
def readSpool (t : List (Nat × Bytes)) : Spool :=
  let b := blockAt t anchorLba
  if headerSound b && leAt b 5 1 == 0 && leAt b 0x10 4 == 0 && leAt b 0x14 4 == 0 then
    let id := BitVec.ofNat 64 (leAt b 8 8)
    let e := spoolEnd t id t.length 0 (anchorLba + 1)
    { id := some id, next := e.1, number := e.2 }
  else {}

/-- A payload as writes of at most 128 blocks from a block on, the last block filled with zeros. -/
def payloadWrites : Nat → Nat → Bytes → List (Nat × Bytes)
  | 0, _, _ => []
  | fuel + 1, lba, b =>
    if b.isEmpty then []
    else
      let x := b.take 65536
      (lba, fit (512 * payloadBlocks x.length) x) :: payloadWrites fuel (lba + 128) (b.drop 65536)

/-- The plate writes blocks to the card: the command, then their data in order (R270). -/
def State.writeBlocks (s : State) (p : Plate) (lba : Nat) (b : Bytes) : State :=
  let s := s.sendFrame .plate p 0x20 2 ([2, 0] ++ leBytes 2 (payloadBlocks b.length) ++ leBytes 8 lba)
  s.each (List.range (b.length / 64)) fun s k => s.sendFrame .plate p 0x21 2 (cut b (64 * k) 64)

/-- The next write of an append leaves; after the last one, the header's, the record is part of the spool. -/
def State.spoolGo (s : State) (p : Plate) : State :=
  match (s.pl p).mrg.spool.job with
  | some j => match j.todo with
    | (lba, b) :: _ => s.writeBlocks p lba b
    | [] => s.updMrg p fun m => { m with spool := { id := some j.id, next := j.next, number := m.spool.number + 1 } }
  | none => s

/-- A record is appended: with no anchor the anchor first; then the payload, and its header once the payload is confirmed. -/
def State.spoolAppend (s : State) (p : Plate) (kind : Nat) (payload : Bytes) : State :=
  if (s.pl p).mrg.spool.id.isNone && !s.canDraw p vaultInst 1 then s
  else
  let sp := (s.pl p).mrg.spool
  let id := sp.id.getD (BitVec.ofNat 64 (leNat (s.drawn p vaultInst 8)))
  let head (kind number : Nat) (b : Bytes) := spoolHeader kind id number b (s.optime p) (s.identityDigest p)
  let anchor := if sp.id.isSome then [] else [(anchorLba, head 0 0 [])]
  let todo := anchor ++ payloadWrites (payload.length + 1) (sp.next + 1) payload ++ [(sp.next, head kind (sp.number + 1) payload)]
  ((if sp.id.isSome then s else s.drew p vaultInst [8]).updMrg p fun m => { m with
    spool := { sp with job := some { todo := todo, id := id, next := sp.next + 1 + payloadBlocks payload.length } } }).spoolGo p

/-- A write of an append has ended: confirmed with every block of it done, the next one follows; otherwise the append ends, and its
position is used again. A report of no block done is none of a write that was confirmed. -/
def State.spoolDone (s : State) (p : Plate) (status done : Nat) : State :=
  match (s.pl p).mrg.spool.job with
  | some j =>
    if status = 0 && done == 0 then s
    else if status = 0 && ((j.todo.head?.map fun x => payloadBlocks x.2.length) == some done) then
      (s.updMrg p fun m => { m with spool := { m.spool with job := some { j with todo := j.todo.drop 1 } } }).spoolGo p
    else s.updMrg p fun m => { m with spool := { m.spool with job := none } }
  | none => s

/-- Whether plate `p` owns the SD slot and can use it. -/
def State.ownsSd (s : State) (p : Plate) : Bool := s.up p && (s.pl p).mrg.own.getLsbD 2 && (s.pl p).mrg.fieldUp

/-- SD_CMD: the Margin takes the frame; or the plate that owns the slot reads the spool, or appends to it one record at a time. -/
def execSdCmd (p : Plate) (use : SdUse) (s : State) : Host.Outcome State Fault Refusal :=
  .next (match use with
    | .card c locked => s.sdCommand p c locked
    | .openSpool t =>
      if s.ownsSd p && (s.pl p).mrg.spool.job.isNone then s.updMrg p fun m => { m with spool := readSpool t } else s
    | .append kind b => if s.ownsSd p && (s.pl p).mrg.spool.job.isNone then s.spoolAppend p kind b else s)

/-- One more 64-byte piece of a write; a whole block goes to the card, which is then busy, and counts as done where the card
acknowledges it (R272, R273). -/
def SdOp.take (o : SdOp) (now : Nat) (data : Bytes) (ack : Bool) : SdOp :=
  let n := o.bytes + 64
  if n % 512 = 0 then { o with bytes := n, busy := some now, done := o.done + bit ack, buf := [] }
  else { o with bytes := n, buf := o.buf ++ fit 64 data }

/-- The block that a write's next piece completes. -/
def SdOp.whole (o : SdOp) (data : Bytes) : List Out :=
  if (o.bytes + 64) % 512 = 0 then [.sdData (o.buf ++ fit 64 data)] else []

/-- A read gives the plate its next 64 bytes, in order. -/
def State.sdRead (s : State) (p : Plate) (data : Bytes) : State :=
  match s.margin.sdOp with
  | some o =>
    if o.op == 1 && o.plate = p && decide (o.bytes < 512 * o.blocks) then
      (s.updMargin fun g => { g with
        sdOp := some { o with bytes := o.bytes + 64, done := (o.bytes + 64) / 512 } }).sendFrame .margin p 0x21 2 (fit 64 data)
    else s
  | none => s

/-- SD_DATA (R270): block data in order, to the card or to the plate. -/
def execSdData (e : End) (x : SdBlock) (s : State) : Host.Outcome State Fault Refusal :=
  let p := x.plate
  match e with
  | .plate => match s.takeNext .plate p 0x21 with
    | some (f, s) => .next (s.toMailbox p f)
    | none => .next s
  | .margin =>
    if (s.margin.sdOp.map SdOp.op) == some 1 then .next (s.sdRead p x.data)
    else .next (s.owned p 0x21 fun s f r =>
      match s.margin.sdOp with
      | some o =>
        if r = 2 && o.op == 2 && o.plate = p && decide (o.bytes < 512 * o.blocks) then
          (s.updMargin fun g => { g with sdOp := some (o.take s.clock f.payload x.ack) }).emits (o.whole f.payload)
        else s
      | none => s)

/-- Whether the card refused a block of a write. -/
def SdOp.unacknowledged (o : SdOp) : Bool := o.op == 2 && decide (o.done < o.bytes / 512)

/-- Whether a write's card is ready by these CMD13 polls: one of them shows it, unless two in a row before it gave no valid response;
then DAT0 shows it (R272). -/
def sdReady (dat0 : Bool) : List (Option Bool) → Bool
  | some true :: _ => true
  | none :: none :: _ => dat0
  | _ :: l => sdReady dat0 l
  | [] => false

/-- The CMD13 commands that those polls were. -/
def sdPolls (rca : BitVec 16) : List (Option Bool) → List Out
  | some true :: _ => [.sdCmd 13 (65536 * rca.toNat)]
  | none :: none :: _ => [.sdCmd 13 (65536 * rca.toNat), .sdCmd 13 (65536 * rca.toNat)]
  | _ :: l => .sdCmd 13 (65536 * rca.toNat) :: sdPolls rca l
  | [] => []

/-- SD_DONE: the Margin ends its operation, all of it done (a write with the card ready again) or with a card error, and reports it
(R270, R272); or a plate takes the report, and an append to the spool goes on (R274). A block that the card did not acknowledge is a
card error. -/
def execSdDone (x : SdEnd) (s : State) : Host.Outcome State Fault Refusal :=
  let p := x.plate
  match x.at_ with
  | .margin =>
    .next (match s.margin.sdOp with
      | some o =>
        if o.plate != p || !s.margin.powered then s
        else if x.error || o.unacknowledged then (s.updMargin fun g => { g with sdOp := none }).sdDone p 3 o.done 0
        else if o.bytes != 512 * o.blocks then s
        else
          let s := if o.op == 2 then s.emits (sdPolls ((s.margin.sd.map SdInfo.rca).getD 0) x.polls) else s
          if o.op == 2 && !sdReady x.dat0 x.polls then s
          else (s.updMargin fun g => { g with sdOp := none }).sdDone p 0 o.blocks 0
      | none => s)
  | .plate => match s.takeNext .plate p 0x22 with
    | some (f, s) => .next ((s.toMailbox p f).spoolDone p (f.at_ 0) (leAt f.payload 4 4))
    | none => .next s

/-- SD_BUSY_TIMEOUT (R272): 250 ms, or 500 ms for SDXC, end the operation with status 4. -/
def execSdBusyTimeout (s : State) : Host.Outcome State Fault Refusal :=
  .next (match s.margin.sdOp with
  | some o => match o.busy with
    | some t =>
      if s.past t (if (s.margin.sd.map SdInfo.cardType) == some 3 then 500000 else 250000) then
        (s.updMargin fun g => { g with sdOp := none }).sdDone o.plate 4 o.done 0
      else s
    | none => s
  | none => s)

/-- SD_REMOVAL (R273): the bus stops, the card is powered off, and the operation ends with status 1 and the acknowledged
blocks. -/
def execSdRemoval (s : State) : Host.Outcome State Fault Refusal :=
  .next (if !s.margin.sdPresent then s
    else
      let o := s.margin.sdOp
      let s := s.updMargin fun g => { g with sdPresent := false, sdLocked := false, sdOp := none }
      if !s.margin.powered then s.updMargin fun g => { g with sd := none }
      else
        let s := match o with
          | some o => s.sdDone o.plate 1 o.done 0
          | none => s
        let s := s.updMargin fun g => { g with sd := none }
        s.toBoth 0x23 2 [BitVec.ofNat 8 s.margin.presence])

/-- SD_INSERTION (R273, Table 11.8): the switch is read, the card initialised, and presence reported; step 9 reports to the
slot's owner. -/
def execSdInsertion (locked : Bool) (card : Option SdShow) (s : State) : Host.Outcome State Fault Refusal :=
  .next (if s.margin.sdPresent then s
    else
      let s := s.updMargin fun g => { g with sdPresent := true, sdLocked := locked, sd := if g.powered then card.map sdInfoOf else none }
      if !s.margin.powered then s
      else
        let s := (s.toBoth 0x23 2 [BitVec.ofNat 8 s.margin.presence]).emits (sdInitOuts card)
        match s.owner 2, card with
        | some p, some c => s.sdDone p 0 0 c.capacity
        | some p, none => s.sdDone p 3 0 0
        | none, _ => s)

/-- SD_EVENT at a plate. -/
def execSdEvent (p : Plate) (s : State) : Host.Outcome State Fault Refusal :=
  match s.takeNext .plate p 0x23 with
  | some (f, s) => .next ((s.toMailbox p f).updMrg p fun m => { m with presence := BitVec.ofNat 4 (f.at_ 0) })
  | none => .next s

/-! ## Tamper inputs (R275 to R278) -/

/-- LOOP_DEGLITCH (R275 to R277): a loop's state has persisted for 50 µs. -/
def execLoopDeglitch (i loop : Nat) (st : LoopState) (s : State) : Host.Outcome State Fault Refusal :=
  .next (if 4 ≤ i || 2 ≤ loop then s
    else
      let s := s.updMargin fun g => { g with inputs := g.inputs.mod {} i fun x =>
        if loop = 0 then { x with loopA := st } else { x with loopB := st } }
      let t := s.clock - 50
      let x := s.margin.inputs.get {} i
      if x.loopA == .ok && x.loopB == .ok then
        s.updMargin fun g => { g with inputs := g.inputs.mod {} i fun x =>
          if x.since.isSome && x.okFrom.isNone then { x with okFrom := some t } else x }
      else s.judge i t)

/-- DISCREPANCY_EXPIRE (R277): tamper is decided if the discrepancy is still open. -/
def execDiscrepancyExpire (i : Nat) (s : State) : Host.Outcome State Fault Refusal :=
  .next (match s.margin.expiry i with
  | some t =>
    let ended := match (s.margin.inputs.get {} i).okFrom with
      | some e => decide (e < t)
      | none => false
    if s.margin.senses i && decide (t ≤ s.clock) && !ended then
      (s.closeDisc i).decideTamper i 2
    else s
  | none => s)

/-- DISCREPANCY_END (R277, R278): no loop tripped again within 50 µs; the discrepancy is counted, or was tamper where its timer had
expired before it ended. -/
def execDiscrepancyEnd (i : Nat) (s : State) : Host.Outcome State Fault Refusal :=
  let x := s.margin.inputs.get {} i
  .next (match x.since, x.okFrom with
  | some _, some e => if s.past e 50 && s.margin.senses i then s.endDisc i e else s
  | _, _ => s)

/-- A loop's state as frames carry it; 0xFF where the input is disabled. -/
def Margin.loopByte (g : Margin) (i : Nat) (st : LoopState) : Byte :=
  if !g.loops.getLsbD i then 0xFF else match st with
    | .ok => 0
    | .opened => 1
    | .short => 2
    | .cross => 3

/-- KO_CHANNEL_ASSERT (R256, R278): the channel is asserted for each decision, each plate with its supplies in range sees
it, and TAMPER follows on both channels. -/
def execKoChannelAssert (s : State) : Host.Outcome State Fault Refusal :=
  .next (match s.margin.koDecided with
  | (i, c) :: t =>
    let s := s.updMargin fun g => { g with ko := true, koInput := i, koAt := s.clock, koDecided := t }
    let x := s.margin.inputs.get {} i
    let s := s.each [.a, .b] fun s p =>
      if (s.pl p).pow.phase == .off then s else s.updTmp p fun m => { m with marginKo := some (m.marginKo.getD i) }
    s.toBoth 0x40 0xFF [BitVec.ofNat 8 i, BitVec.ofNat 8 c, s.margin.loopByte i x.loopA, s.margin.loopByte i x.loopB]
  | [] => s)

/-- TAMPER at a plate (R278): the tamper monitor takes it; the knockout channel has acted already. -/
def execTamper (p : Plate) (s : State) : Host.Outcome State Fault Refusal :=
  match s.takeNext .plate p 0x40 with
  | some (_, s) => .next s
  | none => .next s

/-- LOOP_STATUS_PERIOD (R278): 1 s of Margin time in which an input counted a discrepancy ends. -/
def execLoopStatusPeriod (s : State) : Host.Outcome State Fault Refusal :=
  .next (if !s.margin.powered || !s.past s.margin.periodAt 1000000 then s
    else
      let counts := (List.range 4).map fun i => (s.margin.inputs.get {} i).counted
      let s' := s.updMargin fun g => { g with
        periodAt := s.clock
        inputs := (List.range 4).foldl (fun t i => t.mod {} i fun x => { x with counted := 0 }) g.inputs }
      if counts.all (· == 0) then s'
      else s'.toBoth 0x41 0xFF ((counts.map fun n => BitVec.ofNat 8 (min n 255)) ++ leBytes 2 s.margin.dropped ++ zeros 2))

/-- LOOP_STATUS at a plate (R278): the counts are added and one event record is written. -/
def execLoopStatus (p : Plate) (s : State) : Host.Outcome State Fault Refusal :=
  match s.takeNext .plate p 0x41 with
  | some (f, s) =>
    let s := s.updMrg p fun m => { m with
      discCount := (List.range 4).foldl (fun t i => t.mod 0 i fun n => satAdd 8 n (f.at_ i)) m.discCount }
    .next (s.record p 0x0211 4 (BitVec.ofNat 32 (leAt f.payload 0 4)))
  | none => .next s

/-! ## Field power and the all-clear (R262 to R264) -/

/-- FIELD_POWER_UP (Table 11.4): the Margin leaves reset with nothing of its earlier state but what its pins show, and sends
HELLO on both channels. -/
def execFieldPowerUp (s : State) : Host.Outcome State Fault Refusal :=
  let g := s.margin
  if g.powered then .next s else
  let n := g.powerups + 1
  let s := s.updMargin fun _ =>
    { powered := true, powerups := n
      readers := (List.range 2).foldl (fun t r => t.set {} r { present := (g.readers.get {} r).present }) []
      sdPresent := g.sdPresent, sdLocked := g.sdLocked
      inputs := (List.range 4).foldl (fun t i =>
        t.set {} i { loopA := (g.inputs.get {} i).loopA, loopB := (g.inputs.get {} i).loopB }) []
      periodAt := s.clock }
  .next (s.toBoth 0x01 0xFF ([1, BitVec.ofNat 8 s.margin.presence] ++ leBytes 2 n.toNat))

/-- BROWN_OUT (R263): every tamper decision freezes and the all-clear stops. -/
def execBrownOut (s : State) : Host.Outcome State Fault Refusal :=
  .next (s.updMargin fun g => { g with
    powered := false, frozen := true, allClear := false, stopAt := if g.allClear then s.clock else g.stopAt })

/-- ALL_CLEAR_VALID (R262): 1 ms of valid transitions since the square wave started, and since the plate last found it lost. -/
def execAllClearValid (p : Plate) (s : State) : Host.Outcome State Fault Refusal :=
  .next (if s.up p && s.margin.allClear && s.past (max s.margin.clearAt (s.pl p).mrg.lostAt) 1000 then
    s.updMrg p fun m => { m with fieldUp := true } else s)

/-- Whether the all-clear is lost, and the Margin as it then is: no transition for 50 µs, because the square wave stopped, or because
one of the Margin's own state checks fails, which stops it (log 151); or a count out of range in a 1 ms window (R262). -/
def State.clearLost (s : State) : ClearLoss → Option State
  | .quiet =>
    if s.margin.allClear then
      some (s.updMargin fun g => { g with checks := false, allClear := false, stopAt := s.clock - 50 })
    else if s.past s.margin.stopAt 50 then some s else none
  | .count n => if 180 ≤ n && n ≤ 220 then none else some s

/-- ALL_CLEAR_LOST (R262, R264): FIELD_LOSS, or KO_FIELD under TAMPER_ON_FIELD_LOSS; the plate owns no resource any longer, and its
link starts afresh when the field returns (log 38). -/
def execAllClearLost (c : ClearCmd) (s : State) : Host.Outcome State Fault Refusal :=
  let p := c.plate
  .next (if !(s.pl p).mrg.fieldUp then s
    else match s.clearLost c.loss with
    | none => s
    | some s =>
      let s := s.giveUpAll p
      let s := (s.updMrg p fun m => { m with
        fieldUp := false, losses := satAdd 16 m.losses 1, lostAt := s.clock, link := {} }).setLinkUp p false
      if (s.policy p).flags.getLsbD 0 then s.tamper p 41 p.num 0 else s.raise p 29)

end Sys2Proof.Machine
end

