-- ==== Sys2Proof/Machine/Reset.lean ====
section
/-! DEFINITION. What a plate reset clears and keeps, saved ring windows, and the reset token (09 R216, R235; 13 R307, R308;
12 R288; 15 R336, R339). -/

namespace Sys2Proof.Machine

/-- Every value of a table changed by `f`; entries that become the default leave it. -/
def Tab.mapv {α : Type} [DecidableEq α] (t : Tab α) (d : α) (f : Nat → α → α) : Tab α :=
  (t.map fun e => (e.1, f e.1 e.2)).filter fun e => decide (e.2 ≠ d)

/-! ## In-flight windows (Table 9.1) -/

/-- The in-flight window of a ring: F, L, n and n_low. -/
def Ring.window (g : Ring) : Window :=
  { fetched := g.fetched, low := g.low, count := g.count,
    nLow := (g.posted.map Prod.snd).foldl (fun m n => if dist g.count m < dist g.count n then n else m) g.count }

/-- The key of the admin ring among saved windows. -/
def admKey : Nat := 65536

/-- The windows of the rings that plate `p` homes, and of its admin ring, saved to its vault metadata (R308). -/
def State.saveWindows (s : State) (p : Plate) : State :=
  let save (t : Tab (Word × Word × Word × Word)) (k : Nat) (g : Ring) :=
    let w := g.window
    t.set (0, 0, 0, 0) k (w.fetched, w.low, w.count, w.nLow)
  let x := (s.pl p).sl
  let mine := x.rings.filter fun e => (s.impo p (e.1 / 16)).st != .free && (s.impo p (e.1 / 16)).home == p && e.2.active
  s.updVlt p fun v => { v with savedWin := save (mine.foldl (fun t e => save t e.1 e.2) []) admKey x.adm }

/-! ## Groups cut short (R336) -/

/-- What a group carries takes effect on plate `p`: its items and its journal entry. -/
def State.applyContent (s : State) (p : Plate) (both : Bool) (g : Group) : State :=
  (s.applyItems p both g.comSeq g.items).addJournal p g.journal

/-- One group of pages becomes current on plate `p`: its items and its journal entry, and the pages that hold them. -/
def State.applyGroup (s : State) (p : Plate) (both : Bool) (g : Group) : State := (s.applyContent p both g).commitPages p g

/-- The members of a list of flags by number: bit `k` of `bits` for member `k`. -/
def flags (bits n : Nat) : List Bool := (List.range n).map fun k => bits / 2 ^ k % 2 == 1

/-- The pages of one group in progress as a stop leaves them (R336, R337), `u` the state whose content its members write. The records
are written to every member before the second copies are, and `bits` says how far the group came: on a member without a record the
data is indeterminate. -/
def State.cutGroup (s u : State) (p : Plate) (g : Group) (bits : Nat) : State :=
  let n := g.pages.length
  let first := flags bits n
  let second := if first.all id then flags (bits / 2 ^ n) n else []
  (s.each ((g.pages.zip g.taken).zip (List.range n)) fun s e =>
    let r : PageRec := { seq := g.seq, k := n - 1, lpn := e.1.1 }
    let has1 := first.getD e.2 false
    let has2 := second.getD e.2 false
    let data := if has1 then u.memberBytes p g e.1.1 e.2 else fit 256 (Config.freeBytes (s.free + e.2))
    s.updNvm p fun x => x.updPage e.1.2 fun v =>
      { v with data := data, rec1 := if has1 then some r else none, rec2 := if has2 then some r else none
               cycles := v.cycles + 1 }).tick n

/-- The pages of the groups in progress as a stop leaves them: a free value says how far each came. One that writes a page of an earlier
group without a record on every member has not begun (R334). `u` carries the content of those that have them. -/
def State.cutEach (s u : State) (p : Plate) : List Group → List Group → State
  | _, [] => s
  | old, g :: t =>
    if old.any fun h => h.meets g then s.cutEach u p (old ++ [g]) t
    else
      let bits := Config.freeNat s.free
      let full := (flags bits g.pages.length).all id
      let u' := u.applyContent p false g
      (((s.tick 1).cutGroup u' p g bits).cutEach (if full then u' else u) p (if full then old else old ++ [g]) t)

/-- Groups in progress when plate `p` stops: the mount that follows builds the map, the pool and the next SEQ from the physical pages,
and a group that it counts as complete is wholly new, any other wholly old (R335, R336). -/
def State.cutGroups (s : State) (p : Plate) : State :=
  let l := (s.pl p).nvm.groups
  let s := (s.cutEach s p [] l).updNvm p fun n => Nvm.mount { n with groups := [], waiting := [] }
  let n := (s.pl p).nvm
  s.each (l.filter fun g => n.complete g.seq (g.pages.length - 1)) fun s g => s.applyContent p false g

/-! ## What a reset leaves of each part -/

/-- A ring after its plate has reset alone: its set-up and whether it is in service; its indices come from the saved
window. -/
def Ring.afterReset (g : Ring) : Ring :=
  { sq := g.sq, cq := g.cq, cfg := g.cfg, coal := g.coal, draining := g.draining, reason := g.reason, faulted := g.faulted,
    active := g.active }

/-- The ring engine and slices after a reset. The imposition table is in NVM; set-up stays where the plate resets alone
(R308) and otherwise comes back with RESYNC. -/
def Slices.afterReset (x : Slices) (keep : Bool) : Slices :=
  { impo := x.oldImpo.foldl (fun t e => match e.2 with
      | some v => t.set {} e.1 v
      | none => t) x.impo
    ops := x.ops.filter fun e => match e.2 with
      | some o => o.destroy
      | none => false
    regs := if keep then x.regs else []
    rings := if keep then x.rings.mapv {} fun _ g => g.afterReset else []
    adm := if keep then x.adm.afterReset else {}
    admPi := if keep then x.admPi else 0 }

/-- The vault controller after a reset: what its NVM holds. -/
def Vault.afterReset (v : Vault) : Vault :=
  { root := v.root, idSeed := v.idSeed, idPage := v.idPage, slots := v.slots, ledger := v.ledger, pageSeq := v.pageSeq
    badPages := v.badPages, recs := v.recs
    epoch := v.epoch, counter := v.counter, journal := v.journal, nextId := v.nextId, migration := v.migration,
    hold := v.hold, apply := v.apply, savedWin := v.savedWin
    exhausted := v.exhausted, issued := v.issued }

/-- Random service after a reset: instance 4,101 drives the chase until start-up makes it afresh (R279). -/
def Rng.afterReset (x : Rng) : Rng := { inst := x.inst.filter fun e => e.1 == chaseInst }

/-- The pair part after a reset: the token and the counts since power-up. -/
def Pair.afterReset (r : Pair) : Pair :=
  { token := r.token, seqResets := r.seqResets, peerRecov := r.peerRecov, mixedFrom := r.mixedFrom, mixed := r.mixed,
    resetHeld := r.token, scrubAt := r.scrubAt }

/-- Custody after a reset: pages and fuses; sessions end (R244). -/
def Custody.afterReset (c : Custody) : Custody :=
  { page := c.page, idf := c.idf, rtf := c.rtf, lcPage := c.lcPage, chain := c.chain,
    retire := c.retire }

/-- The tamper monitor after a reset: the KNOCKOUT line, the arming, the alarm page and the counts since power-up stay, and
so does an alarm until the reset ends (R289); drill mode ends and its alarms leave the page (R291, R298, R306). -/
def Tamper.afterReset (t : Tamper) : Tamper :=
  { ko := t.ko, koAt := t.koAt, armed := t.armed, local_ := t.local_, marginKo := t.marginKo, peerCause := t.peerCause, cause := t.cause,
    pattern := t.pattern, lastMism := t.lastMism, helper := t.helper, corrected := t.corrected
    alarms := t.alarms.filter fun a => !a.2, alarmNew := t.alarmNew, alarmOn := t.alarmOn }

/-- The fault collector after a reset. -/
def Faults.afterReset (f : Faults) : Faults :=
  { cReact := if f.react = .none then f.cReact else satAdd 16 f.cReact 1 }

/-- The management cluster after a reset: the stored images and minimum versions. -/
def Mgmt.afterReset (m : Mgmt) : Mgmt :=
  { imgS := m.imgS, imgN := m.imgN, imgS2 := m.imgS2, imgN2 := m.imgN2, minS := m.minS, minN := m.minN, minOp := m.minOp }

/-- NVM controller and recorder after a reset: what NVM holds, and the priority records on their way to it (R344). -/
def Nvm.afterReset (n : Nvm) : Nvm :=
  { n with
    pulses := [], slow := 0, peerWear := 0, raw := 0, coalesce := false, staged := [], lost := 0, lostFull := 0
    clearing := false, profiles := [] }

/-- The power part after a reset at `now`. -/
def Power.afterReset (w : Power) (now : Nat) (phase : Phase) (fenced : Bool) : Power :=
  { phase := phase, perst := w.perst, perstAt := w.perstAt, fenced := fenced, bootAt := now, resetAt := now, denied := w.denied }

/-- A plate after a reset. -/
def PlateState.afterReset (x : PlateState) (now : Nat) (phase : Phase) (fenced keep : Bool) : PlateState :=
  { pow := x.pow.afterReset now phase fenced
    sl := x.sl.afterReset keep
    vlt := x.vlt.afterReset
    rng := x.rng.afterReset
    pr := x.pr.afterReset
    cus := x.cus.afterReset
    mrg := {}
    tmp := x.tmp.afterReset
    flt := x.flt.afterReset
    mgt := x.mgt.afterReset
    nvm := x.nvm.afterReset }

/-- Plate `p` lets the fence wires go; its peer then sees FENCE_RELEASED. -/
def State.dropFence (s : State) (p : Plate) : State := s.updPr p fun r => { r with fencing := false }

/-- The detail of the record 0x0002: a class C reaction counts before the fence that carries it out (log 39). -/
def State.resetDetail (s : State) (p : Plate) (other : Nat) : Nat :=
  if (s.pl p).flt.react = .none then other else 1

/-- What is under way to plate `p` is lost; the reset token that was passed to it stays with its peer (R235). -/
def State.dropGut (s : State) (p : Plate) : State :=
  let s' := s.setGut p []
  if (s.gut p).contains .token then s'.updPr p.peer fun r => { r with token := true } else s'

/-- Drill mode ends: class T force bits clear and drill-marked alarms leave the page (R298, R306). -/
def State.endDrill (s : State) (p : Plate) : State :=
  let s := (s.updTmp p fun t => { t with drill := false, alarms := t.alarms.filter fun a => !a.2 }).updFlt p fun f =>
    { f with force := f.force &&& ~~~ maskT }
  s.record p 0x0202 3 (tmpDrill (s.pl p).tmp)

/-- Plate `p` is in reset; `keep`: it resets alone (R308). It releases its fence, and what was under way to it is lost. -/
def State.resetPlate (s : State) (p : Plate) (fenced keep : Bool) : State :=
  let s := ((s.cutGroups p).dropFence p).setLinkUp p false
  let s := if (s.pl p).tmp.drill then s.endDrill p else s
  let s := if keep then s.saveWindows p else s
  let s := s.upd p fun x => x.afterReset s.clock .reset fenced keep
  (s.dropGut p).refreshOut p

/-- Plate `p` enters reset, with the record of Table 15.9. The record of a PERST# reset was taken when it began (R362). -/
def State.enterReset (s : State) (p : Plate) (detail : Nat) (fenced keep : Bool) : State :=
  (if (s.pl p).flt.perst then s else s.record p 0x0002 0 (BitVec.ofNat 32 (s.resetDetail p detail))).resetPlate p fenced keep

/-- The reset of a makeready, which is none of the causes that the record 0x0002 names. -/
def State.enterPlannedReset (s : State) (p : Plate) : State := s.resetPlate p false false

/-! ## The reset token (R235) -/

/-- Whether plate `p` is to reset for a makeready that its peer runs (Table 9.10 step 4). -/
def State.makereadyReset (s : State) (p : Plate) : Bool :=
  ((s.pl p.peer).pr.makeready.map Makeready.step) == some 4

/-- Whether plate `p` waits for the token: at step 2 of Table 13.2, its sequencer resets the plate (R234), or it is to boot
new images. -/
def State.needsToken (s : State) (p : Plate) : Bool :=
  (s.pl p).flt.react == .waitToken || (s.pl p).pr.seqSt == .plateReset || s.makereadyReset p

/-- The state word of the witness line (Table 9.3). -/
def Mode.witness : Mode → Nat
  | .paired => 1
  | .partition => 2
  | .sole => 3
  | .resync => 4
  | .leaving => 5
  | .yielded => 6

/-- Where a plate's beat and state stand in the witness line. -/
def State.beatAddr (s : State) (p : Plate) : DWord := (s.pl p).pr.witAddr + (if p = .a then 8 else 16)

/-- WIT_CFG.ENABLE. -/
def Pair.witOn (r : Pair) : Bool := r.witCfg.getLsbD 31
/-- WIT_CFG.ATOMIC. -/
def Pair.atomic (r : Pair) : Bool := r.witCfg.getLsbD 0
/-- Automatic takeover and CompareAndSwap are possible (Table 9.6 step 2). -/
def Pair.cas (r : Pair) : Bool := r.witOn && r.atomic

/-- One 8-byte write of beat and state (R217, R220). -/
def State.writeBeat (s : State) (p : Plate) (state : Nat) : State :=
  if (s.pl p).pr.witOn then
    s.emit (.write p none (s.beatAddr p) (leBytes 4 (s.pl p).pr.beat.toNat ++ leBytes 4 state) false)
  else s

/-- Plate `p` no longer works on its jobs: what it has fetched gets no record from it. -/
def State.stopJobs (s : State) (p : Plate) : State :=
  s.updSl p fun x => { x with jobs := [], resume := [], selected := none, reads := [], progress := [] }

/-- Step 3 of Table 13.2: isolation. A takeover that had not fenced the peer ends (R218). -/
def State.isolate (s : State) (p : Plate) : State :=
  let s := ((s.writeBeat p 5).stopJobs p).updFlt p fun f => { f with react := .isolated, isoAt := s.clock }
  (s.send p .leave).updPr p fun r => { r with mode := .leaving, takeover := none }

/-- Plate `p`, holding the token, carries out what it asked it for: the sequencer's reset (R234), isolation, a reset alone,
or it waits for a peer in RESYNC (Table 13.2 step 2, R308), or for one that is in reset (R235). -/
def State.useToken (s : State) (p : Plate) : State :=
  let q := s.pl p.peer
  if !(s.pl p).pr.token || !s.needsToken p || q.pow.phase == .reset then s
  else if (s.pl p).pr.seqSt = .plateReset then
    let s := s.updPr p fun r => { r with seqResets := satAdd 8 r.seqResets 1 }
    (s.send p .leave).enterReset p 3 false true
  else if s.makereadyReset p then
    let s := s.updPr p.peer fun r => { r with
      makeready := r.makeready.map fun k => { k with step := 5, since := s.clock } }
    s.enterPlannedReset p
  else if s.peerInService p then s.isolate p
  else if q.pow.phase = .running ∧ q.pr.mode = .resync then s
  else s.enterReset p 1 false true

/-- Plate `p` asks for the token; one that holds its peer fenced releases the fence first (R235). -/
def State.askToken (s : State) (p : Plate) : State :=
  let s := s.dropFence p
  if (s.pl p).pr.token then s.useToken p
  else (s.updPr p fun r => { r with asking := true }).send p .askToken

/-- Plate `p` passes the token across the gutter. -/
def State.passToken (s : State) (p : Plate) : State :=
  if s.gutterUp p then
    (s.updPr p fun r => { r with token := false, peerAsks := false, resetHeld := false }).send p .token
  else s

/-- Whether the holder is to pass the token (R235): after its own reset once it has reported PAIRED, RESYNC or SOLE, or 3 s have
passed since it left reset; without one, where its peer has asked for it and it does not ask for it itself any longer. -/
def State.tokenDue (s : State) (p : Plate) : Bool :=
  let x := s.pl p
  x.pow.phase == .running && x.pr.token && !s.needsToken p &&
  (if x.pr.resetHeld then
    (x.pr.met && (x.pr.mode == .paired || x.pr.mode == .resync || x.pr.mode == .sole)) || s.past x.pr.leftReset 3000000
   else x.pr.peerAsks)

/-- The class C reaction of plate `p` begins at step 2 of Table 13.2, unless knockout governs (R303) or it has begun. -/
def State.classC (s : State) (p : Plate) : State :=
  if (s.pl p).tmp.ko || (s.pl p).flt.react != .none || !s.up p then s
  else (s.updFlt p fun f => { f with react := .waitToken, graceAt := none, graceC := false }).askToken p

/-- TOKEN_REQUEST_RECV (R235): the holder passes the token on, unless it asks for it itself or holds it through its own
reset. -/
def execTokenRequestRecv (p : Plate) (s : State) : Host.Outcome State Fault Refusal :=
  match s.receive p (fun m => match m with
    | .askToken => some ()
    | _ => none) with
  | some (_, s) =>
    .next (if (s.pl p).pr.token && !s.needsToken p && !(s.pl p).pr.resetHeld then s.passToken p
      else s.updPr p fun r => { r with peerAsks := true })
  | none => .next s

/-- TOKEN_RECEIVED (R235): a waiting reset or class C reaction proceeds. -/
def execTokenReceived (p : Plate) (s : State) : Host.Outcome State Fault Refusal :=
  match s.receive p (fun m => match m with
    | .token => some ()
    | _ => none) with
  | some (_, s) => .next ((s.updPr p fun r => { r with token := true, asking := false, resetHeld := false }).useToken p)
  | none => .next s

/-- TOKEN_PASS_TIMEOUT (R235): the holder passes the token that it owes its peer. -/
def execTokenPassTimeout (p : Plate) (s : State) : Host.Outcome State Fault Refusal :=
  .next (if s.tokenDue p then s.passToken p else s)

/-- ISOLATION_TIMEOUT (R308): isolated for 1 s without being fenced, the plate resets alone. -/
def execIsolationTimeout (p : Plate) (s : State) : Host.Outcome State Fault Refusal :=
  .next (if (s.pl p).flt.react == .isolated && s.up p && (s.pl p.peer).pow.phase != .reset &&
      s.past (s.pl p).flt.isoAt 1000000 then
    s.enterReset p 1 false true else s)

end Sys2Proof.Machine
end

