-- ==== Sys2Proof/Machine/Resolve.lean ====
section
/-! DEFINITION. Resolving rings from in-flight windows and the journal, at a takeover and after a reset alone (09 R225; 07
R189; 02 R52, R58). -/

namespace Sys2Proof.Machine

/-! ## Commits of a survivor that take effect at once -/

/-- Items that plate `p` commits alone within the step (Table 9.6 step 5): a commit sequence, and its own NVM. -/
def State.commitNow (s : State) (p : Plate) (items : List VItem) : State :=
  if items.isEmpty then s
  else
    let q := commitSeq p ((s.pl p).vlt.counter + 1)
    (s.updVlt p fun v => { v with counter := v.counter + 1 }).applyItems p false q (items.map (VItem.stamp q))

/-- The items of the slices of `f` that stand in ERASING on plate `p`, overwritten as step 6 of Table 7.10 does. -/
def State.erasingLeft (s : State) (p : Plate) (f : Nat → Bool) : List VItem :=
  (((s.pl p).vlt.slots.filter fun e => e.2.st == .erasing && f (e.1 / 32)).map fun e => VItem.slot e.1 {}) ++
  (((s.pl p).vlt.ledger.filter fun e => e.2.st == .erasing && f e.2.slice).map fun e =>
    VItem.ledger e.1 { gen := e.2.gen })

/-- Erasures whose ERASING has committed are finished, short of NO_WRITE (R189). -/
def State.finishErasing (s : State) (p : Plate) (f : Nat → Bool) : State :=
  if (s.pl p).nvm.noWrite then s else s.commitNow p (s.erasingLeft p f)

/-! ## The journal's outcome of a descriptor -/

/-- The latest journal entry of plate `p` for a descriptor; on an admin ring those that plate `by_` committed (R211). -/
def State.journalFor (s : State) (p : Plate) (q : RingRef) (i : Word) (by_ : Plate) : Option Journal :=
  let slice := (ringSlice q).getD 0
  (s.pl p).vlt.journal.reverse.find? fun e =>
    e.ring == journalRing q && e.index == i && e.slice == slice && (q != .admin || e.seq % 2 == by_.num)

/-- The public part that output 1 asks for: of the key now in the slot that the descriptor names. -/
def State.publicAgain (s : State) (p : Plate) (i : Nat) (d : Desc) : Bytes :=
  match parseKref d.keyRef with
  | .slot n =>
    let v := s.slotAt p i n
    if isAsym v.alg then fit (publicLen v.alg) (Config.pkPublic v.alg v.material) else []
  | _ => []

/-- Work units of a job that the journal completes (R76): a KEY_GENERATE's attempts stand in its info; a KEY_IMPORT's message is
not read again, so its signature algorithm is the slice record's (log 68). -/
def State.journalWork (s : State) (p : Plate) (i : Nat) (e : Journal) (d : Desc) : Nat :=
  if d.op = 0x30 then e.info.toNat * laneD1 0x30 d.al
  else if d.op = 0x31 then
    let a := ((s.pl p).vlt.recs.get {} i).impAlg
    signCost a + msgAddOn (d.inLen.toNat - signatureLen a) + 112
  else 0

/-- The completion that a journal entry carries (R225): a public part is computed again; a slug cannot be, so its ledger
entry becomes FREE and the job is lost; an erasure in NO_WRITE ends with VAULT_RO (R189). -/
def State.journalResult (s : State) (p : Plate) (i : Nat) (e : Journal) (d : Option Desc) : State × Result :=
  let r : Result := { status := e.status, info := e.info, info2 := e.info2 }
  if e.output = 2 then
    let k := e.info2.toNat
    (s.commitNow p [.ledger k { gen := (s.ledgerAt p k).gen }], { status := .plateLost })
  else match d with
    | some d =>
      let r := { r with work := s.journalWork p i e d }
      if d.op = 0x32 ∧ (s.pl p).nvm.noWrite then (s, { status := .vaultRo })
      else if e.output = 1 then
        let pub := s.publicAgain p i d
        (s, { r with outLen := pub.length, writes := [(d.outAddr, pub)] })
      else (s, r)
    | none => (s, r)

/-! ## One ring (R225) -/

/-- The descriptor of index `i` as the scan found it. -/
def scanDesc (x : RingScan) (i : Word) : Option Desc :=
  (x.descs.find? fun e => e.1 == i).map fun e => decodeDesc (fit 64 e.2)

/-- The records that the scan found for descriptors, each with its count: a RING_FAULT record takes its count and names no
descriptor (Table 2.8). -/
def scanFound (x : RingScan) (nLow : Word) : List (Word × Word) :=
  (x.posted.zip ((List.range x.posted.length).map fun k => nLow + BitVec.ofNat 32 k)).filterMap fun e =>
    e.1.map fun i => (i, e.2)

/-- Whether the scan found a record for descriptor `i`. -/
def scanHas (x : RingScan) (i : Word) : Bool := x.posted.contains (some i)

/-- A slug that cannot be reproduced, while the plate does not commit alone: its ledger entry becomes FREE by a dual commit, and
PLATE_LOST is posted once it has taken effect (R210, R225). -/
def State.slugLost (s : State) (p : Plate) (q : RingRef) (i : Word) (d : Option Desc) (by_ : Plate) (k : Nat) : State :=
  let j : Job := { ring := q, index := i, desc := d.getD {}, fetchedBy := by_ }
  let r : Result := { status := .plateLost }
  (s.updSl p fun x => { x with jobs := x.jobs ++ [j] }).commitJob p j [.ledger k { gen := (s.ledgerAt p k).gen }] r 0
    (.finish q i r)

/-- Descriptor `i`, which has no record: the journal's completion, or PLATE_LOST where it had been fetched. Its descriptor is read
for its cookie. -/
def State.resolveOne (s : State) (p : Plate) (q : RingRef) (x : RingScan) (by_ : Plate) (i : Word)
    (fetched moved : Bool) : State :=
  let d := scanDesc x i
  let read (s : State) : State := s.readUnder p q ((s.ring p q).sqEntry i) 64
  match s.journalFor p q i by_ with
  | some e =>
    let s := read s
    if e.output = 2 && !s.commitsAlone p then s.slugLost p q i d by_ e.info2.toNat
    else
    let (s, r) := s.journalResult p ((ringSlice q).getD 0) e d
    s.post p q i d r false moved true
  | none => if fetched then (read s).post p q i d { status := .plateLost } false moved true else s

/-- Why the producer index read is refused: the reason of R36, and the index (F where it could not be read, R48). -/
def badP (size : Nat) (low f : Word) : Option Word → Option (Nat × Word)
  | none => some (3, f)
  | some v => if size < dist v low then some (1, v) else if size < dist v f then some (2, v) else none

/-- A ring at the start of its resolution: the records found are posted, and L advances over them. -/
def Ring.scanned (g : Ring) (w : Window) (x : RingScan) : Ring :=
  let found := (scanFound x w.nLow).filter fun e => decide (dist e.1 w.low < 2 ^ 31)
  let (low, posted) := advanceLow (found.length + 1) w.low found
  { g with
    low := low, posted := posted, count := w.nLow + BitVec.ofNat 32 x.posted.length, fetched := w.fetched
    peerF := none, prod := w.fetched, fence := none, irqCount := 0, irqSince := none, active := true, draining := !g.enabled
    clrFault := false, clrBad := false }

/-- The completion records that plate `p` reads from n_low on, the first that does not match the phase included (R225). -/
def State.readRecords (s : State) (p : Plate) (q : RingRef) (w : Window) (x : RingScan) : State :=
  s.each (List.range (x.posted.length + 1)) fun s k =>
    s.readUnder p q ((s.ring p q).cqEntry (w.nLow + BitVec.ofNat 32 k)) 32

/-- Plate `p` resolves one ring from window `w` and what it read in host memory (R225). `by_`: the plate that failed. -/
def State.resolveRing (s : State) (p : Plate) (q : RingRef) (w : Window) (x : RingScan) (by_ : Plate) (moved : Bool) :
    State :=
  let s := (s.readRecords p q w x).updRing p q fun g => g.scanned w x
  let g := s.ring p q
  let bad := badP g.size g.low w.fetched x.p
  let bound := if bad.isSome then w.fetched else x.p.getD w.fetched
  let s := s.each (List.range (dist bound w.low)) fun s k =>
    let i := w.low + BitVec.ofNat 32 k
    if scanHas x i then s
    else s.resolveOne p q x by_ i (decide (dist i w.low < dist w.fetched w.low)) moved
  let low := (s.ring p q).low
  let f := if dist low w.low < dist w.fetched w.low then w.fetched else low
  let f := s.nextFetch p q bound (dist bound f) f
  let s := s.updRing p q fun g => { g with prod := bound, fetched := f }
  match bad with
  | some (reason, v) => s.ringFault p q reason v
  | none => s.issueFetch p q

/-- The CANCELs kept for a ring arm where they still lie above L, the highest of them in the end (R49, R52). One that L has
passed, or that R49 would not arm, is dropped. -/
def State.armKept (s : State) (p : Plate) (i r : Nat) : State :=
  let kept := (s.pl p).sl.cancels.get [] (ringKey i r)
  let s := s.updSl p fun x => { x with cancels := x.cancels.set [] (ringKey i r) [] }
  s.each kept fun s f =>
    let g := s.ring p (.tenant i r)
    if dist f g.low ≤ g.size then s.arm p (.tenant i r) f else s

/-- Plate `p` reads the doorbell line of slice `i` once, resolves every ring that its windows or its set-up show in service, and
writes the progress line. -/
def State.resolveSlice (s : State) (p : Plate) (i : Nat) (wins : Tab Window) (scans : List RingScan) (by_ : Plate)
    (moved : Bool) : State :=
  let s := s.readUnder p (.tenant i 0) ((s.pl p).sl.regs.get {} i).db 64
  let s := s.each (List.range 16) fun s r =>
    let k := ringKey i r
    let q : RingRef := .tenant i r
    if (s.ring p q).enabled || wins.any (fun e => e.1 == k) then
      let x := (scans.find? fun x => x.slice == i && x.ring == r).getD { slice := i, ring := r, posted := [], p := none, descs := [] }
      (s.resolveRing p q (wins.get {} k) x by_ moved).armKept p i r
    else s
  s.writeProgress p i

/-- A scan of the admin ring. -/
def adminScan (scans : List RingScan) : RingScan :=
  (scans.find? fun x => x.slice == 4096).getD { slice := 4096, ring := 0, posted := [], p := none, descs := [] }

end Sys2Proof.Machine
end

