-- ==== Sys2Proof/Machine/Wear.lean ====
section
/-! DEFINITION. Page programs that fail, retired pages and wear states (15 R338, R340, R341, Table 15.5). -/

namespace Sys2Proof.Machine

/-! ## Wear (R338, R340, Table 15.5) -/

/-- The number of a partition's first page in the bad-page table: 0 vault, 1 log, 2 firmware (Table 15.1). -/
def partBase (part : Nat) : Nat := if part = 0 then 0 else if part = 1 then 393216 else 524288

/-- Physical page `x` of a partition, as PAGE_RETIRED numbers the partitions, is lost and its bit set in the bad-page table. Pages of the
log and of the firmware are replaced from the log spares. -/
def Nvm.losePage (n : Nvm) (part x : Nat) : Nvm :=
  let n := { n with bad := n.bad ++ [partBase part + x] }
  if part = 0 then { n with retVault := satAdd 16 n.retVault 1, free := n.free - 1 }
  else { n with retLog := satAdd 16 n.retLog 1, spares := n.spares - 1 }

/-- Page `x` of a partition failed its program or its read-back, or has reached its last cycle: it is retired for good, its bit goes
into the bad-page table by a one-page group unless every write is refused, and a record is written (R338, Table 15.5). -/
def State.retirePage (s : State) (p : Plate) (part x : Nat) : State :=
  let s := s.updNvm p fun n => n.losePage part x
  let s := if (s.pl p).nvm.noWrite then s else s.startGroup p { pages := [badPageLpn (partBase part + x)], kind := .badPage }
  s.record p 0x0300 5 (BitVec.ofNat 32 (part * 2 ^ 28 + x))

/-- A new wear state of plate `p`'s vault, with its record; the peer is told (R341). -/
def State.setWear (s : State) (p : Plate) (state trigger : Nat) : State :=
  let s := s.updNvm p fun n => { n with state := state }
  let s := if trigger = 0x0301 then s.raise p 14 else s
  (s.record p trigger 5 (BitVec.ofNat 32 (s.pl p).nvm.free)).send p (.wear state)

/-- Table 15.5, after the free pool has shrunk from `was`. -/
def State.wearNext (s : State) (p : Plate) (was : Nat) : State :=
  let n := (s.pl p).nvm
  let s := if n.state = 0 ∧ (n.free < 12288 ∨ n.spares < 1024) then s.setWear p 1 0x0301
    else if n.state = 1 ∧ n.free < 4915 ∧ 4915 ≤ was then s.setWear p 1 0x0301 else s
  let s := if (s.pl p).nvm.state ≤ 1 ∧ n.free ≤ 64 then s.setWear p 2 0x0302 else s
  if (s.pl p).nvm.state = 2 ∧ n.free = 0 then s.setWear p 3 0x0303 else s

/-- A program that took `k` pulses is noted (NVM_WEAR_MARGIN). -/
def Nvm.notePulses (n : Nvm) (k now : Nat) : Nvm :=
  { n with
    pulses := (n.pulses.filter fun e => decide (now < e.1 + 1000000)) ++ [(now, min k 8)]
    slow := if 4 ≤ k ∧ k ≤ 8 then satAdd 16 n.slow 1 else n.slow }

/-- A page of a partition is retired, with the wear state that follows. -/
def State.wearOut (s : State) (p : Plate) (part x : Nat) : State := (s.retirePage p part x).wearNext p (s.pl p).nvm.free

/-- A page of the vault is retired: its side area is programmed to zero, and it is never used again (R338). -/
def State.retireVault (s : State) (p : Plate) (x : Nat) : State :=
  (s.updNvm p fun n => n.updPage x fun v => { v with rec1 := none, rec2 := none, use_ := .retired }).wearOut p 0 x

/-- A page of the firmware partition is retired, the manual does not say which page a slot's write fails on. -/
def State.wearFirmware (s : State) (p : Plate) : State := (s.tick 1).wearOut p 2 (Config.freeNat s.free % 131072)

/-- Whether a program that took `k` pulses fails on a page: more than 8 pulses stand for one that has not verified or fails its
read-back; or the page has reached 10^6 cycles (R338). -/
def NvmPage.fails (v : NvmPage) (k : Nat) : Bool := decide (8 < k) || decide (1000000 ≤ v.cycles)

/-- The programs of a group's members (Table 15.4 step 2, R338): `pulses` gives for each program in turn the pulses it took, where they
are given. A page that fails is retired and the program repeated on another free page. Answers the pages that hold the members. -/
def State.programPages (s : State) (p : Plate) : Nat → List Nat → List Nat → State × List Nat
  | 0, _, l => (s, l)
  | _, _, [] => (s, [])
  | fuel + 1, pulses, x :: t =>
    let k := pulses.head?.getD 1
    let fails := ((s.pl p).nvm.page x).fails k
    let s := s.updNvm p fun n => (if pulses.isEmpty then n else n.notePulses k s.clock).updPage x fun v =>
      { v with cycles := v.cycles + 1 }
    if fails then
      let s := s.retireVault p x
      match (s.pl p).nvm.freePage false with
      | some y => (s.updNvm p fun n => n.updPage y fun v => { v with use_ := .taken }).programPages p fuel (pulses.drop 1) (y :: t)
      | none => (s, x :: t)
    else
      let r := s.programPages p fuel (pulses.drop 1) t
      (r.1, x :: r.2)

/-- The log without the page of the next position, which no spare replaces: its records are gone and its positions skipped
(R340). -/
def Nvm.loseLogPage (n : Nvm) : Nvm :=
  let k := n.nextPos / 2
  let n := { n with gone := n.gone ++ [k], log := n.log.filter fun e => e.1 / 2 != k }
  { n with nextPos := n.skip (2 * n.gone.length + 1) n.nextPos }

/-- The physical page of the log that holds record positions 2 `l` and 2 `l` + 1. -/
def Nvm.logPage (n : Nvm) (l : Nat) : Nat := (n.logMap.get none l).getD l

/-- The program of the next log position took `k` pulses: a page that did not verify, or has reached 10^6 cycles, is retired, and
replaced from the spares or skipped (R338, R340). -/
def State.logProgrammed (s : State) (p : Plate) (k : Nat) : State :=
  let n := (s.pl p).nvm
  let l := n.nextPos / 2
  let x := n.logPage l
  let s := s.updNvm p fun n => { n.notePulses k s.clock with logCycles := n.logCycles.mod 0 x (· + 1) }
  if 8 < k || 1000000 ≤ n.logCycles.get 0 x then
    let s := s.wearOut p 1 x
    if n.spares = 0 then (s.updNvm p Nvm.loseLogPage).fillLog p
    else s.updNvm p fun m => { m with logMap := m.logMap.set none l (some (131072 - n.spares)) }
  else s

end Sys2Proof.Machine
end

