-- ==== Sys2Proof/Machine/Takeover.lean ====
section
/-! DEFINITION. The witness line, the takeover, and the fence (09 R216 to R220, R224 to R226, R371, R375). -/

namespace Sys2Proof.Machine

/-! ## Triggers (R224, Table 9.4) -/

/-- Whether plate `p` homes every slice that is not FREE. -/
def State.homesAll (s : State) (p : Plate) : Bool :=
  (s.pl p).sl.impo.all fun e => e.2.st == .free || e.2.home == p

/-- The witness word: epoch, holder and reserved bytes (Table 9.3). -/
def witnessWord (epoch : Word) (holder : Nat) : DWord := BitVec.ofNat 64 (epoch.toNat + holder * 2 ^ 32)

/-- The holder byte that names plate `p` alone. -/
def holderOf (p : Plate) : Nat := p.num + 1

/-- The fence wires are asserted (Table 9.6 step 3). -/
def State.fence (s : State) (p : Plate) : State :=
  s.updPr p fun r => { r with
    fencing := true, takeover := r.takeover.map fun t => { t with st := .quiet, since := s.clock } }

/-- Step 2 of Table 9.6, or step 3 where it is skipped. A TAKEOVER command given while the sequence runs completes with
it. -/
def State.beginTakeover (s : State) (p : Plate) (index : Option Word) : State :=
  let r := (s.pl p).pr
  if !s.up p || (s.pl p).tmp.ko || r.mode == .yielded || r.mode == .leaving then s
  else match r.takeover with
    | some _ => s.updPr p fun r => { r with takeover := r.takeover.map fun t => { t with index := t.index <|> index } }
    | none =>
      let t := { st := .cas, since := s.clock, index := index, epoch := r.epoch, holder := r.holder }
      let s := s.updPr p fun r => { r with takeover := some t }
      if r.cas then s.emit (.cas p r.witAddr (witnessWord r.epoch r.holder.toNat) (witnessWord (r.epoch + 1) (holderOf p)))
      else s.fence p

/-- A trigger of Table 9.4 other than the command: it acts in PAIRED and PARTITION. -/
def State.triggerTakeover (s : State) (p : Plate) : State :=
  let m := (s.pl p).pr.mode
  if m == .paired || m == .partition then s.beginTakeover p none else s

/-- LEAVE_RECV (R220, Table 9.4). -/
def execLeaveRecv (p : Plate) (s : State) : Host.Outcome State Fault Refusal :=
  match s.receive p (fun m => match m with
    | .leave => some ()
    | _ => none) with
  | some (_, s) => .next (s.triggerTakeover p)
  | none => .next s

/-- A hardware admin command (R324) that waits to be carried out. -/
def State.hwAdmin (s : State) (r : JobRef) (op : Nat) : Option Job :=
  match s.jobAt r, r.ring with
  | some j, .admin => if j.stage == .queued && j.desc.op == op && s.mayWrite r.plate then some j else none
  | _, _ => none

/-- TAKEOVER (R224). DESIGN CHOICE (log 145): in PARTITION it begins although the peer is fresh: R224 says that it then runs
Table 9.6, and R222, that no takeover can begin while the peer stays fresh, is read of the triggers that are no command. -/
def execTakeover (r : JobRef) (s : State) : Host.Outcome State Fault Refusal :=
  let p := r.plate
  match s.hwAdmin r 0x90 with
  | some j =>
    .next (if s.gutterUp p && s.up p.peer && (s.pl p.peer).pr.mode == .paired then s.fail p j .range
      else if s.homesAll p && !s.peerInService p then s.finish p j {}
      else s.beginTakeover p (some r.index))
  | none => .next s

/-! ## The witness line (R217 to R219) -/

/-- WITNESS_BEAT (R217): every 1 ms beat and state are written as one 8-byte write, and the line is read. `written`: the write
succeeded. A plate in LEAVING writes nothing more and still reads (R218, R220). -/
def execWitnessBeat (p : Plate) (written : Bool) (s : State) : Host.Outcome State Fault Refusal :=
  let r := (s.pl p).pr
  .next (if !s.up p || !r.witOn || !s.past r.beatAt 1000 then s
    else if r.mode == .leaving then
      (s.updPr p fun r => { r with beatAt := s.clock }).issueRead p .admin .witness r.witAddr 64
    else
      let s := s.updPr p fun r => { r with beat := r.beat + 1, beatAt := s.clock, wrBad := !written }
      let s := s.writeBeat p r.mode.witness
      s.issueRead p .admin .witness r.witAddr 64)

/-- The plate yields (R218): it stops serving and writes state 6. -/
def State.yieldNow (s : State) (p : Plate) : State :=
  let s := s.updPr p fun r => { r with mode := .yielded, takeover := none }
  (s.stopJobs p).writeBeat p 6

/-- An interval in which the line could not be read. -/
def State.witnessFails (s : State) (p : Plate) : State :=
  s.updPr p fun r => { r with fails := r.fails + 1, wrBad := false }

/-- What a read of the line says of the peer: its beat, and its staleness counted afresh after WIT_ERR (R217, R219). -/
def Pair.seeBeat (r : Pair) (beat : Word) (now : Nat) : Pair :=
  let r := { r with readAt := now }
  if r.witErr || r.firstRead then
    { r with witErr := false, fails := 0, firstRead := false, peerBeat := beat, peerAt := now, stale := false }
  else if beat != r.peerBeat then { r with peerBeat := beat, peerAt := now, fresh := true, stale := false }
  else { r with fresh := r.fresh && decide (now ≤ r.peerAt + 20000) }

/-- A read of the line returned its 64 bytes (R217 to R220). -/
def State.witnessLine (s : State) (p : Plate) (b : Bytes) : State :=
  let r := (s.pl p).pr
  let epoch := BitVec.ofNat 32 (leAt b 0 4)
  let holder := leAt b 4 1
  let o := if p = .a then 0x10 else 0x08
  let leaving := leAt b (o + 4) 4 == 5
  let s := s.updPr p fun r =>
    let fails := if r.wrBad then r.fails + 1 else 0
    { r.seeBeat (BitVec.ofNat 32 (leAt b o 4)) s.clock with
      epoch := epoch, holder := BitVec.ofNat 8 holder, fails := fails, wrBad := false }
  if r.firstRead then s
  else if holder == holderOf p.peer && decide (r.epoch.toNat < epoch.toNat) then
    (if r.mode == .leaving then s.stopJobs p else s.yieldNow p)
  else if leaving && r.atomic then s.triggerTakeover p
  else s.updPr p fun r => { r with leavingSeen := leaving }

/-- WITNESS_READ (R217 to R220). -/
def execWitnessRead (p : Plate) (line : Dma) (s : State) : Host.Outcome State Fault Refusal :=
  .next (if !((s.pl p).sl.reads.any fun e => e.1 == .witness) then s
    else
      let s := s.retireRead p .witness
      match line with
      | .ok b => s.witnessLine p (fit 64 b)
      | .fault => s.witnessFails p)

/-- WITNESS_ERROR (R219): three intervals failed; until the line is read again the peer is treated as fresh. -/
def execWitnessError (p : Plate) (s : State) : Host.Outcome State Fault Refusal :=
  .next (if s.up p && (s.pl p).pr.witOn && decide (3 ≤ (s.pl p).pr.fails) && !(s.pl p).pr.witErr then
    (s.updPr p fun r => { r with witErr := true, fresh := true, stale := false }).raise p 8 else s)

/-- PEER_STALE (R217, R219, Table 9.4): the peer's beat has been unchanged for more than 20 ms of reads. -/
def execPeerStale (p : Plate) (s : State) : Host.Outcome State Fault Refusal :=
  let r := (s.pl p).pr
  .next (if s.up p && r.witOn && !r.firstRead && !r.witErr && !r.stale && decide (r.peerAt + 20000 < r.readAt) then
    let s := s.updPr p fun r => { r with stale := true, fresh := false }
    if r.atomic then s.triggerTakeover p else s
  else s)

/-- WITNESS_ENABLE (R218): WIT_CFG written with ENABLE going from 0 to 1. -/
def execWitnessEnable (p : Plate) (cfg : Word) (s : State) : Host.Outcome State Fault Refusal :=
  .next (if s.up p && (s.pl p).pow.ready && cfg.getLsbD 31 && !(s.pl p).pr.witOn then
    s.updPr p fun r => { r with witCfg := cfg &&& 0x80000001, firstRead := true, fails := 0, wrBad := false }
  else s)

/-! ## The survivor (Table 9.6) -/

/-- TAKEOVER_CAS_DONE (R224): the value the CompareAndSwap found; none where it did not complete, which ends the sequence
so that it may be tried again. -/
def execTakeoverCasDone (p : Plate) (old : Option DWord) (s : State) : Host.Outcome State Fault Refusal :=
  .next (match (s.pl p).pr.takeover, old with
    | some k, some v =>
      if !s.up p || (s.pl p).tmp.ko || k.st != .cas then s
      else if v == witnessWord k.epoch k.holder.toNat then
        (s.updPr p fun r => { r with epoch := k.epoch + 1, holder := BitVec.ofNat 8 (holderOf p) }).fence p
      else s.yieldNow p
    | some k, none =>
      if !s.up p || (s.pl p).tmp.ko || k.st != .cas then s else s.updPr p fun r => { r with takeover := none }
    | none, _ => s)

/-- Mirror writes that plate `p` received take effect now (R210: they count as committed). -/
def State.flushMirrors (s : State) (p : Plate) : State :=
  let n := (s.pl p).nvm
  (s.each ((n.groups ++ n.waiting).filter Group.isMirror) fun s g => s.applyGroup p true g).updNvm p fun n =>
    Nvm.promote { n with groups := n.groups.filter fun g => !g.isMirror, waiting := n.waiting.filter fun g => !g.isMirror } 4

/-- Whether a change of plate `p` waits for its peer or for the gutter (R371). -/
def State.isHeld (s : State) (p : Plate) (c : Change) : Bool :=
  let n := (s.pl p).nvm
  !c.acked && !((n.groups ++ n.waiting).any fun g => g.kind == .own c.id)

/-- A change of plate `p` commits on its own NVM. -/
def State.commitOwn (s : State) (p : Plate) (c : Change) : State :=
  s.startGroup p { kind := .own c.id, items := c.items, journal := c.journal, comSeq := c.seq }

/-- Held changes of plate `p` that `f` selects commit alone (R213, R371). -/
def State.commitHeld (s : State) (p : Plate) (f : Change → Bool) : State :=
  s.each ((s.pl p).vlt.changes.filter fun c => s.isHeld p c && f c) fun s c => s.commitOwn p c

/-- G of a ledger entry of a taken slice, raised past the partition margin (R223). -/
def Ledger.raised (e : Ledger) : Ledger :=
  { e with granted := max e.granted (min e.limit (e.pair + 4 * e.leaseSize)) }

/-- Slices that plate `p`'s table homes on its peer. -/
def State.peerSlices (s : State) (p : Plate) : List Nat :=
  ((s.pl p).sl.impo.filter fun e => e.2.st != .free && e.2.home == p.peer).map Prod.fst

/-- A slice's entry with its new home; a hand-over in progress ends where it stands. -/
def Impo.takenBy (e : Impo) (p : Plate) : Impo := { e with home := p, st := if e.st = .moving then .active else e.st }

/-- An item that a takeover by plate `p` finds on its way: an imposition entry keeps the new home (R59, R374). -/
def takenItem (p : Plate) : VItem → VItem
  | .impo k v => .impo k (if v.st == .free then v else v.takenBy p)
  | v => v

/-- What is on its way to plate `p`'s NVM, and what it holds, names the new home. -/
def State.takeItems (s : State) (p : Plate) : State :=
  let f (g : Group) : Group := { g with items := g.items.map (takenItem p) }
  (s.updVlt p fun v => { v with changes := v.changes.map fun c => { c with items := c.items.map (takenItem p) } }).updNvm p
    fun n => { n with groups := n.groups.map f, waiting := n.waiting.map f }

/-- Home changes: committed alone, or in NO_WRITE held in the table until the next reset (R341). -/
def State.takeHomes (s : State) (p : Plate) : State :=
  let l := (s.pl p).sl.impo.filter fun e => e.2.st != .free && (e.2.home == p.peer || e.2.st == .moving)
  let items := l.map fun e => VItem.impo e.1 (e.2.takenBy p)
  if (s.pl p).nvm.noWrite then
    (s.updSl p fun x => { x with
      oldImpo := l.foldl (fun t e => t.mod none e.1 fun o => o <|> some e.2) x.oldImpo }).applyItems p false 0 items
  else s.commitNow p items

/-- What a taken slice starts with on the survivor: buckets at 0, its DRBG instance to be reseeded, no handle and no lease
(R73, R94, R148, R200). -/
def State.freshSlice (s : State) (p : Plate) (i : Nat) : State :=
  let mine := ((s.pl p).vlt.ledger.filter fun e => e.2.slice == i).map Prod.fst
  ((s.updSl p fun x => { x with
    buckets := x.buckets.set {} i { atUs := s.clock }
    poll := x.poll.set {} i {} }).updVlt p fun v => { v with
    cache := v.cache.filter fun e => e.slice != i
    leases := v.leases.filter fun e => !mine.contains e.1 }).updInst p i fun d => { d with live := true, must := true }

/-- A slice command whose home or sequencer was lost goes on from a step whose commit is known: DRAINING has committed if the
table shows it, and the new home disables the rings (R374). -/
def SliceOp.carried (o : SliceOp) (st : SliceSt) : Option SliceOp :=
  if !o.destroy || st != .draining then none
  else some { o with step := if o.step ≤ 4 then 2 else if o.step ≤ 6 then 5 else 7 }

/-- The survivor sequences the peer's slice commands, and its own go on with the new home (R374). -/
def State.takeOps (s : State) (p : Plate) : State :=
  let theirs := (s.pl p.peer).sl.ops.filterMap fun e => (e.2.bind fun o => o.carried (s.impo p e.1).st).map fun o =>
    (e.1, o)
  let s := s.updSl p.peer fun x => { x with ops := [] }
  let s := s.updSl p fun x => { x with ops := x.ops.mapv none fun _ o => o.map fun o =>
    if o.destroy && (o.step == 3) then { o with step := 2 } else o }
  s.each theirs fun s e => s.updSl p fun x => { x with ops := x.ops.set none e.1 (some e.2) }

/-- The failed plate's admin ring as last mirrored: every submitted descriptor without a record gets the journal's
completion or PLATE_LOST (R58). -/
def State.takeAdmin (s : State) (p : Plate) (scans : List RingScan) : State :=
  match (s.pl p).pr.admWindow with
  | some (g, descs) =>
    let own := (s.pl p).sl.adm
    let x := adminScan scans
    let x := { x with descs := x.descs ++ descs.map fun e => (e.1, encodeDesc e.2) }
    let w := g.window
    let s := s.updRing p .admin fun _ => { g.scanned w x with prod := g.prod }
    let s := s.each (List.range (dist g.prod w.low)) fun s k =>
      let i := w.low + BitVec.ofNat 32 k
      if scanHas x i then s else s.resolveOne p .admin x p.peer i true true
    (s.updRing p .admin fun _ => own).updPr p fun r => { r with admWindow := none }
  | none => s

/-- Jobs of plate `p` that a hand-over had parked go on, and of the rings it serves every descriptor of [L, F) that was dropped
for the hand-over is fetched again (R33). -/
def State.unparkAll (s : State) (p : Plate) : State :=
  let s := s.updSl p fun x => { x with
    resume := x.resume ++ ((x.jobs.filter fun j => j.stage == .parked &&
      !(x.resume.any fun k => k.1 == j.ring && k.2 == j.index)).map fun j => (j.ring, j.index)) }
  s.each (s.pl p).sl.rings fun s e =>
    let q : RingRef := .tenant (e.1 / 16) (e.1 % 16)
    let g := s.ring p q
    let f := s.nextFetch p q g.prod (dist g.prod g.low) g.low
    if s.servesRing p q && g.active && dist f g.low < dist g.fetched g.low then
      (s.each (List.range (dist g.fetched f)) fun s k =>
        let i := f + BitVec.ofNat 32 k
        if s.settled p q i then s else s.issueRead p q (.descriptor q i) (g.sqEntry i) 64).updRing p q fun g =>
          { g with fetched := f }
    else s

/-- Steps 6 and 7 for the slices that the survivor can reach; of the others it keeps the windows (R225, R375). -/
def State.resolveTaken (s : State) (p : Plate) (l : List Nat) (scans : List RingScan) : State :=
  s.each (l.filter fun i => (s.pasid p i).isSome) fun s i =>
    (s.resolveSlice p i (s.pl p).pr.windows scans p.peer true).updPr p fun r => { r with
      windows := r.windows.filter fun e => e.1 / 16 != i }

/-- Erasures and rewrites that waited for a commit go on where they can (R189). -/
def State.drainAll (s : State) (p : Plate) : State :=
  s.each ((s.pl p).sl.jobs.filter fun j => j.stage == .draining) fun s j => s.drainNext p j

/-- Step 5 of Table 9.6: the survivor becomes home, commits alone and applies R223. -/
def State.becomeHome (s : State) (p : Plate) (l : List Nat) : State :=
  let s := s.flushMirrors p
  let s := if (s.gut p).contains .token then s.updPr p fun r => { r with token := true } else s
  let s := (s.setGut p []).dropGut p.peer
  let s := (s.takeItems p).takeHomes p
  let raise := ((s.pl p).vlt.ledger.filter fun e => e.2.st == .active && l.contains e.2.slice && e.2.raised != e.2).map
    fun e => VItem.ledger e.1 e.2.raised
  let s := if (s.pl p).nvm.noWrite then s else s.commitNow p raise
  let s := s.each l fun s i => s.freshSlice p i
  let s := s.finishErasing p fun i => l.contains i
  let s := s.updPr p fun r => { r with
    mode := .sole, takeovers := satAdd 16 r.takeovers 1, pending := [], stale := false, leavingSeen := false }
  ((((s.commitHeld p fun _ => true).drainAll p).unparkAll p).takeOps p)

/-- TAKEOVER_QUIET_END (Table 9.6 steps 4 to 7): the quiet period has passed with the peer held in reset. -/
def execTakeoverQuietEnd (p : Plate) (scans : List RingScan) (s : State) : Host.Outcome State Fault Refusal :=
  let r := (s.pl p).pr
  match r.takeover with
  | some t =>
    if t.st != .quiet || !s.past t.since 10000 || (s.pl p).tmp.ko || !s.up p || s.up p.peer then .next s
    else
      let l := s.peerSlices p
      let s := ((s.becomeHome p l).takeAdmin p scans).resolveTaken p l scans
      let s := s.record p 0x0511 9 (BitVec.ofNat 32 l.length)
      let s := s.updPr p fun r => { r with takeover := some { st := .hold, since := s.clock } }
      let s := match t.index.bind fun i => s.job? p .admin i with
        | some j => s.finish p j { info := 1 }
        | none => s
      .next s.sliceOpsNext
  | none => .next s

/-- FENCE_HOLD_END (R226): at least 10 ms after step 7 the survivor releases the fence. -/
def execFenceHoldEnd (p : Plate) (s : State) : Host.Outcome State Fault Refusal :=
  .next (match (s.pl p).pr.takeover with
  | some t =>
    if t.st == .hold && s.past t.since 10000 then (s.dropFence p).updPr p fun r => { r with takeover := none } else s
  | none => s)

/-- FENCE_ASSERTED (R216): the plate is held in reset; where both assert at once, Plate A's assertion prevails. -/
def execFenceAsserted (p : Plate) (s : State) : Host.Outcome State Fault Refusal :=
  let x := s.pl p
  .next (if !(s.pl p.peer).pr.fencing || x.pow.phase = .off || x.pow.fenced || (p == .a && x.pr.fencing) then s
    else if x.pow.phase = .reset then s.updPow p fun w => { w with fenced := true }
    else s.enterReset p 2 true false)

/-- FENCE_RELEASED (R226): the plate is let go; it boots as from power-up (POWER_UP). -/
def execFenceReleased (p : Plate) (s : State) : Host.Outcome State Fault Refusal :=
  .next (if (s.pl p).pow.fenced && !(s.pl p.peer).pr.fencing then
    s.updPow p fun w => { w with fenced := false, bootAt := s.clock } else s)

end Sys2Proof.Machine
end

