-- ==== Sys2Proof/Machine/Handover.lean ====
section
/-! DEFINITION. Planned hand-over, REBALANCE, and the steps of a makeready (09 R200, R227 to R230, R375; 02 R52, R56). -/

namespace Sys2Proof.Machine

/-! ## Step 1 (Table 9.9) -/

/-- Whether a hand-over of slice `i` by plate `o` may begin now: it is ACTIVE there, and no change of its entry is under way
(R59). -/
def State.mayMove (s : State) (o : Plate) (i : Nat) : Bool :=
  (s.impo o i).st == .active && (s.impo o i).home == o && !s.impoChanging i

/-- The home of slice `i` begins a hand-over: the state MOVING commits on both plates. Its journal entry names no descriptor (log
123). -/
def State.beginHandover (s : State) (o : Plate) (i : Nat) : State :=
  s.beginChange o [.impo i { s.impo o i with st := .moving }] (some { slice := i, ring := 0xFE }) (.moving i) false

/-- MOVING has committed: fetched descriptors that have not started are dropped without a record. -/
def State.dropUnstarted (s : State) (o : Plate) (i : Nat) : State :=
  s.each ((s.pl o).sl.jobs.filter fun j => ringSlice j.ring == some i && !j.started) fun s j =>
    s.dropJob o j.ring j.index

/-- The PASID of a slice on one plate's function. -/
def Impo.pasid (e : Impo) : Plate → Option (BitVec 20)
  | .a => e.pasidA
  | .b => e.pasidB

/-- The plate that REBALANCE names (param bit 0). -/
def rebalanceTo (d : Desc) : Plate := if d.param.toNat % 2 = 0 then .a else .b

/-- REBALANCE (R227): it waits, once taken, for step 5. In NO_WRITE it completes with VAULT_RO before step 1 (R341). -/
def execRebalance (r : JobRef) (s : State) : Host.Outcome State Fault Refusal :=
  let p := r.plate
  match s.hwAdmin r 0x91 with
  | some j =>
    let i := j.desc.fl 4 12
    let n := rebalanceTo j.desc
    let e := s.impo p i
    .next (if !s.gutterUp p then s.fail p j .partitioned
      else if e.st != .active || e.home == n || (e.pasid n).isNone || (s.pl p).pr.mode != .paired ||
          (s.pl p.peer).pr.mode != .paired then s.fail p j .range
      else if s.wear p = 3 then s.fail p j .vaultRo
      else if s.impoBusy then s
      else (s.updJobAt r fun j => { j with stage := .running }).beginHandover n.peer i)
  | none => .next s

/-! ## Steps 2 and 3 -/

/-- Whether a started job may be parked for the move: a lane job with more than 1 ms of justified time left whose raw work is
not done. One whose RSA result failed its check stays on its lane (R116). -/
def State.movable (s : State) (j : Job) : Bool :=
  j.cls == .lane && !j.critical && (j.stage == .parked || j.stage == .restart ||
    (j.stage == .started && !j.rawDone && !j.desc.noYield && decide (1000 < j.target - s.accrued j)))

/-- A job as it moves: parked, without its lane, and without an entry that stays behind. -/
def State.moveJob (s : State) (j : Job) (kept : List CacheEntry) : Job :=
  let keep (o : Option Nat) : Option Nat := o.bind fun pos => if kept.any fun e => e.pos == pos then some pos else none
  { s.pauseJob j with
    stage := if j.stage == .restart then .restart else .parked
    unit := none, toPark := false, wasParked := j.wasParked || j.stage == .started
    entry := keep j.entry, entry2 := keep j.entry2 }

/-- What step 3 sends of slice `i`: its rings, bucket levels, handle entries with their issue counts, its parked jobs, and the
windows kept for rings that were never resolved (R375). -/
def State.movedState (s : State) (o : Plate) (i : Nat) : Moved :=
  let x := s.pl o
  let kept := x.vlt.cache.filter fun e => e.slice == i && (e.handle.isSome || x.sl.jobs.any fun j => j.reservedEntry e)
  { slice := i
    rings := x.sl.rings.filter fun e => e.1 / 16 == i
    buckets := s.bucketsNow o i
    entries := kept
    seqs := x.vlt.seqs.filter fun e => e.1 / 2 ^ 20 == i
    jobs := (x.sl.jobs.filter fun j => ringSlice j.ring == some i).map fun j => s.moveJob j kept
    windows := x.pr.windows.filter fun e => e.1 / 16 == i }

/-- Parked jobs of a slice that an armed fence covers complete with CANCELLED (R50, R131). -/
def State.cancelParked (s : State) (p : Plate) (i : Nat) : State :=
  s.each ((s.pl p).sl.jobs.filter fun j => ringSlice j.ring == some i && j.stage == .parked) fun s j =>
    if (s.ring p j.ring).covers j.index then s.fail p j .cancelled else s

/-- HANDOVER_DRAIN_DONE (Table 9.9 steps 2 and 3): every job that had to finish has; the others are parked, which does not
count towards the limit of R128, those that an armed fence covers end with CANCELLED (R131), and the state is sent under the
mirror key. -/
def execHandoverDrainDone (o : Plate) (i : Nat) (s : State) : Host.Outcome State Fault Refusal :=
  let mine := (s.pl o).sl.jobs.filter fun j => ringSlice j.ring == some i
  .next (if (s.impo o i).st != .moving || (s.impo o i).home != o || !s.up o || (s.pl o).tmp.ko || !s.gutterUp o ||
      s.movedSent o.peer i || !(mine.all fun j => s.movable j) then s
    else
      let s := (s.updSl o fun x => { x with
        jobs := x.jobs.map fun j => if ringSlice j.ring == some i then
          { s.pauseJob j with
            stage := if j.stage == .restart then .restart else .parked
            unit := none, toPark := false, wasParked := j.wasParked || j.stage == .started }
          else j
        resume := x.resume.filter fun k => ringSlice k.1 != some i }).cancelParked o i
      s.send o (.moved (s.pl o).vlt.kr.mirror (s.movedState o i)))

/-! ## Steps 4 to 6 -/

/-- The journal entry of a home change: the completion of the REBALANCE on the new home's admin ring that asked for it; without
one, an entry that names no descriptor (log 123). -/
def State.rebalanceJournal (s : State) (n : Plate) (i : Nat) : Journal :=
  (((s.pl n).sl.jobs.find? fun j => j.ring == .admin && j.desc.op == 0x91 && j.stage == .running && j.desc.fl 4 12 == i).map
    fun j => jobJournal j {} 0).getD { slice := i, ring := 0xFE }

/-- HANDOVER_STATE_RECV (Table 9.9 step 5): the new home has the state and begins the home change on both plates. `scans`:
what it reads for rings that R375 left unresolved. -/
def execHandoverStateRecv (n : Plate) (i : Nat) (scans : List RingScan) (s : State) :
    Host.Outcome State Fault Refusal :=
  match s.receive n (fun m => match m with
    | .moved key m => if m.slice == i && s.opens n key then some m else none
    | _ => none) with
  | some (m, s) =>
    .next ((s.updPr n fun r => { r with pending := r.pending ++ [(i, { m with scans := scans })] }).beginChange n
      [.impo i { s.impo n i with home := n, st := .active }] (some (s.rebalanceJournal n i)) (.moved i) false)
  | none => .next s

/-- A moved ring on its new home: every descriptor of [L, F) without a record or a job is fetched again (step 6). Its set-up is
what the new home's registers hold, and a 1 written to RING_STATE meanwhile has its effect (R57). Descriptors below F were fetched by the old home (R56), unless `held`: then they wait to
be resolved (R375). -/
def State.placeRing (s : State) (n : Plate) (i r : Nat) (g : Ring) (held : Bool) : State :=
  let q : RingRef := .tenant i r
  let s := s.updRing n q fun own => { g with
    sq := own.sq, cq := own.cq, cfg := own.cfg, coal := own.coal, peerF := if held then none else some g.fetched
    faulted := g.faulted && !own.clrFault, cancelBad := g.cancelBad && !own.clrBad }
  let f := s.nextFetch n q g.prod (dist g.prod g.low) g.low
  let s := s.updRing n q fun g => { g with fetched := f }
  if (s.ring n q).faulted && !(s.ring n q).draining then s else s.issueFetch n q

/-- What the old home keeps of a slice that has left it: its set-up, and how often it issued each position (R146). -/
def State.leaveSlice (s : State) (o : Plate) (i : Nat) : State :=
  let mine := ((s.pl o).vlt.ledger.filter fun e => e.2.slice == i).map Prod.fst
  ((s.updSl o fun x => { x with
    jobs := x.jobs.filter fun j => ringSlice j.ring != some i
    rings := x.rings.mapv {} fun k g => if k / 16 == i then { sq := g.sq, cq := g.cq, cfg := g.cfg, coal := g.coal } else g
    poll := x.poll.set {} i {} }).updVlt o fun v => { v with
    cache := v.cache.filter fun e => e.slice != i
    leases := v.leases.filter fun e => !mine.contains e.1 }).updPr o fun r => { r with
    windows := r.windows.filter fun e => e.1 / 16 != i }

/-- A RING_CFG write that the new home's registers took while the ring moved takes effect on it: ENABLE cleared or set (R54, R55,
R57). -/
def State.ringChanged (s : State) (n : Plate) (i r : Nat) : State :=
  let q : RingRef := .tenant i r
  let g := s.ring n q
  if g.active && !g.draining && !g.enabled then s.disableRing n q
  else if g.enabled && !g.active then s.enableRing n q g.cfg
  else s

/-- The moved state installed on the new home, whose mirror of the old home's windows of the slice is spent: entries and issue counts at their positions, jobs ahead of any new start and in
windows of its own set, leases forfeited, the DRBG instance to be reseeded (Table 9.9 steps 4 and 6). -/
def State.arriveSlice (s : State) (n : Plate) (m : Moved) : State :=
  let i := m.slice
  let s := s.freshSlice n i
  let s := (s.updSl n fun x => { x with
    buckets := x.buckets.set {} i { m.buckets with atUs := s.clock }
    jobs := x.jobs ++ m.jobs.map fun j => { j with window := none }
    resume := x.resume ++ m.jobs.map fun j => (j.ring, j.index) }).updVlt n fun v => { v with
    cache := v.cache ++ m.entries.map (s.masked n)
    seqs := m.seqs.foldl (fun t e => t.mod 0 e.1 fun k => max k e.2) v.seqs }
  let s := s.updPr n fun r => { r with windows := r.windows.filter fun e => e.1 / 16 != i }
  let s := s.each (m.jobs.filter Job.holdsWindow) fun s j =>
    let w := s.pickWindow n i
    (s.fillWindow n w j.ring j.index).updJob n j.ring j.index fun j => { j with window := w }
  let s := s.each m.rings fun s e => s.placeRing n i (e.1 % 16) e.2 !m.windows.isEmpty
  (s.each (List.range 16) fun s r => s.ringChanged n i r).cancelParked n i

/-- Jobs of REBALANCE on slice `i` complete with OK after step 5. -/
def State.rebalanced (s : State) (i : Nat) : State :=
  s.each [.a, .b] fun s p =>
    match (s.pl p).sl.jobs.find? fun j => j.desc.op == 0x91 && j.stage == .running && j.desc.fl 4 12 == i with
    | some j => s.finish p j {}
    | none => s

/-! ## Makeready (Table 9.10) -/

/-- The two stored normal and secure images of a plate are exchanged. -/
def Mgmt.swapSlots (m : Mgmt) : Mgmt := { m with imgS := m.imgS2, imgN := m.imgN2, imgS2 := m.imgS, imgN2 := m.imgN }

/-- Whether both plates hold the same active images. -/
def State.sameImages (s : State) : Bool := s.pa.mgt.imgS == s.pb.mgt.imgS && s.pa.mgt.imgN == s.pb.mgt.imgN

/-- Step 7: the command completes on plate `x`; with OK the updated plate's minimum versions rise (R329), and mixed firmware
is timed from here (R230). Where the old images came back it completes with BUSY and info 3 (R229), and where a page of step 4
had no spare, with VAULT_RO (R340). -/
def State.makereadyEnd (s : State) (x : Plate) (k : Makeready) : State :=
  let s := s.updPr x fun r => { r with makeready := none }
  if k.short then
    match s.job? x .admin k.index with
    | some j => s.fail x j .vaultRo
    | none => s
  else
  let old := (s.pl x.peer).mgt.slotS || (s.pl x.peer).mgt.slotN
  let s := if !k.fell && old then s.updMgt x.peer fun m => { m.swapSlots with slotS := false, slotN := false } else s
  let k := { k with fell := k.fell || old }
  let s := if k.fell then s
    else s.updMgt x.peer fun m => { m with
      minS := max m.minS m.verS
      minN := if m.imgN.signer == Config.kelalmedKey then max m.minN m.verN else m.minN
      minOp := if m.imgN.signer == Config.kelalmedKey then m.minOp else max m.minOp m.verN }
  let same := s.sameImages
  let s := s.each [.a, .b] fun s p => s.updPr p fun r => { r with
    mixed := r.mixed && !same, mixedFrom := if same then none else some (r.mixedFrom.getD s.clock) }
  match s.job? x .admin k.index with
  | some j => s.finish x j (if k.fell then { status := .busy, info := 3 } else { info := 1 })
  | none => s

/-- The slices of a makeready that plate `o` still homes, and whose entries nothing else is changing, begin their hand-over. -/
def State.moveOut (s : State) (o : Plate) (l : List Nat) : State :=
  if (s.pl o).pr.mode != .paired || s.wear o == 3 then s
  else s.each l fun s i => if s.mayMove o i then s.beginHandover o i else s

/-- Step 6: what could not be handed back yet is, and step 7 follows. -/
def State.makereadyReturn (s : State) (x : Plate) (k : Makeready) : State :=
  let s := (s.updPr x fun r => { r with makeready := some k }).moveOut x k.slices
  let back := k.slices.filter fun i => (s.impo x i).home == x
  if (back.filter fun i => (s.impo x i).st != .free).isEmpty && !s.impoBusy then s.makereadyEnd x k else s

/-- Step 4: plate `y` writes the images to its makeready slots, retiring the pages that fail; false where no spare was left for
one, and the slots are torn (R337, R340). -/
def State.writeImages (s : State) (y : Plate) (k : Makeready) : State × Bool :=
  let spares := (s.pl y).nvm.spares
  if spares < k.bad then
    ((s.each (List.range (spares + 1)) fun s _ => s.wearFirmware y).updMgt y fun m => { m with imgS2 := {}, imgN2 := {} }, false)
  else
    ((s.each (List.range k.bad) fun s _ => s.wearFirmware y).updMgt y fun m => { m with imgS2 := k.imgS, imgN2 := k.imgN }, true)

/-- The makeready that plate `x` runs goes on where it can: at step 3 and step 6 what could not be handed over yet is; after step
3 the other plate writes the images and asks for the token, and plate `x` serves alone. Where they cannot be written the images in
service stay (R340), and the slices go back as at step 6. -/
def State.makereadyNext (s : State) (x : Plate) : State :=
  match (s.pl x).pr.makeready with
  | some k =>
    let y := x.peer
    if k.step = 3 then
      let s := s.moveOut y k.slices
      if s.homesAll x && !s.impoBusy && (s.pl y).pr.mode == .paired then
        match s.writeImages y k with
        | (s, true) =>
          let s := s.updPr x fun r => { r with mode := .sole, makeready := some { k with step := 4 } }
          ((s.updMgt y Mgmt.swapSlots).record x 0x0513 9 4).askToken y
        | (s, false) => (s.record x 0x0513 9 6).makereadyReturn x { k with step := 6, short := true }
      else s
    else if k.step = 6 then s.makereadyReturn x k
    else s
  | none => s

/-- The other plate has rejoined: the slices it homed at step 1 go back to it (step 6). -/
def State.makereadyBack (s : State) (x : Plate) : State :=
  match (s.pl x).pr.makeready with
  | some k =>
    if k.step == 5 then
      ((s.updPr x fun r => { r with makeready := some { k with step := 6 } }).record x 0x0513 9 6).makereadyNext x
    else s
  | none => s

/-- Step 5 of Table 9.9 has committed on the new home: it resumes the moved jobs, applies kept CANCELs, reads the doorbell
line, and resolves rings that R375 left; waiting commands go on. -/
def State.handedOver (s : State) (n : Plate) (i : Nat) : State :=
  match (s.pl n).pr.pending.find? fun e => e.1 == i with
  | some (_, m) =>
    let s := s.updPr n fun r => { r with pending := r.pending.filter fun e => e.1 != i }
    let s := (s.leaveSlice n.peer i).arriveSlice n m
    let s := if m.windows.isEmpty then s.each (List.range 16) fun s r => s.armKept n i r
      else s.resolveSlice n i m.windows m.scans n.peer true
    let s := (s.nudgeHome n i).record n 0x0512 9 1
    (((s.rebalanced i).sliceOpNext i).makereadyNext .a).makereadyNext .b
  | none => s

end Sys2Proof.Machine
end

