-- ==== Sys2Proof/Machine/Commit.lean ====
section
/-! DEFINITION. Dual commit: mirror writes, acknowledgements, finished NVM groups, and what follows a commit
(09 R210 to R213; 15 R333, R334). -/

namespace Sys2Proof.Machine

/-! ## What follows a commit (R210 step 4) -/

/-- Seals of plate `p` that wait for a lease of entry `k` (R96). -/
def State.waiters (s : State) (p : Plate) (k : Nat) : List Job :=
  (s.pl p).sl.jobs.filter fun j => j.stage == .waitLease && (j.key.bind Key.ledger) == some k

/-- A lease grant took effect: the range becomes drawable, and seals that waited for it can start (R93, R96). -/
def State.leaseGranted (s : State) (p : Plate) (k lo hi : Nat) : State :=
  let s := s.updVlt p fun v => { v with leases := v.leases.mod {} k fun l => l.grant lo hi }
  s.each (s.waiters p k) fun s j => s.updJob p j.ring j.index fun j => { j with stage := .ready }

/-- Seals of plate `p` that wait for a grant of entry `k` complete without starting (R96). -/
def State.failWaiters (s : State) (p : Plate) (k : Nat) (st : Status) : State :=
  let s := s.updVlt p fun v => { v with leases := v.leases.mod {} k fun l => { l with asking := false } }
  s.each (s.waiters p k) fun s j => s.fail p j st

/-- Seals of plate `p` that wait for a lease which nothing asks for any more, since their key's entry has changed, come to their
start step again (R96, R188). -/
def State.wakeWaiters (s : State) (p : Plate) : State :=
  let lost (j : Job) : Bool := j.stage == .waitLease && match j.key.bind Key.ledger with
    | some e => !((s.pl p).vlt.leases.get {} e).asking
    | none => true
  s.each ((s.pl p).sl.jobs.filter lost) fun s j => s.updJob p j.ring j.index fun j => { j with stage := .ready }

/-- An admin job completes. -/
def State.adminDone (s : State) (p : Plate) (i : Word) (r : Result) : State :=
  match s.job? p .admin i with
  | some j => s.finish p j r
  | none => s

/-- A job that waited for its commit has its outcome; a tenant's is posted by VAULT_JOB_DONE. -/
def State.jobDone (s : State) (p : Plate) (q : RingRef) (i : Word) (r : Result) : State :=
  match q with
  | .tenant _ _ => s.vaultDone p q i r
  | .admin => s.adminDone p i r

/-- A policy record is in force on the plates that hold it (R241, R265, R329): every open session of both plates ends, each Margin
link is configured afresh, and a changed op_key clears the minimum for operator-signed images. -/
def State.policyDone (s : State) (old : State) (p : Plate) : State :=
  ((s.endSessions .a).endSessions .b).each (s.holders p) fun s q =>
    let s := s.sendConfig q
    if (s.policy q).opKey == (old.policy q).opKey then s else s.updMgt q fun m => { m with minOp := 0 }

/-- What follows a change of plate `p` that has taken effect; `old` is the state before it did. -/
def State.runAfter (s : State) (old : State) (p : Plate) : After → State
  | .nothing => s
  | .finish q i r => s.jobDone p q i r
  | .lease k lo hi => s.leaseGranted p k lo hi
  | .erasing q i =>
    let s := (s.wakeWaiters p).updJob p q i fun j => { j with stage := .draining }
    match s.job? p q i with
    | some j => s.drainNext p j
    | none => s
  | .erased q i gen => s.eraseDone p q i gen
  | .rewritten q i slice slot r => (s.rewriteDone p q i slice slot r).wakeWaiters p
  | .destroyStep i n => ((s.destroyCommitted p i n).makereadyNext .a).makereadyNext .b
  | .created i idx =>
    (s.each (s.holders p) fun s q => s.openSlice q i).adminDone p idx { info := BitVec.ofNat 32 i }
  | .resized i => ((s.endOp p i { info := BitVec.ofNat 32 i }).makereadyNext .a).makereadyNext .b
  | .moving i => if (s.impo p i).st == .moving then s.dropUnstarted p i else s
  | .moved i => s.handedOver p i
  | .policy i r => (s.policyDone old p).adminDone p i r
  | .lifecycle i code r =>
    let s := s.lifecycleDone p code
    (s.each (s.holders p) fun s q => s.record q 0x0500 8 (code.setWidth 32)).adminDone p i r

/-! ## The later of two copies (Table 9.5), and what a comparison of them brings (R231, Table 9.11) -/

/-- The later slot: one whose tag passes, with the higher commit sequence. -/
def laterSlot (a b : Slot) : Slot :=
  if a.tagOk && !b.tagOk then a else if b.tagOk && !a.tagOk then b else if a.seq < b.seq then b else a

/-- The later slice record. -/
def laterRec (a b : SliceRec) : SliceRec :=
  if a.tagOk && !b.tagOk then a else if b.tagOk && !a.tagOk then b else if a.seq < b.seq then b else a

/-- The later imposition entry. -/
def laterImpo (a b : Impo) : Impo := if a.seq < b.seq then b else a

/-- A plate takes over an imposition entry, all but the group mask, which is not a key state: SLC_GROUPS has its own copy (R57,
R59). -/
def Impo.keepGroups (own v : Impo) : Impo := if own.st == .free || v.st == .free then v else { v with groups := own.groups }

/-- The later custody page. -/
def laterCustody (a b : CustodyPage) : CustodyPage :=
  if a.tagOk && !b.tagOk then a else if b.tagOk && !a.tagOk then b else if a.seq < b.seq then b else a

/-- The later lifecycle page; a missing one gives way. -/
def laterLc : Option LcPage → Option LcPage → Option LcPage
  | some a, some b =>
    some (if a.tagOk && !b.tagOk then a else if b.tagOk && !a.tagOk then b else if a.seq < b.seq then b else a)
  | none, b => b
  | a, none => a

/-- The custody and lifecycle pages taken over by plate `p`, each under its own tag where the copy passed. -/
def State.setPages (s : State) (p : Plate) (c : CustodyPage) (v : Option LcPage) : State :=
  let s := if c.tagOk then s.setCustody p c else s
  match v with
  | some v => if v.tagOk then s.setLcPage p v else s
  | none => s

/-- The place of a ledger state in the order ACTIVE, ERASING, FREE. -/
def VState.order : VState → Nat
  | .active => 0
  | .cont => 0
  | .erasing => 1
  | .free => 2

/-- The later ledger entry; its G is then the one committed on both plates. -/
def laterLedger (a b : Ledger) : Ledger :=
  let e := if a.gen.toNat < b.gen.toNat then b else if b.gen.toNat < a.gen.toNat then a
    else if a.st.order < b.st.order then b else if b.st.order < a.st.order then a
    else { a with granted := max a.granted b.granted }
  { e with pair := e.granted }

/-- An item whose tag fails on plate `p`; an imposition entry has none. -/
def State.spoil (s : State) (p : Plate) : PageRef → State
  | .slot i k => s.updVlt p fun v => { v with slots := v.slots.mod {} (slotKey i k) fun x => { x with tagOk := false } }
  | .ledger k => s.updVlt p fun v => { v with
      badPages := if v.badPages.contains (k / 16) then v.badPages else v.badPages ++ [k / 16] }
  | .record i => s.updVlt p fun v => { v with recs := v.recs.mod {} i fun x => { x with tagOk := false } }
  | .impo _ => s
  | .custody => s.updCus p fun c => { c with page := { c.page with tagOk := false } }
  | .lifecycle => (s.updCus p fun c => { c with lcPage := c.lcPage.map fun v => { v with tagOk := false } }).refreshOut p

/-- The later of two copies of an item, on both plates (Table 9.5). -/
def State.mergeItem (s : State) : PageRef → State
  | .slot i k =>
    let v := laterSlot (s.slotAt .a i k) (s.slotAt .b i k)
    s.each [.a, .b] fun s p => s.updVlt p fun x => { x with slots := x.slots.set {} (slotKey i k) v }
  | .ledger k =>
    let v := laterLedger (s.ledgerAt .a k) (s.ledgerAt .b k)
    let q := max (s.pa.vlt.pageSeq.get 0 (k / 16)) (s.pb.vlt.pageSeq.get 0 (k / 16))
    s.each [.a, .b] fun s p => s.updVlt p fun x => (x.raisePage (k / 16) q).setLedger (x.ledger.set {} k v)
  | .record i =>
    let v := laterRec (s.pa.vlt.recs.get {} i) (s.pb.vlt.recs.get {} i)
    s.each [.a, .b] fun s p => s.updVlt p fun x => { x with recs := x.recs.set {} i v }
  | .impo i =>
    let v := laterImpo (s.impo .a i) (s.impo .b i)
    s.each [.a, .b] fun s p => s.updSl p fun x => { x with impo := x.impo.set {} i ((x.impo.get {} i).keepGroups v) }
  | .custody =>
    let v := laterCustody s.pa.cus.page s.pb.cus.page
    s.each [.a, .b] fun s p => s.setPages p v none
  | .lifecycle =>
    let v := laterLc s.pa.cus.lcPage s.pb.cus.lcPage
    s.each [.a, .b] fun s p => ((match v with
      | some v => s.setLcPage p v
      | none => s).refreshOut p)

/-- Two copies that both pass and differ: the later is kept on both plates, counted and recorded on plate `p` (Table 9.11). -/
def State.reconcileItem (s : State) (p : Plate) (item : PageRef) : State :=
  let s := s.mergeItem item
  (s.updPr p fun r => { r with reconcile := satAdd 16 r.reconcile 1 }).record p 0x0312 6 (BitVec.ofNat 32 (itemLpn item))

/-- The plate whose copy of a page is the home copy: Plate A's where the page is not owned by one slice (Table 9.11). -/
def State.pageHome (s : State) (lpn : Nat) : Plate :=
  if lpn < 262144 then (s.impo .a (lpn / 64)).home
  else if 327680 ≤ lpn ∧ lpn < 331776 then (s.impo .a (lpn - 327680)).home
  else .a

/-- What of an item's copy on plate `p` the comparison sees: its used fields. -/
def State.usedFields (s : State) (p : Plate) (item : PageRef) : VItem :=
  match s.itemCopy p item with
  | .ledgerPage k l => .ledgerPage k (l.map fun e => { e with pair := 0 })
  | v => v

/-- Whether a change under way on plate `p` writes an item. -/
def State.changing (s : State) (p : Plate) (item : PageRef) : Bool :=
  (s.pl p).vlt.changes.any fun c => c.items.any fun v => match v, item with
    | .ledger k _, .ledger e => k / 16 == e / 16
    | v, i => v.heals i

/-- A read-repair of plate `p` compares the repaired page with the peer's (R231). -/
def State.compareRepaired (s : State) (p : Plate) (item : PageRef) : State :=
  if s.gutterUp p && (s.pl p).pr.mode == .paired && s.itemOk p item && s.itemOk p.peer item &&
      !s.changing p item && !s.changing p.peer item && s.usedFields p item != s.usedFields p.peer item then
    s.reconcileItem p item
  else s

/-! ## The commands -/

/-- A change of plate `p` by its number. -/
def State.change? (s : State) (p : Plate) (id : Nat) : Option Change := (s.pl p).vlt.changes.find? fun c => c.id == id

/-- The change that a group carries is done on plate `p`. -/
def State.ownDone (s : State) (old : State) (p : Plate) (id : Nat) : State :=
  match s.change? p id with
  | some c => (s.updVlt p fun v => { v with changes := v.changes.filter fun c => c.id != id }).runAfter old p c.after
  | none => s

/-- A group in progress is committed: it becomes current, waiting groups start, a mirror write is acknowledged
and the plate's own change takes effect. -/
def State.groupDone (s : State) (p : Plate) (g : Group) : State :=
  let both := match g.kind with
    | .mirror _ => true
    | .own id => ((s.change? p id).map Change.acked).getD false
    | _ => false
  let done := (s.applyGroup p both g).updNvm p fun n => Nvm.promote { n with groups := n.groups.filter fun h => h.seq != g.seq } 4
  match g.kind with
  | .mirror id => done.send p (.ack id)
  | .own id => done.ownDone s p id
  | .repair item => done.compareRepaired p item
  | .epoch => done.updVlt p fun v => { v with epochUp := true }
  | _ => done

/-- NVM_COMMIT_DONE (Table 15.4, R215, R338): a mirror write, or a group of the plate's own, finishes step 4. `pulses`: which
of the two it is, and the verify pulses of each page program it took, in turn. -/
def execNvmCommitDone (p : Plate) (pulses : GroupEnd) (s : State) : Host.Outcome State Fault Refusal :=
  match finishing pulses.mirror [] (s.pl p).nvm.groups with
  | some g => .next (if s.up p then
      let r := s.programPages p (pulses.pulses.length + g.taken.length) pulses.pulses g.taken
      r.1.groupDone p { g with taken := r.2 }
    else s)
  | none => .next s

/-- The ledger of plate `p` with every change under way up to `c` applied, `c` included. -/
def State.ledgerWith (s : State) (p : Plate) (c : Change) : Tab Ledger :=
  let put (t : Tab Ledger) : VItem → Tab Ledger
    | .ledger k v => t.set {} k v
    | _ => t
  let before := (s.pl p).vlt.changes.filter fun x => decide (x.id < c.id)
  c.items.foldl put (before.foldl (fun t x => x.items.foldl put t) (s.pl p).vlt.ledger)

/-- The page of a ledger entry's item whose copy on plate `p` fails its tag. -/
def State.badLedgerPage (s : State) (p : Plate) : VItem → Option Nat
  | .ledger e _ => if s.ledgerBad p e then some (e / 16) else none
  | _ => none

/-- A mirror write's items as the receiving plate commits them: the changed entries, or once the sender's whole page with the change
applied where the receiver's copy fails its tag (R212). -/
def State.mirrorItems (s : State) (p : Plate) (c : Change) : List VItem :=
  let t := s.ledgerWith p.peer c
  (c.items.filter fun v => (s.badLedgerPage p v).isNone) ++
    (c.items.filterMap (s.badLedgerPage p)).eraseDups.map fun k =>
      .ledgerPage k ((List.range 16).map fun n => t.get {} (16 * k + n))

/-- The read-repair of a ledger page is counted and recorded (R159, R212). -/
def State.notePage (s : State) (p : Plate) : VItem → State
  | .ledgerPage k _ =>
    (s.updVlt p fun x => { x with repaired := satAdd 16 x.repaired 1 }).record p 0x0310 6 (BitVec.ofNat 32 (262144 + k))
  | _ => s

/-- MIRROR_WRITE_RECV (R210 step 2, R211, R212): the peer's change is committed as one group. One that carries a root or the
identity seed waits until the plate can draw what it seals it with (R137, R203). -/
def execMirrorWriteRecv (p : Plate) (s : State) : Host.Outcome State Fault Refusal :=
  match s.receive p (fun m => match m with
    | .mirror key c => if s.opens p key then some c else none
    | _ => none) with
  | some (c, s') =>
    let n := itemDraws c.items
    .next (if !n.isEmpty && !s.canDraw p vaultInst n.length then s
      else
        let items := s'.mirrorItems p c
        let s := (s'.each items fun s i => s.notePage p i).prepare p c.items
        (s.updVlt p fun v => { v with counter := max v.counter (c.seq / 2) }).startGroup p
          { kind := .mirror c.id, items := items, journal := c.journal, comSeq := c.seq })
  | none => .next s

/-- MIRROR_ACK_RECV (R210 step 3): the home commits the same items to its own NVM. -/
def execMirrorAckRecv (p : Plate) (s : State) : Host.Outcome State Fault Refusal :=
  match s.receive p (fun m => match m with
    | .ack id => some id
    | _ => none) with
  | some (id, s) =>
    .next (match s.change? p id with
    | some c =>
      if c.acked then s
      else (s.updVlt p fun v => { v with
        changes := v.changes.map fun c => if c.id == id then { c with acked := true } else c }).commitOwn p c
    | none => s)
  | none => .next s

end Sys2Proof.Machine
end

