-- ==== Sys2Proof/Machine/Gutter.lean ====
section
/-! DEFINITION. Heartbeats, loss and return of the gutter, reconciliation, resync, scrub, and the comparisons between plates
(09 R214, R221 to R223, R231 to R233, R371, Tables 9.1, 9.4, 9.5, 9.11; 03 R67; 15 R341). -/

namespace Sys2Proof.Machine

/-! ## Heartbeats (R214) -/

/-- GUTTER_HEARTBEAT_SEND (R214): every 100 µs a heartbeat on each sub-link; one that was not received is replaced by the next. -/
def execGutterHeartbeatSend (p : Plate) (s : State) : Host.Outcome State Fault Refusal :=
  let isBeat (m : GMsg) : Bool := match m with
    | .beat _ => true
    | _ => false
  .next (if s.up p && s.past (s.pl p).pr.hbSent 100 then
    (s.updPr p fun r => { r with hbSent := s.clock }).setGut p.peer ((s.gut p.peer).filter (fun m => !isBeat m) ++ [.beat 0, .beat 1])
  else s)

/-- The last heartbeat on sub-link `k`. -/
def Pair.hbAt (r : Pair) (k : Nat) : Nat := if k = 0 then r.hbAt0 else r.hbAt1
/-- Heartbeats in succession on sub-link `k`. -/
def Pair.hbRun (r : Pair) (k : Nat) : Nat := if k = 0 then r.hbRun0 else r.hbRun1
/-- Whether sub-link `k` is up. -/
def Pair.linkUp (r : Pair) (k : Nat) : Bool := r.links.getLsbD k

/-- A heartbeat counted on sub-link `k` at `now`: intervals missed before it (PLT_GUTTER.MISSES), and its run. -/
def Pair.countBeat (r : Pair) (k now : Nat) : Pair :=
  let gap := now - r.hbAt k
  let run := if gap < 200 then r.hbRun k + 1 else 1
  let r := { r with met := true, misses := satAdd 16 r.misses (gap / 100 - 1) }
  if k = 0 then { r with hbAt0 := now, hbRun0 := run } else { r with hbAt1 := now, hbRun1 := run }

/-- Whether the two plates reconcile when the gutter joins them: both hold homes of their own (Table 9.4). -/
def State.bothHome (s : State) : Bool :=
  let m (p : Plate) : Mode := (s.pl p).pr.mode
  let home (x : Mode) : Bool := x == .partition || x == .sole
  home (m .a) && home (m .b)

/-- The gutter has returned to plate `p`: writes held for the peer go out in order (R57), the wear state and the epoch are
reported (R341, R67), an open request for the token is repeated, and a partition ends with reconciliation. -/
def State.gutterReturn (s : State) (p : Plate) : State :=
  let r := (s.pl p).pr
  let s := s.updPr p fun r => { r with lost := false, held := [], reconciling := r.mode == .partition || s.bothHome }
  let s := s.each r.held fun s h => s.send p (.copy h.1 h.2.1 h.2.2)
  let s := (s.send p (.wear (s.pl p).nvm.state)).send p (.epoch (s.pl p).vlt.epoch)
  if r.asking then s.send p .askToken else s

/-- GUTTER_HEARTBEAT_RECV (R214): a sub-link comes up after 10 heartbeats in succession in each direction. -/
def execGutterHeartbeatRecv (p : Plate) (link : Nat) (s : State) : Host.Outcome State Fault Refusal :=
  match s.receive p (fun m => match m with
    | .beat k => if k == link then some () else none
    | _ => none) with
  | some (_, s) =>
    .next (if !s.up p then s
      else
        let s := s.updPr p fun r => r.countBeat link s.clock
        let r := (s.pl p).pr
        if r.linkUp link || decide (r.hbRun link < 10) || decide ((s.pl p.peer).pr.hbRun link < 10) then s
        else
          let s := s.updPr p fun r => { r with links := r.links ||| BitVec.ofNat 2 (2 ^ link) }
          if r.lost then s.gutterReturn p else s)
  | none => .next s

/-- Whether sub-link `k` of plate `p` has carried no heartbeat for 1 ms. -/
def State.silent (s : State) (p : Plate) (k : Nat) : Bool := s.past ((s.pl p).pr.hbAt k) 1000

/-- A sub-link that goes down raises GUTTER_LINK. -/
def State.dropLink (s : State) (p : Plate) (k : Nat) : State :=
  if (s.pl p).pr.linkUp k then
    (s.updPr p fun r =>
      let r := { r with links := r.links &&& ~~~ BitVec.ofNat 2 (2 ^ k) }
      if k = 0 then { r with hbRun0 := 0 } else { r with hbRun1 := 0 }).raise p 4
  else s

/-- SUBLINK_DOWN (R214). -/
def execSublinkDown (p : Plate) (link : Nat) (s : State) : Host.Outcome State Fault Refusal :=
  .next (if s.up p && s.silent p link then s.dropLink p link else s)

/-! ## Loss of the gutter (Table 9.4, R222, R223, R371) -/

/-- Whether a held change is a lease grant within the partition margin of R223. -/
def State.marginGrant (s : State) (p : Plate) (c : Change) : Bool :=
  c.grant && match c.after with
    | .lease k _ hi =>
      let e := s.ledgerAt p k
      decide (hi ≤ min e.limit (e.pair + 4 * e.leaseSize))
    | _ => false

/-- The ledger entry that a held grant outside the margin is for. -/
def lateGrant (c : Change) : Option Nat :=
  match c.after with
  | .lease k _ _ => some k
  | _ => none

/-- Plate `p` enters PARTITION: margin grants commit alone, and seals that wait for another grant complete (R96, R371). -/
def State.enterPartition (s : State) (p : Plate) : State :=
  let n := ((s.pl p).sl.impo.filter fun e => e.2.st != .free && e.2.home == p).length
  let s := s.updPr p fun r => { r with mode := .partition, partitions := satAdd 16 r.partitions 1 }
  let late := (((s.pl p).vlt.changes.filter fun c => s.isHeld p c && !s.marginGrant p c)).filterMap lateGrant
  let s := s.commitHeld p (s.marginGrant p)
  let s := s.each late fun s k => s.failWaiters p k .partitioned
  s.record p 0x0510 9 (BitVec.ofNat 32 n)

/-- A plate whose peer is absent commits alone from now on (16, "A plate whose peer stays absent enters SOLE"). -/
def State.enterSole (s : State) (p : Plate) : State :=
  ((((s.updPr p fun r => { r with mode := .sole }).commitHeld p fun _ => true).drainAll p).updPow p fun w =>
    { w with serving := w.serving || w.ready }).sliceOpsNext

/-- What the loss of the gutter does to the relation (Table 9.4). -/
def State.onLost (s : State) (p : Plate) : State :=
  let r := (s.pl p).pr
  match r.mode with
  | .paired =>
    if !r.met then s.enterSole p
    else if r.takeover.isSome then s
    else if r.stale && r.cas then s.beginTakeover p none
    else s.enterPartition p
  | .resync => if r.rejoin then s else s.enterSole p
  | _ => s

/-- GUTTER_LOST (R214): both sub-links have been silent for 1 ms; messages under way to the plate are lost. A peer that waited with
the token while this plate was in RESYNC goes on when it is so no longer (R308). -/
def execGutterLost (p : Plate) (s : State) : Host.Outcome State Fault Refusal :=
  .next (if s.up p && !(s.pl p).pr.lost && s.silent p 0 && s.silent p 1 then
    let s := (s.dropLink p 0).dropLink p 1
    (((s.updPr p fun r => { r with lost := true }).dropGut p).onLost p).useToken p.peer
  else s)

/-! ## The mirror of in-flight windows (Table 9.1) -/

/-- INFLIGHT_MIRROR_COPY: the windows of the rings that the plate homes, and its admin ring with every submitted descriptor
that has no record, replace the peer's copy. -/
def execInflightMirrorCopy (p : Plate) (s : State) : Host.Outcome State Fault Refusal :=
  let x := (s.pl p).sl
  let mine (i : Nat) : Bool := (s.impo p i).st != .free && (s.impo p i).home == p
  .next (if s.up p && s.gutterUp p && s.up p.peer && !(s.pl p.peer).pr.lost then
    s.updPr p.peer fun r => { r with
      windows := (x.rings.filter fun e => mine (e.1 / 16) && e.2.active).foldl (fun t e => t.set {} e.1 e.2.window)
        (r.windows.filter fun e => !mine (e.1 / 16))
      admWindow := some (x.adm, (x.jobs.filter fun j => j.ring == .admin).map fun j => (j.index, j.desc)) }
  else s)

/-! ## Reconciling (Table 9.5) -/

/-- Two tables merged item by item. -/
def mergeTab {α : Type} [DecidableEq α] (d : α) (f : α → α → α) (a b : Tab α) : Tab α :=
  (a ++ b).foldl (fun t e => t.set d e.1 (f (a.get d e.1) (b.get d e.1))) []

/-- The ledger of plate `p` without the entries of pages that fail their tag. -/
def Vault.soundLedger (v : Vault) : Tab Ledger := v.ledger.filter fun e => !v.badPages.contains (e.1 / 16)

/-- Whether plate `p`'s root page is older than its peer's, or missing. -/
def State.rootBehind (s : State) (p : Plate) : Bool :=
  match (s.pl p).vlt.root, (s.pl p.peer).vlt.root with
  | some a, some b => decide (a.seq < b.seq)
  | none, some _ => true
  | _, none => false

/-- Whether both plates can draw for the transfer of a root or of the identity seed (R137, R203). -/
def State.canTransfer (s : State) : Bool := s.canDraw .a vaultInst dealDraws && s.canDraw .b vaultInst dealDraws

/-- A plate whose root page is behind takes its peer's root across the gutter, under a key agreed for it, and seals it under an
SBK of its own (R137); not while a plate is HALTED (R204). -/
def State.takeRoot (s : State) (p : Plate) : State :=
  if s.rootBehind p && (s.pl p.peer).vlt.keys && s.canTransfer then
    let k := (s.pl p.peer).vlt.kr
    let test := (s.pl p.peer).vlt.testRoot
    let s := s.agree.prepare p [.root k.drk k.salt test]
    let s := if (s.pl p).tmp.helper.isSome then s else s.enrol p
    (s.sealRoot p k.drk k.salt (((s.pl p.peer).vlt.root.map RootPage.seq).getD 0)).updVlt p fun v =>
      { v with mounted := true, testRoot := test }
  else s

/-- Changes of plate `p` that wait for the gutter. -/
def State.heldChanges (s : State) (p : Plate) : List Change := (s.pl p).vlt.changes.filter fun c => s.isHeld p c

/-- Whether the joining of the plates waits for random values: one of them is to take the other's root, or a held change carries
secrets, neither plate is HALTED, and their pools do not have the blocks (R203). -/
def State.rootWaits (s : State) : Bool :=
  let secret (p : Plate) : Bool := (s.heldChanges p).any fun c => !(itemDraws c.items).isEmpty
  ((s.rootBehind .a && s.pb.vlt.keys) || (s.rootBehind .b && s.pa.vlt.keys) || secret .a || secret .b) &&
    s.gives .a && s.gives .b && !s.canTransfer

/-- Both copies of everything the vaults mirror, merged. -/
def State.mergeVaults (s : State) : State :=
  let a := s.pa
  let b := s.pb
  let slots := mergeTab {} laterSlot a.vlt.slots b.vlt.slots
  let ledger := mergeTab {} laterLedger a.vlt.soundLedger b.vlt.soundLedger
  let recs := mergeTab {} laterRec a.vlt.recs b.vlt.recs
  let impo := mergeTab {} laterImpo a.sl.impo b.sl.impo
  let bad := a.vlt.badPages.filter fun k => b.vlt.badPages.contains k
  let page := laterCustody a.cus.page b.cus.page
  let lc := laterLc a.cus.lcPage b.cus.lcPage
  let seqs := mergeTab 0 max a.vlt.pageSeq b.vlt.pageSeq
  let marks := (a.vlt.exhausted ++ b.vlt.exhausted).eraseDups
  let s := (s.takeRoot .a).takeRoot .b
  s.each [.a, .b] fun s p =>
    let s := (s.updVlt p fun v => { v with
      slots := slots, ledger := ledger, recs := recs, badPages := bad, pageSeq := seqs
      counter := max a.vlt.counter b.vlt.counter, exhausted := marks }).updSl p fun x =>
      { x with impo := impo.mapv {} fun k v => (x.impo.get {} k).keepGroups v }
    let s := (s.setPages p page lc).refreshOut p
    if page.seq == (if p = .a then a else b).cus.page.seq then s else s.sendConfig p

/-- Whether an item of a change stands on plate `p` with the change's commit sequence. -/
def State.holdsItem (s : State) (p : Plate) (q : Nat) : VItem → Bool
  | .slot k _ => ((s.pl p).vlt.slots.get {} k).seq == q
  | .record k _ => ((s.pl p).vlt.recs.get {} k).seq == q
  | .impo k _ => (s.impo p k).seq == q
  | .custody _ => (s.pl p).cus.page.seq == q
  | .lifecycle _ => ((s.pl p).cus.lcPage.map LcPage.seq) == some q
  | .package _ _ _ _ _ | .root _ _ _ => ((s.pl p).vlt.root.map RootPage.seq) == some q
  | _ => false

/-- Whether the peer of `p` committed a change of `p` (R371). -/
def State.peerHas (s : State) (p : Plate) (c : Change) : Bool :=
  (c.journal.isSome && (s.pl p.peer).vlt.journal.any fun e => e.seq == c.seq) || c.items.any (s.holdsItem p.peer c.seq)

/-- A held change after reconciliation: committed at home too where the peer has it, else sent again (R371). -/
def State.resume (s : State) (p : Plate) (c : Change) (has : Bool) : State :=
  let s := s.updVlt p fun v => { v with
    changes := v.changes.map fun x => if x.id == c.id then { x with acked := has, sent := true } else x }
  if has then s.commitOwn p c else s.sendChange p c

/-- Both plates reconciled: PAIRED again, held changes decided, waiting steps resumed. -/
def State.reconcileBoth (s : State) : State :=
  let s := (s.flushMirrors .a).flushMirrors .b
  let heldA := (s.heldChanges .a).map fun c => (c, s.peerHas .a c)
  let heldB := (s.heldChanges .b).map fun c => (c, s.peerHas .b c)
  let s := s.mergeVaults
  let s := s.each [.a, .b] fun s p => s.updPr p fun r => { r with mode := .paired, reconciling := false }
  let s := s.each heldA fun s c => s.resume .a c.1 c.2
  let s := s.each heldB fun s c => s.resume .b c.1 c.2
  (((s.drainAll .a).drainAll .b).sliceOpsNext)

/-- Whether every change of plate `p` still waits for the gutter: none is on its way to its own NVM. -/
def State.quiet (s : State) (p : Plate) : Bool := (s.pl p).vlt.changes.all fun c => s.isHeld p c

/-- Whether both plates are up and see each other. -/
def State.joined (s : State) : Bool := s.up .a && s.up .b && s.gutterUp .a && s.gutterUp .b

/-- RECONCILE_DONE (Table 9.5): every item is reconciled, and key-state changes resume. -/
def execReconcileDone (p : Plate) (s : State) : Host.Outcome State Fault Refusal :=
  .next (if s.joined && (s.pl p).pr.reconciling && s.bothHome && s.quiet .a && s.quiet .b && !s.rootWaits then s.reconcileBoth else s)

/-! ## Rejoining (R221, R226) -/

/-- PEER_REJOIN (Table 9.4): a peer that returned homing nothing begins its resync. -/
def execPeerRejoin (p : Plate) (s : State) : Host.Outcome State Fault Refusal :=
  let q := (s.pl p.peer).pr
  .next (if s.joined && (s.pl p).pr.mode == .sole && q.mode == .resync && q.rejoin then
    s.updPr p fun r => { r with mode := .resync, rejoin := false } else s)

/-- A ring's set-up without its indices. -/
def Ring.setup (g : Ring) : Ring := { sq := g.sq, cq := g.cq, cfg := g.cfg, coal := g.coal }

/-- A slice made while plate `p` was away gets its DRBG instance there. -/
def State.missingInstances (s : State) (p : Plate) : State :=
  s.each ((s.pl p).sl.impo.filter fun e => e.2.st != .free && !((s.pl p).rng.inst.get {} e.1).live) fun s e =>
    s.newInstance p e.1

/-- One slot of the plate that resyncs its peer, beside the peer's own: the peer keeps its copy only where the other fails its
tag and its own passes. DEDUCED (log 143): R220 sends every item above the peer's highest sequence; the others are the same on
both plates, but for a copy that fails, which has no sequence to go by. -/
def sentSlot (a b : Slot) : Slot := if !a.tagOk && b.tagOk then b else a

/-- The same for a slice record. -/
def sentRec (a b : SliceRec) : SliceRec := if !a.tagOk && b.tagOk then b else a

/-- The same for the ledger, page by page: the entries of `a` but on pages that fail there and pass at the peer. -/
def sentLedger (a b : Vault) : Tab Ledger :=
  (a.soundLedger ++ b.soundLedger.filter fun e => a.badPages.contains (e.1 / 16)).mapv {} fun _ e => { e with pair := e.granted }

/-- Everything the serving plate `p` mirrors, sent to its peer by the end of resync (R220); both plates' counters then stand at
the highest value either has used (R211), and a policy that is new to the peer configures its Margin link afresh (R265). -/
def State.resyncCopy (s : State) (p : Plate) : State :=
  let x := s.pl p
  let y := s.pl p.peer
  let high := max x.vlt.counter y.vlt.counter
  let s := s.updVlt p fun v => { v with
    ledger := v.soundLedger.mapv {} fun _ e => { e with pair := e.granted }
    counter := high }
  let s := s.updVlt p.peer fun v => { v with
    slots := mergeTab {} sentSlot x.vlt.slots v.slots, recs := mergeTab {} sentRec x.vlt.recs v.recs
    ledger := sentLedger x.vlt v, badPages := x.vlt.badPages.filter fun k => v.badPages.contains k
    pageSeq := x.vlt.pageSeq, bad := [], journal := x.vlt.journal, exhausted := x.vlt.exhausted
    counter := high, migration := x.vlt.migration, hold := x.vlt.hold, savedWin := [] }
  let s := s.updSl p.peer fun y => { y with
    impo := x.sl.impo, regs := x.sl.regs, rings := x.sl.rings.mapv {} fun _ g => g.setup }
  let s := s.takeRoot p.peer
  let was := (s.pl p.peer).cus.page.seq
  let s := ((s.setPages p.peer x.cus.page x.cus.lcPage).refreshOut p.peer).missingInstances p.peer
  if was == x.cus.page.seq then s else s.sendConfig p.peer

/-- RESYNC_COMPLETE (Table 9.4): the holder is written as both by CompareAndSwap where the line allows it (`old`: the value
it found), and dual commit resumes. A CompareAndSwap that fails leaves the plates in RESYNC. -/
def execResyncComplete (p : Plate) (old : Option DWord) (s : State) : Host.Outcome State Fault Refusal :=
  let r := (s.pl p).pr
  let q := (s.pl p.peer).pr
  .next (if !s.joined || r.mode != .resync || r.rejoin || q.mode != .resync || !q.rejoin ||
      !(s.pl p).vlt.changes.isEmpty || s.rootWaits then s
    else
      let now := witnessWord r.epoch r.holder.toNat
      let s := if r.cas then s.emit (.cas p r.witAddr now (witnessWord (r.epoch + 1) 0)) else s
      if r.cas && old != some now then s
      else
        let s := if r.cas then s.updPr p fun r => { r with epoch := r.epoch + 1, holder := 0 } else s
        let s := s.resyncCopy p
        let s := s.each [.a, .b] fun s p => s.updPr p fun r => { r with mode := .paired, rejoin := false }
        (((s.makereadyBack p).useToken p).useToken p.peer))

/-! ## Scrub (R231, Table 9.11) -/

/-- What the scrub that plate `p` runs does about one finding. -/
def State.scrubbed (s : State) (p : Plate) : Finding → State
  | .oneFails q item => (s.spoil q item).readRepair q item
  | .bothFail item => s.each [.a, .b] fun s q => (s.spoil q item).repair q item none
  | .differs item => s.reconcileItem p item
  | .weak q lpn => if (s.pl q).nvm.noWrite then s else s.startGroup q { pages := [lpn], kind := .page }
  | .padding lpn =>
    let s := (s.updPr p fun r => { r with diverge := satAdd 16 r.diverge 1 }).record p 0x0313 6 (BitVec.ofNat 32 lpn)
    let home := s.pageHome lpn
    let write (s : State) (q : Plate) : State :=
      if (s.pl q).nvm.noWrite then s else s.startGroup q { pages := [lpn], kind := .page }
    (s.each [home, home.peer] write).raise p 5

/-- SCRUB_START (R231): every 24 h Plate A compares the two vault partitions. `findings`: what the comparison finds; its end is noted
on both plates. -/
def execScrubStart (p : Plate) (findings : List Finding) (s : State) : Host.Outcome State Fault Refusal :=
  .next (if p == .a && s.joined && s.pa.pr.mode == .paired && s.pb.pr.mode == .paired && s.pa.vlt.mounted &&
      s.pb.vlt.mounted && s.past s.pa.pr.scrubAt 86400000000 then
    (s.each findings fun s f => s.scrubbed p f).each [.a, .b] fun s q =>
      s.updPr q fun r => { r with scrubEnd := s.optime q, scrubAt := s.clock }
  else s)

/-! ## Comparisons (R232, R233) -/

/-- Whether 60 s have passed since a source was last raised. -/
def State.minuteSince (s : State) (t : Option Nat) : Bool := (t.map fun t => s.past t 60000000).getD true

/-- TIMEBASE is raised on plate `p`, at most once in 60 s. -/
def State.raiseTimebase (s : State) (p : Plate) : State :=
  if s.minuteSince (s.pl p).pr.tbAt then (s.updPr p fun r => { r with tbAt := some s.clock }).raise p 7 else s

/-- TIMEBASE_COMPARE (R233): `diff` between the plates and `ownOff` from the plate's own reference, in units of 0.001 %.
Where neither plate has a reference, both raise TIMEBASE. -/
def execTimebaseCompare (p : Plate) (diff ownOff : Nat) (s : State) : Host.Outcome State Fault Refusal :=
  let ref (q : Plate) : Bool := (s.pl q).pow.source != 0
  .next (if !s.up p then s
    else
      let s' := if s.gutterUp p then s.updPr p fun r => { r with tbDiff := min diff 65535 } else s
      if ref p then (if 500 < ownOff then s'.raiseTimebase p else s')
      else if s.gutterUp p && !ref p.peer && decide (500 < diff) then (s'.raiseTimebase p).raiseTimebase p.peer
      else s')

/-- REGION_SKEW is raised on plate `p`, at most once in 60 s. -/
def State.raiseSkew (s : State) (p : Plate) : State :=
  if s.minuteSince (s.pl p).pr.skewAt then (s.updPr p fun r => { r with skewAt := some s.clock }).raise p 6 else s

/-- REGION_SKEW (R232): the hottest sensors of the plates differ by `dt` °C; a difference of more than 40 °C that has lasted 100
ms raises the source on both. -/
def execRegionSkew (p : Plate) (dt : Nat) (s : State) : Host.Outcome State Fault Refusal :=
  .next (if s.joined then
    let from_ := if 40 < dt then some ((s.pl p).pr.skewFrom.getD s.clock) else none
    let s := s.each [.a, .b] fun s q => s.updPr q fun r => { r with dt := min dt 255, skewFrom := from_ }
    if from_.any fun t => s.past t 100000 then (s.raiseSkew p).raiseSkew p.peer else s
  else s)

/-! ## Reports (R67, R341) -/

/-- PEER_WEAR_STATE_REPORT (R341). -/
def execPeerWearStateReport (p : Plate) (s : State) : Host.Outcome State Fault Refusal :=
  match s.receive p (fun m => match m with
    | .wear v => some v
    | _ => none) with
  | some (v, s) => .next (s.updNvm p fun n => { n with peerWear := v })
  | none => .next s

/-- PEER_EPOCH_REPORT (R67). -/
def execPeerEpochReport (p : Plate) (s : State) : Host.Outcome State Fault Refusal :=
  match s.receive p (fun m => match m with
    | .epoch v => some v
    | _ => none) with
  | some (v, s) => .next (s.updVlt p fun x => { x with peerEpoch := v })
  | none => .next s

end Sys2Proof.Machine
end

