-- ==== Sys2Proof/Machine/Faults.lean ====
section
/-! DEFINITION. The fault collector's commands: sources, units, expiry, clearing, forcing, and drill mode (13 R300 to R306; 12
R290, R298, R299). -/

namespace Sys2Proof.Machine

/-! ## Sources and units (R300, R301) -/

/-- Whether a unit is of the kind that owns a source of units. -/
def unitOf (k : Nat) : UnitRef → Bool
  | .lane _ => k == 0
  | .engine _ => k == 1
  | .hash => k == 2

/-- Whether a job computes with an RSA private key (R116). -/
def rsaPrivate (j : Job) : Bool := (j.desc.op == 0x20 && isRsa j.desc.al) || j.desc.op == 0x25

/-- A lane whose RSA result failed its check keeps it: the job stays unposted with its window, and LANE_CRIT is raised
(R116, R301). -/
def State.rsaFails (s : State) (p : Plate) (n : Nat) : State :=
  match (s.pl p).sl.jobs.find? fun j => j.runsOn (.lane n) && rsaPrivate j with
  | some j => (s.updJob p j.ring j.index fun j => { j with critical := true }).raiseUnit p 28 (.lane n)
  | none => s

/-- AER logs an uncorrectable error with the header of the request, unless it holds an earlier one (Table 2.1). -/
def State.logHeader (s : State) (p : Plate) : State :=
  if (s.pl p).pow.cfg.header.isSome then s
  else (s.updPow p fun w => { w with cfg := { w.cfg with header := some (s.unknown 16) } }).tick 1

/-- FAULT_SOURCE_ASSERT (R300, R301): a source's pin asserts, or a level source's pin releases (`level` false). A source of
units names the unit; a unit's own pin releases with its self-test (UNIT_RESET_DONE). An LPDDR line whose tag fails is never
returned: the read ends in a bus error to the core (R15, MEM_TAG). The island, and with it the class T sources, stays active
while the plate is in reset (R291). -/
def execFaultSourceAssert (p : Plate) (src : Nat) (unit : UnitRef) (level : Bool) (s : State) :
    Host.Outcome State Fault Refusal :=
  .next (if isClassT src && src != 38 && src != 39 then (if level then s.tamper p src p.num 0 else s)
    else if !s.up p then s
    else if src ≤ 2 then
      if !(unitOf src unit && level) then s
      else if s.isWithdrawn p unit then (s.holdLane p unit).raise p src
      else s.raiseUnit p src unit
    else if src = 28 then
      match unit with
      | .lane n => if level then s.rsaFails p n else s
      | _ => s
    else if src = 38 ∨ src = 39 then (if level then s.raise p src else s)
    else if level then
      let s := s.raise p src
      if src = 3 then s.emit (.reply p none) else if src = 16 then s.logHeader p else s
    else s.setPin p src false)

/-- The units that an expiry resets: those marked of each kind whose source is set (Table 13.1). -/
def Faults.toReset (f : Faults) : List UnitRef :=
  (if hasSrc f.status 0 then ((List.range 64).filter fun n => hasSrc f.units n).map UnitRef.lane else []) ++
  (if hasSrc f.status 1 then ((List.range 8).filter fun n => f.unitsCe.getLsbD n).map UnitRef.engine else []) ++
  (if hasSrc f.status 2 && f.unitsCe.getLsbD 8 then [.hash] else [])

/-- UNIT_RESET_DONE (R301): the reset of a withdrawn unit that an expiry began has ended; where it took at most 1 ms and the
self-test passes, the unit returns to service. -/
def execUnitResetDone (p : Plate) (u : UnitRef) (pass : Bool) (s : State) : Host.Outcome State Fault Refusal :=
  let f := (s.pl p).flt
  .next (if s.up p && f.resetting.contains u then
      let s := s.updFlt p fun f => { f with resetting := f.resetting.filter (· != u) }
      if pass && decide (s.clock ≤ f.resetAt + 1000) && s.isWithdrawn p u &&
        !((s.pl p).sl.jobs.any fun j => j.critical && j.runsOn u) then s.restore p u else s
    else s)

/-! ## Expiry (R304) -/

/-- Whether source `k` counts an escalation at an expiry. -/
def escalates (k : Nat) : Bool := isClassS k && !isAdvisory k

/-- The class S sources whose escalation is counted at an expiry. -/
def Faults.counted (f : Faults) : List Nat := (List.range 17).filter fun k => hasSrc f.status k && escalates k

/-- Whether source `k` has two earlier escalations in the 60,000 ms that end at `now`. -/
def Faults.thirdTime (f : Faults) (now k : Nat) : Bool :=
  decide (2 ≤ (f.escs.filter fun e => e.1 == k && decide (now ≤ e.2 + 60000000)).length)

/-- The bits that an expiry clears: advisory sources. -/
def advisoryBits : DWord := (List.range 17).foldl (fun w k => if isAdvisory k then w ||| srcBit k else w) 0

/-- The collector after class S actions at `now`: units reset, escalations counted, the timer stopped. -/
def Faults.actS (f : Faults) (now : Nat) : Faults :=
  let l := f.counted
  { f with
    escs := (f.escs.filter fun e => decide (now ≤ e.2 + 60000000)) ++ l.map fun k => (k, now)
    sEsc := satAdd 16 f.sEsc l.length
    resetting := f.toReset
    resetAt := now
    graceAt := none
    graceC := false }

/-- The timer after an expiry (R304): it restarts while the word is not zero. -/
def Faults.restart (f : Faults) (now : Nat) (escalated : Bool) : Faults :=
  if f.status = 0 then { f with graceAt := none, graceC := false, first := none }
  else { f with
    graceAt := some (now + (if escalated then 200 else f.graceMs * 1000))
    graceC := escalated
    first := match f.first with
      | some b => if hasSrc f.status b then some b else lowestTop f.status
      | none => lowestTop f.status }

/-- A sub-link that is down is trained afresh: its heartbeats are counted from the start (Table 13.1, GUTTER_LINK). -/
def Pair.retrain (r : Pair) : Pair :=
  { r with hbRun0 := if r.linkUp 0 then r.hbRun0 else 0, hbRun1 := if r.linkUp 1 then r.hbRun1 else 0 }

/-- Class S actions at an expiry; advisory bits clear after the record has been taken (R304). -/
def State.expireS (s : State) (p : Plate) : State :=
  let f := (s.pl p).flt
  let l := f.counted
  let escalated := l.any fun k => f.thirdTime s.clock k
  let s := s.updFlt p fun f => f.actS s.clock
  let s := if hasSrc f.status 4 then s.updPr p Pair.retrain else s
  let s := (s.faultIrq p).record p 0x0140 1 (BitVec.ofNat 32 l.length)
  let s := s.updFlt p fun f => { f with status := f.status &&& ~~~ advisoryBits }
  let s := if escalated then s.latch p 30 else s
  (s.updFlt p fun f => f.restart s.clock escalated).refreshOut p

/-- What an expiry that is due does: with a class C bit set the class C reaction runs, otherwise the class S actions (R304). -/
def State.expire (s : State) (p : Plate) : State :=
  let f := (s.pl p).flt
  match f.graceAt with
  | some t =>
    if !s.up p || decide (s.clock < t) || f.react != .none then s
    else if f.status &&& maskC != 0 then
      (((s.updFlt p fun f => { f with graceAt := none, graceC := false }).faultIrq p).record p 0x0140 1 0).classC p
    else s.expireS p
  | none => s

/-- GRACE_EXPIRE (R304). -/
def execGraceExpire (p : Plate) (s : State) : Host.Outcome State Fault Refusal := .next (s.expire p)

/-! ## Clearing and forcing (R305, R306) -/

/-- The word after a clear: bits of class S whose source is not asserting. -/
def Faults.cleared (f : Faults) (value : DWord) : DWord :=
  (List.range 17).foldl (fun w k => if hasSrc value k && !f.asserting k then w &&& ~~~ srcBit k else w) f.status

/-- FAULT_CLEAR (R305): a secure-world write of 1 to bits of FLT_STATUS, after an expiry that is due (R304). -/
def execFaultClear (p : Plate) (value : DWord) (s : State) : Host.Outcome State Fault Refusal :=
  let s := s.expire p
  .next (if s.up p then
    (s.updFlt p fun f =>
      let w := f.cleared value
      if w = 0 then { f with status := 0, graceAt := none, graceC := false, first := none } else { f with status := w }).refreshOut p
  else s)

/-- A forced LOGIC in drill mode is appended to the alarm page with a drill mark, once until the reset that follows; the
third within the window reaches the gate as ALARM_REPEAT (R289, R290, R306). -/
def State.forcedAlarm (s : State) (p : Plate) : State :=
  let t := (s.pl p).tmp
  if !t.drill || t.alarmOn then s
  else
    let s := s.updTmp p fun t => { t with alarms := t.alarms ++ [(s.optime p, true)], alarmOn := true }
    if 3 ≤ s.alarmWindow p true then s.tamperForced p 37 else s

/-- A force bit goes from 0 to 1. -/
def State.forceOn (s : State) (p : Plate) (k : Nat) : State :=
  if isClassT k then s.tamperForced p k
  else
    let s := s.latch p k
    if k = 24 then s.forcedAlarm p else s

/-- The bits of FLT_FORCE that a write may set: those of class T only in drill mode. -/
def forceMask (drill : Bool) : DWord := maskS ||| maskC ||| (if drill then maskT else 0)

/-- FAULT_FORCE (R306): the secure world writes FLT_FORCE. -/
def execFaultForce (p : Plate) (value : DWord) (s : State) : Host.Outcome State Fault Refusal :=
  let old := (s.pl p).flt.force
  let new := value &&& forceMask (s.pl p).tmp.drill
  .next (if s.up p then
    (s.updFlt p fun f => { f with force := new }).each ((List.range 64).filter fun k => hasSrc new k && !hasSrc old k)
      fun s k => s.forceOn p k
  else s)

/-! ## Drill mode (R298, R306) -/

/-- Drill mode is entered (R298). -/
def State.enterDrill (s : State) (p : Plate) : State :=
  if (s.pl p).tmp.drill then s
  else
    let s := s.updTmp p fun t =>
      { t with drill := true, hit := false, drillSrc := 0, drillLat := 0, drillAt := s.clock }
    s.record p 0x0201 3 (tmpDrill (s.pl p).tmp)

/-- DRILL_ENTER (R298): the secure world only. -/
def execDrillEnter (p : Plate) (w : World) (s : State) : Host.Outcome State Fault Refusal :=
  .next (if w == .secure && s.up p then s.enterDrill p else s)

/-- DRILL_EXIT (R298). -/
def execDrillExit (p : Plate) (w : World) (s : State) : Host.Outcome State Fault Refusal :=
  .next (if w == .secure && s.up p && (s.pl p).tmp.drill then s.endDrill p else s)

/-- DRILL_TIMEOUT (R298): 60 s after entry. -/
def execDrillTimeout (p : Plate) (s : State) : Host.Outcome State Fault Refusal :=
  .next (if s.up p && (s.pl p).tmp.drill && s.past (s.pl p).tmp.drillAt 60000000 then s.endDrill p else s)

end Sys2Proof.Machine
end

