-- ==== Sys2Proof/Machine/Rv.lean ====
section
/-! DEFINITION. The instructions of a core: RV64IMAC and the supervisor instructions, as the RISC-V architecture encodes and defines
them (14 R312; PRESUMED, log 166). -/

namespace Sys2Proof.Machine

/-! ## Fields -/

/-- `n` bits of a word from bit `lo`. -/
def bitsAt (w lo n : Nat) : Nat := w / 2 ^ lo % 2 ^ n

/-- An immediate of `n` bits, sign-extended. -/
def signed (n v : Nat) : DWord := (BitVec.ofNat n v).signExtend 64

/-- An immediate put together from fields: bits `n` from `lo` of `w`, to bit `at_`. -/
def imm (w : Nat) (l : List (Nat × Nat × Nat)) : Nat := (l.map fun f => bitsAt w f.1 f.2.1 * 2 ^ f.2.2).sum

/-! ## Instructions -/

/-- A decoded instruction; compressed forms are expanded. `word` marks the 32-bit forms of RV64. -/
inductive Rv where
  | lui (rd : Nat) (v : DWord)
  | auipc (rd : Nat) (v : DWord)
  | jal (rd : Nat) (v : DWord)
  | jalr (rd rs : Nat) (v : DWord)
  | branch (f3 rs1 rs2 : Nat) (v : DWord)
  | load (f3 rd rs : Nat) (v : DWord)
  | store (f3 rs1 rs2 : Nat) (v : DWord)
  | opImm (f3 : Nat) (alt word : Bool) (rd rs : Nat) (v : DWord)
  | op (f3 : Nat) (alt word : Bool) (rd rs1 rs2 : Nat)
  | mulDiv (f3 : Nat) (word : Bool) (rd rs1 rs2 : Nat)
  | lr (word : Bool) (rd rs : Nat)
  | sc (word : Bool) (rd rs1 rs2 : Nat)
  | amo (f5 : Nat) (word : Bool) (rd rs1 rs2 : Nat)
  | csr (f3 rd rs num : Nat)
  /-- FENCE, FENCE.I, SFENCE.VMA and WFI: a core runs its instructions in order and holds no translation -/
  | fence (supervisor : Bool)
  | ecall
  | ebreak
  | sret
  | illegal
  deriving DecidableEq, Repr, Inhabited

/-- The instruction of a 32-bit word. -/
def decodeRv (w : Nat) : Rv :=
  let rd := bitsAt w 7 5
  let rs1 := bitsAt w 15 5
  let rs2 := bitsAt w 20 5
  let f3 := bitsAt w 12 3
  let f7 := bitsAt w 25 7
  let i := signed 12 (bitsAt w 20 12)
  match bitsAt w 0 7 with
  | 0x37 => .lui rd (signed 32 (bitsAt w 12 20 * 4096))
  | 0x17 => .auipc rd (signed 32 (bitsAt w 12 20 * 4096))
  | 0x6F => .jal rd (signed 21 (imm w [(21, 10, 1), (20, 1, 11), (12, 8, 12), (31, 1, 20)]))
  | 0x67 => if f3 = 0 then .jalr rd rs1 i else .illegal
  | 0x63 => if f3 = 2 ∨ f3 = 3 then .illegal
      else .branch f3 rs1 rs2 (signed 13 (imm w [(8, 4, 1), (25, 6, 5), (7, 1, 11), (31, 1, 12)]))
  | 0x03 => if f3 = 7 then .illegal else .load f3 rd rs1 i
  | 0x23 => if f3 < 4 then .store f3 rs1 rs2 (signed 12 (imm w [(7, 5, 0), (25, 7, 5)])) else .illegal
  | 0x13 =>
    if f3 = 1 then (if bitsAt w 26 6 = 0 then .opImm 1 false false rd rs1 (signed 64 (bitsAt w 20 6)) else .illegal)
    else if f3 = 5 then
      (if bitsAt w 26 6 = 0 ∨ bitsAt w 26 6 = 0x10 then .opImm 5 (bitsAt w 26 6 = 0x10) false rd rs1 (signed 64 (bitsAt w 20 6))
       else .illegal)
    else .opImm f3 false false rd rs1 i
  | 0x1B =>
    if f3 = 0 then .opImm 0 false true rd rs1 i
    else if f3 = 1 ∧ f7 = 0 then .opImm 1 false true rd rs1 (signed 64 rs2)
    else if f3 = 5 ∧ (f7 = 0 ∨ f7 = 0x20) then .opImm 5 (f7 = 0x20) true rd rs1 (signed 64 rs2)
    else .illegal
  | 0x33 =>
    if f7 = 1 then .mulDiv f3 false rd rs1 rs2
    else if f7 = 0 ∨ (f7 = 0x20 ∧ (f3 = 0 ∨ f3 = 5)) then .op f3 (f7 = 0x20) false rd rs1 rs2
    else .illegal
  | 0x3B =>
    if f7 = 1 ∧ (f3 = 0 ∨ 4 ≤ f3) then .mulDiv f3 true rd rs1 rs2
    else if (f7 = 0 ∧ (f3 = 0 ∨ f3 = 1 ∨ f3 = 5)) ∨ (f7 = 0x20 ∧ (f3 = 0 ∨ f3 = 5)) then .op f3 (f7 = 0x20) true rd rs1 rs2
    else .illegal
  | 0x2F =>
    let f5 := bitsAt w 27 5
    if f3 ≠ 2 ∧ f3 ≠ 3 then .illegal
    else if f5 = 2 then (if rs2 = 0 then .lr (f3 = 2) rd rs1 else .illegal)
    else if f5 = 3 then .sc (f3 = 2) rd rs1 rs2
    else if [0, 1, 4, 8, 12, 16, 20, 24, 28].contains f5 then .amo f5 (f3 = 2) rd rs1 rs2
    else .illegal
  | 0x0F => if f3 < 2 then .fence false else .illegal
  | 0x73 =>
    if f3 = 0 then
      if w = 0x00000073 then .ecall
      else if w = 0x00100073 then .ebreak
      else if w = 0x10200073 then .sret
      else if w = 0x10500073 ∨ (f7 = 9 ∧ rd = 0) then .fence true
      else .illegal
    else if f3 = 4 then .illegal
    else .csr f3 rd rs1 (bitsAt w 20 12)
  | _ => .illegal

/-- The instruction of a compressed 16-bit word. -/
def decodeRvc (h : Nat) : Rv :=
  let f3 := bitsAt h 13 3
  let rd := bitsAt h 7 5
  let rs2 := bitsAt h 2 5
  let lo := bitsAt h 2 3 + 8
  let hi := bitsAt h 7 3 + 8
  let i6 := signed 6 (imm h [(2, 5, 0), (12, 1, 5)])
  let shamt := signed 64 (imm h [(2, 5, 0), (12, 1, 5)])
  let offW := signed 64 (imm h [(6, 1, 2), (10, 3, 3), (5, 1, 6)])
  let offD := signed 64 (imm h [(10, 3, 3), (5, 2, 6)])
  match bitsAt h 0 2, f3 with
  | 0, 0 =>
    let n := imm h [(6, 1, 2), (5, 1, 3), (11, 2, 4), (7, 4, 6)]
    if n = 0 then .illegal else .opImm 0 false false lo 2 (signed 64 n)
  | 0, 2 => .load 2 lo hi offW
  | 0, 3 => .load 3 lo hi offD
  | 0, 6 => .store 2 hi lo offW
  | 0, 7 => .store 3 hi lo offD
  | 1, 0 => .opImm 0 false false rd rd i6
  | 1, 1 => if rd = 0 then .illegal else .opImm 0 false true rd rd i6
  | 1, 2 => .opImm 0 false false rd 0 i6
  | 1, 3 =>
    if i6 = 0 then .illegal
    else if rd = 2 then .opImm 0 false false 2 2 (signed 10 (imm h [(6, 1, 4), (2, 1, 5), (5, 1, 6), (3, 2, 7), (12, 1, 9)]))
    else .lui rd (signed 18 (imm h [(2, 5, 12), (12, 1, 17)]))
  | 1, 4 =>
    match bitsAt h 10 2 with
    | 0 => .opImm 5 false false hi hi shamt
    | 1 => .opImm 5 true false hi hi shamt
    | 2 => .opImm 7 false false hi hi i6
    | _ =>
      match bitsAt h 12 1, bitsAt h 5 2 with
      | 0, 0 => .op 0 true false hi hi lo
      | 0, 1 => .op 4 false false hi hi lo
      | 0, 2 => .op 6 false false hi hi lo
      | 0, _ => .op 7 false false hi hi lo
      | _, 0 => .op 0 true true hi hi lo
      | _, 1 => .op 0 false true hi hi lo
      | _, _ => .illegal
  | 1, 5 => .jal 0 (signed 12 (imm h [(3, 3, 1), (11, 1, 4), (2, 1, 5), (7, 1, 6), (6, 1, 7), (9, 2, 8), (8, 1, 10), (12, 1, 11)]))
  | 1, 6 => .branch 0 hi 0 (signed 9 (imm h [(3, 2, 1), (10, 2, 3), (2, 1, 5), (5, 2, 6), (12, 1, 8)]))
  | 1, 7 => .branch 1 hi 0 (signed 9 (imm h [(3, 2, 1), (10, 2, 3), (2, 1, 5), (5, 2, 6), (12, 1, 8)]))
  | 2, 0 => .opImm 1 false false rd rd shamt
  | 2, 2 => if rd = 0 then .illegal else .load 2 rd 2 (signed 64 (imm h [(4, 3, 2), (12, 1, 5), (2, 2, 6)]))
  | 2, 3 => if rd = 0 then .illegal else .load 3 rd 2 (signed 64 (imm h [(5, 2, 3), (12, 1, 5), (2, 3, 6)]))
  | 2, 4 =>
    if bitsAt h 12 1 = 0 then
      if rs2 = 0 then (if rd = 0 then .illegal else .jalr 0 rd 0) else .op 0 false false rd 0 rs2
    else if rs2 = 0 then (if rd = 0 then .ebreak else .jalr 1 rd 0)
    else .op 0 false false rd rd rs2
  | 2, 6 => .store 2 2 rs2 (signed 64 (imm h [(9, 4, 2), (7, 2, 6)]))
  | 2, 7 => .store 3 2 rs2 (signed 64 (imm h [(10, 3, 3), (7, 3, 6)]))
  | _, _ => .illegal

/-! ## Arithmetic -/

/-- A 32-bit result, sign-extended. -/
def word32 (v : DWord) : DWord := (v.setWidth 32).signExtend 64

/-- The operations of OP and OP-IMM; `alt` is SUB, SRA. -/
def aluRv (f3 : Nat) (alt : Bool) (a b : DWord) : DWord :=
  match f3 with
  | 0 => if alt then a - b else a + b
  | 1 => a <<< (b.toNat % 64)
  | 2 => if a.slt b then 1 else 0
  | 3 => if a.ult b then 1 else 0
  | 4 => a ^^^ b
  | 5 => if alt then a.sshiftRight (b.toNat % 64) else a >>> (b.toNat % 64)
  | 6 => a ||| b
  | _ => a &&& b

/-- Their 32-bit forms. -/
def aluRv32 (f3 : Nat) (alt : Bool) (a b : DWord) : DWord :=
  let x : Word := a.setWidth 32
  let n := b.toNat % 32
  match f3 with
  | 0 => word32 (if alt then a - b else a + b)
  | 1 => (x <<< n).signExtend 64
  | _ => (if alt then x.sshiftRight n else x >>> n).signExtend 64

/-- MUL to REMU. -/
def mulDivRv (f3 : Nat) (a b : DWord) : DWord :=
  match f3 with
  | 0 => a * b
  | 1 => BitVec.ofInt 64 (a.toInt * b.toInt / 2 ^ 64)
  | 2 => BitVec.ofInt 64 (a.toInt * b.toNat / 2 ^ 64)
  | 3 => BitVec.ofNat 64 (a.toNat * b.toNat / 2 ^ 64)
  | 4 => if b = 0 then -1 else BitVec.ofInt 64 (a.toInt.tdiv b.toInt)
  | 5 => if b = 0 then -1 else a / b
  | 6 => if b = 0 then a else BitVec.ofInt 64 (a.toInt.tmod b.toInt)
  | _ => if b = 0 then a else a % b

/-- MULW to REMUW. -/
def mulDivRv32 (f3 : Nat) (a b : DWord) : DWord :=
  let x : Word := a.setWidth 32
  let y : Word := b.setWidth 32
  let r : Word := match f3 with
    | 0 => x * y
    | 4 => if y = 0 then -1 else BitVec.ofInt 32 (x.toInt.tdiv y.toInt)
    | 5 => if y = 0 then -1 else x / y
    | 6 => if y = 0 then x else BitVec.ofInt 32 (x.toInt.tmod y.toInt)
    | _ => if y = 0 then x else x % y
  r.signExtend 64

/-- Whether a branch is taken. -/
def branchRv (f3 : Nat) (a b : DWord) : Bool :=
  match f3 with
  | 0 => a == b
  | 1 => a != b
  | 4 => a.slt b
  | 5 => !a.slt b
  | 6 => a.ult b
  | _ => !a.ult b

/-- What an AMO stores. -/
def amoRv (f5 : Nat) (a b : DWord) : DWord :=
  match f5 with
  | 0 => a + b
  | 1 => b
  | 4 => a ^^^ b
  | 8 => a ||| b
  | 12 => a &&& b
  | 16 => if a.slt b then a else b
  | 20 => if a.slt b then b else a
  | 24 => if a.ult b then a else b
  | _ => if a.ult b then b else a

/-- A loaded value of `n` bytes, sign-extended or not. -/
def extendRv (n : Nat) (sign : Bool) (v : DWord) : DWord :=
  let k := 8 * n
  if sign then (v <<< (64 - k)).sshiftRight (64 - k) else BitVec.ofNat 64 (v.toNat % 2 ^ k)

/-! ## Registers -/

/-- Register x `n`; x0 reads 0. -/
def Hart.get (h : Hart) (n : Nat) : DWord := if n = 0 then 0 else h.x.get 0 n

/-- Register x `n` written; a write of x0 is dropped. -/
def Hart.set (h : Hart) (n : Nat) (v : DWord) : Hart := if n = 0 then h else { h with x := h.x.set 0 n v }

/-- A CSR as it stands. -/
def Hart.csrAt (h : Hart) (n : Nat) : DWord := h.csr.get 0 n

/-- A CSR written. -/
def Hart.setCsr (h : Hart) (n : Nat) (v : DWord) : Hart := { h with csr := h.csr.set 0 n v }

/-- The bits of a supervisor CSR that a write changes; none for a register that is not there. sstatus: SIE, SPIE, SPP, SUM and MXR;
sie: SSIE, STIE and SEIE; sip: SSIP; stvec: no reserved mode; sepc: even. -/
def csrMask (n : Nat) : Option DWord :=
  match n with
  | 0x100 => some 0xC0122
  | 0x104 => some 0x222
  | 0x105 => some 0xFFFFFFFFFFFFFFFD
  | 0x106 => some 0x7
  | 0x140 | 0x142 | 0x143 => some 0xFFFFFFFFFFFFFFFF
  | 0x141 => some 0xFFFFFFFFFFFFFFFE
  | 0x144 => some 0x2
  | 0x180 => some 0xFFFFFFFFFFFFFFFF
  | _ => none

/-- The register after a write of a CSR. satp keeps its value where the mode is neither Bare nor Sv39. -/
def Hart.writeCsr (h : Hart) (n : Nat) (v : DWord) : Hart :=
  match csrMask n with
  | some m =>
    if n = 0x180 ∧ v.toNat / 2 ^ 60 ≠ 0 ∧ v.toNat / 2 ^ 60 ≠ 8 then h
    else h.setCsr n ((h.csrAt n &&& ~~~ m) ||| (v &&& m))
  | none => h

/-- A trap to the world's supervisor mode: sepc, scause, stval and sstatus are written, and the pc is stvec's (log 153, log 166). -/
def Hart.trap (h : Hart) (cause tval : DWord) : Hart :=
  let st := h.csrAt 0x100
  let sie := st.getLsbD 1
  let st := (st &&& 0xFFFFFFFFFFFFFEDD) ||| (if sie then 0x20 else 0) ||| (if h.prv = .s then 0x100 else 0)
  let tv := h.csrAt 0x105
  let base := tv &&& 0xFFFFFFFFFFFFFFFC
  let to_ := if tv.getLsbD 0 && cause.getLsbD 63 then base + (cause &&& 0x7FFFFFFFFFFFFFFF) * 4 else base
  { ((((h.setCsr 0x100 st).setCsr 0x141 h.pc).setCsr 0x142 cause).setCsr 0x143 tval) with prv := .s, pc := to_ }

/-- SRET: the mode and the interrupt enable that the trap saved, and the pc. -/
def Hart.sret (h : Hart) : Hart :=
  let st := h.csrAt 0x100
  let st' := (st &&& 0xFFFFFFFFFFFFFEDD) ||| (if st.getLsbD 5 then 0x2 else 0) ||| 0x20
  { h.setCsr 0x100 st' with prv := if st.getLsbD 8 then .s else .u, pc := h.csrAt 0x141 }

end Sys2Proof.Machine
end

