-- ==== Sys2Proof/Machine/Cluster.lean ====
section
/-! DEFINITION. The cluster's address space and what stands behind it: worlds, watermarks, ownership, the caches, the management
SRAM, the LPDDR5X stack behind its encryptor, and a world's registers at a switch (14 R312, R313, R315 to R319; 01 R15). -/

namespace Sys2Proof.Machine

/-! ## Worlds and cores -/

/-- The world that core `c` runs. -/
def Mgmt.worldOf (m : Mgmt) (c : Nat) : World := if m.world.getLsbD c then .secure else .normal

/-- Whether a world's cores run code. -/
def Mgmt.runs (m : Mgmt) : World → Bool
  | .secure => m.sec == .running || m.sec == .stalled
  | .normal => m.nrm == .running || m.nrm == .stalled

/-- The registers of core `c`. -/
def Mgmt.hart (m : Mgmt) (c : Nat) : Hart := m.harts.get {} c

/-- Core `c` with its registers changed. -/
def Mgmt.updHart (m : Mgmt) (c : Nat) (f : Hart → Hart) : Mgmt := { m with harts := m.harts.mod {} c f }

/-- Core `c` of plate `p` with its registers changed. -/
def State.updHart (s : State) (p : Plate) (c : Nat) (f : Hart → Hart) : State := s.updMgt p fun m => m.updHart c f

/-- 1 for the secure world. -/
def worldNum : World → Nat
  | .secure => 1
  | .normal => 0

/-! ## The address space (Table 14.1, R317, R319) -/

/-- The watermark of a memory: 0 SRAM, 1 LPDDR. -/
def Mgmt.watermark (m : Mgmt) (mem : Nat) : Nat := if mem = 0 then m.wmSram else m.wmLpddr

/-- The base of a memory in Table 14.1. -/
def memBase (mem : Nat) : Nat := if mem = 0 then 0x10000000 else 0x100000000

/-- The addresses that a watermark move takes from both worlds (Table 14.3 step 1). -/
def Mgmt.moving (m : Mgmt) (a : Nat) : Bool :=
  match m.move with
  | some v =>
    let mem := if v.lpddr then 1 else 0
    let old := m.watermark mem
    decide (memBase mem + 65536 * min old v.new ≤ a ∧ a < memBase mem + 65536 * max old v.new)
  | none => false

/-- Whether `a` lies in `n` bytes from `base`. -/
def inRegion (base n a : Nat) : Bool := decide (base ≤ a ∧ a < base + n)

/-- Whether `a` lies in the management SRAM. -/
def inSram (a : Nat) : Bool := inRegion 0x10000000 0x1000000 a

/-- Whether `a` lies in the LPDDR5X stack. -/
def inLpddr (a : Nat) : Bool := inRegion 0x100000000 0x100000000 a

/-- Whether world `w` owns block `b` of Table 14.4. -/
def Mgmt.owns (m : Mgmt) (w : World) (b : Nat) : Bool := m.own.getLsbD b == (w == .secure)

/-- Whether an access by a core of world `w` to address `a` is admitted; one that is not raises an access fault on the core and
has no other effect (Table 14.1, R317 to R319). -/
def Mgmt.admits (m : Mgmt) (w : World) (mmode fetch write : Bool) (a : Nat) : Bool :=
  let secure := w == .secure
  if inRegion 0 0x10000 a then mmode && fetch
  else if inSram a then !m.moving a && (secure || decide (0x10000000 + 65536 * m.wmSram ≤ a))
  else if inRegion 0x20000000 0x1000 a then !fetch
  else if inRegion 0x20010000 0x1000 a then !fetch && (secure || !write)
  else if inRegion 0x20020000 0x1000 a then !fetch && (!write || (secure && decide (a = 0x2002091C)))
  else if inRegion 0x20030000 0x1000 a then !fetch
  else if inRegion 0x20040000 0x800 a then !fetch && m.owns w ((a - 0x20040000) / 256)
  else if inRegion 0x20050000 0x400 a then !fetch && m.owns w (8 + (a - 0x20050000) / 256)
  else if inRegion 0x20060000 0x1000 a then !fetch && m.owns w 12
  else if inRegion 0x20070000 0x1000 a then !fetch && m.owns w 13
  else if inRegion 0x20080000 0x1000 a then !fetch && m.owns w (14 + (a - 0x20080000) / 1024)
  else if inRegion 0x20090000 0x1000 a then !fetch && secure
  else if inRegion 0x200A0000 0x10000 a then !fetch && !write
  else if inLpddr a then !m.moving a && (secure || decide (0x100000000 + 65536 * m.wmLpddr ≤ a))
  else false

/-! ## The caches (R312, R316) -/

/-- The ways of the L2 that serve a world (R316). -/
def l2Ways : World → List Nat
  | .secure => List.range 8
  | .normal => (List.range 8).map (· + 8)

/-- The sets of the L2: 1 MiB in 16 ways. -/
def l2Sets : Nat := 65536 / Config.l2Line

/-- A world's access to memory through the L2: it hits in its own ways only; a miss takes an own way that is empty, or evicts
what an own way holds, the manual does not say which (R316). -/
def State.l2Access (s : State) (p : Plate) (w : World) (a : Nat) : State :=
  let m := (s.pl p).mgt
  let line := a / Config.l2Line
  let set := 16 * (line % l2Sets)
  if (l2Ways w).any fun k => m.l2.get none (set + k) == some line then s
  else
    let way := ((l2Ways w).find? fun k => (m.l2.get none (set + k)).isNone).getD
      ((l2Ways w).getD (Config.freeNat s.free % 8) 0)
    (s.tick 1).updMgt p fun m => { m with l2 := m.l2.set none (set + way) (some line) }

/-- A core's access to memory through its L1, the instruction cache for a fetch, and through the L2 where the L1 misses. A full L1
evicts a line, the manual does not say which (R312). -/
def State.cacheAccess (s : State) (p : Plate) (c : Nat) (fetch : Bool) (a : Nat) : State :=
  let k := 2 * c + if fetch then 1 else 0
  let line := a / Config.l2Line
  let l := (s.pl p).mgt.l1
  if l.contains (k, line) then s
  else
    let mine := l.filter fun e => e.1 == k
    let keep := if mine.length < 32768 / Config.l2Line then l
      else l.erase (mine.getD (Config.freeNat s.free % mine.length) (k, line))
    ((s.tick 1).updMgt p fun m => { m with l1 := keep ++ [(k, line)] }).l2Access p ((s.pl p).mgt.worldOf c) a

/-- Every cached copy of what a watermark move takes away is written back and invalidated, in every L1 and in the L2 (Table 14.3
step 2). -/
def Mgmt.flushMoving (m : Mgmt) : Mgmt :=
  { m with
    l1 := m.l1.filter fun e => !m.moving (e.2 * Config.l2Line)
    l2 := m.l2.filter fun e => match e.2 with
      | some line => !m.moving (line * Config.l2Line)
      | none => false }

/-- Both L1 caches of core `c` are written back and invalidated (R315 step 2). -/
def Mgmt.flushL1 (m : Mgmt) (c : Nat) : Mgmt := { m with l1 := m.l1.filter fun e => e.1 / 2 != c }

/-! ## Memory (R15; log 154) -/

/-- What a line is written as: the content encrypted under the memory key, and its tag. -/
def sealLine (key : Bytes) (k : Nat) (content : Bytes) : LpLine :=
  let ct := xorBytes (fit 64 content) (fit 64 (Config.lpddrPad (cut key 32 32) k))
  { ct := ct, tag := Config.lpddrTag (cut key 0 32) k ct }

/-- The content of line `k` of the stack; none where its tag fails. A line that nothing has written since start-up holds zeros. -/
def Mgmt.readLine (m : Mgmt) (k : Nat) : Option Bytes :=
  match m.lpddr.get none k with
  | none => some (zeros 64)
  | some l =>
    if l.tag == Config.lpddrTag (cut m.memKey 0 32) k l.ct then
      some (xorBytes (fit 64 l.ct) (fit 64 (Config.lpddrPad (cut m.memKey 32 32) k)))
    else none

/-- `n` bytes of memory at address `a`, which lie in one line; none where the line fails its tag. -/
def Mgmt.readMem (m : Mgmt) (a n : Nat) : Option Bytes :=
  if inLpddr a then (m.readLine ((a - 0x100000000) / 64)).map fun b => cut b (a % 64) n
  else some ((List.range n).map fun k => m.sram.get 0 (a - 0x10000000 + k))

/-- Bytes written to memory at address `a`, in one line; none where the line that they change fails its tag. -/
def Mgmt.writeMem (m : Mgmt) (a : Nat) (d : Bytes) : Option Mgmt :=
  if inLpddr a then
    let k := (a - 0x100000000) / 64
    (m.readLine k).map fun b => { m with lpddr := m.lpddr.set none k (some (sealLine m.memKey k (overlay b (a % 64) d))) }
  else
    let o := a - 0x10000000
    some { m with sram := ((List.range d.length).zip d).foldl (fun t e => t.set 0 (o + e.1) e.2) m.sram }

/-- Whether a memory address lies below its watermark. -/
def Mgmt.belowMark (m : Mgmt) (a : Nat) : Bool :=
  if inLpddr a then decide (a < 0x100000000 + 65536 * m.wmLpddr) else decide (a < 0x10000000 + 65536 * m.wmSram)

/-- Whether a memory address lies on the side of the watermarks that world `w` owns. -/
def Mgmt.sideOf (m : Mgmt) (w : World) (a : Nat) : Bool := m.belowMark a == (w == .secure)

/-- Bytes placed in memory from address `a` on, as far as they lie on the side that world `w` owns. -/
def Mgmt.place (m : Mgmt) (w : World) (a : Nat) (d : Bytes) : Mgmt :=
  ((List.range d.length).zip d).foldl (fun m e =>
    if (inSram (a + e.1) || inLpddr (a + e.1)) && m.sideOf w (a + e.1) then (m.writeMem (a + e.1) [e.2]).getD m else m) m

/-- The memory at addresses that satisfy `f` filled with zeros. -/
def Mgmt.zeroFill (m : Mgmt) (f : Nat → Bool) : Mgmt :=
  { m with
    sram := m.sram.filter fun e => !f (0x10000000 + e.1)
    lpddr := m.lpddr.filter fun e => !f (0x100000000 + 64 * e.1) }

/-- The memory of world `w` filled with zeros, and no cached copy of it left (R324). -/
def Mgmt.zeroWorld (m : Mgmt) (w : World) : Mgmt :=
  { m.zeroFill (m.sideOf w) with
    l1 := m.l1.filter fun e => !m.sideOf w (e.2 * Config.l2Line)
    l2 := m.l2.filter fun e => match e.2 with
      | some line => !m.sideOf w (line * Config.l2Line)
      | none => false }

/-! ## A switch of worlds (R315) -/

/-- Core `c` leaves its world for world `w`: the monitor saves the leaving world's registers, writes back and invalidates both L1
caches of the core, flips the world bit, and restores the entering world's registers (R315 steps 1 to 4). A reservation does not
outlive the switch. -/
def Mgmt.switch (m : Mgmt) (c : Nat) (w : World) : Mgmt :=
  let m := { m with saved := m.saved.set {} (2 * c + worldNum (m.worldOf c)) { m.hart c with resv := none } }
  let m := m.flushL1 c
  let b := BitVec.ofNat 4 (2 ^ c)
  let m := { m with world := if w == World.secure then m.world ||| b else m.world &&& ~~~ b }
  m.updHart c fun _ => m.saved.get {} (2 * c + worldNum w)

end Sys2Proof.Machine
end

