-- ==== Sys2Proof/Machine/Tamper.lean ====
section
/-! DEFINITION. The chase, the environment sensors, logic alarms, and the knockout (12 R279 to R280, R285 to R297, R376). -/

namespace Sys2Proof.Machine

/-! ## The chase (R280) -/

/-- Segments of a comparison result. -/
def segments (m : BitVec 256) : List Nat := (List.range 256).filter fun k => m.getLsbD k

/-- A segment that differs once: counted and logged. -/
def State.singleMismatch (s : State) (p : Plate) (k : Nat) : State :=
  (s.updTmp p fun t => { t with mismatch := satAdd 16 t.mismatch 1, lastSeg := k }).record p 0x0210 4 (BitVec.ofNat 32 k)

/-- CHASE_COMPARE (R279, R280): segments whose far end differs; one that differed at the comparison before is CHASE. Instance
4,101 generates the next pattern, on a HALTED plate too (R207); one that waits for a block stays on the pattern it has (R203). -/
def execChaseCompare (p : Plate) (mismatch : BitVec 256) (s : State) : Host.Outcome State Fault Refusal :=
  .next (if (s.pl p).pow.phase = .off then s
    else
      let last := (s.pl p).tmp.lastMism
      let s := (segments (mismatch &&& ~~~ last)).foldl (fun s k => s.singleMismatch p k) s
      let s := s.updTmp p fun t => { t with lastMism := mismatch }
      let s := if s.drawWaits p chaseInst 1 || !(s.inst p chaseInst).live then s
        else (s.drew p chaseInst [32]).updTmp p fun t => { t with pattern := s.drawn p chaseInst 32 }
      match (segments (mismatch &&& last)).head? with
      | some k => s.tamper p 32 p.num k
      | none => s)

/-! ## Logic alarms (R289, R290) -/

/-- The code of an alarm in TMP_ALARM.LAST_SRC. -/
def AlarmSrc.code : Sys2Proof.AlarmSrc → Nat
  | .stateCode => 1
  | .dualRail => 2
  | .spacer => 3
  | .glitch => 4

/-- A logic alarm: LOGIC is raised and the operating time appended to the alarm page; alarms until the end of the reset that
follows count as one, and the third within 10,000 ms is ALARM_REPEAT. -/
def State.logicAlarm (s : State) (p : Plate) (src : Nat) : State :=
  if (s.pl p).pow.phase = .off || (s.pl p).tmp.alarmOn then s
  else
    let s := (s.updTmp p fun t => { t with
      alarmOn := true, alarmNew := satAdd 8 t.alarmNew 1, lastSrc := src
      alarms := t.alarms ++ [(s.optime p, false)] }).raise p 24
    if 3 ≤ s.alarmWindow p false then s.tamper p 37 p.num 0 else s

/-- LOGIC_ALARM (R289, R290). -/
def execLogicAlarm (p : Plate) (src : AlarmSrc) (s : State) : Host.Outcome State Fault Refusal :=
  .next (s.logicAlarm p (AlarmSrc.code src))

/-! ## Environment (Table 12.1, R286) -/

/-- Sensors of plate `p` that are valid. -/
def Tamper.validSensors (t : Tamper) : Nat := ((List.range 8).filter fun k => (t.sensors.get {} k).valid).length

/-- A level source follows its condition. -/
def State.follow (s : State) (p : Plate) (k : Nat) (present : Bool) : State :=
  if !s.up p then s else if present then s.raise p k else s.setPin p k false

/-- The thresholds of a rail in mV (Table 12.1): the lowest and the highest that give no warning, VSUP_HIGH, VSUP_LOW. -/
def railLimits : Nat → Nat × Nat × Nat × Nat
  | 0 => (630, 870, 920, 580)
  | 1 => (770, 830, 880, 700)
  | _ => (1740, 1860, 1950, 1600)

/-- Whether a quantity is beyond its threshold now (Table 12.1). -/
def envBeyond (c : EnvCond) (t : Tamper) : Bool :=
  match c with
  | .vsupWarn r => decide (r.mv < (railLimits r.rail).1) || decide ((railLimits r.rail).2.1 < r.mv)
  | .vsupHigh r => decide ((railLimits r.rail).2.2.1 < r.mv)
  | .vsupLow r => decide (r.mv < (railLimits r.rail).2.2.2)
  | .thermWarn => t.warnAt.isSome
  | .thermCrit => t.critAt.isSome
  | .tempLimit => t.limitAt.isSome
  | .light _ _ => true
  | .glitch mv _ => decide (60 ≤ mv)

/-- Whether it has been so for the time that Table 12.1 gives. -/
def envLasted (c : EnvCond) (t : Tamper) (now : Nat) : Bool :=
  match c with
  | .vsupWarn r => decide (1000 ≤ r.us)
  | .vsupHigh r => decide (10 ≤ r.us)
  | .vsupLow r => decide (2 ≤ r.us)
  | .thermWarn => t.warnAt.any fun x => decide (x + 10000 ≤ now)
  | .thermCrit => t.critAt.any fun x => decide (x + 1000 ≤ now)
  | .tempLimit => t.limitAt.any fun x => decide (x + 1000 ≤ now)
  | .light _ us => decide (20 ≤ us)
  | .glitch _ ns => decide (ns ≤ 10)

/-- The source that a condition of Table 12.1 raises, or that follows it. -/
def State.envSource (s : State) (p : Plate) (cond : EnvCond) (present : Bool) : State :=
  match cond with
  | .vsupWarn _ => s.follow p 11 present
  | .vsupHigh _ => s.follow p 25 present
  | .thermWarn => s.follow p 12 present
  | .thermCrit => if !present && decide ((s.pl p).tmp.validSensors < 4) then s else s.follow p 26 present
  | .vsupLow r => if present then s.tamper p 33 p.num r.rail else s
  | .tempLimit => if present then s.tamper p 34 p.num 0 else s
  | .light d _ => if present then s.tamper p 35 p.num d else s
  | .glitch _ _ => if present then s.logicAlarm p 4 else s

/-- ENV_THRESHOLD (R285, Table 12.1): a condition has persisted for its time, or a level condition has ended; THERM_CRIT stands
while fewer than 4 sensors are valid (R286). What Table 12.1 does not find so changes nothing. -/
def execEnvThreshold (p : Plate) (cond : EnvCond) (present : Bool) (s : State) : Host.Outcome State Fault Refusal :=
  let t := (s.pl p).tmp
  .next (if present then (if envBeyond cond t && envLasted cond t s.clock then s.envSource p cond true else s)
    else if envBeyond cond t then s
    else s.envSource p cond false)

/-- The temperatures of valid sensors other than `k`, in rising order. -/
def sensorTemps (t : Tab Sensor) (except : Option Nat) : List Int :=
  (((List.range 8).filter fun k => some k != except && (t.get {} k).valid && (t.get {} k).seen).map fun k =>
    (t.get {} k).last).mergeSort (· ≤ ·)

/-- The median of a list in rising order; between the two middle values of an even number the manual gives no rule: a free
value from `v`. -/
def median (l : List Int) (v : Nat) : Int :=
  let hi := l.getD (l.length / 2) 0
  let lo := l.getD ((l.length - 1) / 2) 0
  lo + Int.ofNat (v % ((hi - lo).toNat + 1))

/-- The distance of two temperatures. -/
def apart (a b : Int) : Nat := (a - b).natAbs

/-- Whether a sample makes its sensor invalid: no sample for 1 ms, a step of more than 20 °C, or more than 25 °C from the
median `m` of the other valid sensors (R286). -/
def Sensor.fails (x : Sensor) (sample : Option Int) (others : List Int) (m : Int) (now : Nat) : Bool :=
  match sample with
  | none => decide (x.atUs + 1000 ≤ now)
  | some v => (x.seen && decide (20 < apart v x.last)) || (!others.isEmpty && decide (25 < apart v m))

/-- Since when a condition has held: `now` where it begins, none where it does not hold. -/
def holdsSince (old : Option Nat) (now : Nat) (holds : Bool) : Option Nat := if holds then some (old.getD now) else none

/-- TMP_TEMP after a sample at `now`, and since when the median has been beyond the thresholds of Table 12.1. -/
def Tamper.noteMedian (t : Tamper) (first : Bool) (m : Int) (now : Nat) : Tamper :=
  { t with
    median := m, maxTemp := if first then m else max t.maxTemp m, minTemp := if first then m else min t.minTemp m
    warnAt := holdsSince t.warnAt now (decide (108 < m))
    critAt := holdsSince t.critAt now (decide (118 < m))
    limitAt := holdsSince t.limitAt now (decide (125 < m) || decide (m < -30)) }

/-- The median over the valid sensors, taken up in TMP_TEMP. -/
def State.newMedian (s : State) (p : Plate) (first : Bool) : State :=
  let l := sensorTemps (s.pl p).tmp.sensors none
  if l.isEmpty then s else (s.tick 1).updTmp p fun t => t.noteMedian first (median l (Config.freeNat s.free)) s.clock

/-- TMP_VOLT: three measured voltages that no command carries, each a free value of 12 bits. -/
def freeVolt (v : Nat) : DWord :=
  BitVec.ofNat 64 (v % 4096 + v / 4096 % 4096 * 2 ^ 32 + v / 2 ^ 24 % 4096 * 2 ^ 48)

/-- The sensors are sampled together: the voltages are read afresh. -/
def State.sampleVolt (s : State) (p : Plate) : State :=
  (s.updTmp p fun t => { t with volt := freeVolt (Config.freeNat s.free) }).tick 1

/-- SENSOR_SAMPLE (R285, R286): a sample of temperature sensor `k`, or none; a sensor that has given none yet is counted from
the plate's start, or from its reset. The island samples while the plate is in reset too (R291). -/
def execSensorSample (p : Plate) (k : Nat) (sample : Option Int) (s : State) : Host.Outcome State Fault Refusal :=
  let on := (s.pl p).pow.phase != .off
  let s := if on then s.sampleVolt p else s
  let t := (s.pl p).tmp
  let x := t.sensors.get {} k
  let x := { x with atUs := max x.atUs (max (s.pl p).pr.leftReset (s.pl p).pow.resetAt) }
  let others := sensorTemps t.sensors (some k)
  .next (if !on || !x.valid then s
    else if x.fails sample others (median others (Config.freeNat s.free)) s.clock then
      let s := ((s.tick 1).updTmp p fun t => { t with
        sensors := t.sensors.mod {} k fun x => { x with valid := false } }).raise p 13
      let s := s.newMedian p false
      if (s.pl p).tmp.validSensors < 4 then s.raise p 26 else s
    else match sample with
      | some v =>
        let first := (sensorTemps t.sensors none).isEmpty
        (s.updTmp p fun t => { t with
          sensors := t.sensors.set {} k { last := v, atUs := s.clock, seen := true } }).newMedian p first
      | none => s)

/-! ## The cause record (R376) -/

/-- The cause that plate `p` records at step 3; a cause of the peer's that is on its way across the gutter has arrived by then
(R376). -/
def State.koCause (s : State) (p : Plate) : Cause :=
  let t := (s.pl p).tmp
  let sent := (s.gut p).findSome? fun m => match m with
    | .cause code by_ index => some ({ code := code, by_ := by_, index := index } : Cause)
    | _ => none
  match t.local_, t.marginKo, (t.peerCause.orElse fun _ => sent) with
  | some c, _, _ => c
  | none, some i, _ => { code := 2, by_ := 2, index := i }
  | none, none, some c => c
  | none, none, none => { code := 10, by_ := p.peer.num, index := 0 }

/-- KNOCKOUT_CAUSE_RECV (R376): the peer's cause; one that arrives within the 1 ms of step 3 still reaches the record of a
plate that knew no other. -/
def execKnockoutCauseRecv (p : Plate) (s : State) : Host.Outcome State Fault Refusal :=
  match s.receive p (fun m => match m with
    | .cause code by_ index => some ({ code := code, by_ := by_, index := index } : Cause)
    | _ => none) with
  | some (c, s) =>
    .next (s.updTmp p fun t =>
      let t := { t with peerCause := some (t.peerCause.getD c) }
      if t.ko && t.cause.code == 10 && decide (s.clock ≤ t.koAt + 1000) then { t with cause := c } else t)
  | none => .next s

/-! ## The knockout sequence (Table 12.3) -/

/-- Whether what is said to assert plate `p`'s line does (R291). -/
def State.koAsserts (s : State) (p : Plate) : KoTrigger → Bool
  | .source => (s.pl p).tmp.local_.isSome
  | .peerWire => (s.pl p.peer).tmp.ko
  | .margin i => (s.pl p).tmp.marginKo == some i

/-- The collector's record of a line asserted from outside the plate; a tamper source of its own was recorded when it was
raised (R303). -/
def State.koRecord (s : State) (p : Plate) : KoTrigger → State
  | .source => s
  | .peerWire => s.raise p 39
  | .margin _ => s.raise p 38

/-- A logical page erased where it lies, its commit records with it (R293). -/
def Nvm.erasePage (n : Nvm) (l : Nat) : Nvm :=
  n.updPage (n.pageOf l) fun v => { v with data := zeros 256, rec1 := none, rec2 := none }

/-- Step 2: root page and helper data are gone. -/
def State.eraseRoot (s : State) (p : Plate) : State :=
  (((s.cutGroups p).updNvm p fun n => (n.erasePage (systemLpn 0)).erasePage (systemLpn 1)).updVlt p fun v =>
    { v with root := none, keys := false, mounted := false, testRoot := false, kr := { idKey := v.kr.idKey } }).updTmp p
    fun t => { t with helper := none }

/-- KNOCKED_OUT written into the lifecycle page of plate `p` by a commit of its own (R211, R248). -/
def State.knockedOutPage (s : State) (p : Plate) : State := s.commitNow p [.lifecycle (LcPage.of 0x55)]

/-- Step 3: the cause record, and KNOCKED_OUT from OPERATIONAL and DEBUG (R295); a command that asked for RETIRED blows RTF
after it (Table 10.8). -/
def State.koLifecycle (s : State) (p : Plate) : State :=
  let c := s.koCause p
  let s := s.updTmp p fun t => { t with cause := c }
  let lc := s.lifecycle p
  let s := if lc = 0x3C ∨ lc = 0x5A then
      (s.knockedOutPage p).record p 0x0500 8 0x55
    else s
  (s.updCus p fun c => { c with rtf := if c.retire then 0x66 else c.rtf, retire := false }).refreshOut p

/-- KNOCKOUT for one descriptor that has no record. -/
def State.koOne (s : State) (p : Plate) (q : RingRef) (i : Word) (d : Option Desc) (parked moved : Bool) : State :=
  s.post p q i d { status := .knockout } parked moved true

/-- Every descriptor of a ring that plate `p` serves, from L to the last producer index read (step 5). -/
def State.koRing (s : State) (p : Plate) (q : RingRef) (x : RingScan) : State :=
  let g := s.ring p q
  let s := s.each (List.range (dist g.prod g.low)) fun s k =>
    let i := g.low + BitVec.ofNat 32 k
    if g.posted.any fun e => e.1 == i then s
    else match s.job? p q i with
      | some j => s.koOne p q i (some j.desc) j.wasParked (j.fetchedBy != p)
      | none => (s.readUnder p q (g.sqEntry i) 64).koOne p q i (scanDesc x i) false (g.fetcher p i != p)
  s.updRing p q fun g => { g with fetched := g.prod }

/-- A ring of the plate that cannot post, from its mirrored window (R297). -/
def State.koMirrored (s : State) (p : Plate) (q : RingRef) (w : Window) (x : RingScan) (bound : Word) : State :=
  s.each (List.range (dist bound w.low)) fun s k =>
    let i := w.low + BitVec.ofNat 32 k
    if scanHas x i then s
    else (s.readUnder p q ((s.ring p q).sqEntry i) 64).koOne p q i (scanDesc x i) false
      (decide (dist i w.low < dist w.fetched w.low))

/-- The scan of one tenant ring. -/
def ringScan (scans : List RingScan) (i r : Nat) : RingScan :=
  (scans.find? fun x => x.slice == i && x.ring == r).getD { slice := i, ring := r, posted := [], p := none, descs := [] }

/-- Step 5 for the slices that plate `p` homes. -/
def State.koOwn (s : State) (p : Plate) (scans : List RingScan) : State :=
  let mine := (s.pl p).sl.impo.filter fun e => e.2.st != .free && e.2.home == p
  let s := s.each mine fun s e =>
    (s.each (List.range 16) fun s r =>
      if (s.ring p (.tenant e.1 r)).active then s.koRing p (.tenant e.1 r) (ringScan scans e.1 r) else s).writeProgress p e.1
  s.koRing p .admin (adminScan scans)

/-- Step 5 for the slices of a peer that cannot post, and for its admin ring as last mirrored. -/
def State.koPeer (s : State) (p : Plate) (scans : List RingScan) : State :=
  let theirs := (s.pl p).sl.impo.filter fun e => e.2.st != .free && e.2.home == p.peer
  let wins := (s.pl p).pr.windows
  let s := s.each theirs fun s e =>
    let s := s.readUnder p (.tenant e.1 0) ((s.pl p).sl.regs.get {} e.1).db 64
    (s.each (wins.filter fun w => w.1 / 16 == e.1) fun s w =>
      let q : RingRef := .tenant e.1 (w.1 % 16)
      let x := ringScan scans e.1 (w.1 % 16)
      let s := (s.readRecords p q w.2 x).updRing p q fun g => g.scanned w.2 x
      let g := s.ring p q
      let bound := if (badP g.size g.low w.2.fetched x.p).isSome then w.2.fetched else x.p.getD w.2.fetched
      s.koMirrored p q w.2 x bound).writeProgress p e.1
  match (s.pl p).pr.admWindow with
  | some (g, descs) =>
    let own := (s.pl p).sl.adm
    let x := adminScan scans
    let x := { x with descs := x.descs ++ descs.map fun e => (e.1, encodeDesc e.2) }
    let s := (s.updRing p .admin fun _ => g).readRecords p .admin g.window x
    let s := s.updRing p .admin fun _ => g.scanned g.window x
    (s.koMirrored p .admin g.window x g.prod).updRing p .admin fun _ => own
  | none => s

/-- Steps 4 and 5 as they leave plate `p`: caches, instances, jobs, rings and slices cleared; the admin ring stays
enabled (R296). -/
def State.koClear (s : State) (p : Plate) : State :=
  let s := s.updVlt p fun v => { v with
    cache := [], leases := [], changes := [], seqs := [], exhausted := [], savedWin := [], noTrk := []
    hold := none, apply := none }
  let s := s.updRng p fun x => { x with inst := [], pool := [] }
  let s := s.updSl p fun x => { x with
    impo := [], oldImpo := [], regs := [], buckets := [], poll := [], live := [], bank := [], rings := [], cancels := []
    progress := [], ops := [], jobs := [], resume := [], selected := none, reads := [], lane := {}, cipher := {}
    random := {}, vault := {}, winData := [] }
  let s := s.updPr p fun r => { r with
    takeover := none, makeready := none, windows := [], admWindow := none, pending := [], held := [] }
  let s := (s.dropFence p).setQueue p fun _ => []
  let s := s.updMgt p fun m => { m.calls.foldl (fun m c => m.switch c.core .normal) m with
    l2 := [], l1 := [], sram := [], lpddr := [], memKey := [], saved := [], calls := [], world := 1, entry := none, replies := []
    intS := [], intN := [] }
  let s := s.updFlt p fun f => { f with react := .none }
  (((s.endSessions p).updCus p fun c => { c with button := none }).giveUpAll p).disownAll p

/-- KNOCKOUT_LINE_ASSERT (R291, R292, Table 12.3): the line of a plate asserts, and its knockout sequence runs. A plate in
reset posts nothing and writes no record; the other plate posts for both where its peer cannot, in reset or yielded (R297). `scans`: what is read in host memory at step 5. -/
def execKnockoutLineAssert (p : Plate) (by_ : KoTrigger) (scans : List RingScan) (s : State) :
    Host.Outcome State Fault Refusal :=
  .next (if (s.pl p).pow.phase = .off || (s.pl p).tmp.ko || !s.koAsserts p by_ then s
    else
      let s := (s.koRecord p by_).updTmp p fun t => { t with ko := true, koAt := s.clock }
      let s := s.updFlt p fun f => { f with graceAt := none, graceC := false }
      let s := match (s.pl p).tmp.local_ with
        | some c => s.send p (.cause c.code c.by_ c.index)
        | none => s
      let s := (s.eraseRoot p).koLifecycle p
      if s.up p then
        let s := s.koOwn p scans
        let s := if s.up p.peer && (s.pl p.peer).pr.mode != .yielded then s else s.koPeer p scans
        (s.koClear p).record p 0x0200 3 (tmpCause (s.pl p).tmp)
      else s.koClear p)

end Sys2Proof.Machine
end

