-- ==== Sys2Proof/Machine/Mgmt.lean ====
section
/-! DEFINITION. The management cluster: images, liveness, monitor calls, watermarks, hand-over of blocks, shedding
and the last-resort sequencer (14 R312 to R330; 09 R234; 15 R337). -/

namespace Sys2Proof.Machine

/-! ## Images (R328 to R330) -/

/-- The minimum version of an image for its world and signer. -/
def Mgmt.minVersion (m : Mgmt) (secure : Bool) (i : Image) : Nat :=
  if secure then m.minS else if i.signer == Config.kelalmedKey then m.minN else m.minOp

/-- Whether a signer is accepted for a world: Kelalmed's key, or for the normal world a non-zero op_key. -/
def signerOk (y : Policy) (secure : Bool) (signer : Bytes) : Bool :=
  signer == Config.kelalmedKey || (!secure && !allZero y.opKey && fit 32 signer == fit 32 y.opKey)

/-- Whether a stored image is valid (R328). -/
def State.imageOk (s : State) (p : Plate) (secure : Bool) (i : Image) : Bool :=
  i.valid && decide ((s.pl p).mgt.minVersion secure i ≤ i.version) && signerOk (s.policy p) secure i.signer

/-- The first valid image of a world: the active slot, then the other (R329). -/
def State.pickImage (s : State) (p : Plate) (secure : Bool) (active other : Image) : Option (Image × Bool) :=
  if s.imageOk p secure active then some (active, false)
  else if s.imageOk p secure other then some (other, true)
  else none

/-- The measurement of an image: SHA3-256 of the whole stored image. -/
def measure (i : Image) : Bytes := fit 32 (Config.sha3 i.whole)

/-- A core at the entry of an image of its world: in S-mode, its number in a0 (log 153). -/
def Image.start (i : Image) (c : Nat) : Hart :=
  { x := Tab.set [] 0 10 (BitVec.ofNat 64 c), pc := BitVec.ofNat 64 (leAt i.whole 0x10 8 + leAt i.whole 0x18 8), prv := .s }

/-- The cores that enter a world's image: the secure anchor, or the three others (R313). -/
def worldCores : World → List Nat
  | .secure => [0]
  | .normal => [1, 2, 3]

/-- The cores of world `w` with the registers `f` gives them, and nothing saved of what the world ran before. -/
def Mgmt.startHarts (m : Mgmt) (w : World) (f : Nat → Hart) : Mgmt :=
  (worldCores w).foldl (fun m c => m.updHart c fun _ => f c) { m with saved := m.saved.filter fun e => e.1 % 2 != worldNum w }

/-- An image's code stands in memory at its load address, and its world's cores are at its entry (Table 14.10). -/
def Mgmt.enter (m : Mgmt) (w : World) (i : Image) : Mgmt :=
  (m.place w (leAt i.whole 0x10 8) (cut i.whole 128 (leAt i.whole 0x0C 4))).startHarts w i.start

/-- A new count of a watchdog, paused where it was paused. -/
def repause (paused : Option Nat) (now : Nat) : Option Nat := paused.map fun _ => now

/-- The secure world after its load; with no valid image its cores stay in reset (R329). -/
def Mgmt.loadSecure (m : Mgmt) (i : Option (Image × Bool)) (st : Live) (now : Nat) : Mgmt :=
  match i with
  | some (i, other) =>
    Mgmt.enter { m with sec := st, secAt := now, secPause := repause m.secPause now, measS := measure i, verS := i.version,
                        slotS := other, entry := none } .secure i
  | none => Mgmt.startHarts { m with sec := .noImage, measS := [], verS := 0, entry := none } .secure fun _ => {}

/-- The normal world after its load; with no valid image every block is the secure world's (R329). -/
def Mgmt.loadNormal (m : Mgmt) (i : Option (Image × Bool)) (st : Live) (now : Nat) : Mgmt :=
  match i with
  | some (i, other) =>
    Mgmt.enter { m with nrm := st, nrmAt := now, nrmPause := repause m.nrmPause now, measN := measure i, verN := i.version,
                        slotN := other } .normal i
  | none => Mgmt.startHarts { m with nrm := .noImage, measN := [], verN := 0, own := 0x3FFFF } .normal fun _ => {}

/-- The secure world is loaded. -/
def State.loadSecure (s : State) (p : Plate) (st : Live) : State :=
  s.updMgt p fun m => m.loadSecure (s.pickImage p true m.imgS m.imgS2) st s.clock

/-- The normal world is loaded. -/
def State.loadNormal (s : State) (p : Plate) (st : Live) : State :=
  s.updMgt p fun m => m.loadNormal (s.pickImage p false m.imgN m.imgN2) st s.clock

/-- The boot ROM loads both worlds. With no valid secure image no core leaves reset, and the normal world is not loaded (R329, log
155). -/
def State.bootImages (s : State) (p : Plate) (st : Live) : State :=
  let s := s.loadSecure p st
  if (s.pl p).mgt.sec == .noImage then
    s.updMgt p fun m => Mgmt.startHarts { m with nrm := .noImage, measN := [], verN := 0 } .normal fun _ => {}
  else s.loadNormal p st

/-! ## Cores and the monitor -/

/-- Whether core `c` of plate `p` can make a monitor call: it runs, in S-mode (R314). -/
def State.coreRuns (s : State) (p : Plate) (c : Nat) : Bool :=
  let m := (s.pl p).mgt
  s.up p && decide (c < 4) && !m.halted.getLsbD c && (m.hart c).prv == .s

/-- A core after its ECALL is answered: the error in a0, the values from a1 on, the pc past the instruction (R314, log 153). -/
def Hart.answered (h : Hart) (e : Int) (l : List DWord) : Hart :=
  let h := ((List.range l.length).zip l).foldl (fun h v => h.set (11 + v.1) v.2) (h.set 10 (BitVec.ofInt 64 e))
  { h with pc := h.pc + 4 }

/-- The monitor's answer to a core: error in a0, then its values (R314). -/
def State.answer (s : State) (p : Plate) (c : Nat) (e : Int) (l : List DWord) : State :=
  s.updMgt p fun m => Mgmt.updHart { m with replies := m.replies ++ [(c, e, l)] } c fun h => h.answered e l

/-- An interrupt at the anchor core of a world; numbers 0 to 17 are block hand-overs, 64 is the signal. -/
def State.interrupt (s : State) (p : Plate) (w : World) (n : Nat) : State :=
  s.updMgt p fun m => match w with
    | .secure => { m with intS := m.intS ++ [n] }
    | .normal => { m with intN := m.intN ++ [n] }

/-- A write of WLD_SIGNAL by world `w` (R315). -/
def State.signal (s : State) (p : Plate) (w : World) (value : Word) : State :=
  if s.up p && (s.pl p).mgt.runs w && value.getLsbD 0 then s.interrupt p w.other 64 else s

/-- WORLD_SIGNAL (R315). -/
def execWorldSignal (p : Plate) (w : World) (value : Word) (s : State) : Host.Outcome State Fault Refusal :=
  .next (s.signal p w value)

/-! ## Calls, and the debug module's pauses (R315, R322) -/

/-- Whether any halted core runs world `w`. -/
def Mgmt.anyHalted (m : Mgmt) (w : World) : Bool := (List.range 4).any fun c => m.halted.getLsbD c && m.worldOf c == w

/-- The watchdogs of both worlds after a change of the halted cores: paused while one of the world's cores is halted. -/
def Mgmt.pauses (m : Mgmt) (now : Nat) : Mgmt :=
  let m := if m.anyHalted .secure then { m with secPause := some (m.secPause.getD now) }
    else { m with secAt := m.secAt + (m.secPause.map fun t => now - t).getD 0, secPause := none }
  if m.anyHalted .normal then { m with nrmPause := some (m.nrmPause.getD now) }
  else { m with nrmAt := m.nrmAt + (m.nrmPause.map fun t => now - t).getD 0, nrmPause := none }

/-- A secure call ends: the core goes back to the normal world and its registers there (R315), and a halted core pauses the watchdog
of the world it is now in. -/
def State.endCall (s : State) (p : Plate) (c : Nat) : State :=
  s.updMgt p fun m => Mgmt.pauses { m.switch c .normal with calls := m.calls.filter fun x => x.core != c } s.clock

/-- Every secure call in progress ends with −5 (R323). -/
def State.endCalls (s : State) (p : Plate) : State :=
  s.each ((s.pl p).mgt.calls.map Call.core) fun s c => (s.endCall p c).answer p c (-5) []

/-! ## Blocks (R319, R320) -/

/-- The owner of block `b`. -/
def Mgmt.owner (m : Mgmt) (b : Nat) : World := if m.own.getLsbD b then .secure else .normal

/-- A block stops: the resource of a mailbox channel is released where the plate owns it (Table 14.5 step 2). -/
def State.stopBlock (s : State) (p : Plate) (b : Nat) : State :=
  if 14 ≤ b ∧ (s.pl p).mrg.own.getLsbD (b - 14) then s.sendFrame .plate p 0x07 (BitVec.ofNat 8 (b - 14)) [] else s

/-- A block in its reset state, its pending interrupts discarded (Table 14.5 step 3, R320): the frames that wait in a mailbox channel
are gone, and the MCTP endpoint has no EID and no TID. Timers, DMA channels and the UART have no state that the manual describes. -/
def State.resetBlock (s : State) (p : Plate) (b : Nat) : State :=
  let s := s.updMgt p fun m => { m with
    intS := m.intS.filter fun n => n != b && n != 32 + b, intN := m.intN.filter fun n => n != b && n != 32 + b
    eid := if b = 13 then 0 else m.eid, tid := if b = 13 then 0 else m.tid }
  if b < 14 then s else s.updMrg p fun m => { m with mailbox := m.mailbox.filter fun f => f.res != BitVec.ofNat 8 (b - 14) }

/-- Every block that world `w` owns is reset (R324). -/
def State.resetBlocks (s : State) (p : Plate) (w : World) : State :=
  s.each ((List.range 18).filter fun b => (s.pl p).mgt.owns w b) fun s b => s.resetBlock p b

/-! ## Liveness (R322 to R324) -/

/-- µs that a world's watchdog has counted, pauses left out. -/
def elapsed (since : Nat) (paused : Option Nat) (now : Nat) : Nat := paused.getD now - since

/-- Whether a change under way on plate `p` is the first key-state change of admin command `k` (R323). -/
def State.changeOf (s : State) (p : Plate) (k : Word) (c : Change) : Bool :=
  let op (i : Nat) : Bool := (((s.pl p).sl.ops.get none i).map SliceOp.index) == some k
  match c.after with
  | .finish r i _ => r == .admin && i == k
  | .created _ i | .policy i _ | .lifecycle i _ _ => i == k
  | .resized i | .destroyStep i 1 => op i
  | _ => false

/-- Whether nothing of a change has been committed and the plate can still discard it: it is held, its mirror write has not reached
the peer, or the plate commits alone and its group has not become current (R323; DEDUCED, log 156). -/
def State.withdrawable (s : State) (p : Plate) (c : Change) : Bool :=
  !c.sent || (s.gut p.peer).any fun m => match m with
    | .mirror _ d => d.id == c.id
    | _ => false

/-- A change is discarded: its mirror write, its group, and the change itself. -/
def State.discard (s : State) (p : Plate) (c : Change) : State :=
  let mine (g : Group) : Bool := g.kind == .own c.id
  let s := s.setGut p.peer ((s.gut p.peer).filter fun m => match m with
    | .mirror _ d => d.id != c.id
    | _ => true)
  (s.updNvm p fun n => { n with groups := n.groups.filter (!mine ·), waiting := n.waiting.filter (!mine ·) }).updVlt p fun v =>
    { v with changes := v.changes.filter fun d => d.id != c.id }

/-- Whether a taken admin command goes on through a stall: its first key-state change has committed, or can no longer be discarded, or
the hardware carries it out (R323, R324). -/
def State.adminGoesOn (s : State) (p : Plate) (j : Job) : Bool :=
  let mine := (s.pl p).vlt.changes.filter (s.changeOf p j.index)
  hardwareAdmin j.desc.op || j.desc.op == 0x50 || j.stage == .queued ||
  ((s.pl p).pr.makeready.map Makeready.index) == some j.index ||
  (if mine.isEmpty then
    j.stage == .commit || (s.pl p).sl.ops.any fun e => match e.2 with
      | some o => o.index == j.index && o.destroy && o.step != 1
      | none => false
   else mine.any fun c => !s.withdrawable p c)

/-- An admin command whose first key-state change has not committed completes with BUSY and has no effect: what it has begun is
discarded (R323). -/
def State.dropAdmin (s : State) (p : Plate) (j : Job) : State :=
  let s := s.each ((s.pl p).vlt.changes.filter (s.changeOf p j.index)) fun s c => s.discard p c
  let s := s.updSl p fun x => { x with ops := x.ops.filter fun e => (e.2.map SliceOp.index) != some j.index }
  let s := s.updCus p fun c => { c with
    button := c.button.filter fun w => w.index != j.index
    attempt := c.attempt.filter fun a => (a.enrol.map EnrolTry.index) != some j.index }
  s.fail p j .busy

/-- The secure world is stalled (R323): queued admin commands, and those taken without a commit, complete with BUSY; calls
end. -/
def State.stallSecure (s : State) (p : Plate) : State :=
  let q := (s.pl p).mgt.queue
  let s := (s.updMgt p fun m => { m with sec := .stalled }).setQueue p fun _ => []
  let s := s.each (q.filterMap fun i => s.job? p .admin i) fun s j => s.fail p j .busy
  let s := s.each ((s.pl p).sl.jobs.filter fun j => j.ring == .admin && (j.stage == .running || j.stage == .commit) && !s.adminGoesOn p j)
    fun s j => s.dropAdmin p j
  s.endCalls p

/-- SEC_STALL_TIMEOUT (R323). -/
def execSecStallTimeout (p : Plate) (s : State) : Host.Outcome State Fault Refusal :=
  let m := (s.pl p).mgt
  .next (if s.up p && m.sec == .running && decide (50000 ≤ elapsed m.secAt m.secPause s.clock) then s.stallSecure p else s)

/-- The secure world restarts (R324): its sessions end, its blocks are reset, its memory and its interrupts are gone, and its image
is loaded afresh. -/
def State.restartSecure (s : State) (p : Plate) : State :=
  let s := if (s.pl p).mgt.sec == .running then s.stallSecure p else s
  (((s.endSessions p).resetBlocks p .secure).updMgt p fun m => { m.zeroWorld .secure with intS := [] }).loadSecure p .restarting

/-- SEC_RESTART_TIMEOUT (R324): 1 s without a write, counted afresh from a restart. -/
def execSecRestartTimeout (p : Plate) (s : State) : Host.Outcome State Fault Refusal :=
  let m := (s.pl p).mgt
  .next (if s.up p && m.sec != .noImage &&
      decide (1000000 ≤ elapsed m.secAt m.secPause s.clock) then
    ((s.restartSecure p).updMgt p fun m => { m with restarts := satAdd 8 m.restarts 1 }).record p 0x0514 9 0
  else s)

/-- The normal world restarts (R324, R330). -/
def State.restartNormal (s : State) (p : Plate) : State :=
  let s := s.each ((s.pl p).mgt.calls.map Call.core) fun s c => s.endCall p c
  ((s.resetBlocks p .normal).updMgt p fun m => { m.zeroWorld .normal with intN := [] }).loadNormal p .restarting

/-- NRM_RESTART_TIMEOUT (R324). -/
def execNrmRestartTimeout (p : Plate) (s : State) : Host.Outcome State Fault Refusal :=
  let m := (s.pl p).mgt
  .next (if s.up p && m.nrm != .noImage && decide (1000000 ≤ elapsed m.nrmAt m.nrmPause s.clock) then s.restartNormal p
  else s)

/-- A write of WLD_SEC_ALIVE (R323): one by the secure world ends a stall or a restart. After a cluster reset it shows that the monitor
has booted and fed its watchdog, and the sequencer is IDLE again (log 62). -/
def State.secAlive (s : State) (p : Plate) (w : World) : State :=
  if w == .secure && s.up p && (s.pl p).mgt.sec != .noImage then
    (s.updMgt p fun m => { m with sec := .running, secAt := s.clock, secPause := repause m.secPause s.clock }).updPr p
      fun r => { r with
        seqSt := if r.seqSt == .wait || r.seqSt == .clusterReset then .idle else r.seqSt }
  else s

/-- SEC_ALIVE_WRITE. -/
def execSecAliveWrite (p : Plate) (w : World) (s : State) : Host.Outcome State Fault Refusal := .next (s.secAlive p w)

/-- A write of WLD_NRM_ALIVE (R324). -/
def State.nrmAlive (s : State) (p : Plate) (w : World) : State :=
  if w == .normal && s.up p && (s.pl p).mgt.nrm != .noImage then
    s.updMgt p fun m => { m with nrm := .running, nrmAt := s.clock, nrmPause := repause m.nrmPause s.clock }
  else s

/-- NRM_ALIVE_WRITE. -/
def execNrmAliveWrite (p : Plate) (w : World) (s : State) : Host.Outcome State Fault Refusal := .next (s.nrmAlive p w)

/-! ## The last-resort sequencer (R234) -/

/-- The whole cluster restarts from its plate's own active images: both worlds, cores and blocks as after boot. -/
def State.resetCluster (s : State) (p : Plate) : State :=
  let s := if (s.pl p).mgt.sec == .running then s.stallSecure p else s
  let s := (((s.endSessions p).resetBlocks p .secure).resetBlocks p .normal).updMgt p fun m => { m with
    world := 1, halted := 0, haltedM := 0, l2 := [], l1 := [], harts := [], saved := [], sram := [], lpddr := [], progBuf := []
    triggers := [], own := 0x2C30F, entry := none, calls := [], move := none, intS := [], intN := [], wmSram := 0x80
    wmLpddr := 0x4000, secPause := none, nrmPause := none }
  (s.bootImages p .restarting).updPr p fun r => { r with wdFed := s.clock, wdPause := none }

/-- CLUSTER_WATCHDOG_EXPIRE (R234): the monitor, which runs beside the worlds and has no row for a feed, has let its 2 s pass
without one (DESIGN CHOICE, log 62): it may come once the cluster has run for 2 s since its start, and not while a core is halted
in M-mode (R322). The cluster is reset by the peer's cluster while the gutter is up, and the sequencer waits; while the gutter is
lost the sequencer resets it, in CLUSTER_RESET (log 124). -/
def execClusterWatchdogExpire (p : Plate) (s : State) : Host.Outcome State Fault Refusal :=
  let r := (s.pl p).pr
  .next (if s.up p && r.seqSt == .idle && r.wdPause.isNone && s.past r.wdFed 2000000 then
    let s := (s.raise p 15).resetCluster p
    let byPeer := s.gutterUp p && s.up p.peer
    s.updPr p fun r => { r with
      seqSt := if byPeer then .wait else .clusterReset, seqAt := s.clock
      peerRecov := if byPeer then satAdd 8 r.peerRecov 1 else r.peerRecov }
  else s)

/-- SEQUENCER_WAIT_EXPIRE (R234): 5 s after the cluster's reset its watchdog has not been fed; the sequencer resets the plate
under the reset token. Before then it leaves CLUSTER_RESET for WAIT (log 124). -/
def execSequencerWaitExpire (p : Plate) (s : State) : Host.Outcome State Fault Refusal :=
  let r := (s.pl p).pr
  .next (if !s.up p || (r.seqSt != .wait && r.seqSt != .clusterReset) then s
    else if s.past r.seqAt 5000000 then (s.updPr p fun r => { r with seqSt := .plateReset }).askToken p
    else s.updPr p fun r => { r with seqSt := .wait })

/-! ## Monitor calls (Table 14.2) -/

/-- INFO: world, core and monitor version. -/
def State.info (s : State) (p : Plate) (core : Nat) : State :=
  let w : DWord := if (s.pl p).mgt.worldOf core == .secure then 1 else 0
  if s.coreRuns p core then s.answer p core 0 [w, BitVec.ofNat 64 core, Config.monitorVersion] else s

/-- INFO. -/
def execInfo (p : Plate) (core : Nat) (s : State) : Host.Outcome State Fault Refusal := .next (s.info p core)

/-- An error code that the manual does not state for this case: one of the five, free. -/
def State.openError (s : State) : Int := if Config.freeNat s.free % 4 = 0 then -2 else -Int.ofNat (Config.freeNat s.free % 4 + 2)

/-- The core in the secure world at its registered entry, with the call's arguments in a0 to a5. -/
def Hart.called (h : Hart) (entry : DWord) (args : List DWord) : Hart :=
  { ((List.range args.length).zip args).foldl (fun h v => h.set (10 + v.1) v.2) h with pc := entry, prv := .s }

/-- CALL (R315): normal world on core 1 or 2, not inside a CALL. While the secure world is stalled it ends at once with −5;
with no registered entry the manual states no outcome, and the error is free. -/
def State.call (s : State) (p : Plate) (core : Nat) (args : List DWord) : State :=
  let m := (s.pl p).mgt
  if !s.coreRuns p core then s
  else if m.worldOf core == .secure || !(core == 1 || core == 2) then s.answer p core (-4) []
  else if m.sec != .running then s.answer p core (-5) []
  else match m.entry with
    | none => (s.tick 1).answer p core s.openError []
    | some entry => s.updMgt p fun m =>
        { (m.switch core .secure).updHart core (fun h => h.called entry (args.take 6)) with
          calls := m.calls ++ [{ core := core, since := s.clock, args := args.take 6 }] }

/-- CALL. -/
def execCall (p : Plate) (core : Nat) (args : List DWord) (s : State) : Host.Outcome State Fault Refusal :=
  .next (s.call p core args)

/-- RETURN (R315): secure world inside a CALL only; its results go to the caller. -/
def State.ret (s : State) (p : Plate) (core : Nat) (results : List DWord) : State :=
  if !s.coreRuns p core then s
  else if (s.pl p).mgt.calls.any fun c => c.core == core then (s.endCall p core).answer p core 0 (results.take 6)
  else s.answer p core (-4) []

/-- RETURN. -/
def execRet (p : Plate) (core : Nat) (results : List DWord) (s : State) : Host.Outcome State Fault Refusal :=
  .next (s.ret p core results)

/-- CALL_TIMEOUT (R315): 50 ms without RETURN. -/
def execCallTimeout (p : Plate) (core : Nat) (s : State) : Host.Outcome State Fault Refusal :=
  .next (if s.up p && (s.pl p).mgt.calls.any fun c => c.core == core && s.past c.since 50000 then
    (s.endCall p core).answer p core (-5) []
  else s)

/-- SET_ENTRY: secure world, once per secure boot. -/
def State.setEntry (s : State) (p : Plate) (core : Nat) (addr : DWord) : State :=
  let m := (s.pl p).mgt
  if !s.coreRuns p core then s
  else if m.worldOf core == .normal || m.entry.isSome then s.answer p core (-4) []
  else (s.updMgt p fun m => { m with entry := some addr }).answer p core 0 []

/-- SET_ENTRY. -/
def execSetEntry (p : Plate) (core : Nat) (addr : DWord) (s : State) : Host.Outcome State Fault Refusal :=
  .next (s.setEntry p core addr)

/-! ## Watermarks (R317, R318) -/

/-- The range of a watermark (R317). -/
def watermarkOk (mem new : Nat) : Bool :=
  if mem = 0 then decide (64 ≤ new ∧ new ≤ 192) else decide (mem = 1 ∧ 8192 ≤ new ∧ new ≤ 49152)

/-- WM_GIVE (R318): the normal world raises a watermark, the secure world lowers it. The monitor holds the core until the move is
done. -/
def State.wmGive (s : State) (p : Plate) (core mem new : Nat) : State :=
  let m := (s.pl p).mgt
  let old := m.watermark mem
  let right := if m.worldOf core == .normal then decide (old < new) else decide (new < old)
  if !s.coreRuns p core then s
  else if !watermarkOk mem new || !right then s.answer p core (-3) []
  else if m.move.isSome then s.answer p core (-5) []
  else s.updMgt p fun m =>
    (Mgmt.flushMoving { m with move := some { lpddr := mem == 1, new := new, core := core, world := m.worldOf core } }).updHart core
      fun h => { h with prv := .m }

/-- WM_GIVE. -/
def execWmGive (p : Plate) (core mem new : Nat) (s : State) : Host.Outcome State Fault Refusal :=
  .next (s.wmGive p core mem new)

/-- A core that the monitor held goes on in its world with the answer 0. -/
def Hart.released (h : Hart) : Hart := if h.prv = .m then { h.answered 0 [] with prv := .s } else h

/-- The end of a move (Table 14.3 steps 3 to 5): the range is filled with zeros, the watermark changes, and WM_GIVE returns 0 to the
world that gave the range. -/
def Mgmt.moved (m : Mgmt) (v : WmMove) : Mgmt :=
  let m := m.zeroFill m.moving
  let m := if v.lpddr then { m with wmLpddr := v.new, move := none } else { m with wmSram := v.new, move := none }
  let m := { m with replies := m.replies ++ [(v.core, 0, [])] }
  if m.worldOf v.core == v.world then m.updHart v.core Hart.released
  else { m with saved := m.saved.mod {} (2 * v.core + worldNum v.world) Hart.released }

/-- WM_SCRUB_DONE (Table 14.3 steps 3 to 5). -/
def execWmScrubDone (p : Plate) (s : State) : Host.Outcome State Fault Refusal :=
  .next (match (s.pl p).mgt.move with
  | some v => if s.up p then s.updMgt p fun m => m.moved v else s
  | none => s)

/-! ## Peripheral hand-over (R319, R320) -/

/-- Whether the watermark move in progress uses the block that is being given away: the manual names no block that a move uses,
so a free value answers. -/
def State.moveUses (s : State) (p : Plate) : Bool := (s.pl p).mgt.move.isSome && Config.freeNat s.free % 2 == 1

/-- RELEASE (R319, Table 14.5): by the owner only, and busy where a move uses the block; the block is stopped and reset, its
interrupts are discarded, and the new owner's anchor core is interrupted. -/
def State.releaseBlock (s : State) (p : Plate) (core block : Nat) : State :=
  let m := (s.pl p).mgt
  let w := m.worldOf core
  if !s.coreRuns p core then s
  else if 18 ≤ block then s.answer p core (-3) []
  else if m.owner block != w then s.answer p core (-4) []
  else if s.moveUses p then (s.tick 1).answer p core (-5) []
  else
    let s := if m.move.isSome then s.tick 1 else s
    let s := ((s.stopBlock p block).resetBlock p block).updMgt p fun m => { m with own := m.own ^^^ BitVec.ofNat 18 (2 ^ block) }
    (s.interrupt p w.other block).answer p core 0 []

/-- RELEASE. -/
def execRelease (p : Plate) (core block : Nat) (s : State) : Host.Outcome State Fault Refusal :=
  .next (s.releaseBlock p core block)

/-! ## Shedding and the raw page window (Table 14.7, R337) -/

/-- The shedding level that is due at `now` (R325): a level whose depth has held for 10 ms, or one level lower after 100 ms below
32. -/
def Mgmt.shedDue (m : Mgmt) (now : Nat) : Nat :=
  let held (t : Option Nat) (us : Nat) : Bool := (t.map fun t => decide (t + us ≤ now)).getD false
  if held m.deep2 10000 then 2
  else if held m.deep1 10000 then max 1 m.shed
  else if held m.shallow 100000 then m.shed - 1
  else m.shed

/-- SHED_LEVEL_CHANGE (R325, Table 14.7): the level that is due is entered; after a drop the 100 ms count afresh. -/
def execShedLevelChange (p : Plate) (s : State) : Host.Outcome State Fault Refusal :=
  let m := (s.pl p).mgt
  let n := m.shedDue s.clock
  .next (if s.up p then
    (s.updMgt p fun m => { m with shed := n, shallow := if n < m.shed then some s.clock else m.shallow }).updNvm p fun x =>
      { x with coalesce := n == 2 }
  else s)

/-- NVM_RAW_SELECT (R337): the secure world writes a physical page number; the page is shown in DEBUG only. -/
def execNvmRawSelect (p : Plate) (w : World) (page : Word) (s : State) : Host.Outcome State Fault Refusal :=
  .next (if w == .secure && s.up p then s.updNvm p fun n => { n with raw := page } else s)

end Sys2Proof.Machine
end

