-- ==== Sys2Proof/Machine/Migrate.lean ====
section
/-! DEFINITION. Migration: the package, its chunks and receipts (07 R183 to R186). -/

namespace Sys2Proof.Machine

/-! ## The payload (R184) -/

/-- One item of the payload: type, zero, index, bytes. A slot's index counts within its slice, which its bytes name. -/
def packItem (type index : Nat) (b : Bytes) : Bytes := leBytes 1 type ++ zeros 1 ++ leBytes 2 index ++ b

/-- Whether a slot moves: ACTIVE or CONT, and its key carries MIGRATABLE. -/
def Slot.moves (v : Slot) : Bool := (v.st == .active || v.st == .cont) && attrBit v.attr attrMigratable

/-- The ledger as it moves: entries of slot keys that stay behind are FREE, generations kept. -/
def Vault.movedLedger (v : Vault) : Tab Ledger :=
  let kept := (v.slots.filter fun e => e.2.moves).filterMap fun e => e.2.ledger
  v.ledger.mapv {} fun k e => if e.slug || e.st == .free || kept.contains k then e else { gen := e.gen }

/-- The payload of a package. -/
def Vault.payload (v : Vault) : Bytes :=
  let drk := fit 32 v.kr.drk
  let salt := fit 32 v.kr.salt
  let vek := vekOf drk salt
  let vik := vikOf drk salt
  let ledger := v.movedLedger
  drk ++ salt ++
  ((v.recs.filter fun e => e.2.st != .free).map fun e => packItem 1 e.1 (sliceRecordBytes vik e.1 e.2)).flatten ++
  ((v.slots.filter fun e => e.2.moves).map fun e =>
    packItem 2 (e.1 % 32) (slotBytes vek vik e.1 e.2 (v.slots.get {} (e.1 - 1)))).flatten ++
  ((List.range 65536).map fun k => packItem 3 k (ledgerPageBytes vik ledger k)).flatten

/-! ## Chunks (R184) -/

/-- Bytes of a chunk body ahead of the ciphertext. -/
def chunkHeadLen (i : Nat) : Nat := 48 + (if i = 0 then 1088 + 97 else 0)

/-- Payload bytes that chunk `i` may carry: a statement of at most 16,777,216 bytes. -/
def chunkRoom (i : Nat) : Nat := 16777216 - statementLen 0 - chunkHeadLen i - 16

/-- Where the payload of chunk `i` starts. -/
def chunkFrom (i : Nat) : Nat := if i = 0 then 0 else chunkRoom 0 + (i - 1) * chunkRoom 1

/-- Chunks of a payload of `n` bytes. -/
def chunkCount (n : Nat) : Nat := 1 + ceilDiv (n - chunkRoom 0) (chunkRoom 1)

/-- Length of the statement of chunk `i`. -/
def chunkLen (n i : Nat) : Nat := statementLen (chunkHeadLen i + min (chunkRoom i) (n - chunkFrom i) + 16)

/-- The IV of chunk `i`. -/
def chunkIv (i : Nat) : Bytes := beBytes 4 i ++ zeros 8

/-- The part of a chunk's body ahead of the ciphertext. -/
def chunkHead (h : Hold) (i count : Nat) : Bytes :=
  leBytes 4 i ++ leBytes 4 count ++ leBytes 8 h.c ++ fit 32 (Config.sha3 h.target) ++
  (if i = 0 then fit 1088 h.kemCt ++ fit 97 h.eph else [])

/-- The body of chunk `i`. -/
def chunkBody (h : Hold) (payload : Bytes) (i : Nat) : Bytes :=
  let head := chunkHead h i (chunkCount payload.length)
  let m := cut payload (chunkFrom i) (chunkRoom i)
  head ++ fit (m.length + 16) (Config.gcmSeal h.kek (chunkIv i) (Config.chunkAad head) m)

/-- The statement of chunk `i`, signed under the `k`-th of `m` pairs of random values from now. -/
def State.chunk (s : State) (p : Plate) (h : Hold) (payload : Bytes) (i k m : Nat) : Bytes :=
  signStatement (s.seed p) (s.statementHead p 0x05 [] (chunkBody h payload i)) (s.drawnAt p vaultInst (signDraws m) (2 * k))
    (s.drawnAt p vaultInst (signDraws m) (2 * k + 1))

/-- How many chunks from `i` on fit in `room` bytes. -/
def chunksThatFit (n count : Nat) : Nat → Nat → Nat → Nat
  | 0, _, _ => 0
  | fuel + 1, i, room =>
    if i < count ∧ chunkLen n i ≤ room then 1 + chunksThatFit n count fuel (i + 1) (room - chunkLen n i) else 0

/-! ## MIGRATE_OUT PACKAGE -/

/-- The identity parts of a genuine colophon (R181); none where a check fails. -/
def colophonIdentity (b : Bytes) : Option Bytes :=
  let n := leAt b 8 4
  if isStatement b 0x01 n && decide (0xDD8 ≤ n) && leAt b (0x60 + 0xDD4) 4 == n - 0xDD8 then
    match chainIdentity (cut b (0x60 + 0xDD8) (n - 0xDD8)) with
    | some id =>
      if id == cut b (0x60 + 0xD0) 3330 && fit 32 (Config.sha3 id) == cut b 0x10 32 && bothSigs b id n then some id else none
    | none => none
  else none

/-- Whether the target is OPERATIONAL and of the same editions. -/
def colophonFits (b : Bytes) : Bool := leAt b 6 1 == 0x3C && leAt b 7 1 == 0x11

/-- The package key for a target, with the two public halves of chunk 0 (R184): a fresh KEM encapsulation and a fresh ECDH
key. -/
def State.packageKey (s : State) (p : Plate) (id : Bytes) (c count : Nat) : Option Hold :=
  let l := [48, 32]
  let scalar := fit 48 (Config.scalarOf (s.drawnAt p vaultInst l 0))
  let eph := fit 97 (Config.pkPublic 0x45 scalar)
  let (ct, k) := Config.kemEncaps 0x51 (cut id 2049 1184) (s.drawnAt p vaultInst l 1)
  match Config.pkAgree 0x45 scalar (cut id 3233 97) with
  | some z =>
    let h : Hold := { target := id, c := c, kemCt := fit 1088 ct, eph := eph }
    some { h with kek := fit 32 (Config.sha3 (ascii "GK4096 import" ++ fit 32 k ++ fit 48 z ++
      fit 32 (Config.sha3 (chunkHead h 0 count)))) }
  | none => none

/-- Chunks from the next one on are written, as many as fit; OUT_SMALL where not one does, RANGE where none is left. -/
def State.writeChunks (s : State) (p : Plate) (j : Job) (h : Hold) : State :=
  let payload := (s.pl p).vlt.payload
  let n := payload.length
  let count := chunkCount n
  let m := chunksThatFit n count count h.next j.desc.outCap.toNat
  if count ≤ h.next then s.fail p j .range
  else if m = 0 then s.finish p j { status := .outSmall, outLen := chunkLen n h.next }
  else
    let l := (List.range m).map fun k => s.chunk p h payload (h.next + k) k m
    let first := if h.next = 0 then fit 32 (Config.sha3 (l.headD [])) else h.chunk0
    let s := (s.drew p vaultInst (signDraws m)).each (s.holders p) fun s q => s.updVlt q fun v => { v with
      hold := some { h with next := h.next + m, chunk0 := first } }
    s.finish p j { outLen := l.flatten.length, writes := [(j.desc.outAddr, l.flatten)] }

/-- Whether every ring has drained and no key-state change is under way on either plate. -/
def State.packageQuiet (s : State) (p : Plate) : Bool :=
  ((s.pl p).sl.impo.all fun e => e.2.st == .free || s.ringsEnded e.1 e.2.home) &&
  ((s.holders p).all fun q => (s.pl q).vlt.changes.isEmpty)

/-- Step 2 of Table 7.9, once the rings have drained: leases are forfeited, the source enters hold, and the package is
written. -/
def State.packageNext (s : State) (p : Plate) (j : Job) : State :=
  if !s.packageQuiet p then s
  else match colophonIdentity j.inp with
    | none => s.fail p j .authFail
    | some id =>
      let c := leAt j.inp (0x60 + 0x28) 8
      match s.packageKey p id c (chunkCount (s.pl p).vlt.payload.length) with
      | none => s.fail p j .authFail
      | some h =>
        let s := (s.drew p vaultInst [48, 32]).each (s.holders p) fun s q => s.updVlt q fun v =>
          { v with hold := some h, leases := [] }
        s.writeChunks p j h

/-- Step 2 of Table 7.9: the colophon is verified and every ring is disabled. DESIGN CHOICE (log 150): a PACKAGE during the hold that
names another target, or that comes when no chunk is left, completes with RANGE; R183 names no status for either. -/
def State.packageStart (s : State) (p : Plate) (j : Job) (b : Bytes) : State :=
  match colophonIdentity b with
  | none => s.fail p j .authFail
  | some id =>
    match (s.pl p).vlt.hold with
    | some h => if h.target == id then s.writeChunks p j h else s.fail p j .range
    | none =>
      let need := chunkLen (s.pl p).vlt.payload.length 0
      if !colophonFits b || s.lifecycle p != 0x3C then s.fail p j .range
      else match s.refuses p true with
        | some st => s.fail p j st
        | none =>
          if j.desc.outCap.toNat < need then s.finish p j { status := .outSmall, outLen := need }
          else
            let s := s.each ((s.pl p).sl.impo.filter fun e => e.2.st != .free) fun s e => s.disableRings e.1 e.2.home
            (s.updJob p j.ring j.index fun j => { j with inp := b }).packageNext p { j with inp := b }

/-- Whether a job is this phase of MIGRATE_OUT or MIGRATE_IN. -/
def Job.migPhase (j : Job) (op n : Nat) : Bool := j.ring == .admin && j.desc.op == op && j.desc.fl 2 2 == n

/-- The most values that a PACKAGE draws: two for its key, and two for each of its chunks, of which a vault fills at most 6. -/
def packageDraws : Nat := 14

/-- MIGRATE_OUT PACKAGE (R183, Table 7.9); one that waits for the rings to drain goes on. It waits for what it draws (R203). -/
def execMigrateOutPackage (r : JobRef) (colophon : Dma) (s : State) : Host.Outcome State Fault Refusal :=
  let p := r.plate
  .next (match s.jobAt r with
  | some j =>
    if !j.migPhase 0x8B 0 || s.drawWaits p vaultInst packageDraws then s
    else if j.stage == .running then s.packageNext p j
    else if s.impoBusy then s
    else s.admin r 0x8B fun s j => s.withInput p j colophon j.desc.inLen.toNat fun s b =>
      s.withQuorum p j b fun s => s.packageStart p j b
  | none => s)

/-! ## Receipts (R185, R186) -/

/-- The body of a receipt. -/
def receiptBody (source chunk0 : Bytes) (c outcome : Nat) : Bytes :=
  fit 32 source ++ fit 32 chunk0 ++ leBytes 8 c ++ leBytes 1 outcome

/-- Length of a receipt. -/
def receiptLen : Nat := statementLen 73

/-- MIGRATE_OUT CONFIRM with a receipt that verified: outcome 1 erases the roots on both plates, and the lifecycle becomes
KNOCKED_OUT; outcome 2 returns the source to service. -/
def State.confirmed (s : State) (p : Plate) (j : Job) (outcome : Nat) : State :=
  if outcome = 1 then
    let s := s.each (s.holders p) fun s q =>
      let s := (s.eraseRoot q).updVlt q fun v => { v with hold := none, cache := [], seqs := [] }
      (s.knockedOutPage q).record q 0x0500 8 0x55
    s.finish p j {}
  else if outcome = 2 then
    (s.each (s.holders p) fun s q => s.updVlt q fun v => { v with hold := none }).finish p j {}
  else s.fail p j .range

/-- A receipt read by a source (R186). DESIGN CHOICE (log 150): RANGE where nothing is held, for which R183 names no status. -/
def State.confirm (s : State) (p : Plate) (j : Job) (b : Bytes) : State :=
  match (s.pl p).vlt.hold with
  | none => s.fail p j .range
  | some h =>
    if b.length != receiptLen || !isStatement b 0x06 73 then s.fail p j .range
    else if (s.pl p).pr.mode == .partition then s.fail p j .partitioned
    else if cut b 0x10 32 != fit 32 (Config.sha3 h.target) || !bothSigs b h.target 73 then s.fail p j .authFail
    else if cut b 0x60 72 != (receiptBody (s.identityDigest p) h.chunk0 h.c 0).take 72 then s.fail p j .range
    else s.confirmed p j (leAt b (0x60 + 72) 1)

/-- MIGRATE_OUT CONFIRM (R186). -/
def execMigrateOutConfirm (r : JobRef) (receipt : Dma) (s : State) : Host.Outcome State Fault Refusal :=
  let p := r.plate
  .next (match s.jobAt r with
  | some j =>
    if !j.migPhase 0x8B 1 then s
    else s.admin r 0x8B fun s j => s.withInput p j receipt j.desc.inLen.toNat fun s b =>
      s.withQuorum p j b fun s => s.confirm p j b
  | none => s)

/-- A receipt signed by this device, and the draws it takes. -/
def State.receipt (s : State) (p : Plate) (source chunk0 : Bytes) (c outcome : Nat) : Bytes :=
  signStatement (s.seed p) (s.statementHead p 0x06 [] (receiptBody source chunk0 c outcome))
    (s.drawnAt p vaultInst (signDraws 1) 0) (s.drawnAt p vaultInst (signDraws 1) 1)

/-! ## MIGRATE_IN APPLY (R185) -/

/-- What the items of a payload make. `raw` holds the slots' bytes until all have been read. -/
structure Unpacked where
  recs   : Tab SliceRec := []
  raw    : Tab Bytes := []
  ledger : Tab Ledger := []
  deriving Repr

/-- The slice record that 256 bytes spell. -/
def parseRecord (b : Bytes) (st : VState) : SliceRec :=
  { st := st, seq := leAt b 0x08 8, nonce := cut b 0x10 32, imp := leAt b 0x30 8, impAlg := leAt b 0x38 1,
    impKey := cut b 0x40 32, eraA := leAt b 0x70 4, eraB := leAt b 0x74 4 }

/-- The ledger entry that 16 bytes spell. -/
def parseLedger (b : Bytes) (st : VState) : Ledger :=
  { st := st, limit2 := leAt b 1 1, lease2 := leAt b 2 1, slug := leAt b 3 1 == 1, slice := leAt b 4 2,
    granted := leAt b 6 6, gen := BitVec.ofNat 32 (leAt b 12 4), pair := leAt b 6 6 }

/-- A ledger page unpacked: every state byte of Table 6.11. -/
def unpackPage (t : Tab Ledger) (k : Nat) (b : Bytes) : Option (Tab Ledger) :=
  (List.range 16).foldl (fun t n => match t, stateOf (leAt b (16 * n) 1) with
    | some t, some st => some (t.set {} (16 * k + n) (parseLedger (cut b (16 * n) 16) st))
    | _, _ => none) (some t)

/-- One item at the head of `b`, with the bytes it takes; AUTH_FAIL where its tag or its state fails. -/
def unpackItem (vik : Bytes) (u : Unpacked) (b : Bytes) : Except Status (Unpacked × Nat) :=
  let index := leAt b 2 2
  let x := b.drop 4
  if leAt b 1 1 != 0 then .error .range
  else if leAt b 0 1 = 1 then
    if x.length < 256 || 4096 ≤ index then .error .range
    else if itemTag vik (ascii "slice") (leBytes 2 index) (cut x 0 0xF0) != cut x 0xF0 16 then .error .authFail
    else match stateOf (leAt x 0 1) with
      | some st => .ok ({ u with recs := u.recs.set {} index (parseRecord x st) }, 260)
      | none => .error .authFail
  else if leAt b 0 1 = 2 then
    let i := leAt x 2 2
    if x.length < 512 || 32 ≤ index || 4096 ≤ i then .error .range
    else if itemTag vik (ascii "slot") (leBytes 2 i ++ leBytes 1 index) (cut x 0 0x1F0) != cut x 0x1F0 16 then
      .error .authFail
    else .ok ({ u with raw := u.raw.set [] (slotKey i index) (cut x 0 512) }, 516)
  else if leAt b 0 1 = 3 then
    if x.length < 272 then .error .range
    else if itemTag vik (ascii "ledger") (leBytes 2 index) (cut x 0 256) != cut x 256 16 then .error .authFail
    else match unpackPage u.ledger index x with
      | some t => .ok ({ u with ledger := t }, 276)
      | none => .error .authFail
  else .error .range

/-- Every item of a payload. -/
def unpackAll (vik : Bytes) : Nat → Unpacked → Bytes → Except Status Unpacked
  | _, u, [] => .ok u
  | 0, _, _ => .error .range
  | fuel + 1, u, b =>
    match unpackItem vik u b with
    | .ok (u, n) => unpackAll vik fuel u (b.drop n)
    | .error e => .error e

/-- The slot that its 512 bytes, and those of the slot after it, spell; none where its state or its sealed material fails. -/
def parseSlot (vek : Bytes) (raw : Tab Bytes) (k : Nat) (b : Bytes) : Option Slot :=
  let m := leAt b 0x14 2
  let v (st : VState) (mat : Bytes) : Slot :=
    { st := st, alg := leAt b 1 1, attr := BitVec.ofNat 32 (leAt b 4 4), gen := BitVec.ofNat 32 (leAt b 8 4),
      ledger := if leAt b 0x0C 4 = 0xFFFFFFFF then none else some (leAt b 0x0C 4), kit := BitVec.ofNat 32 (leAt b 0x10 4),
      span := leAt b 0x16 2, created := leAt b 0x18 6, nonce := cut b 0x20 12, seq := leAt b 0x30 8, material := mat }
  match stateOf (leAt b 0 1) with
  | some .cont => some (v .cont [])
  | some .active =>
    let str := (cut b 0x40 432 ++ (if leAt b 0x16 2 = 2 then cut (raw.get [] (k + 1)) 0x40 96 else [])).take (m + 16)
    (Config.sivOpen vek (cut b 0x20 12) (cut b 0 0x40) str).map fun x => v .active (fit m x)
  | _ => none

/-- The slots of a package. -/
def parseSlots (vek : Bytes) (raw : Tab Bytes) : Option (Tab Slot) :=
  raw.foldl (fun t e => match t, parseSlot vek raw e.1 e.2 with
    | some t, some v => some (t.set {} e.1 v)
    | _, _ => none) (some [])

/-- Whether plate `p` can take a package: OPERATIONAL, and every slice, slot and ledger entry FREE. -/
def State.targetEmpty (s : State) (p : Plate) : Bool :=
  s.lifecycle p == 0x3C && ((s.pl p).sl.impo.all fun e => e.2.st == .free) &&
  ((s.pl p).vlt.recs.all fun e => e.2.st == .free) && ((s.pl p).vlt.slots.all fun e => e.2.st == .free) &&
  ((s.pl p).vlt.ledger.all fun e => e.2.st == .free)

/-- The last chunk has opened: every item is checked, the root and the vault of the package are adopted on both plates as one
change, and the receipt is written (R210, Table 7.9 step 5). -/
def State.applyLast (s : State) (p : Plate) (j : Job) (a : Apply) (payload : Bytes) : State :=
  let drk := cut payload 0 32
  let salt := cut payload 32 32
  if j.desc.outCap.toNat < receiptLen then s.finish p j { status := .outSmall, outLen := receiptLen }
  else if payload.length < 64 then s.fail p j .range
  else match unpackAll (vikOf drk salt) payload.length {} (payload.drop 64) with
    | .error e => s.fail p j e
    | .ok u => match parseSlots (vekOf drk salt) u.raw with
      | none => s.fail p j .authFail
      | some slots =>
        let b := s.receipt p a.source a.chunk0 (s.pl p).vlt.migration 1
        let r : Result := { outLen := b.length, writes := [(j.desc.outAddr, b)] }
        (s.drew p vaultInst (signDraws 1)).commitJob p j [.package drk salt u.recs slots u.ledger] r 0 (.finish j.ring j.index r)

/-- One chunk of a package (R185). -/
def State.applyChunk (s : State) (p : Plate) (j : Job) (b : Bytes) : State :=
  let n := leAt b 8 4
  let body := cut b 0x60 n
  let i := leAt body 0 4
  let a := ((s.pl p).vlt.apply).getD {}
  let head := body.take (chunkHeadLen i)
  let signer := cut b 0x10 32
  if !isStatement b 0x05 n || b.length != statementLen n || decide (n < chunkHeadLen i + 16) ||
      decide (16777216 < b.length) || !s.targetEmpty p || leAt body 8 8 != (s.pl p).vlt.migration || i != a.next ||
      decide (leAt body 4 4 ≤ i) || (i != 0 && (leAt body 4 4 != a.total || signer != a.source)) ||
      cut body 16 32 != s.identityDigest p then s.fail p j .range
  else if !bothSigs b (Config.identityOf signer) n then s.fail p j .authFail
  else
    let kek := if i = 0 then importKek (s.seed p) (cut body 48 1088) (cut body 1136 97) (fit 32 (Config.sha3 head)) else some a.kek
    match kek.bind fun k => (Config.gcmOpen k (chunkIv i) (Config.chunkAad head) (body.drop (chunkHeadLen i))).map
        fun m => (k, fit (n - chunkHeadLen i - 16) m) with
    | none => s.fail p j .authFail
    | some (k, m) =>
      let a : Apply := { next := i + 1, total := leAt body 4 4, source := signer, kek := k, gathered := a.gathered ++ m,
                         chunk0 := if i = 0 then fit 32 (Config.sha3 b) else a.chunk0 }
      if a.next = a.total then s.applyLast p j a a.gathered
      else (s.each (s.holders p) fun s q => s.updVlt q fun v => { v with apply := some a }).finish p j {}

/-- MIGRATE_IN APPLY (R185). -/
def execMigrateInApply (r : JobRef) (chunk : Dma) (s : State) : Host.Outcome State Fault Refusal :=
  let p := r.plate
  .next (match s.jobAt r with
  | some j =>
    if !j.migPhase 0x8C 0 || !s.canDeal p then s
    else if s.impoBusy then s
    else s.admin r 0x8C fun s j => s.withInput p j chunk j.desc.inLen.toNat fun s b =>
      s.withQuorum p j b fun s => match s.refuses p false with
        | some st => s.fail p j st
        | none => s.applyChunk p j b
  | none => s)

/-- ABANDON: the counter rises, and a receipt with outcome 2 is written for the package begun; before any chunk the two digests
in it are not stated, and are free. -/
def State.abandonPackage (s : State) (p : Plate) (j : Job) : State :=
  if j.desc.outCap.toNat < receiptLen then s.finish p j { status := .outSmall, outLen := receiptLen }
  else match s.refuses p false with
    | some st => s.fail p j st
    | none =>
      let c := (s.pl p).vlt.migration
      let (source, chunk0) := match (s.pl p).vlt.apply with
        | some a => (a.source, a.chunk0)
        | none => (s.unknownAt 0 32, s.unknownAt 1 32)
      let b := s.receipt p source chunk0 c 2
      (((s.drew p vaultInst (signDraws 1)).tick 2).each (s.holders p) fun s q =>
        s.updVlt q fun v => { v with migration := c + 1, apply := none }).finish p j
        { outLen := b.length, writes := [(j.desc.outAddr, b)] }

/-- MIGRATE_IN ABANDON (R185). -/
def execMigrateInAbandon (r : JobRef) (s : State) : Host.Outcome State Fault Refusal :=
  let p := r.plate
  .next (match s.jobAt r with
  | some j => if j.migPhase 0x8C 1 && s.canDraw p vaultInst 2 then s.admin r 0x8C fun s j => s.withQuorum p j [] fun s => s.abandonPackage p j else s
  | none => s)

end Sys2Proof.Machine
end

