-- ==== Sys2Proof/Machine/Logging.lean ====
section
/-! DEFINITION. LOG_MODE and LOG_EXPORT (15 R346, R348, R349, Table 15.11). -/

namespace Sys2Proof.Machine

/-! ## LOG_MODE (R348) -/

/-- The fields of a LOG_MODE record are in range (R346, R348). -/
def logModeOk (b : Bytes) : Bool :=
  let n := leAt b 4 4
  leAt b 0 1 == 1 && decide (leAt b 1 1 ≤ 1 ∧ leAt b 2 1 ≤ 1) && leAt b 3 1 == 0 && allZero (cut b 8 8) &&
  (if leAt b 1 1 = 1 then n == 0 else decide (1024 ≤ n ∧ n ≤ 131072))

/-- Whether a record changes the mode or N of plate `p`'s log, and that log holds a record. -/
def State.logKept (s : State) (p : Plate) (stop : Bool) (n : Nat) : Bool :=
  let x := (s.pl p).nvm
  (x.stopFull != stop || (!stop && x.head != n)) && !x.log.isEmpty

/-- LOG_MODE with its session consumed. -/
def State.setLogMode (s : State) (p : Plate) (j : Job) (b : Bytes) : State :=
  let stop := leAt b 1 1 == 1
  let clear := leAt b 2 1 == 1
  let n := leAt b 4 4
  if !s.gutterUp p then s.fail p j .partitioned
  else if !logModeOk b || (!clear && [Plate.a, Plate.b].any fun q => s.logKept q stop n) then s.fail p j .range
  else match s.refuses p false with
    | some st => s.fail p j st
    | none =>
      let s := if clear then s.each (s.holders p) fun s q => s.updNvm q fun v => { v with clearing := true } else s
      s.commitJob p j [.logMode stop (if stop then (s.pl p).nvm.head else n) clear] {} 0 (.finish j.ring j.index {})

/-- LOG_MODE (R348). -/
def execLogMode (r : JobRef) (rec : Dma) (s : State) : Host.Outcome State Fault Refusal :=
  let p := r.plate
  .next (s.admin r 0x8E fun s j => s.withInput p j rec 16 fun s b => s.withQuorum p j b fun s => s.setLogMode p j b)

/-! ## LOG_EXPORT (R349) -/

/-- A record put in its place in sequence order from `from_`. -/
def insertRecord (from_ : Word) (r : Record) : List Record → List Record
  | [] => [r]
  | x :: t => if dist r.seq from_ < dist x.seq from_ then r :: x :: t else x :: insertRecord from_ r t

/-- The records available from sequence number `from_` on, in sequence order (serial arithmetic, R347). -/
def Nvm.available (n : Nvm) (from_ : Word) : List Record :=
  ((n.log.map Prod.snd).filter fun r => decide (dist r.seq from_ < 2 ^ 31)).foldr (insertRecord from_) []

/-- The body of a log chunk (Table 15.11). -/
def logChunkBody (p : Plate) (n : Nvm) (from_ first : Word) (l : List Record) : Bytes :=
  let next := match l.getLast? with
    | some r => r.seq + 1
    | none => from_
  leBytes 1 p.num ++ leBytes 1 (bit n.stopFull) ++ zeros 2 ++ leBytes 4 (if n.stopFull then 0 else n.head) ++
  leBytes 4 first.toNat ++ leBytes 4 l.length ++ leBytes 4 next.toNat ++ leBytes 4 (dist next from_ - l.length) ++ zeros 8 ++
  (l.map (recordBytes p)).flatten

/-- The chunk is written; with no record in it the number of its first record is not stated, and is free. -/
def State.exportLog (s : State) (p : Plate) (j : Job) (challenge : Bytes) : State :=
  let from_ := BitVec.ofNat 32 j.desc.param.toNat
  let all := (s.pl p).nvm.available from_
  let cap := j.desc.outCap.toNat
  let need := statementLen 32 + (if all.isEmpty then 0 else 128)
  if cap < need then s.finish p j { status := .outSmall, outLen := need }
  else
    let l := all.take (min 8192 ((cap - statementLen 32) / 128))
    let first := (l.head?.map Record.seq).getD (BitVec.ofNat 32 (leNat (s.unknown 4)))
    let head := s.statementHead p 0x03 challenge (logChunkBody p (s.pl p).nvm from_ first l)
    let l := signDraws 1
    let b := signStatement (s.seed p) head (s.drawnAt p vaultInst l 0) (s.drawnAt p vaultInst l 1)
    ((s.drew p vaultInst l).tick 1).finish p j { outLen := b.length, writes := [(j.desc.outAddr, b)] }

/-- LOG_EXPORT (R349): the log of the plate whose admin ring carries it; it waits for the values that sign it (R203). -/
def execLogExport (r : JobRef) (challenge : Dma) (s : State) : Host.Outcome State Fault Refusal :=
  let p := r.plate
  .next (if s.drawWaits p vaultInst 2 then s else s.admin r 0x8D fun s j =>
    if j.desc.aadLen = 0 then s.exportLog p j []
    else s.withInput p j challenge 32 fun s b => s.exportLog p j b)

end Sys2Proof.Machine
end

