-- ==== Sys2Proof/Machine/Firmware.lean ====
section
/-! DEFINITION. FW_MAKEREADY, FW_SWAP, and the times of a makeready (09 R228 to R230, Table 9.10; 14 R327 to R329; 00 R4). -/

namespace Sys2Proof.Machine

/-! ## The bundle (R327, R328) -/

/-- Bytes of an image beyond its code: header, signer public parts and both signatures. -/
def imageOver : Nat := 128 + 97 + 1952 + 96 + 3309

/-- Whether the header of an image has the fields of Table 14.10 for a world, and the part's editions (R4). -/
def imageHeaderOk (b : Bytes) (secure : Bool) : Bool :=
  cut b 0 4 == [0x46, 0x52, 0x53, 0x41] && leAt b 4 1 == 1 && leAt b 5 1 == (if secure then 1 else 2) &&
  leAt b 6 1 == 0x11 && leAt b 7 1 == 0 && allZero (cut b 0x60 32) && decide (b.length ≤ 8388608)

/-- Whether the digests and both signatures of an image hold. -/
def imageSigned (b : Bytes) : Bool :=
  let n := leAt b 0x0C 4
  let signer := cut b (128 + n) 2049
  let covered := b.take (128 + n + 2049)
  cut b 0x20 32 == fit 32 (Config.sha3 (cut b 128 n)) && cut b 0x40 32 == fit 32 (Config.sha3 signer) &&
  sigOk 0x41 (cut signer 0 97) [] covered (cut b (128 + n + 2049) 96) &&
  sigOk 0x59 (cut signer 97 1952) (ascii "GK4096 firmware") covered (cut b (128 + n + 2145) 3309)

/-- The image that verified bytes make. -/
def imageOf (b : Bytes) : Image := { version := leAt b 8 4, signer := cut b 0x40 32, whole := b, valid := true }

/-- Where the second image of a bundle starts. -/
def bundleSplit (b : Bytes) : Nat := imageOver + leAt b 0x0C 4

/-- The lengths of a bundle add up, and both headers fit the part. -/
def bundleShaped (b : Bytes) : Bool :=
  let k := bundleSplit b
  decide (k + imageOver + leAt b (k + 0x0C) 4 = b.length) && imageHeaderOk (b.take k) true && imageHeaderOk (b.drop k) false

/-- Step 2 of Table 9.10: the images of a bundle, or the status that refuses it: RANGE for its lengths, headers, editions and
versions, AUTH_FAIL for its digests, signers and signatures. -/
def State.checkBundle (s : State) (p : Plate) (b : Bytes) : Except Status (Image × Image) :=
  let k := bundleSplit b
  if !bundleShaped b then .error .range
  else
    let i := imageOf (b.take k)
    let n := imageOf (b.drop k)
    let m := (s.pl p).mgt
    if !(imageSigned (b.take k) && imageSigned (b.drop k) && signerOk (s.policy p) true i.signer &&
        signerOk (s.policy p) false n.signer) then .error .authFail
    else if i.version < m.minVersion true i || n.version < m.minVersion false n then .error .range
    else .ok (i, n)

/-! ## Starting a makeready (Table 9.10 steps 2 and 3) -/

/-- Every slice that the other plate homes is handed over to plate `x`, which keeps the images for step 4 and how many pages of the
other plate's partition are to fail there. In NO_WRITE nothing is handed over (R341). -/
def State.beginMakeready (s : State) (x : Plate) (j : Job) (swap : Bool) (i n : Image) (bad : Nat) : State :=
  let homed := ((s.pl x).sl.impo.filter fun e => e.2.st != .free && e.2.home == x.peer).map Prod.fst
  if !homed.isEmpty && s.wear x == 3 then s.fail x j .vaultRo
  else
    let k := { step := 3, index := j.index, swap := swap, slices := homed, since := s.clock, imgS := i, imgN := n, bad := bad }
    ((s.updPr x fun r => { r with makeready := some k }).record x 0x0513 9 3).makereadyNext x

/-- Whether both plates are PAIRED and the plate `x` may run a makeready now. DESIGN CHOICE (log 144): a second one while a
makeready is in progress completes with RANGE; R228 names no status for it. -/
def State.makereadyFree (s : State) (x : Plate) : Bool :=
  s.gutterUp x && (s.pl x).pr.mode == .paired && (s.pl x.peer).pr.mode == .paired && (s.pl x).pr.makeready.isNone &&
  (s.pl x.peer).pr.makeready.isNone

/-- FW_MAKEREADY (R228). -/
def execFwMakeready (r : JobRef) (bundle : BundleInput) (s : State) : Host.Outcome State Fault Refusal :=
  let x := r.plate
  .next (if s.impoBusy then s
    else s.admin r 0x88 fun s j => s.withInput x j bundle.data j.desc.inLen.toNat fun s b =>
      s.withQuorum x j b fun s =>
        if !s.makereadyFree x || j.desc.fl 2 1 != x.peer.num then s.fail x j .range
        else match s.checkBundle x b with
          | .error st => s.fail x j st
          | .ok (i, n) => s.beginMakeready x j false i n bundle.bad)

/-- FW_SWAP (R228): the active images of the plate that carries the command go to the other plate. -/
def execFwSwap (r : ImageJob) (s : State) : Host.Outcome State Fault Refusal :=
  let x := r.job.plate
  .next (if s.impoBusy then s
    else s.admin r.job 0x89 fun s j =>
      if !s.makereadyFree x then s.fail x j .range
      else s.beginMakeready x j true (s.pl x).mgt.imgS (s.pl x).mgt.imgN r.bad)

/-! ## Times (R229, R230) -/

/-- MAKEREADY_BOOT_TIMEOUT (R229): 5 s after its reset the other plate has not reached RESYNC on the new images; its boot ROM
restores the previous ones, and it starts again, with a reset under the token where it is not in one (R235). -/
def execMakereadyBootTimeout (p : Plate) (s : State) : Host.Outcome State Fault Refusal :=
  let y := p.peer
  .next (match (s.pl p).pr.makeready with
  | some k =>
    if k.step == 5 && !k.fell && s.past k.since 5000000 && 
        !(s.up y && (s.pl y).pr.mode == .resync && !(s.pl y).mgt.slotS && !(s.pl y).mgt.slotN) then
      let again := s.up y
      let s := (s.updPr p fun r => { r with makeready := some { k with fell := true, step := if again then 4 else 5 } }).updMgt y
        Mgmt.swapSlots
      if again then s.askToken y else s
    else s
  | none => s)

/-- MIXED_FW_TIMEOUT (R230): 24 h after step 7 the plates still run different images. -/
def execMixedFwTimeout (p : Plate) (s : State) : Host.Outcome State Fault Refusal :=
  let r := (s.pl p).pr
  .next (if s.up p && !r.mixed && !s.sameImages && ((r.mixedFrom.map fun t => s.past t 86400000000).getD false) then
    s.each [.a, .b] fun s q => (s.updPr q fun r => { r with mixed := true }).raise q 9
  else s)

end Sys2Proof.Machine
end

