-- ==== Sys2Proof/Machine/Nvm.lean ====
section
/-! DEFINITION. Work that the NVM controller, the recorder and the key cache do by the clock (15 R338 to R340, R344, R345; 06 R142). -/

namespace Sys2Proof.Machine

/-- The operating time stored, marked clean or not; in NO_WRITE it is no longer stored (R339, R341). -/
def State.storeOptime (s : State) (p : Plate) (clean : Bool) : State :=
  if (s.pl p).nvm.noWrite then s
  else s.updNvm p fun n => { n with stored := s.optime p, clean := clean }

/-- OPTIME_STORE (R339): 60,000 ms of operating time have passed since the last store. -/
def execOptimeStore (p : Plate) (s : State) : Host.Outcome State Fault Refusal :=
  let n := (s.pl p).nvm
  .next (if s.up p && !n.noWrite && decide (n.stored + 60000 ≤ s.optime p) then
    (s.storeOptime p false).startGroup p { pages := [systemLpn 5], kind := .page }
  else s)

/-- WEAR_LEVEL_REWRITE (R340): the page that holds logical page `lpn`, where its cycle count lies more than 20,000 below that of the
most-worn page, is rewritten to the most-worn free page by an ordinary group of one page; its content stays. -/
def execWearLevelRewrite (p : Plate) (lpn : Nat) (s : State) : Host.Outcome State Fault Refusal :=
  let n := (s.pl p).nvm
  .next (if s.up p && decide (lpn < 344064) && decide ((n.page (n.pageOf lpn)).cycles + 20000 < n.mostWorn) && !n.noWrite then
    s.startGroup p { pages := [lpn], kind := .wear }
  else s)

/-- A staged record is programmed into the log, which took `k` pulses, where its window and its mode admit it (R338, R344,
R345). -/
def State.recordOut (s : State) (p : Plate) (r : Record) (priority : Bool) (k : Nat) : State :=
  let n := (s.pl p).nvm
  (if n.full || decide (windowLimit priority ≤ n.inWindow) then s else s.logProgrammed p k).writeLog p r priority

/-- RECORD_WRITE (R344): the oldest priority record, or else the oldest ordinary record that is not held for coalescing, reaches
NVM. -/
def execRecordWrite (x : LogProgram) (s : State) : Host.Outcome State Fault Refusal :=
  let p := x.plate
  let s := s.rollWindow p
  let n := (s.pl p).nvm
  .next (match n.priority with
  | r :: t => (s.updNvm p fun n => { n with priority := t }).recordOut p r true x.pulses
  | [] =>
    match n.staged with
    | (r, _) :: t =>
      if n.coalesce || r.merged != 0 then s
      else (s.updNvm p fun n => { n with staged := t }).recordOut p r false x.pulses
    | [] => s)

/-- COALESCE_FLUSH (R345): the oldest staged record is written 1,000 ms after its trigger, with its MERGED count. -/
def execCoalesceFlush (x : LogProgram) (s : State) : Host.Outcome State Fault Refusal :=
  let p := x.plate
  let s := s.rollWindow p
  .next (match (s.pl p).nvm.staged with
  | (r, at_) :: t =>
    if s.past at_ 1000000 then (s.updNvm p fun n => { n with staged := t }).recordOut p r false x.pulses else s
  | [] => s)

/-- MASK_EPOCH_ADVANCE (R142): 64 ms after the last advance. -/
def execMaskEpochAdvance (p : Plate) (s : State) : Host.Outcome State Fault Refusal :=
  .next (if s.up p && s.past (s.pl p).vlt.maskAt 64000 then
    (s.updVlt p fun v => { v with maskEpoch := v.maskEpoch + 1, maskAt := s.clock }).remask p
  else s)

end Sys2Proof.Machine
end

