-- ==== Sys2Proof/Machine/Power.lean ====
section
/-! DEFINITION. Start-up, power-down, PERST#, the PCIe island, the timebase, AVSBus, MCTP and the TAP (16; 02 R23; 06 R136 to R143;
08 R196; 12 R281 to R283, R288; 13 R308; 17 R365). -/

namespace Sys2Proof.Machine

/-! ## PWRGOOD (R288, R339, R361) -/

/-- PWRGOOD is asserted: CLKREQ# is held low (R354), operating time runs, and Plate A holds the reset token (R235). A PWRGOOD
that is asserted already changes nothing. -/
def State.risePwrgood (s : State) : State :=
  if s.pwrgood then s
  else { s.each [.a, .b] fun s p => (s.updNvm p fun n => { n with optimeUs := s.clock }).updPr p fun r =>
           { r with token := p == .a } with
         pwrgood := true, clkreqLow := true }

/-- What the plate does before it writes any record (R339): the power-cycle count rises, operating time resumes above every
value reported before and is stored, and the clean mark is cleared. -/
def Nvm.powerCycle (n : Nvm) (now : Nat) : Nvm :=
  let t := n.stored + if n.clean then 1 else 60000
  let n := { n with pcycle := n.pcycle + 1, optime := t, optimeUs := now }
  if n.noWrite then n else { n with stored := t, clean := false }

/-- Plate `p` begins its start-up from power-off. A knockout channel that the Margin holds asserts its line (R256). -/
def State.fromOff (s : State) (p : Plate) : State :=
  let g := s.margin
  ((s.risePwrgood.updPow p fun w => { w with phase := .reset, bootAt := s.clock, resetAt := s.clock }).updNvm p fun n =>
    n.powerCycle s.clock).updTmp p fun t =>
      { t with marginKo := if g.ko && decide (s.clock < g.koAt + 10000) then some g.koInput else none }

/-! ## Steps 1 to 3 of Table 16.7 -/

/-- Four values of 32 bytes that every plate reset draws from instance 4,100; a plate whose start-up has halted has none to
draw, and what stands in their place is free (log 32). -/
def State.bootDraw (s : State) (p : Plate) (i : Nat) : Bytes :=
  if s.gives p then s.drawnAt p vaultInst [32, 32, 32, 32] i else s.unknownAt i 32

/-- What is drawn at every plate reset: boot nonce, mask and permutation keys (R140, R142, R143), LCS_DBG_NONCE (R252). -/
def State.drawBoot (s : State) (p : Plate) : State :=
  let t := if s.gives p then s.drew p vaultInst [32, 32, 32, 32] else s.tick 4
  (t.updVlt p fun v => { v with
    bootNonce := s.bootDraw p 0, maskKey := s.bootDraw p 1, permKey := s.bootDraw p 2, maskAt := s.clock }).updCus p fun c =>
    { c with dbgNonce := s.bootDraw p 3 }

/-- Bits in which two byte strings differ. -/
def bitErrors (a b : Bytes) : Nat := ((xorBytes a b).map fun x => ((List.range 8).filter x.getLsbD).length).sum

/-- A block of the response XOR the helper data decodes: its 32 bits and its bit errors, at most 15 (R281). -/
def decodeBlock (b : Bytes) : Option (Bytes × Nat) :=
  (Config.chaseDecode b).bind fun w =>
    let n := bitErrors b (fit 16 (Config.chaseCode (fit 4 w)))
    if n ≤ 15 then some (fit 4 w, n) else none

/-- The corrected chase response of plate `p`, block 0 first, and the errors corrected in all: where there is helper data and
every block decodes (R281). -/
def State.chaseDecoded (s : State) (p : Plate) (c : ChaseReading) : Option (Bytes × Nat) :=
  (s.pl p).tmp.helper.bind fun h =>
    let x := xorBytes (fit 128 c.response) (fit 128 h)
    (List.range 8).foldl (fun acc k => acc.bind fun a => (decodeBlock (cut x (16 * k) 16)).map fun b => (a.1 ++ b.1, a.2 + b.2))
      (some ([], 0))

/-- Errors corrected in all. -/
def State.chaseCorrected (s : State) (p : Plate) (c : ChaseReading) : Nat := ((s.chaseDecoded p c).map Prod.snd).getD 0

/-- The SBK of plate `p`, where its helper data corrects the reading (R136, R281). -/
def State.sbkFrom (s : State) (p : Plate) (c : ChaseReading) : Option Bytes := (s.chaseDecoded p c).map fun x => sbkOf p x.1

/-- DRK ‖ salt, where the root page opens under the SBK (R138). -/
def State.rootOpened (s : State) (p : Plate) (c : ChaseReading) : Option Bytes :=
  (s.sbkFrom p c).bind fun k => (s.pl p).vlt.root.bind fun r => r.opened k

/-- Whether the root page opens. -/
def State.rootOpens (s : State) (p : Plate) (c : ChaseReading) : Bool := (s.rootOpened p c).isSome

/-- The key registers after the chase was measured: the SBK and the identity sealing key, and where the root page opened, what
Table 6.3 derives from it (R136, R140). -/
def State.registers (s : State) (p : Plate) (c : ChaseReading) : KeyRegs :=
  let k : KeyRegs := { sbk := (s.sbkFrom p c).getD [], idKey := idKeyOf p }
  match s.rootOpened p c with
  | some b => k.derive p (cut b 0 32) (cut b 32 32) (s.pl p).vlt.bootNonce
  | none => k

/-- The chase is measured and the root derived; the sources are armed. More than 30 errors refresh the helper data (R282,
R288). -/
def State.measureChase (s : State) (p : Plate) (c : ChaseReading) : State :=
  let opens := s.rootOpens p c
  let s := (s.updTmp p fun t => { t with armed := true, corrected := s.chaseCorrected p c }).updVlt p fun v =>
    { v with keys := opens, kr := s.registers p c, mounted := opens, testRoot := opens && s.lifecycle p == 0x5A }
  match s.chaseDecoded p c with
  | some x =>
    if opens && decide (30 < x.2) then
      s.startGroup p { kind := .page, items := [.helper (helperFor c.response x.1)] }
    else s
  | none => s

/-- Whether the lifecycle calls for a root (R283). -/
def State.needsRoot (s : State) (p : Plate) : Bool := s.lifecycle p == 0x3C || s.lifecycle p == 0x5A

/-! ## Step 4: the vault and the relation to the peer -/

/-- The volatile epoch rises after every reset (R91), short of NO_WRITE (R341). -/
def State.raiseEpoch (s : State) (p : Plate) : State :=
  if (s.pl p).nvm.noWrite then s.updVlt p fun v => { v with epochUp := false }
  else s.stepEpoch p

/-- Whether plate `p` returns homing nothing: its peer homes every slice in SOLE or as the serving plate of a RESYNC (R226,
R308). -/
def State.rejoins (s : State) (p : Plate) : Bool :=
  let q := (s.pl p.peer).pr
  s.up p.peer && s.homesAll p.peer && (q.mode == .sole || (q.mode == .resync && !q.rejoin))

/-- Plate `p` homes nothing and waits for its resync: the peer's imposition table holds. -/
def State.startRejoin (s : State) (p : Plate) : State :=
  (((s.updPr p fun r => { r with mode := .resync, rejoin := true }).updSl p fun x =>
    { x with impo := (s.pl p.peer).sl.impo, rings := [], regs := [], ops := [], adm := {}, admPi := 0 }).updVlt p fun v =>
    { v with savedWin := [] })

/-- The relation of a plate that keeps its homes (R308, Table 9.4): PAIRED after power-up with a peer that is PAIRED or
absent, whose vault is then reconciled; otherwise as after a partition with a peer in service, and SOLE without one. -/
def State.startRelation (s : State) (p : Plate) (cold : Bool) : State :=
  let m := (s.pl p.peer).pr.mode
  if !s.up p.peer then s.updPr p fun r => { r with mode := if cold then .paired else .sole }
  else if cold && m == .paired then (s.updPr p fun r => { r with mode := .paired }).mergeVaults
  else if m == .paired || m == .partition || m == .sole then
    s.updPr p fun r => { r with mode := .partition, reconciling := true }
  else s.updPr p fun r => { r with mode := .sole }

/-- Registers and buckets of the slices of a plate after its start-up: what SLICE_CREATE gives where the set-up was lost, and
buckets that start at 0. -/
def State.startSlices (s : State) (p : Plate) : State :=
  let mine := ((s.pl p).sl.impo.filter fun e => e.2.st != .free).map Prod.fst
  s.updSl p fun x => mine.foldl (fun x i => { x with
    regs := x.regs.mod {} i fun r => if r = {} then createdRegs else r
    buckets := x.buckets.set {} i { atUs := s.clock } }) x

/-- The vault is mounted: items in ERASING are taken to step 6 before any job is served (R189). -/
def State.mountVault (s : State) (p : Plate) : State := if (s.pl p).vlt.mounted then s.finishErasing p fun _ => true else s

/-! ## Steps 6 to 9 -/

/-- Windows of a plate that has reset alone, as R225 takes them. -/
def savedTab (t : Tab (Word × Word × Word × Word)) : Tab Window :=
  t.map fun e => (e.1, { fetched := e.2.1, low := e.2.2.1, count := e.2.2.2.1, nLow := e.2.2.2.2 })

/-- A plate that has reset alone resolves its rings from the saved windows before it fetches again, in the role of survivor
and with flags.MOVED clear (R308). -/
def State.resolveSaved (s : State) (p : Plate) (scans : List RingScan) : State :=
  let t := savedTab (s.pl p).vlt.savedWin
  let wins := t.filter fun e => e.1 != admKey
  let slices := ((wins.map fun e => e.1 / 16).eraseDups).filter fun i => (s.impo p i).st != .free && (s.impo p i).home == p
  let s := s.each slices fun s i => s.resolveSlice p i wins scans p false
  let s := if (s.ring p .admin).active && t.any (fun e => e.1 == admKey) then
      s.resolveRing p .admin (t.get {} admKey) { adminScan scans with p := some (s.pl p).sl.admPi } p false
    else s
  s.updVlt p fun v => { v with savedWin := [] }

/-- PLT_STATUS.SERVING is set (step 9); Plate B follows Plate A. -/
def State.startServing (s : State) (p : Plate) : State :=
  let on (s : State) (p : Plate) : State := s.updPow p fun w => { w with serving := true, step := 9 }
  let a := s.pl .a
  if !(s.pl p).pow.ready then s
  else if p == .b && s.up .a && !a.pow.serving && (s.pl p).pr.mode == .paired then s
  else if p == .b && !s.up .a && (s.pl p).pr.mode == .paired then s
  else
    let s := on s p
    if p == .a && (s.pl .b).pow.ready && s.up .b then on s .b else s

/-- The link is up, trained to a width and a rate, and the function answers. -/
def State.linkStart (s : State) (p : Plate) (x : LinkShape) : State :=
  s.updPow p fun w => { w with linkUp := true, cfgReady := true, lanes := x.lanes, gen := x.gen }

/-- Steps 6 to 9: link, configuration requests, READY with its record, the rings left by a reset alone, service. -/
def State.bringUp (s : State) (p : Plate) (x : LinkShape) (scans : List RingScan) : State :=
  let ms := min 65535 ((s.clock - (s.pl p).pow.bootAt) / 1000)
  let s := (s.linkStart p x).updPow p fun w => { w with ready := true, step := 8, startMs := ms }
  let s := (s.refreshOut p).record p 0x0001 0 (BitVec.ofNat 32 ms)
  (s.resolveSaved p scans).startServing p

/-- The watchdogs and heartbeats of a plate that has started up are counted from now. -/
def State.startClocks (s : State) (p : Plate) : State :=
  (s.updPr p fun r => { r with
    wdFed := s.clock, leftReset := s.clock, hbAt0 := s.clock, hbAt1 := s.clock }).updMgt p fun m =>
    { m with secAt := s.clock, nrmAt := s.clock }

/-- Each plate tells the other its wear state and its epoch (R154, R341). -/
def State.exchange (s : State) (p : Plate) : State :=
  s.each [p, p.peer] fun s q =>
    if s.up q then (s.send q (.wear (s.pl q).nvm.state)).send q (.epoch (s.pl q).vlt.epoch) else s

/-- Steps 1 to 5 of Table 16.7 on plate `p`; `cold`: after power-up. A chase that does not decode, missing helper data or a
root page that does not open is ROOT_LOST where the lifecycle calls for a root (R283). A peer that waited with the token for this
plate to leave reset goes on (R235). Where random start-up failed the collector, now in service, is told (R204). -/
def State.startCore (s : State) (p : Plate) (chase : ChaseReading) (rand : RandomStart) (cold : Bool) : State :=
  let lost := s.needsRoot p && !s.rootOpens p chase
  let s := ((s.startRandom p rand).drawBoot p).measureChase p chase
  let s := s.raiseEpoch p
  let s := if s.rejoins p then s.startRejoin p else ((s.startRelation p cold).mountVault p).startSlices p
  let s := (s.updMgt p fun m => { m with memKey := (s.pl p).vlt.kr.lpddr }).bootImages p .running
  let s := ((s.updPow p fun w => { w with phase := .running, step := 5 }).updTmp p fun t => { t with alarmOn := false }).startClocks p
  let s := s.exchange p
  let s := (s.refreshOut p).useToken p.peer
  let s := if (s.pl p).rng.st == .halted then s.raise p 27 else s
  if lost then s.tamper p 36 p.num 0 else s

/-- Whether plate `p` may leave reset: it is not held by the fence, and its PERST# is released (R216, R362). -/
def State.mayStart (s : State) (p : Plate) : Bool :=
  let w := (s.pl p).pow
  w.phase == .reset && s.pwrgood && !w.fenced && !w.perst

/-- POWER_UP (R361): PWRGOOD rises, or the plate leaves a reset and boots as from power-up. `chase`: what the measurement of
R281 shows and what random start-up finds; `scans`: what the plate reads in host memory for rings left by a reset alone. -/
def execPowerUp (p : Plate) (chase : StartReading) (scans : List RingScan) (s : State) :
    Host.Outcome State Fault Refusal :=
  let cold := (s.pl p).pow.phase == .off
  .next (if !cold && !s.mayStart p then s
    else
      let s := (if cold then s.fromOff p else s).startCore p chase.chase chase.rand cold
      if (s.pl p).pow.perst then s else s.bringUp p chase.link scans)

/-! ## Power-down (R288, R339, R344) -/

/-- Staged records that can be written within 2 ms are written; how many is a free value, and so is whether the next one is torn: a
torn record fails its CRC, and the one that stood at its position is gone (R344, R347). -/
def State.flushStaged (s : State) (p : Plate) : State :=
  let n := (s.pl p).nvm
  let l := (n.priority.map fun r => (r, true)) ++ n.staged.map fun e => (e.1, false)
  let k := Config.freeNat s.free % (l.length + 1)
  let torn := decide (k < l.length) && Config.freeNat s.free / (l.length + 1) % 2 == 1 && !n.full
  ((s.tick 1).each (l.take k) fun s e => s.writeLog p e.1 e.2).updNvm p fun n => { n with
    priority := [], staged := [], log := if torn then n.log.set {} n.nextPos {} else n.log }

/-- PWRGOOD is deasserted: operating time stands still. -/
def State.fallPwrgood (s : State) : State :=
  { s.each [.a, .b] fun t p => t.updNvm p fun n => { n with optime := s.optime p, optimeUs := s.clock } with
    pwrgood := false, clkreqLow := false }

/-- What no power-down outlives: the KNOCKOUT line, the arming, and the counts since power-up. -/
def PlateState.afterPower (x : PlateState) : PlateState :=
  { x with
    tmp := { x.tmp with
      ko := false, koAt := 0, armed := false, local_ := none, marginKo := none, peerCause := none, pattern := [], corrected := 0
      alarmNew := 0 }
    flt := { x.flt with cReact := 0 }
    pr := { x.pr with token := false, resetHeld := false, seqResets := 0, peerRecov := 0 }
    rng := {}
    vlt := { x.vlt with savedWin := [] } }

/-- POWER_DOWN (R288): sources disarmed, key memories cleared, the plate held in reset; the operating time is stored and
marked clean (R339). -/
def execPowerDown (p : Plate) (s : State) : Host.Outcome State Fault Refusal :=
  .next (if (s.pl p).pow.phase = .off then s
    else
      let s := if s.pwrgood then s.fallPwrgood else s
      let s := ((((s.rollWindow p).flushStaged p).storeOptime p true).cutGroups p).dropFence p
      let s := (s.setLinkUp p false).dropGut p
      ((s.upd p fun x => (x.afterReset s.clock .off false false).afterPower).refreshOut p).useToken p.peer)

/-! ## PERST# and the PCIe island (R361, R362) -/

/-- The PCIe island and the function's configuration space are reset, with the translations that the function held. -/
def State.resetIsland (s : State) (p : Plate) : State :=
  s.updPow p fun w => { w with fnMask := false, pba := [], cfg := {}, atc := [] }

/-- PERST_ASSERT (R362): the island resets, and the class C reaction runs from step 2. -/
def execPerstAssert (p : Plate) (s : State) : Host.Outcome State Fault Refusal :=
  .next (if (s.pl p).pow.perst then s
    else
      let s := s.updPow p fun w => { w with perst := true, perstAt := s.clock, linkUp := false, cfgReady := false }
      let s := if (s.pl p).pow.phase = .off then s else s.resetIsland p
      if s.up p then
        ((s.updFlt p fun f => { f with perst := true }).record p 0x0002 0 4).classC p
      else s)

/-- PERST_RELEASE (R360, R361): the link trains; a plate that has run steps 1 to 5 goes on. -/
def execPerstRelease (x : LinkTrain) (s : State) : Host.Outcome State Fault Refusal :=
  let p := x.plate
  .next (if !(s.pl p).pow.perst then s
    else
      let s := s.updPow p fun w => { w with perst := false }
      if !s.up p then s else if (s.pl p).pow.ready then s.linkStart p x.link else s.bringUp p x.link [])

/-- HOT_RESET (R362): the island and the configuration space only; the link trains afresh. -/
def execHotReset (x : LinkTrain) (s : State) : Host.Outcome State Fault Refusal :=
  let p := x.plate
  .next (if s.up p then
    (s.resetIsland p).updPow p fun w => if w.linkUp then { w with lanes := x.link.lanes, gen := x.link.gen } else w
  else s)

/-- Pending vectors that are masked no longer are sent (R365). -/
def State.sendPending (s : State) (p : Plate) : State :=
  s.each (s.pl p).pow.pba fun s v =>
    if (s.msixEntry p v).2.2 || (s.pl p).pow.fnMask then s
    else (s.updPow p fun w => { w with pba := w.pba.filter (· != v) }).emit (.msix p v)

/-- What Table 2.1 supports (R23). -/
def pcieSupported : PcieOption → Bool
  | .gen5x8 | .mps512 | .mrrs4096 | .tags10 | .pasid20 | .ats | .cas64 | .msix2048 | .aerHeaders | .aspmL1 | .d0 | .hotReset
  | .relaxedWrites | .retryStatus => true
  | .x16 | .laneReversal | .mpsAbove512 | .pri | .pageRequests | .fetchAdd | .swap | .atomicCompleter | .msi | .intx | .aspmL0s
  | .l1Substates | .d3hot | .d3cold | .flr | .sriov | .idOrdering | .noSnoop => false

/-- The value of a setting. -/
def CfgRegs.get (c : CfgRegs) : CfgField → Nat
  | .memory => bit c.memory
  | .busMaster => bit c.busMaster
  | .bar0 => c.bar0.toNat
  | .bar2 => c.bar2.toNat
  | .bar4 => c.bar4.toNat
  | .payload => c.payload
  | .readRequest => c.readRequest
  | .tags10 => bit c.tags10
  | .relaxed => bit c.relaxed
  | .pasid => bit c.pasid
  | .ats => bit c.ats
  | .atomic => bit c.atomic
  | .aspmL1 => bit c.aspmL1
  | .msix => bit c.msix

/-- A base address of a BAR of `n` bytes: the bits below its size are zero (Table 2.2). -/
def barBase (n value : Nat) : DWord := BitVec.ofNat 64 (value / n * n)

/-- A setting written: MPS takes 128, 256 or 512 bytes and MRRS 128 to 4,096 (Table 2.1); any other value changes nothing. -/
def CfgRegs.set (c : CfgRegs) (v : Nat) : CfgField → CfgRegs
  | .memory => { c with memory := v % 2 == 1 }
  | .busMaster => { c with busMaster := v % 2 == 1 }
  | .bar0 => { c with bar0 := barBase (64 * 2 ^ 20) v }
  | .bar2 => { c with bar2 := barBase (16 * 2 ^ 20) v }
  | .bar4 => { c with bar4 := barBase (64 * 2 ^ 10) v }
  | .payload => if [128, 256, 512].contains v then { c with payload := v } else c
  | .readRequest => if [128, 256, 512, 1024, 2048, 4096].contains v then { c with readRequest := v } else c
  | .tags10 => { c with tags10 := v % 2 == 1 }
  | .relaxed => { c with relaxed := v % 2 == 1 }
  | .pasid => { c with pasid := v % 2 == 1 }
  | .ats => { c with ats := v % 2 == 1 }
  | .atomic => { c with atomic := v % 2 == 1 }
  | .aspmL1 => { c with aspmL1 := v % 2 == 1 }
  | .msix => { c with msix := v % 2 == 1 }

/-- The settings in the order of their names. -/
def CfgRegs.values (c : CfgRegs) : List Nat :=
  [CfgField.memory, .busMaster, .bar0, .bar2, .bar4, .payload, .readRequest, .tags10, .relaxed, .pasid, .ats, .atomic, .aspmL1,
    .msix].map c.get

/-- The word of a function that answers: what a read finds; 0 for a write. The PowerState field reads D0 whatever is written to
it. -/
def State.cfgAnswer (s : State) (p : Plate) : CfgReq → Word
  | .read o => Config.cfgSpace p (s.pl p).pow.cfg.values o
  | .readField f => BitVec.ofNat 32 ((s.pl p).pow.cfg.get f)
  | .readOption o => if pcieSupported o then 1 else 0
  | .readHeaderLog => BitVec.ofNat 32 (leNat (((s.pl p).pow.cfg.header.getD []).take 4))
  | .writePowerState _ => 0
  | .writeFunctionMask _ => 0
  | .writeField _ _ => 0
  | .clearErrors => 0
  | .write _ => 0
  | .unsupported _ => 0xFFFFFFFF

/-- What a configuration write changes; clearing the function mask sends what is pending (R365), and turning ATS off drops what
the translation cache holds. AER logs the header of the first request that the function does not support, until software clears
it (Table 2.1). -/
def State.cfgWrite (s : State) (p : Plate) : CfgReq → State
  | .writeFunctionMask on => (s.updPow p fun w => { w with fnMask := on }).sendPending p
  | .writeField f v =>
    s.updPow p fun w =>
      let cfg := w.cfg.set v f
      { w with cfg := cfg, atc := if cfg.ats then w.atc else [] }
  | .clearErrors => s.updPow p fun w => { w with cfg := { w.cfg with header := none } }
  | .unsupported h => s.updPow p fun w => { w with cfg := { w.cfg with header := some (w.cfg.header.getD (fit 16 h)) } }
  | .read _ => s
  | .readField _ => s
  | .readOption _ => s
  | .readHeaderLog => s
  | .writePowerState _ => s
  | .write _ => s

/-- CONFIG_REQUEST (Table 16.7 step 7, Table 2.1): Request Retry Status until the function can answer, and then its word. A
plate that starts up with its PERST# released has its link up before its function can answer. -/
def execConfigRequest (p : Plate) (req : CfgReq) (s : State) : Host.Outcome State Fault Refusal :=
  let w := (s.pl p).pow
  .next (if w.linkUp && w.cfgReady then (s.cfgWrite p req).emit (.cfg p (some (s.cfgAnswer p req)))
    else if w.linkUp || s.mayStart p then s.emit (.cfg p none)
    else s)

/-- ATS_INVALIDATE_REQUEST (Table 2.1): the page's translation under its PASID is dropped, and the request is completed. Where the
host has taken the page away, its translation is refused from now on (R25, log 40). -/
def execAtsInvalidateRequest (p : Plate) (page : AtsPage) (s : State) : Host.Outcome State Fault Refusal :=
  let x := (page.pasid, page.addr.toNat / 4096)
  .next (if (s.pl p).pow.linkUp then
    (s.updPow p fun w => { w with
      atc := w.atc.filter (· != x), denied := w.denied.filter (· != x) ++ (if page.gone then [x] else []) }).emit (.ats p)
  else s)

/-- MSIX_VECTOR_UNMASK (R365): a vector's mask bit, or the function mask, is cleared. -/
def execMsixVectorUnmask (p : Plate) (vector : Option Nat) (s : State) : Host.Outcome State Fault Refusal :=
  .next (if !(s.pl p).pow.cfgReady then s
    else match vector with
      | some v => if 2048 ≤ v then s else
        ((s.updPow p fun w => { w with msix := w.msix.mod (0, 0, true) v fun e => (e.1, e.2.1, false) }).sendPending p)
      | none => (s.updPow p fun w => { w with fnMask := false }).sendPending p)

/-! ## The timebase (R358) -/

/-- Whether a TIMEREF of `hz` lies within ±200 ppm of its nominal frequency. -/
def timerefOk (cfg : Word) (hz : Nat) : Bool :=
  let nominal := cfg.toNat % 65536 * 1000
  cfg.getLsbD 30 && decide (5000 * (max hz nominal - min hz nominal) ≤ nominal)

/-- The source that R358 chooses: 2 TIMEREF, 1 REFCLK, 0 running free. -/
def timebaseSource (cfg : Word) (hz : Nat) (refclk : Bool) : Nat :=
  if timerefOk cfg hz then 2 else if !cfg.getLsbD 31 && refclk then 1 else 0

/-- Corrections of the last second, with the latest one before it. -/
def Power.recentCorr (w : Power) (now : Nat) : List (Nat × Int) :=
  let old := w.corrLog.filter fun e => decide (e.1 + 1000000 ≤ now)
  old.drop (old.length - 1) ++ w.corrLog.filter fun e => !decide (e.1 + 1000000 ≤ now)

/-- Whether corrections that reach back 1 s lie within 1 ppm. -/
def settledCorr (l : List (Nat × Int)) (now : Nat) : Bool :=
  l.any (fun e => decide (e.1 + 1000000 ≤ now)) && l.all fun e => l.all fun f => decide (e.2 - f.2 ≤ 1)

/-- The correction moves towards the one the reference asks for, by at most 0.1 % in the 1 ms (R358). -/
def stepCorr (old new : BitVec 16) : BitVec 16 :=
  BitVec.ofInt 16 (old.toInt + max (-1000) (min 1000 (new.toInt - old.toInt)))

/-- The timebase runs on a reference that asks for correction `new`. -/
def Power.discipline (w : Power) (source : Nat) (new : BitVec 16) (now : Nat) : Power :=
  let corr := stepCorr w.corr new
  let l := w.recentCorr now ++ [(now, corr.toInt)]
  { w with source := source, corr := corr, corrLog := l, locked := settledCorr l now }

/-- The timebase runs free on its last correction. -/
def Power.runFree (w : Power) : Power := { w with source := 0, locked := false, corrLog := [] }

/-- TIMEBASE_SELECT (R358): every 1 ms the reference is chosen afresh. `corr`: the correction that it asks for. -/
def execTimebaseSelect (p : Plate) (timerefHz : Nat) (refclk : Bool) (corr : BitVec 16) (s : State) :
    Host.Outcome State Fault Refusal :=
  let n := timebaseSource (s.pl p).pow.tmbCfg timerefHz refclk
  .next (if !s.up p || !s.past (s.pl p).pow.tmbAt 1000 then s
    else s.updPow p fun w => { (if n = 0 then w.runFree else w.discipline n corr s.clock) with tmbAt := s.clock })

/-- TIMEBASE_REF_LOST (R358): the reference has stopped; the last correction is kept. -/
def execTimebaseRefLost (p : Plate) (s : State) : Host.Outcome State Fault Refusal :=
  .next (if s.up p then s.updPow p Power.runFree else s)

/-! ## AVSBus (R352, R353) -/

/-- The transactions a plate issues: targets from 670 mV to 830 mV in steps of 10 mV (R352). -/
def avsIssued : AvsKind → Bool
  | .voltageWrite mv => decide (670 ≤ mv ∧ mv ≤ 830 ∧ mv % 10 = 0)
  | _ => true

/-- Whether a transaction may leave now: Voltage writes are no closer than 10 µs apart (R352). -/
def Power.avsPaced (w : Power) (kind : AvsKind) (now : Nat) : Bool :=
  match kind, w.targetAt with
  | .voltageWrite _, some t => decide (t + 10 ≤ now)
  | _, _ => true

/-- The plate's AVSBus state after a transaction at `now`. -/
def Power.avsDone (w : Power) (kind : AvsKind) (ok : Bool) (now : Nat) : Power :=
  let w := match kind with
    | .voltageWrite _ => { w with targetAt := some now }
    | _ => w
  if !ok then
    { w with avsErrors := satAdd 8 w.avsErrors 1, avsRun := w.avsRun + 1, avsErr := w.avsErr || decide (3 ≤ w.avsRun + 1) }
  else match kind with
    | .voltageWrite mv => { w with avsRun := 0, target := mv }
    | .statusRead => { w with avsRun := 0, avsErr := false }
    | _ => { w with avsRun := 0 }

/-- AVS_TRANSACTION_DONE (R353): while control is suspended only Status reads are issued. -/
def execAvsTransactionDone (p : Plate) (kind : AvsKind) (ok : Bool) (s : State) : Host.Outcome State Fault Refusal :=
  .next (if !s.up p || !avsIssued kind || !(s.pl p).pow.avsPaced kind s.clock || ((s.pl p).pow.avsErr && kind != .statusRead) then s
    else (s.updPow p fun w => w.avsDone kind ok s.clock).emit (.avs p kind))

/-! ## MCTP and PLDM (R359, R311) -/

/-- Whether plate `p` acknowledges its address: the world that owns the MCTP endpoint runs. -/
def State.mctpAnswers (s : State) (p : Plate) : Bool :=
  s.up p && (s.pl p).mgt.runs ((s.pl p).mgt.owner 13)

/-- A sensor's data size code (DSP0248: 1 sint8, 2 uint16, 4 uint32) and reading (Tables 13.3, 16.6). VDD current and plate
power come from what AVSBus measured: free values. -/
def State.sensor (s : State) (p : Plate) (n : Nat) : Option (Nat × Bytes) :=
  let x := s.pl p
  match n with
  | 0x0100 => some (1, [BitVec.ofInt 8 x.tmp.median])
  | 0x0101 => some (2, leBytes 2 (x.tmp.volt.toNat % 4096))
  | 0x0102 => some (2, leBytes 2 (Config.freeNat s.free))
  | 0x0103 => some (2, leBytes 2 (Config.freeNat s.free))
  | 0x0104 => some (4, leBytes 4 (s.optime p / 3600000))
  | 0x0200 => some (4, leBytes 4 (wordOf x.flt.status 0).toNat)
  | 0x0201 => some (4, leBytes 4 (wordOf x.flt.status 1).toNat)
  | 0x0202 => some (2, leBytes 2 x.flt.sEsc)
  | 0x0203 => some (2, leBytes 2 x.flt.cReact)
  | _ => none

/-- The answer to a request, completion code first; what DSP0236, DSP0240 and DSP0248 fix is `Config`'s. -/
def State.mctpAnswer (s : State) (p : Plate) : MctpReq → Bytes
  | .setEid e => if e = 0 ∨ e = 0xFF then [2] else [0, 0, e, 0]
  | .getEid => [0, (s.pl p).mgt.eid] ++ Config.mctpFixed 0x02
  | .getMctpVersion => [0] ++ Config.mctpFixed 0x04
  | .getMessageTypes => [0, 2, 0, 1]
  | .getUuid => [0] ++ fit 16 (Config.mctpUuid p)
  | .getTid => [0, (s.pl p).mgt.tid]
  | .setTid t => if t = 0 ∨ t = 0xFF then [2] else [0]
  | .getPldmVersion => [0] ++ Config.mctpFixed 0x103
  | .getPldmTypes => [0] ++ Config.mctpFixed 0x104
  | .getPldmCommands => [0] ++ Config.mctpFixed 0x105
  | .getSensorReading n => match s.sensor p n with
      | some (k, b) => [0, BitVec.ofNat 8 k] ++ Config.sensorHead n ++ b
      | none => [0x80]
  | .getPdr n => if (s.sensor p n).isSome then [0] ++ Config.pdr n else [0x82]
  | .other => [0x05]

/-- What a request changes: the endpoint ID and the terminus ID. -/
def Mgmt.mctpSet (m : Mgmt) : MctpReq → Mgmt
  | .setEid e => if e = 0 ∨ e = 0xFF then m else { m with eid := e }
  | .setTid t => if t = 0 ∨ t = 0xFF then m else { m with tid := t }
  | _ => m

/-- MCTP_MESSAGE (R359): answered by the world that owns the endpoint, whose anchor core it interrupts (R313); while it is restarting or has no valid image the plate
does not acknowledge its address. -/
def execMctpMessage (p : Plate) (req : MctpReq) (s : State) : Host.Outcome State Fault Refusal :=
  .next (if s.mctpAnswers p then
    (((s.updMgt p fun m => m.mctpSet req).emit (.mctp p (some (s.mctpAnswer p req)))).tick 1).blockIrq p 13
  else s.emit (.mctp p none))

/-! ## The TAP (R356, Table 16.5) -/

/-- Whether debug is enabled on either plate (Table 14.6). -/
def State.debugOn (s : State) : Bool := s.debugEnables .a != 0 || s.debugEnables .b != 0

/-- The instruction that the loaded code acts as: BYPASS for every code that Table 16.5 does not list or does not admit now. -/
def State.tapActive (s : State) : Byte :=
  if s.tapIr = 0x00 then (if s.pwrgood then 0xFF else 0x00)
  else if s.tapIr = 0x01 ∨ s.tapIr = 0x02 then s.tapIr
  else if s.tapIr = 0x10 ∨ s.tapIr = 0x11 then (if s.debugOn then s.tapIr else 0xFF)
  else 0xFF

/-- IDCODE (Table 16.5). -/
def idcode : Word := 0x04096A5B

/-- TAP_INSTRUCTION (R356): TRST# or five TMS-high clocks reset the TAP, which selects IDCODE; otherwise a code is loaded. -/
def execTapInstruction (reset : Bool) (code : Byte) (s : State) : Host.Outcome State Fault Refusal :=
  .next { s with tapIr := if reset then 0x01 else code }

end Sys2Proof.Machine
end

