-- ==== Sys2Proof/Machine/Cores.lean ====
section
/-! DEFINITION. The cores of the cluster: translation, accesses to memory and to the cluster's blocks, instructions, traps and
interrupts, and what the debug module does to a core (14 R312 to R314, R317, R319, R321, R322; log 153 to 155). -/

namespace Sys2Proof.Machine

/-! ## Accesses -/

/-- What an access is for. -/
inductive RvUse where
  | fetch | load | store
  deriving DecidableEq, Repr

/-- The access fault of an access. -/
def RvUse.accessFault : RvUse → DWord
  | .fetch => 1 | .load => 5 | .store => 7

/-- The page fault of an access. -/
def RvUse.pageFault : RvUse → DWord
  | .fetch => 12 | .load => 13 | .store => 15

/-- How an access or an instruction ends: with a value, in an exception, in a bus error because a line of the stack fails its tag
(R15), or not yet. -/
inductive RvEnd where
  | value (v : DWord)
  | trap (cause tval : DWord)
  | tag
  | wait
  deriving DecidableEq, Repr

/-- Whether a leaf page table entry allows an access in mode `prv` under a status word: its U bit, SUM and MXR (Sv39). -/
def pteAllows (pte : Nat) (k : RvUse) (prv : Priv) (status : DWord) : Bool :=
  let b (n : Nat) : Bool := bitsAt pte n 1 == 1
  (match prv with
    | .u => b 4
    | _ => !b 4 || (status.getLsbD 18 && k != .fetch)) &&
  match k with
  | .fetch => b 3
  | .load => b 1 || (status.getLsbD 19 && b 3)
  | .store => b 2

/-- The walk of the page table at `base` through the levels of a list (Sv39): the physical address, and the entry to be written where
the core sets its accessed and dirty bits; or the exception. -/
def Mgmt.walk (m : Mgmt) (w : World) (h : Hart) (k : RvUse) (va : Nat) : List Nat → Nat → Except RvEnd (Nat × Option (Nat × Nat))
  | [], _ => .error (.trap k.pageFault (BitVec.ofNat 64 va))
  | l :: t, base =>
    let a := base + 8 * bitsAt va (12 + 9 * l) 9
    let fault : Except RvEnd (Nat × Option (Nat × Nat)) := .error (.trap k.pageFault (BitVec.ofNat 64 va))
    if !((inSram a || inLpddr a) && m.admits w false false false a) then .error (.trap k.accessFault (BitVec.ofNat 64 va))
    else match m.readMem a 8 with
      | none => .error .tag
      | some b =>
        let pte := leNat b
        let ppn := bitsAt pte 10 44
        if bitsAt pte 0 1 = 0 ∨ (bitsAt pte 1 1 = 0 ∧ bitsAt pte 2 1 = 1) ∨ bitsAt pte 54 10 ≠ 0 then fault
        else if bitsAt pte 1 1 = 0 ∧ bitsAt pte 3 1 = 0 then m.walk w h k va t (4096 * ppn)
        else if !pteAllows pte k h.prv (h.csrAt 0x100) || ppn % 2 ^ (9 * l) != 0 then fault
        else
          let pa := ppn * 4096 + va % 2 ^ (12 + 9 * l)
          let need := pte ||| 0x40 ||| (if k == .store then 0x80 else 0)
          if need = pte then .ok (pa, none)
          else if Config.setsAccessed && m.admits w false false true a then .ok (pa, some (a, need))
          else fault

/-- The physical address of an access by a core: itself in M-mode or with translation off, else by Sv39 (R312). -/
def Mgmt.translate (m : Mgmt) (w : World) (h : Hart) (k : RvUse) (va : DWord) : Except RvEnd (Nat × Option (Nat × Nat)) :=
  let satp := (h.csrAt 0x180).toNat
  if h.prv = .m ∨ satp / 2 ^ 60 ≠ 8 then .ok (va.toNat, none)
  else if signed 39 va.toNat ≠ va then .error (.trap k.pageFault va)
  else m.walk w h k (va.toNat % 2 ^ 39) [2, 1, 0] (4096 * bitsAt satp 0 44)

/-! ## The cluster's blocks (Table 14.1) -/

/-- The word that a core of world `w` reads at an address of a block that the manual describes; none for timers, DMA channels, the
UART, the MCTP endpoint, the mailboxes and the admin queue interface, whose registers it does not. -/
def State.blockWord (s : State) (p : Plate) (w : World) (a : Nat) : Option Word :=
  if inRegion 0x20000400 0x11C a then
    some (if w == .secure then BitVec.ofNat 32 (leNat ((List.range 4).map fun k => nvmRawByte s p (a - 0x20000400 + k))) else 0)
  else if inRegion 0x20000000 0x1000 a then some (wldWord s p (a - 0x20000000))
  else if inRegion 0x20010000 0x1000 a then some (faultWord s p (a - 0x20010000))
  else if inRegion 0x20020000 0x1000 a then
    some (if inRegion 0x900 0x100 (a - 0x20020000) then plateWord s p (a - 0x20020000) else 0)
  else if inRegion 0x200A0000 0x10000 a then some (bar0Word s p (a - 0x200A0000))
  else none

/-- A read of RNG_DATA by a core of world `w` (R203, R205): fresh bits of the read's width; on a HALTED plate a bus error; until the
bits are ready the core waits. -/
def State.randomLoad (s : State) (p : Plate) (w : World) (n : Nat) : State × RvEnd :=
  if (s.pl p).rng.st == .halted then (s, .trap 5 0x20030000)
  else if !s.canDraw p (worldInst w) 1 then (s, .wait)
  else (s.drew p (worldInst w) [n], .value (BitVec.ofNat 64 (leNat (s.drawn p (worldInst w) n))))

/-- A core's read of `n` bytes of a block at physical address `a`. A register that the manual does not describe reads a free value
(log 155). -/
def State.blockLoad (s : State) (p : Plate) (w : World) (a n : Nat) : State × RvEnd :=
  if inRegion 0x20030000 8 a then (if n < 4 then (s, .value 0) else s.randomLoad p w n)
  else match s.blockWord p w (a / 4 * 4) with
    | some lo =>
      let hi := if n = 8 then (s.blockWord p w (a + 4)).getD 0 else 0
      (s, .value (extendRv n false (BitVec.ofNat 64 ((lo.toNat + 2 ^ 32 * hi.toNat) / 2 ^ (8 * (a % 4))))))
    | none => (s.tick 1, .value (BitVec.ofNat 64 (leNat (s.unknown n))))

/-- A core's write of a word of a block, one of world `w` that the block admits. A register that the manual does not describe takes
no effect that the model holds (log 155). -/
def State.blockStore (s : State) (p : Plate) (w : World) (a : Nat) (v : Word) : State :=
  match a with
  | 0x20000018 => s.signal p w v
  | 0x2000001C => s.secAlive p w
  | 0x20000020 => s.nrmAlive p w
  | 0x200003FC => if w == .secure then s.updNvm p fun n => { n with raw := v } else s
  | 0x20010018 => if 1 ≤ v.toNat ∧ v.toNat ≤ 10000 then s.updFlt p fun f => { f with graceMs := v.toNat } else s
  | 0x2002091C =>
    if v = 0xD8110001 then s.enterDrill p else if v = 0xD8110000 ∧ (s.pl p).tmp.drill then s.endDrill p else s
  | _ => s

/-! ## Loads and stores -/

/-- A store to memory ends the reservations of the other cores on its doubleword. -/
def Mgmt.breakReservations (m : Mgmt) (c a : Nat) : Mgmt :=
  (List.range 4).foldl (fun m k =>
    if k != c && (m.hart k).resv == some (a / 8) then m.updHart k fun h => { h with resv := none } else m) m

/-- An access at physical address `a`: refused by Table 14.1, R317 or R319 it is an access fault and has no other effect; in memory it
goes through the caches, and a line whose tag fails is never returned as data (R15). -/
def State.physAccess (s : State) (p : Plate) (c : Nat) (k : RvUse) (va : DWord) (a n : Nat) (d : DWord) : State × RvEnd :=
  let m := (s.pl p).mgt
  let w := m.worldOf c
  if !m.admits w ((m.hart c).prv == .m) (k == .fetch) (k == .store) a then (s, .trap k.accessFault va)
  else if inSram a || inLpddr a then
    let s := s.cacheAccess p c (k == .fetch) a
    let m := (s.pl p).mgt
    match k with
    | .store => match m.writeMem a (leBytes n d.toNat) with
      | some m => (s.updMgt p fun _ => m.breakReservations c a, .value 0)
      | none => (s, .tag)
    | _ => match m.readMem a n with
      | some b => (s, .value (BitVec.ofNat 64 (leNat b)))
      | none => (s, .tag)
  else if inRegion 0 0x10000 a then (s.tick 1, .value (BitVec.ofNat 64 (leNat (s.unknown n))))
  else match k with
    | .store =>
      if n = 4 then (s.blockStore p w a (d.setWidth 32), .value 0)
      else if n = 8 then ((s.blockStore p w a (d.setWidth 32)).blockStore p w (a + 4) ((d >>> 32).setWidth 32), .value 0)
      else (s, .value 0)
    | _ => s.blockLoad p w a n

/-- An access of core `c` of plate `p` to `n` bytes at `va`, naturally aligned but for a fetch. A line that fails its tag is the fault
source MEM_TAG and a bus error to the core (R15). -/
def State.coreAccess (s : State) (p : Plate) (c : Nat) (k : RvUse) (va : DWord) (n : Nat) (d : DWord) : State × RvEnd :=
  let m := (s.pl p).mgt
  let tagFault (s : State) : State × RvEnd := (s.raise p 3, .trap k.accessFault va)
  if k != .fetch && va.toNat % n != 0 then (s, .trap (if k == .load then 4 else 6) va)
  else match m.translate (m.worldOf c) (m.hart c) k va with
    | .error .tag => tagFault s
    | .error e => (s, e)
    | .ok (a, upd) =>
      let s := match upd with
        | some (pa, pte) => s.updMgt p fun m => (m.writeMem pa (leBytes 8 pte)).getD m
        | none => s
      match s.physAccess p c k va a n d with
      | (s, .tag) => tagFault s
      | r => r

/-! ## Control and status registers -/

/-- Whether an interrupt waits at core `c` (R313): an anchor core, for its world. -/
def Mgmt.pendingInt (m : Mgmt) (c : Nat) : Option Nat :=
  if c = 0 then m.intS.head? else if c = 3 then m.intN.head? else none

/-- What a core reads of a CSR; none where it is not there. Counters are free values but for the time (log 155). -/
def State.csrRead (s : State) (p : Plate) (c n : Nat) : Option DWord :=
  let m := (s.pl p).mgt
  let h := m.hart c
  if n = 0x100 then some (h.csrAt n ||| 0x200000000)
  else if n = 0x144 then some (h.csrAt n ||| (if (m.pendingInt c).isSome then 0x200 else 0))
  else if n = 0xC01 then some (BitVec.ofNat 64 s.clock)
  else if 0xC00 ≤ n ∧ n < 0xC20 then some (BitVec.ofNat 64 (leNat (s.unknown 8)))
  else (csrMask n).map fun _ => h.csrAt n

/-- Whether a core may reach CSR `n` in its mode, and write it: bits [9:8] of the number say the mode, bits [11:10] whether it can be
written. -/
def csrAllows (prv : Priv) (n : Nat) (write : Bool) : Bool :=
  (decide (bitsAt n 8 2 = 0) || (decide (bitsAt n 8 2 = 1) && prv != .u) || prv == .m) && (!write || decide (bitsAt n 10 2 ≠ 3))

/-! ## Instructions -/

/-- The monitor function that an ECALL from S-mode asks for (R314): a7 the extension, a6 the function, the arguments from a0 on. -/
def State.monitor (s : State) (p : Plate) (c : Nat) : State :=
  let h := (s.pl p).mgt.hart c
  let a (n : Nat) : Nat := (h.get (10 + n)).toNat
  let args := (List.range 6).map fun k => h.get (10 + k)
  if h.get 17 ≠ 0x00574C44 then s.answer p c (-2) []
  else match (h.get 16).toNat with
    | 0 => s.info p c
    | 1 => s.call p c args
    | 2 => s.ret p c args
    | 3 => s.releaseBlock p c (a 0)
    | 4 => s.wmGive p c (a 0) (a 1)
    | 5 => s.setEntry p c (h.get 10)
    | _ => s.answer p c (-2) []

/-- What an instruction of length `len` does on core `c` of plate `p`. With `value` it has had its whole effect, the pc included; with
`trap` none but that of the access that raised it. -/
def State.runRv (s : State) (p : Plate) (c : Nat) (i : Rv) (len : Nat) : State × RvEnd :=
  let m := (s.pl p).mgt
  let h := m.hart c
  let next := h.pc + BitVec.ofNat 64 len
  let ends (f : Hart → Hart) : State × RvEnd := (s.updHart p c fun h => { f h with pc := next }, .value 0)
  let jumps (f : Hart → Hart) (a : DWord) : State × RvEnd := (s.updHart p c fun h => { f h with pc := a }, .value 0)
  let illegal : State × RvEnd := (s, .trap 2 0)
  let goes (r : State × RvEnd) (f : State → DWord → Hart → Hart) : State × RvEnd := match r with
    | (s, .value v) => (s.updHart p c fun h => { f s v h with pc := next }, .value 0)
    | r => r
  match i with
  | .lui rd v => ends fun h => h.set rd v
  | .auipc rd v => ends fun h => h.set rd (h.pc + v)
  | .jal rd v => jumps (fun h => h.set rd next) (h.pc + v)
  | .jalr rd rs v => jumps (fun h => h.set rd next) ((h.get rs + v) &&& 0xFFFFFFFFFFFFFFFE)
  | .branch f3 a b v => if branchRv f3 (h.get a) (h.get b) then jumps id (h.pc + v) else ends id
  | .opImm f3 alt word rd rs v =>
    ends fun h => h.set rd (if word then aluRv32 f3 alt (h.get rs) v else aluRv f3 alt (h.get rs) v)
  | .op f3 alt word rd a b =>
    ends fun h => h.set rd (if word then aluRv32 f3 alt (h.get a) (h.get b) else aluRv f3 alt (h.get a) (h.get b))
  | .mulDiv f3 word rd a b =>
    ends fun h => h.set rd (if word then mulDivRv32 f3 (h.get a) (h.get b) else mulDivRv f3 (h.get a) (h.get b))
  | .load f3 rd rs v =>
    let n := 2 ^ (f3 % 4)
    goes (s.coreAccess p c .load (h.get rs + v) n 0) fun _ x h => h.set rd (extendRv n (decide (f3 < 4)) x)
  | .store f3 a b v => goes (s.coreAccess p c .store (h.get a + v) (2 ^ f3) (h.get b)) fun _ _ h => h
  | .lr word rd rs =>
    let n := if word then 4 else 8
    goes (s.coreAccess p c .load (h.get rs) n 0) fun _ x k =>
      { k.set rd (extendRv n true x) with
        resv := ((m.translate (m.worldOf c) h .load (h.get rs)).toOption).map fun a => a.1 / 8 }
  | .sc word rd a b =>
    let held := (m.translate (m.worldOf c) h .store (h.get a)).toOption.map fun e => e.1 / 8
    if h.resv.isSome && h.resv == held then
      goes (s.coreAccess p c .store (h.get a) (if word then 4 else 8) (h.get b)) fun _ _ h => { h.set rd 0 with resv := none }
    else ends fun h => { h.set rd 1 with resv := none }
  | .amo f5 word rd a b =>
    let n := if word then 4 else 8
    if (h.get a).toNat % n ≠ 0 then (s, .trap 6 (h.get a))
    else match m.translate (m.worldOf c) h .store (h.get a) with
      | .error .tag => (s.raise p 3, .trap 7 (h.get a))
      | .error e => (s, e)
      | .ok (pa, _) =>
        if !(inSram pa || inLpddr pa) then (s, .trap 7 (h.get a))
        else match s.physAccess p c .load (h.get a) pa n 0 with
          | (s, .value x) =>
            let old := extendRv n true x
            let y := if word then extendRv 4 (decide (f5 < 24)) (h.get b) else h.get b
            let old' := if word && decide (24 ≤ f5) then extendRv 4 false x else old
            goes (s.coreAccess p c .store (h.get a) n (amoRv f5 old' y)) fun _ _ h => h.set rd old
          | (s, .tag) => (s.raise p 3, .trap 7 (h.get a))
          | (s, .trap _ v) => (s, .trap 7 v)
          | r => r
  | .csr f3 rd rs n =>
    let v := if f3 < 4 then h.get rs else BitVec.ofNat 64 rs
    let writes := f3 % 4 = 1 ∨ rs ≠ 0
    match s.csrRead p c n with
    | some old =>
      if !csrAllows h.prv n (decide writes) then illegal
      else
        let x := match f3 % 4 with
          | 1 => v
          | 2 => old ||| v
          | _ => old &&& ~~~ v
        (((s.tick (if 0xC00 ≤ n then 1 else 0)).updHart p c fun h =>
          { (if writes then h.writeCsr n x else h).set rd old with pc := next }), .value 0)
    | none => illegal
  | .fence sup => if sup && h.prv == .u then illegal else ends id
  | .ecall => match h.prv with
    | .s => (s.monitor p c, .value 0)
    | .u => (s, .trap 8 0)
    | .m => illegal
  | .ebreak => (s, .trap 3 h.pc)
  | .sret => if h.prv == .s then (s.updHart p c Hart.sret, .value 0) else illegal
  | .illegal => illegal

/-- The instruction at the pc of core `c`: two bytes, and two more where they do not spell a compressed one. -/
def State.fetchRv (s : State) (p : Plate) (c : Nat) : State × Except RvEnd (Rv × Nat) :=
  let pc := ((s.pl p).mgt.hart c).pc
  match s.coreAccess p c .fetch pc 2 0 with
  | (s, .value lo) =>
    if lo.toNat % 4 ≠ 3 then (s, .ok (decodeRvc lo.toNat, 2))
    else match s.coreAccess p c .fetch (pc + 2) 2 0 with
      | (s, .value hi) => (s, .ok (decodeRv (lo.toNat % 65536 + 65536 * (hi.toNat % 65536)), 4))
      | (s, e) => (s, .error e)
  | (s, e) => (s, .error e)

/-! ## Debug (R321, R322) -/

/-- The halted cores after core `core` is halted, in M-mode or not, or resumed. -/
def Mgmt.setHalt (m : Mgmt) (core : Nat) (halt mmode : Bool) : Mgmt :=
  let b := BitVec.ofNat 4 (2 ^ core)
  { m with
    halted := if halt then m.halted ||| b else m.halted &&& ~~~ b
    haltedM := if halt && mmode then m.haltedM ||| b else m.haltedM &&& ~~~ b }

/-- The cluster watchdog after a change of the cores halted in M-mode: paused while there is one (R322). -/
def Pair.pauseWatchdog (r : Pair) (halted : Bool) (now : Nat) : Pair :=
  if halted then { r with wdPause := some (r.wdPause.getD now) }
  else { r with wdFed := r.wdFed + (r.wdPause.map fun t => now - t).getD 0, wdPause := none }

/-- A core halted or released; the watchdogs of its world, and the cluster's in M-mode, pause (R322). -/
def State.setHalt (s : State) (p : Plate) (core : Nat) (halt mmode : Bool) : State :=
  let s := s.updMgt p fun m => (m.setHalt core halt mmode).pauses s.clock
  s.updPr p fun r => r.pauseWatchdog ((s.pl p).mgt.haltedM != 0) s.clock

/-- Whether the enables let the debug module reach core `c` (Table 14.6): the invasive enable of its world, or the secure world's for
M-mode. -/
def State.debugReaches (s : State) (p : Plate) (c : Nat) (inM : Bool) : Bool :=
  let e := s.debugEnables p
  decide (c < 4) && if (s.pl p).mgt.worldOf c == .secure || inM then e.getLsbD 3 else e.getLsbD 1

/-- Whether the trace and performance counters of core `c` may be read (Table 14.6): an invasive enable includes the other one. -/
def State.debugTraces (s : State) (p : Plate) (c : Nat) (inM : Bool) : Bool :=
  let e := s.debugEnables p
  decide (c < 4) && if (s.pl p).mgt.worldOf c == .secure || inM then e.getLsbD 2 || e.getLsbD 3 else e.getLsbD 0 || e.getLsbD 1

/-- A register as the debug module numbers it: CSRs from 0, dpc 0x7B1, x registers from 0x1000; none where it is not there. -/
def State.debugReg (s : State) (p : Plate) (c n : Nat) : Option DWord :=
  let h := (s.pl p).mgt.hart c
  if 0x1000 ≤ n then (if n < 0x1020 then some (h.get (n - 0x1000)) else none)
  else if n = 0x7B1 then some h.pc else s.csrRead p c n

/-- A register written by the debug module. -/
def Hart.debugWrite (h : Hart) (n : Nat) (v : DWord) : Hart :=
  if 0x1000 ≤ n then (if n < 0x1020 then h.set (n - 0x1000) v else h)
  else if n = 0x7B1 then { h with pc := v &&& 0xFFFFFFFFFFFFFFFE } else h.writeCsr n v

/-- The words of the program buffer from `k` on, run on core `c` until an EBREAK, an exception or the buffer's end. -/
def State.runBuffer (s : State) (p : Plate) (c : Nat) : List Nat → State
  | [] => s
  | k :: t =>
    match s.runRv p c (decodeRv ((s.pl p).mgt.progBuf.get 0 k).toNat) 4 with
    | (s, .value _) => s.runBuffer p c t
    | (s, _) => s

/-- An operation of the debug module on a halted core. The program buffer runs with M-mode's addresses and the world's rights, and
leaves the core's pc and mode as they were (log 153). -/
def State.debugOp (s : State) (p : Plate) (c : Nat) : DbgOp → State
  | .readReg n => (s.emit (.reply p (s.debugReg p c n))).tick 1
  | .writeReg n v => s.updHart p c fun h => h.debugWrite n v
  | .setBuf k v => if k < 8 then s.updMgt p fun m => { m with progBuf := m.progBuf.set 0 k v } else s
  | .runBuf =>
    let h := (s.pl p).mgt.hart c
    ((s.updHart p c fun h => { h with prv := .m }).runBuffer p c (List.range 8)).updHart p c fun k => { k with pc := h.pc, prv := h.prv }
  | .trigger k a b => if k < 4 then s.updMgt p fun m => { m with triggers := m.triggers.set (0, 0) (4 * c + k) (a, b) } else s
  | .counter _ => s

/-- DEBUG_HALT (R321, R322): only with the invasive enable of the core's world, or the secure world's for M-mode; a read of a counter
needs the non-invasive one, and answers a free value. -/
def execDebugHalt (p : Plate) (core : Nat) (halt : HaltReq) (s : State) : Host.Outcome State Fault Refusal :=
  let m := (s.pl p).mgt
  .next (if !s.up p then s
    else match halt.op with
      | none =>
        if s.debugReaches p core (if halt.halt then halt.mmode else m.haltedM.getLsbD core) then s.setHalt p core halt.halt halt.mmode
        else s
      | some (.counter _) =>
        if s.debugTraces p core (m.haltedM.getLsbD core) then
          (s.tick 1).emit (.reply p (some (BitVec.ofNat 64 (leNat (s.unknown 8)))))
        else s
      | some op =>
        if s.debugReaches p core (m.haltedM.getLsbD core) && m.halted.getLsbD core then s.debugOp p core op else s)

/-! ## A core runs -/

/-- The trigger of core `c` that matches an access to `a` (address match of the debug standard's mcontrol), with whether its action is
to enter debug mode. -/
def Mgmt.trigger (m : Mgmt) (c : Nat) (k : RvUse) (a : DWord) : Option Bool :=
  let prv := (m.hart c).prv
  (List.range 4).findSome? fun n =>
    let t := m.triggers.get (0, 0) (4 * c + n)
    let on := t.1.getLsbD (match k with | .fetch => 2 | .store => 1 | .load => 0) &&
      t.1.getLsbD (match prv with | .u => 3 | .s => 4 | .m => 6)
    if t.1.toNat / 2 ^ 60 = 2 ∧ bitsAt t.1.toNat 7 4 = 0 ∧ on ∧ t.2 = a then some (bitsAt t.1.toNat 12 4 = 1) else none

/-- The data access of an instruction. -/
def Rv.access (i : Rv) (h : Hart) : Option (RvUse × DWord) :=
  match i with
  | .load _ _ rs v => some (.load, h.get rs + v)
  | .store _ rs _ v => some (.store, h.get rs + v)
  | .lr _ _ rs => some (.load, h.get rs)
  | .sc _ _ rs _ | .amo _ _ _ rs _ => some (.store, h.get rs)
  | _ => none

/-- An exception of core `c`: the trap to the supervisor mode of its world (log 153). -/
def State.trapRv (s : State) (p : Plate) (c : Nat) (cause tval : DWord) : State := s.updHart p c fun h => h.trap cause tval

/-- A trigger fires: the core enters debug mode where an enable lets debug reach its world (R321), or takes a breakpoint. -/
def State.fireTrigger (s : State) (p : Plate) (c : Nat) (debug : Bool) (a : DWord) : State :=
  if debug then (if s.debugReaches p c false then s.setHalt p c true false else s) else s.trapRv p c 3 a

/-- The interrupt that core `c` takes now, if it takes one: its cause and stval. An external interrupt is one that waits at the anchor
core of a world (R313); SSIP is the core's own. -/
def Mgmt.interruptDue (m : Mgmt) (c : Nat) : Option (DWord × DWord) :=
  let h := m.hart c
  let on (n : Nat) : Bool := (h.csrAt 0x104).getLsbD n && (h.prv == .u || (h.csrAt 0x100).getLsbD 1)
  match m.pendingInt c with
  | some n => if on 9 then some (0x8000000000000009, BitVec.ofNat 64 n)
    else if on 1 && (h.csrAt 0x144).getLsbD 1 then some (0x8000000000000001, 0) else none
  | none => if on 1 && (h.csrAt 0x144).getLsbD 1 then some (0x8000000000000001, 0) else none

/-- The interrupt at the head of a core's list is taken. -/
def Mgmt.takeInt (m : Mgmt) (c : Nat) (cause : DWord) : Mgmt :=
  if cause ≠ 0x8000000000000009 then m
  else if c = 0 then { m with intS := m.intS.drop 1 } else { m with intN := m.intN.drop 1 }

/-- One instruction of core `c` of plate `p`, or the interrupt or trigger that comes before it. A core in M-mode is in reset or in the
monitor, and runs no instruction of its world. -/
def State.runCore (s : State) (p : Plate) (c : Nat) : State :=
  let m := (s.pl p).mgt
  let h := m.hart c
  if !s.up p || m.halted.getLsbD c || h.prv == .m then s
  else match m.interruptDue c with
    | some (cause, v) => (s.updMgt p fun m => m.takeInt c cause).trapRv p c cause v
    | none => match m.trigger c .fetch h.pc with
      | some d => s.fireTrigger p c d h.pc
      | none => match s.fetchRv p c with
        | (s, .error (.trap e v)) => s.trapRv p c e v
        | (s, .error _) => s
        | (s, .ok (i, len)) =>
          match (i.access h).bind fun x => (m.trigger c x.1 x.2).map fun d => (d, x.2) with
          | some (d, a) => s.fireTrigger p c d a
          | none => match s.runRv p c i len with
            | (s, .trap e v) => s.trapRv p c e v
            | (s, _) => s

/-- The cores of both plates, which are clockless and wait for no command: each runs one instruction (R312, log 153). -/
def State.runCores (s : State) : State :=
  s.each [Plate.a, Plate.b] fun s p => s.each (List.range 4) fun s c => s.runCore p c

end Sys2Proof.Machine
end

