-- ==== Sys2Proof/Machine/Regs.lean ====
section
/-! DEFINITION. Host writes of registers through BAR0 and BAR4, their copies to the peer, the broadcast window, the meter latch,
the latched read of TMB_NOW, and DMA read time-outs (17 R365 to R369; 02 R27, R57; 03 R75, R77). -/

namespace Sys2Proof.Machine

/-! ## Words (R368) -/

/-- A 64-bit register with word `k` replaced. -/
def setWord (d : DWord) (k : Nat) (v : Word) : DWord :=
  if k = 0 then (d &&& 0xFFFFFFFF00000000) ||| v.setWidth 64
  else (d &&& 0x00000000FFFFFFFF) ||| (v.setWidth 64 <<< 32)

/-- The 32-bit words that an access of R368 writes, lower address first; none for any other size or alignment. -/
def accessWords (offset size : Nat) (value : DWord) : List (Nat × Word) :=
  if size = 4 ∧ offset % 4 = 0 then [(offset, wordOf value 0)]
  else if size = 8 ∧ offset % 8 = 0 then [(offset, wordOf value 0), (offset + 4, wordOf value 1)]
  else []

/-- Whether the host reaches plate `p`'s BAR0. -/
def State.barReady (s : State) (p : Plate) : Bool := s.up p && (s.pl p).pow.ready

/-! ## Slice windows (Tables 3.8, 17.5) -/

/-- Whether a write to SLC_WEIGHT has no field equal to 0. -/
def weightOk (v : Word) : Bool := (List.range 4).all fun k => decide (v.toNat / 2 ^ (8 * k) % 256 ≠ 0)

/-- A slice's registers after a write of `v` at offset `o` of Table 3.8. -/
def SliceRegs.writeRate (r : SliceRegs) (o : Nat) (v : Word) : SliceRegs :=
  let clamp (k : Nat) : Word := BitVec.ofNat 32 (min v.toNat k)
  match o with
  | 0x24 => if weightOk v then { r with weight := v } else r
  | 0x28 => { r with ratePk := clamp 64000000 }
  | 0x2C => if v = 0 then r else { r with burstPk := v }
  | 0x30 => { r with rateCi := clamp 24414062 }
  | 0x34 => if v = 0 then r else { r with burstCi := v }
  | 0x38 => { r with rateRn := clamp 4882812 }
  | 0x3C => if v = 0 then r else { r with burstRn := v }
  | _ => r

/-- A slice's line addresses after a write at offset `o` (02). -/
def SliceRegs.writeLine (r : SliceRegs) (o : Nat) (v : Word) : SliceRegs :=
  match o with
  | 0x40 => { r with db := setWord r.db 0 (v &&& 0xFFFFFFC0) }
  | 0x44 => { r with db := setWord r.db 1 v }
  | 0x48 => { r with pg := setWord r.pg 0 (v &&& 0xFFFFFFC0) }
  | 0x4C => { r with pg := setWord r.pg 1 v }
  | _ => r

/-- Whether any ring of slice `i` is enabled. -/
def State.ringEnabled (s : State) (p : Plate) (i : Nat) : Bool :=
  (List.range 16).any fun r => (s.ring p (.tenant i r)).enabled

/-- A write to a copied field of slice `i`'s window on plate `p` (03; 02 for the two lines). Bucket levels are brought up to now
before a rate or burst changes (R72). -/
def State.writeSlice (s : State) (p : Plate) (i o : Nat) (v : Word) : State :=
  if (s.impo p i).st = .free then s
  else if o = 0x04 then s.updSl p fun x => { x with impo := x.impo.mod {} i fun e => { e with groups := v.setWidth 16 } }
  else if 0x24 ≤ o ∧ o ≤ 0x3C then
    (s.setBuckets p i (s.bucketsNow p i)).updSl p fun x => { x with regs := x.regs.mod {} i fun r => r.writeRate o v }
  else if 0x40 ≤ o ∧ o ≤ 0x4C ∧ !s.ringEnabled p i then
    s.updSl p fun x => { x with regs := x.regs.mod {} i fun r => r.writeLine o v }
  else s

/-! ## Ring set-up entries (02) -/

/-- The base addresses of a ring after a write at entry offset `o`, while it is neither enabled nor draining (R55, R57). -/
def Ring.writeBase (g : Ring) (o : Nat) (v : Word) : Ring :=
  if g.enabled || g.draining then g
  else match o with
    | 0x00 => { g with sq := setWord g.sq 0 (v &&& 0xFFFFF000) }
    | 0x04 => { g with sq := setWord g.sq 1 v }
    | 0x08 => { g with cq := setWord g.cq 0 (v &&& 0xFFFFF000) }
    | 0x0C => { g with cq := setWord g.cq 1 v }
    | _ => g

/-- A write to ring r of slice `i` at entry offset `o`. -/
def State.writeRing (s : State) (p : Plate) (i r o : Nat) (v : Word) : State :=
  let q : RingRef := .tenant i r
  if (s.impo p i).st = .free then s
  else if o < 0x10 then s.updRing p q fun g => g.writeBase o v
  else if o = 0x10 then s.applyRingCfg p i r v
  else if o = 0x14 then s.updRing p q fun g => { g with coal := v &&& 0xFFFF }
  else if o = 0x18 then
    s.clearRing p i r (v.getLsbD 1) (v.getLsbD 3)
  else s

/-! ## Copied fields (R57, Table 17.4) -/

/-- The slice whose copied field lies at a BAR0 offset. -/
def copiedSlice (o : Nat) : Option Nat :=
  if 0x100000 ≤ o ∧ o < 0x200000 then
    let w := (o - 0x100000) % 0x100
    if w = 0x04 ∨ (0x24 ≤ w ∧ w < 0x50) then some ((o - 0x100000) / 0x100) else none
  else if 0x400000 ≤ o ∧ o < 0x600000 then
    if (o - 0x400000) % 0x20 < 0x1C then some ((o - 0x400000) / 0x200) else none
  else none

/-- One word written to a copied field on one plate. -/
def State.writeCopied (s : State) (p : Plate) (o : Nat) (v : Word) : State :=
  if o < 0x200000 then s.writeSlice p ((o - 0x100000) / 0x100) ((o - 0x100000) % 0x100) v
  else s.writeRing p ((o - 0x400000) / 0x200) ((o - 0x400000) / 0x20 % 16) ((o - 0x400000) % 0x20) v

/-- Whether a write touches RING_SQ_BASE, RING_CQ_BASE or RING_CFG of a ring that drains: it is ignored on either plate (R55). -/
def State.drainGuards (s : State) (p : Plate) (i offset : Nat) : Bool :=
  decide (0x400000 ≤ offset ∧ offset % 0x20 < 0x14) && s.ringDraining p i (offset / 0x20 % 16)

/-- A host write to copied fields: accepted under R57, applied here in one step, and copied to the peer. -/
def State.hostCopied (s : State) (p : Plate) (i offset size : Nat) (value : DWord) : State :=
  if s.acceptsCopied p i && !s.drainGuards p i offset && (s.impo p i).st != .free && !(accessWords offset size value).isEmpty then
    ((accessWords offset size value).foldl (fun s e => s.writeCopied p e.1 e.2) s).copyOut p offset size value
  else s

/-! ## The plate's own registers (Table 17.4) -/

/-- Whether DBP_BOUNDS takes a value. -/
def boundsOk (v : Word) : Bool := decide (4 ≤ v.toNat % 65536 ∧ v.toNat % 65536 ≤ v.toNat / 65536 ∧ v.toNat / 65536 ≤ 2000)

/-- Whether TMB_CFG takes a value. -/
def tmbCfgOk (v : Word) : Bool := !v.getLsbD 30 || decide (10000 ≤ v.toNat % 65536 ∧ v.toNat % 65536 ≤ 50000)

/-- The bits of FLT_OUT_EN. -/
def outEnMask : DWord := maskS ||| maskC ||| maskT

/-- WIT_CFG written: ENABLE from 0 to 1 begins afresh (R218). -/
def Pair.writeWitCfg (r : Pair) (v : Word) : Pair :=
  if v.getLsbD 31 && !r.witOn then { r with witCfg := v &&& 0x80000001, firstRead := true, fails := 0, wrBad := false }
  else { r with witCfg := v &&& 0x80000001 }

/-- WIT_ADDR written, while ENABLE is 0. -/
def Pair.writeWitAddr (r : Pair) (k : Nat) (v : Word) : Pair :=
  if r.witOn then r else { r with witAddr := setWord r.witAddr k (if k = 0 then v &&& 0xFFFFFFC0 else v) }

/-- ADM_CFG written (R54, R55): enabling, disabling, or another field. -/
def State.writeAdmCfg (s : State) (p : Plate) (v : Word) : State :=
  let g := s.ring p .admin
  let cfg := v &&& admCfgMask
  let keep := (cfg &&& 0xFFFFFFE0) ||| (g.cfg &&& 0x1F)
  if g.draining then s
  else if v.getLsbD 31 then
    if g.enabled then s.updRing p .admin fun g => { g with cfg := keep }
    else if v.toNat % 32 < 6 || 10 < v.toNat % 32 || (s.pl p).vlt.hold.isSome then s
    else (s.enableRing p .admin cfg).updSl p fun x => { x with admPi := 0 }
  else if g.enabled then
    ((s.disableRing p .admin).setQueue p fun _ => []).updRing p .admin fun g => { g with cfg := keep }
  else s.updRing p .admin fun g => { g with cfg := cfg }

/-- One word written by the host to a register of plate `p` that is not copied. -/
def State.writePlain (s : State) (p : Plate) (o : Nat) (v : Word) : State :=
  match o with
  | 0x1002C => s.updFlt p fun f => { f with irq := v &&& 0x800007FF }
  | 0x10030 => (s.updFlt p fun f => { f with outEn := setWord f.outEn 0 v &&& outEnMask }).refreshOut p
  | 0x10034 => (s.updFlt p fun f => { f with outEn := setWord f.outEn 1 v &&& outEnMask }).refreshOut p
  | 0x20000 => if tmbCfgOk v then s.updPow p fun w => { w with tmbCfg := v &&& 0xC000FFFF } else s
  | 0x20100 => s.updSl p fun x => { x with mtrView := v &&& 1 }
  | 0x30000 => if boundsOk v then s.updSl p fun x => { x with dbpBounds := v } else s
  | 0x40000 => s.updPr p fun r => r.writeWitAddr 0 v
  | 0x40004 => s.updPr p fun r => r.writeWitAddr 1 v
  | 0x40008 => s.updPr p fun r => r.writeWitCfg v
  | 0x50000 => s.updRing p .admin fun g => g.writeBase 0x00 v
  | 0x50004 => s.updRing p .admin fun g => g.writeBase 0x04 v
  | 0x50008 => s.updRing p .admin fun g => g.writeBase 0x08 v
  | 0x5000C => s.updRing p .admin fun g => g.writeBase 0x0C v
  | 0x50010 => s.writeAdmCfg p v
  | 0x50014 => s.adminPi p v
  | 0x5001C => if v.getLsbD 1 then s.clearFault p .admin else s
  | 0x200100 => s.updSl p fun x => { x with bcastSel := v &&& 0x8000000F }
  | _ => s

/-! ## Broadcast window and latches (R75, R77) -/

/-- The slices that a broadcast write on plate `p` selects. -/
def State.selected (s : State) (p : Plate) : List Nat :=
  let b := (s.pl p).sl.bcastSel
  ((s.pl p).sl.impo.filter fun e => e.2.st != .free &&
    (!b.getLsbD 31 || e.2.groups.getLsbD (b.toNat % 16))).map Prod.fst

/-- One word of a broadcast write: weights, rates and bursts of every selected slice, or one latch of all of them. -/
def State.broadcastWord (s : State) (p : Plate) (o : Nat) (v : Word) : State :=
  let l := s.selected p
  if o = 0x50 then (if v.getLsbD 0 then s.latchMeters p l else s)
  else if 0x24 ≤ o ∧ o ≤ 0x3C then
    l.foldl (fun s i => s.hostCopied p i (0x100000 + i * 0x100 + o) 4 (v.setWidth 64)) s
  else s

/-- A latch of slice `i` alone. -/
def State.latchOne (s : State) (p : Plate) (i : Nat) (v : Word) : State :=
  if v.getLsbD 0 && (s.impo p i).st != .free then s.latchMeters p [i] else s

/-! ## The accesses -/

/-- Whether a BAR0 offset is that of a copied register of 64 bits: SLC_DB_ADDR, SLC_PG_ADDR, RING_SQ_BASE or RING_CQ_BASE. -/
def wideCopied (o : Nat) : Bool :=
  if o < 0x200000 then (o - 0x100000) % 0x100 == 0x40 || (o - 0x100000) % 0x100 == 0x48
  else o % 0x20 == 0x00 || o % 0x20 == 0x08

/-- The accesses of which a write of BAR0 consists: an 8-byte access to two 32-bit registers acts as two of 4 bytes, lower address
first (R368). -/
def barAccesses (offset size : Nat) (value : DWord) : List (Nat × Nat × DWord) :=
  if size = 8 ∧ offset % 8 = 0 ∧ !((copiedSlice offset).isSome && wideCopied offset) then
    [(offset, 4, (wordOf value 0).setWidth 64), (offset + 4, 4, (wordOf value 1).setWidth 64)]
  else [(offset, size, value)]

/-- One access of BAR0: to a copied register, to the broadcast window, to MTR_LATCH, or to a register of the plate. -/
def State.writeAccess (s : State) (p : Plate) (offset size : Nat) (value : DWord) : State :=
  match copiedSlice offset with
  | some i => s.hostCopied p i offset size value
  | none => (accessWords offset size value).foldl (fun s e =>
      if 0x200000 ≤ e.1 ∧ e.1 < 0x200100 then s.broadcastWord p (e.1 - 0x200000) e.2
      else if 0x100000 ≤ e.1 ∧ e.1 < 0x200000 ∧ (e.1 - 0x100000) % 0x100 = 0x50 then
        s.latchOne p ((e.1 - 0x100000) / 0x100) e.2
      else s.writePlain p e.1 e.2) s

/-- A host write of BAR0 (R366 to R368). -/
def State.writeBar0 (s : State) (p : Plate) (offset size : Nat) (value : DWord) : State :=
  (barAccesses offset size value).foldl (fun s e => s.writeAccess p e.1 e.2.1 e.2.2) s

/-- One word of an MSI-X table entry; vector control carries the mask bit. -/
def msixWord (e : DWord × Word × Bool) (k : Nat) (v : Word) : DWord × Word × Bool :=
  match k with
  | 0 => (setWord e.1 0 (v &&& 0xFFFFFFFC), e.2.1, e.2.2)
  | 1 => (setWord e.1 1 v, e.2.1, e.2.2)
  | 2 => (e.1, v, e.2.2)
  | _ => (e.1, e.2.1, v.getLsbD 0)

/-- A host write of BAR4 (R365): the MSI-X table; a mask bit that clears sends what is pending. The PBA is read-only. -/
def State.writeBar4 (s : State) (p : Plate) (offset size : Nat) (value : DWord) : State :=
  ((accessWords offset size value).foldl (fun s e =>
    if e.1 < 0x8000 then
      s.updPow p fun w => { w with msix := w.msix.mod (0, 0, true) (e.1 / 16) fun x => msixWord x (e.1 % 16 / 4) e.2 }
    else s) s).sendPending p

/-- FLT_GRACE written by the secure world (13). -/
def State.writeGrace (s : State) (p : Plate) (v : Word) : State :=
  if 1 ≤ v.toNat ∧ v.toNat ≤ 10000 then s.updFlt p fun f => { f with graceMs := v.toNat } else s

/-! ## The commands -/

/-- REGISTER_WRITE (R367): bar 0 and 4 are the host's; bar 1 stands for the cluster's FLT_ view, where the secure world writes
FLT_GRACE. -/
def execRegisterWrite (p : Plate) (bar offset size : Nat) (value : DWord) (s : State) : Host.Outcome State Fault Refusal :=
  .next (match bar with
  | 0 => if s.barReady p then s.writeBar0 p offset size value else s
  | 4 => if (s.pl p).pow.cfgReady then s.writeBar4 p offset size value else s
  | 1 => if s.up p && offset == 0x10018 && size == 4 then s.writeGrace p (wordOf value 0) else s
  | _ => s)

/-- Whether a message on the gutter is a copy that overlaps an access. -/
def copyOverlaps (offset size : Nat) : GMsg → Bool
  | .copy o n _ => decide (o < offset + size ∧ offset < o + n)
  | _ => false

/-- A copy arrives (R57). On the slice's home it is discarded while a write of its own to the same field is on its way;
elsewhere it replaces the plate's own write that is still on its way (R369). -/
def State.copyArrives (s : State) (p : Plate) (offset size : Nat) (value : DWord) : State :=
  let apply (s : State) : State := (accessWords offset size value).foldl (fun s e => s.writeCopied p e.1 e.2) s
  match copiedSlice offset with
  | some i =>
    if !s.up p then s
    else if (s.impo p i).home = p then
      if (s.gut p.peer).any (copyOverlaps offset size) ||
          (s.pl p).pr.held.any (fun h => copyOverlaps offset size (.copy h.1 h.2.1 h.2.2)) then s
      else apply s
    else apply (s.setGut p.peer ((s.gut p.peer).filter fun m => !copyOverlaps offset size m))
  | none => s

/-- REGISTER_COPY_ARRIVE (R57, R369). -/
def execRegisterCopyArrive (p : Plate) (s : State) : Host.Outcome State Fault Refusal :=
  match s.receive p (fun m => match m with
    | .copy o n v => some (o, n, v)
    | _ => none) with
  | some ((o, n, v), s) => .next (s.copyArrives p o n v)
  | none => .next s

/-- BROADCAST_WRITE (R75): a write at an offset of the broadcast window. -/
def execBroadcastWrite (p : Plate) (offset size : Nat) (value : DWord) (s : State) : Host.Outcome State Fault Refusal :=
  .next (if s.barReady p && decide (offset < 0x100) then
    (accessWords offset size value).foldl (fun s e => s.broadcastWord p e.1 e.2) s
  else s)

/-- METER_LATCH (R77): MTR_LATCH of slice `i` written with LATCH 1. -/
def execMeterLatch (p : Plate) (i : Nat) (value : Word) (s : State) : Host.Outcome State Fault Refusal :=
  .next (if s.barReady p then s.latchOne p i value else s)

/-- TIMEBASE_READ (R368): a read of the lower word of TMB_NOW latches the upper word for the next read. -/
def execTimebaseRead (p : Plate) (s : State) : Host.Outcome State Fault Refusal :=
  .next (if s.barReady p then
    (s.updPow p fun w => { w with upper := wordOf (tmbNow s p) 1 }).emit (.reply p (some ((wordOf (tmbNow s p) 0).setWidth 64)))
  else s)

/-- A read that has not completed 50 ms after issue ends without data (R27). -/
def State.readTimesOut (s : State) (p : Plate) : ReadKind → State
  | .doorbell i => if ((s.pl p).sl.poll.get {} i).reading != 0 then s.doorbellDone p i .fault else s
  | .descriptor q i =>
    let g := s.ring p q
    if s.servesRing p q && g.fetchOpen && i == g.fetched then s.fetchDone p q .fault else s
  | .slug q i => match s.job? p q i with
    | some j => if j.stage == .resolving then s.slugRead p j .fault .fault else s
    | none => s
  | .input q i => match s.job? p q i with
    | some j =>
      if (j.stage == .ready && j.cls == .lane && !j.prefetched) || (j.stage == .accepted && j.desc.op == 0x31) ||
        (j.stage == .started && (j.cls == .cipher || j.cls == .random) && j.result.isNone) then s.fail p j .dmaFault
      else if j.stage == .queued && q == .admin then (s.setQueue p fun l => l.filter (· != i)).fail p j .dmaFault
      else s
    | none => s
  | .message q i => match s.job? p q i with
    | some j =>
      if (j.stage == .started || j.stage == .parked) && j.waitingMsg then s.messageFails { plate := p, ring := q, index := i }
      else s
    | none => s
  | .witness => (s.retireRead p .witness).witnessFails p

/-- DMA_READ_TIMEOUT (R27). -/
def execDmaReadTimeout (p : Plate) (kind : ReadKind) (s : State) : Host.Outcome State Fault Refusal :=
  .next (if s.readExpired p kind then s.readTimesOut p kind else s)

end Sys2Proof.Machine
end

