-- ==== Sys2Proof/Machine/Dispatch.lean ====
section
/-! DEFINITION. One arm for each command: its meaning. -/

namespace Sys2Proof.Machine

def exec (i : Instr) (s : State) : Host.Outcome State Fault Refusal :=
  match i with
  | .aeadSeal j d => Sys2Proof.Machine.execAeadSeal j d s
  | .aeadOpen j d => Sys2Proof.Machine.execAeadOpen j d s
  | .sivSeal j d => Sys2Proof.Machine.execSivSeal j d s
  | .sivOpen j d => Sys2Proof.Machine.execSivOpen j d s
  | .macGen j d => Sys2Proof.Machine.execMacGen j d s
  | .macVerify j d => Sys2Proof.Machine.execMacVerify j d s
  | .wrap j d => Sys2Proof.Machine.execWrap j d s
  | .unwrap j d => Sys2Proof.Machine.execUnwrap j d s
  | .digest j d => Sys2Proof.Machine.execDigest j d s
  | .sign j => Sys2Proof.Machine.execSign j s
  | .verify j => Sys2Proof.Machine.execVerify j s
  | .kemDecaps j => Sys2Proof.Machine.execKemDecaps j s
  | .kemEncaps j => Sys2Proof.Machine.execKemEncaps j s
  | .ecdh j => Sys2Proof.Machine.execEcdh j s
  | .rsaDecrypt j => Sys2Proof.Machine.execRsaDecrypt j s
  | .derive j d => Sys2Proof.Machine.execDerive j d s
  | .keyLoad j => Sys2Proof.Machine.execKeyLoad j s
  | .keyGenerate j => Sys2Proof.Machine.execKeyGenerate j s
  | .keyImport j msg => Sys2Proof.Machine.execKeyImport j msg s
  | .keyErase j => Sys2Proof.Machine.execKeyErase j s
  | .keyAttest j => Sys2Proof.Machine.execKeyAttest j s
  | .keyInfo j => Sys2Proof.Machine.execKeyInfo j s
  | .keyExportWrapped j => Sys2Proof.Machine.execKeyExportWrapped j s
  | .random j d => Sys2Proof.Machine.execRandom j d s
  | .fence j => Sys2Proof.Machine.execFence j s
  | .deviceAttest j => Sys2Proof.Machine.execDeviceAttest j s
  | .sliceCreate j rec => Sys2Proof.Machine.execSliceCreate j rec s
  | .sliceResize j rec => Sys2Proof.Machine.execSliceResize j rec s
  | .sliceDestroy j rec => Sys2Proof.Machine.execSliceDestroy j rec s
  | .importerBind j key => Sys2Proof.Machine.execImporterBind j key s
  | .quorumOpen j intended input => Sys2Proof.Machine.execQuorumOpen j intended input s
  | .quorumApprove j approval => Sys2Proof.Machine.execQuorumApprove j approval s
  | .custodianEnroll j label card => Sys2Proof.Machine.execCustodianEnroll j label card s
  | .custodianRemove j => Sys2Proof.Machine.execCustodianRemove j s
  | .policySet j rec => Sys2Proof.Machine.execPolicySet j rec s
  | .lifecycleSet j material => Sys2Proof.Machine.execLifecycleSet j material s
  | .knockoutCmd j => Sys2Proof.Machine.execKnockoutCmd j s
  | .fwMakeready j bundle => Sys2Proof.Machine.execFwMakeready j bundle s
  | .fwSwap j => Sys2Proof.Machine.execFwSwap j s
  | .migrateOutPackage j colophon => Sys2Proof.Machine.execMigrateOutPackage j colophon s
  | .migrateOutConfirm j receipt => Sys2Proof.Machine.execMigrateOutConfirm j receipt s
  | .migrateInApply j chunk => Sys2Proof.Machine.execMigrateInApply j chunk s
  | .migrateInAbandon j => Sys2Proof.Machine.execMigrateInAbandon j s
  | .logMode j rec => Sys2Proof.Machine.execLogMode j rec s
  | .logExport j challenge => Sys2Proof.Machine.execLogExport j challenge s
  | .takeover j => Sys2Proof.Machine.execTakeover j s
  | .rebalance j => Sys2Proof.Machine.execRebalance j s
  | .doorbellPoll p n => Sys2Proof.Machine.execDoorbellPoll p n s
  | .doorbellReadDone p n line => Sys2Proof.Machine.execDoorbellReadDone p n line s
  | .nudge p n offset size value => Sys2Proof.Machine.execNudge p n offset size value s
  | .cancel p n offset size value => Sys2Proof.Machine.execCancel p n offset size value s
  | .nudgeForwardArrive p => Sys2Proof.Machine.execNudgeForwardArrive p s
  | .cancelForwardArrive p => Sys2Proof.Machine.execCancelForwardArrive p s
  | .descriptorFetch j data => Sys2Proof.Machine.execDescriptorFetch j data s
  | .dmaReadTimeout p kind => Sys2Proof.Machine.execDmaReadTimeout p kind s
  | .slugResolve j header material => Sys2Proof.Machine.execSlugResolve j header material s
  | .lineReserveRetry j => Sys2Proof.Machine.execLineReserveRetry j s
  | .fillDone j => Sys2Proof.Machine.execFillDone j s
  | .inputPrefetch j d => Sys2Proof.Machine.execInputPrefetch j d s
  | .jobStart p c => Sys2Proof.Machine.execJobStart p c s
  | .laneResultReady j => Sys2Proof.Machine.execLaneResultReady j s
  | .messageDataArrive j data => Sys2Proof.Machine.execMessageDataArrive j data s
  | .attemptBoundary j => Sys2Proof.Machine.execAttemptBoundary j s
  | .justifierRelease j => Sys2Proof.Machine.execJustifierRelease j s
  | .engineJobDone j => Sys2Proof.Machine.execEngineJobDone j s
  | .openFirstPassDone j => Sys2Proof.Machine.execOpenFirstPassDone j s
  | .vaultJobDone j => Sys2Proof.Machine.execVaultJobDone j s
  | .progressLineWrite p n => Sys2Proof.Machine.execProgressLineWrite p n s
  | .irqCoalTimeout p n r => Sys2Proof.Machine.execIrqCoalTimeout p n r s
  | .parkSelect p => Sys2Proof.Machine.execParkSelect p s
  | .park j => Sys2Proof.Machine.execPark j s
  | .jobResume p => Sys2Proof.Machine.execJobResume p s
  | .refcountZero p item => Sys2Proof.Machine.execRefcountZero p item s
  | .ringEnable p n r cfg => Sys2Proof.Machine.execRingEnable p n r cfg s
  | .ringDisable p n r cfg => Sys2Proof.Machine.execRingDisable p n r cfg s
  | .ringDrainEnd p q => Sys2Proof.Machine.execRingDrainEnd p q s
  | .ringFaultClear p n r => Sys2Proof.Machine.execRingFaultClear p n r s
  | .adminDoorbell p pi => Sys2Proof.Machine.execAdminDoorbell p pi s
  | .adminRingEnable p cfg => Sys2Proof.Machine.execAdminRingEnable p cfg s
  | .adminRingDisable p cfg => Sys2Proof.Machine.execAdminRingDisable p cfg s
  | .adminFaultClear p => Sys2Proof.Machine.execAdminFaultClear p s
  | .registerWrite p bar offset size value => Sys2Proof.Machine.execRegisterWrite p bar offset size value s
  | .registerCopyArrive p => Sys2Proof.Machine.execRegisterCopyArrive p s
  | .broadcastWrite p offset size value => Sys2Proof.Machine.execBroadcastWrite p offset size value s
  | .meterLatch p n value => Sys2Proof.Machine.execMeterLatch p n value s
  | .witnessEnable p cfg => Sys2Proof.Machine.execWitnessEnable p cfg s
  | .timebaseRead p => Sys2Proof.Machine.execTimebaseRead p s
  | .rngDataRead p w width => Sys2Proof.Machine.execRngDataRead p w width s
  | .rngDataReady p w => Sys2Proof.Machine.execRngDataReady p w s
  | .faultClear p value => Sys2Proof.Machine.execFaultClear p value s
  | .faultForce p value => Sys2Proof.Machine.execFaultForce p value s
  | .drillEnter p w => Sys2Proof.Machine.execDrillEnter p w s
  | .drillExit p w => Sys2Proof.Machine.execDrillExit p w s
  | .drillTimeout p => Sys2Proof.Machine.execDrillTimeout p s
  | .worldSignal p w value => Sys2Proof.Machine.execWorldSignal p w value s
  | .secAliveWrite p w => Sys2Proof.Machine.execSecAliveWrite p w s
  | .nrmAliveWrite p w => Sys2Proof.Machine.execNrmAliveWrite p w s
  | .secStallTimeout p => Sys2Proof.Machine.execSecStallTimeout p s
  | .secRestartTimeout p => Sys2Proof.Machine.execSecRestartTimeout p s
  | .nrmRestartTimeout p => Sys2Proof.Machine.execNrmRestartTimeout p s
  | .nvmRawSelect p w page => Sys2Proof.Machine.execNvmRawSelect p w page s
  | .info p core => Sys2Proof.Machine.execInfo p core s
  | .call p core args => Sys2Proof.Machine.execCall p core args s
  | .ret p core results => Sys2Proof.Machine.execRet p core results s
  | .callTimeout p core => Sys2Proof.Machine.execCallTimeout p core s
  | .release p core block => Sys2Proof.Machine.execRelease p core block s
  | .wmGive p core mem new => Sys2Proof.Machine.execWmGive p core mem new s
  | .wmScrubDone p => Sys2Proof.Machine.execWmScrubDone p s
  | .setEntry p core addr => Sys2Proof.Machine.execSetEntry p core addr s
  | .conditionerBlock p raw => Sys2Proof.Machine.execConditionerBlock p raw s
  | .healthTestFail p cell cause => Sys2Proof.Machine.execHealthTestFail p cell cause s
  | .reseedDue p inst => Sys2Proof.Machine.execReseedDue p inst s
  | .gutterHeartbeatSend p => Sys2Proof.Machine.execGutterHeartbeatSend p s
  | .gutterHeartbeatRecv p link => Sys2Proof.Machine.execGutterHeartbeatRecv p link s
  | .sublinkDown p link => Sys2Proof.Machine.execSublinkDown p link s
  | .gutterLost p => Sys2Proof.Machine.execGutterLost p s
  | .mirrorWriteRecv p => Sys2Proof.Machine.execMirrorWriteRecv p s
  | .mirrorAckRecv p => Sys2Proof.Machine.execMirrorAckRecv p s
  | .nvmCommitDone p pulses => Sys2Proof.Machine.execNvmCommitDone p pulses s
  | .inflightMirrorCopy p => Sys2Proof.Machine.execInflightMirrorCopy p s
  | .witnessBeat p written => Sys2Proof.Machine.execWitnessBeat p written s
  | .witnessRead p line => Sys2Proof.Machine.execWitnessRead p line s
  | .peerStale p => Sys2Proof.Machine.execPeerStale p s
  | .witnessError p => Sys2Proof.Machine.execWitnessError p s
  | .leaveRecv p => Sys2Proof.Machine.execLeaveRecv p s
  | .takeoverCasDone p old => Sys2Proof.Machine.execTakeoverCasDone p old s
  | .takeoverQuietEnd p scans => Sys2Proof.Machine.execTakeoverQuietEnd p scans s
  | .fenceHoldEnd p => Sys2Proof.Machine.execFenceHoldEnd p s
  | .fenceAsserted p => Sys2Proof.Machine.execFenceAsserted p s
  | .fenceReleased p => Sys2Proof.Machine.execFenceReleased p s
  | .peerRejoin p => Sys2Proof.Machine.execPeerRejoin p s
  | .resyncComplete p old => Sys2Proof.Machine.execResyncComplete p old s
  | .reconcileDone p => Sys2Proof.Machine.execReconcileDone p s
  | .handoverDrainDone p n => Sys2Proof.Machine.execHandoverDrainDone p n s
  | .handoverStateRecv p n scans => Sys2Proof.Machine.execHandoverStateRecv p n scans s
  | .makereadyBootTimeout p => Sys2Proof.Machine.execMakereadyBootTimeout p s
  | .mixedFwTimeout p => Sys2Proof.Machine.execMixedFwTimeout p s
  | .scrubStart p findings => Sys2Proof.Machine.execScrubStart p findings s
  | .timebaseCompare p diff ownOff => Sys2Proof.Machine.execTimebaseCompare p diff ownOff s
  | .regionSkew p dt => Sys2Proof.Machine.execRegionSkew p dt s
  | .clusterWatchdogExpire p => Sys2Proof.Machine.execClusterWatchdogExpire p s
  | .sequencerWaitExpire p => Sys2Proof.Machine.execSequencerWaitExpire p s
  | .tokenRequestRecv p => Sys2Proof.Machine.execTokenRequestRecv p s
  | .tokenReceived p => Sys2Proof.Machine.execTokenReceived p s
  | .tokenPassTimeout p => Sys2Proof.Machine.execTokenPassTimeout p s
  | .isolationTimeout p => Sys2Proof.Machine.execIsolationTimeout p s
  | .faultSourceAssert p src unit level => Sys2Proof.Machine.execFaultSourceAssert p src unit level s
  | .unitResetDone p u pass => Sys2Proof.Machine.execUnitResetDone p u pass s
  | .graceExpire p => Sys2Proof.Machine.execGraceExpire p s
  | .chaseCompare p mismatch => Sys2Proof.Machine.execChaseCompare p mismatch s
  | .envThreshold p cond present => Sys2Proof.Machine.execEnvThreshold p cond present s
  | .sensorSample p k sample => Sys2Proof.Machine.execSensorSample p k sample s
  | .logicAlarm p src => Sys2Proof.Machine.execLogicAlarm p src s
  | .knockoutLineAssert p by_ scans => Sys2Proof.Machine.execKnockoutLineAssert p by_ scans s
  | .knockoutCauseRecv p => Sys2Proof.Machine.execKnockoutCauseRecv p s
  | .powerUp p chase scans => Sys2Proof.Machine.execPowerUp p chase scans s
  | .powerDown p => Sys2Proof.Machine.execPowerDown p s
  | .perstAssert p => Sys2Proof.Machine.execPerstAssert p s
  | .perstRelease p => Sys2Proof.Machine.execPerstRelease p s
  | .hotReset p => Sys2Proof.Machine.execHotReset p s
  | .timebaseSelect p timerefHz refclk corr => Sys2Proof.Machine.execTimebaseSelect p timerefHz refclk corr s
  | .timebaseRefLost p => Sys2Proof.Machine.execTimebaseRefLost p s
  | .avsTransactionDone p kind ok => Sys2Proof.Machine.execAvsTransactionDone p kind ok s
  | .optimeStore p => Sys2Proof.Machine.execOptimeStore p s
  | .maskEpochAdvance p => Sys2Proof.Machine.execMaskEpochAdvance p s
  | .wearLevelRewrite p behind => Sys2Proof.Machine.execWearLevelRewrite p behind s
  | .eventRecord p profile trigger detail => Sys2Proof.Machine.execEventRecord p profile trigger detail s
  | .recordWrite p => Sys2Proof.Machine.execRecordWrite p s
  | .logWindowEnd p => Sys2Proof.Machine.execLogWindowEnd p s
  | .coalesceFlush p => Sys2Proof.Machine.execCoalesceFlush p s
  | .shedLevelChange p => Sys2Proof.Machine.execShedLevelChange p s
  | .quorumSessionExpire p session => Sys2Proof.Machine.execQuorumSessionExpire p session s
  | .localApprovalTimeout p => Sys2Proof.Machine.execLocalApprovalTimeout p s
  | .buttonWaitTimeout p => Sys2Proof.Machine.execButtonWaitTimeout p s
  | .bripaFrameRecv at_ p bytes idle => Sys2Proof.Machine.execBripaFrameRecv at_ p bytes idle s
  | .bripaRetransmit at_ p => Sys2Proof.Machine.execBripaRetransmit at_ p s
  | .hello p => Sys2Proof.Machine.execHello p s
  | .config p => Sys2Proof.Machine.execConfig p s
  | .ack at_ p => Sys2Proof.Machine.execAck at_ p s
  | .linkReset at_ p => Sys2Proof.Machine.execLinkReset at_ p s
  | .claim p => Sys2Proof.Machine.execClaim p s
  | .grant p => Sys2Proof.Machine.execGrant p s
  | .releaseFrame p => Sys2Proof.Machine.execReleaseFrame p s
  | .cardCtrl p atr => Sys2Proof.Machine.execCardCtrl p atr s
  | .cardEvent p => Sys2Proof.Machine.execCardEvent p s
  | .apdu p => Sys2Proof.Machine.execApdu p s
  | .resp p => Sys2Proof.Machine.execResp p s
  | .pinCollect p => Sys2Proof.Machine.execPinCollect p s
  | .pinResult p => Sys2Proof.Machine.execPinResult p s
  | .sdCmd p use => Sys2Proof.Machine.execSdCmd p use s
  | .sdData at_ p => Sys2Proof.Machine.execSdData at_ p s
  | .sdDone p => Sys2Proof.Machine.execSdDone p s
  | .sdEvent p => Sys2Proof.Machine.execSdEvent p s
  | .key p => Sys2Proof.Machine.execKey p s
  | .button p => Sys2Proof.Machine.execButton p s
  | .display p => Sys2Proof.Machine.execDisplay p s
  | .led p => Sys2Proof.Machine.execLed p s
  | .tamper p => Sys2Proof.Machine.execTamper p s
  | .loopStatus p => Sys2Proof.Machine.execLoopStatus p s
  | .loopStatusPeriod => Sys2Proof.Machine.execLoopStatusPeriod s
  | .fieldPowerUp => Sys2Proof.Machine.execFieldPowerUp s
  | .brownOut => Sys2Proof.Machine.execBrownOut s
  | .allClearLost p => Sys2Proof.Machine.execAllClearLost p s
  | .allClearValid p => Sys2Proof.Machine.execAllClearValid p s
  | .loopDeglitch input loop state => Sys2Proof.Machine.execLoopDeglitch input loop state s
  | .discrepancyExpire input => Sys2Proof.Machine.execDiscrepancyExpire input s
  | .discrepancyEnd input => Sys2Proof.Machine.execDiscrepancyEnd input s
  | .koChannelAssert => Sys2Proof.Machine.execKoChannelAssert s
  | .cardPresence reader present => Sys2Proof.Machine.execCardPresence reader present s
  | .cardOvercurrent reader => Sys2Proof.Machine.execCardOvercurrent reader s
  | .cardResponseTimeout p reader => Sys2Proof.Machine.execCardResponseTimeout p reader s
  | .sdBusyTimeout => Sys2Proof.Machine.execSdBusyTimeout s
  | .sdRemoval => Sys2Proof.Machine.execSdRemoval s
  | .keypadPress ch status => Sys2Proof.Machine.execKeypadPress ch status s
  | .buttonPress n pressed => Sys2Proof.Machine.execButtonPress n pressed s
  | .sdInsertion locked card => Sys2Proof.Machine.execSdInsertion locked card s
  | .mctpMessage p req => Sys2Proof.Machine.execMctpMessage p req s
  | .tapInstruction reset code => Sys2Proof.Machine.execTapInstruction reset code s
  | .debugHalt p core halt => Sys2Proof.Machine.execDebugHalt p core halt s
  | .configRequest p req => Sys2Proof.Machine.execConfigRequest p req s
  | .atsInvalidateRequest p page => Sys2Proof.Machine.execAtsInvalidateRequest p page s
  | .msixVectorUnmask p vector => Sys2Proof.Machine.execMsixVectorUnmask p vector s
  | .peerWearStateReport p => Sys2Proof.Machine.execPeerWearStateReport p s
  | .peerEpochReport p => Sys2Proof.Machine.execPeerEpochReport p s

end Sys2Proof.Machine
end

