-- ==== Sys2Proof/Safety.lean ====
section
/-! DEFINITION. What counts as a safe step, and the terms in which statements say what a command leaves alone. -/

namespace Sys2Proof

/-- A step is safe where it answers a next state. -/
def Safety.safeStep (s : Machine.State) : Prop := ∃ t, Machine.step s = .next t

namespace Machine

/-- The components of the state: eleven parts of each plate, the messages under way to each plate, the Margin die, the pins,
the clock, the counter of free values, the record of outputs and the queue of commands. Together they are the whole state. -/
inductive Part where
  | pow (p : Plate) | sl (p : Plate) | vlt (p : Plate) | rng (p : Plate) | pr (p : Plate) | cus (p : Plate)
  | mrg (p : Plate) | tmp (p : Plate) | flt (p : Plate) | mgt (p : Plate) | nvm (p : Plate) | gut (p : Plate)
  | margin | pwrgood | clkreqLow | tapIr | clock | free | out | pending
  deriving DecidableEq, Repr

/-- Two states agree on a component. -/
def Same (s t : State) : Part → Prop
  | .pow p => (t.pl p).pow = (s.pl p).pow
  | .sl p => (t.pl p).sl = (s.pl p).sl
  | .vlt p => (t.pl p).vlt = (s.pl p).vlt
  | .rng p => (t.pl p).rng = (s.pl p).rng
  | .pr p => (t.pl p).pr = (s.pl p).pr
  | .cus p => (t.pl p).cus = (s.pl p).cus
  | .mrg p => (t.pl p).mrg = (s.pl p).mrg
  | .tmp p => (t.pl p).tmp = (s.pl p).tmp
  | .flt p => (t.pl p).flt = (s.pl p).flt
  | .mgt p => (t.pl p).mgt = (s.pl p).mgt
  | .nvm p => (t.pl p).nvm = (s.pl p).nvm
  | .gut p => t.gut p = s.gut p
  | .margin => t.margin = s.margin
  | .pwrgood => t.pwrgood = s.pwrgood
  | .clkreqLow => t.clkreqLow = s.clkreqLow
  | .tapIr => t.tapIr = s.tapIr
  | .clock => t.clock = s.clock
  | .free => t.free = s.free
  | .out => t.out = s.out
  | .pending => t.pending = s.pending

/-- The frame of a command: every component not in the list is what it was. -/
def SameBut (l : List Part) (s t : State) : Prop := ∀ x : Part, x ∉ l → Same s t x

/-- Between `s` and `t` no ring of plate `p` but `q` changed. -/
def OnlyRing (s t : State) (p : Plate) : RingRef → Prop
  | .admin => (t.pl p).sl.rings = (s.pl p).sl.rings
  | .tenant i r => (t.pl p).sl.adm = (s.pl p).sl.adm ∧
      ∀ k, k ≠ ringKey i r → (t.pl p).sl.rings.get {} k = (s.pl p).sl.rings.get {} k

/-! ## What a step sends and asks for -/

/-- The requests sent so far, but for the translation requests that ATS puts before them (Table 2.1). -/
def State.sent (s : State) : List Out :=
  s.out.filter fun o => match o with
    | .translate _ _ _ => false
    | _ => true

/-- The descriptors of a ring from F up to the producer index that have no record, no job and no read under way. -/
def State.unread (s : State) (p : Plate) (q : RingRef) : List (DWord × Nat) :=
  let g := s.ring p q
  (((List.range (dist g.prod g.fetched)).map fun k => g.fetched + BitVec.ofNat 32 k).filter fun i =>
    !s.settled p q i && !(s.pl p).sl.reads.any fun e => e.1 == .descriptor q i).map fun i => (g.sqEntry i, 64)

/-! ## What a completion leaves -/

/-- The tag under which plate `p` writes for a ring: its slice's PASID, none for the admin ring; `none` where the slice has no
binding on this function and no write is issued (R24). -/
def State.ringTag (s : State) (p : Plate) : RingRef → Option (Option (BitVec 20))
  | .tenant i _ => (s.pasid p i).map some
  | .admin => some none

/-- The completion record of a job with outcome `r`, as the ring of state `s` gives it a number and a phase (Table 2.8); an outcome
that writes where translation fails is DMA_FAULT (R25). -/
def recordOf (s : State) (p : Plate) (j : Job) (r : Result) : Bytes :=
  let r := s.translated p j.ring (some j.desc) r
  let g := s.ring p j.ring
  recordCpl j.desc.cookie r.status.code p.num (cplFlags j.wasParked (j.fetchedBy != p) r) (cplOutLen r) r.info j.index r.info2
    (g.phase g.count)

/-- Between `s` and `t` a job completed on plate `p` with outcome `r`: what was sent stays sent, and, where the plate can reach
the memory of the ring (R24), the job is gone and the record was written at the next completion entry of its ring
(R30, R43). -/
def Completes (s t : State) (p : Plate) (j : Job) (r : Result) : Prop :=
  s.out <+: t.out ∧
  ∀ v, s.ringTag p j.ring = some v → t.job? p j.ring j.index = none ∧ (s.mayWrite p = true →
    Out.write p v ((s.ring p j.ring).cqEntry (s.ring p j.ring).count) (recordOf s p j r) false ∈ t.out)

/-- The parts that a completion on plate `p` may touch: the rings and jobs, cache lines reserved for a key that was not made,
pending MSI-X messages, and the record of outputs. -/
def completing (p : Plate) : List Part := [.sl p, .vlt p, .pow p, .out]

end Machine

end Sys2Proof
end

