-- ==== Sys2Proof/Certificates/Slice0/Obligations.lean ====
section
/-! DEFINITION. The statements for the provers. -/

open Sys2Proof Sys2Proof.Machine

/-! ## The queue (log 1) -/

/-- A step takes the command at the front of the queue and runs it with the rest of the queue; with no command waiting one
microsecond passes and every core that runs executes an instruction (the model's choice, logs 1 and 153). -/
def Obligations.StepRunsTheFrontCommand : Prop :=
  (∀ (c : Instr) (q : List Instr) (s : State), s.pending = c :: q → step s = exec c { s with pending := q }) ∧
  (∀ s : State, s.pending = [] → step s = .next { s with clock := s.clock + 1 }.runCores)

/-! ## Doorbells, nudges and cancels (R34 to R38, R49 to R52) -/

/-- Between `s` and `t` plate `p` issued these reads for a ring, each under the ring's tag and with relaxed ordering clear; a
slice without a PASID binding reads nothing (R24). -/
def ReadsIssued (s t : State) (p : Plate) (q : RingRef) (l : List (DWord × Nat)) : Prop :=
  t.sent = s.sent ++ (match s.ringTag p q with
    | some v => l.map fun x => .read p v x.1 x.2 false
    | none => [])

/-- Between `s` and `t` a read of slice `i`'s doorbell line was issued by plate `p` under the slice's PASID, and nothing but
the polling state, the outstanding reads, the translations held (Table 2.1) and the outputs moved. -/
def DoorbellRead (s t : State) (p : Plate) (i : Nat) : Prop :=
  ((t.pl p).sl.poll.get {} i).reading = ((s.pl p).sl.poll.get {} i).reading + 1 ∧
  ((t.pl p).sl.poll.get {} i).lastRead = s.clock ∧
  t.sent = s.sent ++ [.read p (s.pasid p i) ((s.pl p).sl.regs.get {} i).db 64 false] ∧
  (t.pl p).sl.rings = (s.pl p).sl.rings ∧ (t.pl p).sl.jobs = (s.pl p).sl.jobs ∧ (t.pl p).sl.regs = (s.pl p).sl.regs ∧
  SameBut [.sl p, .pow p, .out] s t

/-- DOORBELL_POLL, NUDGE and a forwarded NUDGE read a homed slice's doorbell line at once, the NUDGEs beside any read under way; where the cap of 2 % has no room for
the read that the timer asks for, the slice's interval is lengthened beyond DBP_BOUNDS.MAX instead (the model's choice, log 11);
at the other plate a NUDGE is forwarded and changes nothing there; a NUDGE that is not a 4-byte write at offset 0 with its
reserved bits zero is ignored. -/
def Obligations.DoorbellReads : Prop :=
  (∀ (p : Plate) (i : Nat) (s : State), s.fetches p i = true → s.anyRing p i = true →
    ((s.pl p).sl.poll.get {} i).reading = 0 →
    s.past ((s.pl p).sl.poll.get {} i).lastRead (max ((s.pl p).sl.poll.get {} i).interval (s.pl p).sl.pollMin) = true →
    if s.pollFits p i then ∃ t, exec (.doorbellPoll p i) s = .next t ∧ DoorbellRead s t p i
    else ∃ t, exec (.doorbellPoll p i) s = .next t ∧ (s.pl p).sl.pollMax ≤ ((t.pl p).sl.poll.get {} i).interval ∧
      ((t.pl p).sl.poll.get {} i).lastRead = ((s.pl p).sl.poll.get {} i).lastRead ∧ SameBut [.sl p] s t) ∧
  (∀ (p : Plate) (i : Nat) (value : DWord) (s : State), value.toNat < 2 ^ 16 → s.up p = true →
    (s.impo p i).home = p → s.fetches p i = true → s.anyRing p i = true →
    ∃ t, exec (.nudge p i 0 4 value) s = .next t ∧ DoorbellRead s t p i) ∧
  (∀ (p : Plate) (i : Nat) (value : DWord) (s : State), value.toNat < 2 ^ 16 → s.up p = true →
    (s.impo p i).st ≠ .free → (s.impo p i).home = p.peer → s.gutterUp p = true →
    ∃ t, exec (.nudge p i 0 4 value) s = .next t ∧ t.gut p.peer = s.gut p.peer ++ [.nudge i] ∧
      SameBut [.gut p.peer] s t) ∧
  (∀ (p : Plate) (i : Nat) (l : List GMsg) (s : State), s.gut p = .nudge i :: l → (s.impo p i).home = p →
    s.fetches p i = true → s.anyRing p i = true →
    ∃ t, exec (.nudgeForwardArrive p) s = .next t ∧ t.gut p = l ∧ DoorbellRead (s.setGut p l) t p i) ∧
  (∀ (p : Plate) (i offset size : Nat) (value : DWord) (s : State),
    offset ≠ 0 ∨ size ≠ 4 ∨ 2 ^ 16 ≤ value.toNat → exec (.nudge p i offset size value) s = .next s)

/-- DOORBELL_READ_DONE gives every ring in service its producer index: one farther than the ring's size above L faults the
ring with reason 1, one farther than that above F with reason 2, and any other is accepted: it is the new producer index unless
one at least as far above F was accepted before; a read that failed faults every such ring with reason 3. -/
def Obligations.DoorbellLineTakesEffect : Prop :=
  (∀ (p : Plate) (i r : Nat) (b : Bytes) (s : State), ((s.pl p).sl.poll.get {} i).reading ≠ 0 →
    s.fetches p i = true → r < 16 →
    (s.ring p (.tenant i r)).takesP = true → (s.ring p (.tenant i r)).faulted = false →
    ∃ t, exec (.doorbellReadDone p i (.ok b)) s = .next t ∧ ((t.pl p).sl.poll.get {} i).reading = ((s.pl p).sl.poll.get {} i).reading - 1 ∧
      (let v := BitVec.ofNat 32 (leAt b (4 * r) 4)
       let g := s.ring p (.tenant i r)
       let h := t.ring p (.tenant i r)
       if g.size < dist v g.low then h.faulted = true ∧ h.reason = 1 ∧ h.prod = g.prod
       else if g.size < dist v g.fetched then h.faulted = true ∧ h.reason = 2 ∧ h.prod = g.prod
       else h.faulted = false ∧ h.prod = (if dist v g.fetched ≤ dist g.prod g.fetched then g.prod else v)) ∧
      SameBut [.sl p, .pow p, .out] s t) ∧
  (∀ (p : Plate) (i r : Nat) (s : State), ((s.pl p).sl.poll.get {} i).reading ≠ 0 →
    s.fetches p i = true → r < 16 →
    (s.ring p (.tenant i r)).takesP = true → (s.ring p (.tenant i r)).faulted = false →
    ∃ t, exec (.doorbellReadDone p i .fault) s = .next t ∧ ((t.pl p).sl.poll.get {} i).reading = ((s.pl p).sl.poll.get {} i).reading - 1 ∧
      (t.ring p (.tenant i r)).faulted = true ∧ (t.ring p (.tenant i r)).reason = 3 ∧
      SameBut [.sl p, .pow p, .out] s t)

/-- Fence `f` of a ring can be armed: it is above L by at most the ring's size, and above a fence already armed. -/
abbrev Armable (g : Ring) (f : Word) : Prop :=
  dist f g.low ≠ 0 ∧ dist f g.low ≤ g.size ∧ (g.fence.all fun o => decide (dist o g.low < dist f g.low)) = true

/-- No job of the ring waits for a lease or is parked, so that an arming fence completes none at once. -/
abbrev NoneWaits (s : State) (p : Plate) (q : RingRef) : Prop :=
  ∀ j ∈ (s.pl p).sl.jobs, j.ring = q → j.stage ≠ .waitLease ∧ j.stage ≠ .parked

/-- CANCEL at the home plate arms its fence, one beyond L + size raises CANCEL_BAD, and one at the other plate is kept and
forwarded; a forwarded CANCEL arms at the home plate; of a slice whose state has been sent to its new home a CANCEL only goes on
to that home (Table 9.9); a CANCEL that is not one 8-byte write at offset 8 with its reserved
bits zero is ignored. A CANCEL whose fence covers a seal that waits for a lease, or a parked job, completes it with CANCELLED
at once. FENCE completes with OK once every lower descriptor of its ring has its completion (L has reached it), and until
then changes nothing; an armed CANCEL that covers it makes that CANCELLED. -/
def Obligations.CancelsAndFences : Prop :=
  (∀ (p : Plate) (i : Nat) (value : DWord) (s : State), value.toNat < 2 ^ 36 → (s.impo p i).st = .active → s.up p = true →
    (s.impo p i).home = p → s.movedSent p.peer i = false →
    (let q := RingRef.tenant i ((value.toNat / 2 ^ 32) % 16)
     let f := BitVec.ofNat 32 value.toNat
     Armable (s.ring p q) f → NoneWaits s p q →
     ∃ t, exec (.cancel p i 8 8 value) s = .next t ∧ t.ring p q = { s.ring p q with fence := some f } ∧
       (t.pl p).sl.jobs = (s.pl p).sl.jobs ∧ OnlyRing s t p q ∧ SameBut [.sl p] s t)) ∧
  (∀ (p : Plate) (i : Nat) (value : DWord) (s : State), value.toNat < 2 ^ 36 → (s.impo p i).st = .active → s.up p = true →
    (s.impo p i).home = p → s.movedSent p.peer i = false →
    (let q := RingRef.tenant i ((value.toNat / 2 ^ 32) % 16)
     (s.ring p q).size < dist (BitVec.ofNat 32 value.toNat) (s.ring p q).low →
     ∃ t, exec (.cancel p i 8 8 value) s = .next t ∧ t.ring p q = { s.ring p q with cancelBad := true } ∧
       (t.pl p).sl.jobs = (s.pl p).sl.jobs ∧ OnlyRing s t p q ∧ SameBut [.sl p] s t)) ∧
  (∀ (p : Plate) (i : Nat) (value : DWord) (s : State), value.toNat < 2 ^ 36 → (s.impo p i).st = .moving → s.up p = true →
    (s.impo p i).home = p → s.movedSent p.peer i = true → s.gutterUp p = true →
    ∃ t, exec (.cancel p i 8 8 value) s = .next t ∧
      t.gut p.peer = s.gut p.peer ++ [.cancel i ((value.toNat / 2 ^ 32) % 16) (BitVec.ofNat 32 value.toNat)] ∧
      SameBut [.gut p.peer] s t) ∧
  (∀ (p : Plate) (i : Nat) (value : DWord) (s : State), value.toNat < 2 ^ 36 → (s.impo p i).st ≠ .free → s.up p = true →
    (s.impo p i).home = p.peer → s.gutterUp p = true →
    (let r := (value.toNat / 2 ^ 32) % 16
     ∃ t, exec (.cancel p i 8 8 value) s = .next t ∧
       BitVec.ofNat 32 value.toNat ∈ (t.pl p).sl.cancels.get [] (ringKey i r) ∧
       (∀ f ∈ (s.pl p).sl.cancels.get [] (ringKey i r), f ∈ (t.pl p).sl.cancels.get [] (ringKey i r)) ∧
       t.gut p.peer = s.gut p.peer ++ [.cancel i r (BitVec.ofNat 32 value.toNat)] ∧
       (t.pl p).sl.rings = (s.pl p).sl.rings ∧ SameBut [.sl p, .gut p.peer] s t)) ∧
  (∀ (p : Plate) (i r : Nat) (f : Word) (l : List GMsg) (s : State), s.gut p = .cancel i r f :: l →
    (s.impo p i).home = p → s.movedSent p.peer i = false → Armable (s.ring p (.tenant i r)) f → NoneWaits s p (.tenant i r) →
    ∃ t, exec (.cancelForwardArrive p) s = .next t ∧ t.gut p = l ∧
      t.ring p (.tenant i r) = { s.ring p (.tenant i r) with fence := some f } ∧
      OnlyRing s t p (.tenant i r) ∧ SameBut [.sl p, .gut p] s t) ∧
  (∀ (p : Plate) (i offset size : Nat) (value : DWord) (s : State),
    offset ≠ 8 ∨ size ≠ 8 ∨ 2 ^ 36 ≤ value.toNat → exec (.cancel p i offset size value) s = .next s) ∧
  (∀ (p : Plate) (i : Nat) (value : DWord) (j : Job) (s : State), value.toNat < 2 ^ 36 → (s.impo p i).st = .active →
     s.up p = true → (s.impo p i).home = p → s.movedSent p.peer i = false →
     (let q := RingRef.tenant i ((value.toNat / 2 ^ 32) % 16)
      let f := BitVec.ofNat 32 value.toNat
      Armable (s.ring p q) f →
      ((s.pl p).sl.jobs.filter fun j => j.ring == q && (j.stage == .waitLease || j.stage == .parked)) = [j] →
      dist j.index (s.ring p q).low < dist f (s.ring p q).low →
      ∃ t, exec (.cancel p i 8 8 value) s = .next t ∧ Completes s t p j { status := .cancelled } ∧
        SameBut (completing p) s t)) ∧
  (∀ (r : JobRef) (j : Job) (s : State), s.jobAt r = some j → j.stage = .queued → j.desc.op = 0x51 →
    (s.ring r.plate r.ring).low = r.index →
    ∃ t, exec (.fence r) s = .next t ∧
      Completes s t r.plate j { status := if (s.ring r.plate r.ring).covers r.index then .cancelled else .ok } ∧
      SameBut (completing r.plate) s t) ∧
  (∀ (r : JobRef) (s : State), (s.ring r.plate r.ring).low ≠ r.index → exec (.fence r) s = .next s)


/-! ## Fetching and checking (R39, R40, R48, R53) -/

/-- Between `s` and `t` the ring's F passed descriptor `i`: the next index when that one is not settled already. -/
def FetchPassed (s t : State) (p : Plate) (q : RingRef) (i : Word) : Prop :=
  s.settled p q (i + 1) = false → (t.ring p q).fetched = i + 1

/-- The job that a fetched descriptor makes. -/
def fetchedJob (s : State) (p : Plate) (q : RingRef) (i : Word) (d : Desc) : Job :=
  { ring := q, index := i, desc := d, fetchedBy := (s.ring p q).fetcher p i }

/-- DESCRIPTOR_FETCH: a descriptor that fails checks 1 to 3 completes with the status of the first that fails; one on a
draining ring completes with CANCELLED; a DIGEST that passes every check waits for the cipher class with cost in_len; a FENCE
is queued. -/
def Obligations.FetchedDescriptorIsChecked : Prop :=
  (∀ (p : Plate) (n r : Nat) (i : Word) (b : Bytes) (st : Status) (s : State), s.servesRing p (.tenant n r) = true →
    (s.ring p (.tenant n r)).fetchOpen = true → (s.ring p (.tenant n r)).fetched = i →
    (s.ring p (.tenant n r)).draining = false →
    checks13 (.tenant n r) (s.quotaNow p n).slots (decodeDesc (fit 64 b)) = some st →
    ∃ t, exec (.descriptorFetch { plate := p, ring := .tenant n r, index := i } (.ok b)) s = .next t ∧
      Completes s t p (fetchedJob s p (.tenant n r) i (decodeDesc (fit 64 b))) { status := st } ∧ SameBut (completing p) s t) ∧
  (∀ (p : Plate) (n r : Nat) (i : Word) (b : Bytes) (s : State), s.servesRing p (.tenant n r) = true →
    (s.ring p (.tenant n r)).fetchOpen = true → (s.ring p (.tenant n r)).fetched = i →
    (s.ring p (.tenant n r)).draining = true →
    ∃ t, exec (.descriptorFetch { plate := p, ring := .tenant n r, index := i } (.ok b)) s = .next t ∧
      Completes s t p (fetchedJob s p (.tenant n r) i (decodeDesc (fit 64 b))) { status := .cancelled } ∧ SameBut (completing p) s t) ∧
  (∀ (p : Plate) (n r : Nat) (i : Word) (b : Bytes) (s : State), s.servesRing p (.tenant n r) = true →
    (s.ring p (.tenant n r)).fetchOpen = true → (s.ring p (.tenant n r)).fetched = i →
    (s.ring p (.tenant n r)).draining = false → s.job? p (.tenant n r) i = none →
    (let d := decodeDesc (fit 64 b)
     d.op = 0x18 → checks13 (.tenant n r) (s.quotaNow p n).slots d = none → check7 d none = none →
     ∃ t, exec (.descriptorFetch { plate := p, ring := .tenant n r, index := i } (.ok b)) s = .next t ∧
       FetchPassed s t p (.tenant n r) i ∧
       (t.job? p (.tenant n r) i).map (fun j => (j.desc, j.stage, j.cls, j.cost)) =
         some (d, .ready, .cipher, d.inLen.toNat + d.aadLen.toNat) ∧ t.out = s.out ∧ SameBut [.sl p] s t)) ∧
  (∀ (p : Plate) (n r : Nat) (i : Word) (b : Bytes) (s : State), s.servesRing p (.tenant n r) = true →
    (s.ring p (.tenant n r)).fetchOpen = true → (s.ring p (.tenant n r)).fetched = i →
    (s.ring p (.tenant n r)).draining = false → s.job? p (.tenant n r) i = none →
    (let d := decodeDesc (fit 64 b)
     d.op = 0x51 → checks13 (.tenant n r) (s.quotaNow p n).slots d = none →
     ∃ t, exec (.descriptorFetch { plate := p, ring := .tenant n r, index := i } (.ok b)) s = .next t ∧
       FetchPassed s t p (.tenant n r) i ∧ (t.job? p (.tenant n r) i).map Job.stage = some .queued ∧
       t.out = s.out ∧ SameBut [.sl p] s t))


/-- The consumer index after a record: L passes every index whose record is posted, and stops at the first that has none; the
records kept are those that L has not passed. -/
def Obligations.ConsumerIndexAdvance : Prop :=
  ∀ (g : Ring) (i n : Word), g.posted.length < 2 ^ 31 → (g.posted ++ [(i, n)]).Pairwise (fun x y => x.1 ≠ y.1) →
    (let h := g.posted1 i n
     (∀ k : Word, dist k g.low < dist h.low g.low → ∃ x ∈ g.posted ++ [(i, n)], x.1 = k) ∧
     (∀ x ∈ g.posted ++ [(i, n)], x.1 ≠ h.low) ∧
     h.posted = (g.posted ++ [(i, n)]).filter (fun x => decide (dist h.low g.low ≤ dist x.1 g.low)) ∧
     h.fence = (match g.fence with
       | some f => if dist f g.low ≤ dist h.low g.low then none else some f
       | none => none))

/-! ## Rings into and out of service (R54, R55, R57) -/

/-- The machine may accept a ring set-up write of slice `i` at its home plate, with the gutter up. -/
abbrev SetupAccepted (s : State) (p : Plate) (i : Nat) : Prop :=
  s.acceptsCopied p i = true ∧ (s.impo p i).home = p ∧ (s.impo p i).st ≠ .free ∧ s.gutterUp p = true

/-- Producer index `v` is one that the admin ring of plate `p` accepts (R36). -/
abbrev AdminWithin (s : State) (p : Plate) (v : Word) : Prop :=
  dist v (s.pl p).sl.adm.low ≤ (s.pl p).sl.adm.size ∧ dist v (s.pl p).sl.adm.fetched ≤ (s.pl p).sl.adm.size

/-- Between `s` and `t` the admin ring of plate `p` took producer index `v`: after the descriptors `l`, each descriptor that it
adds was asked for, and the rest of the ring is as it was, but for a fault that was cleared. An index that adds none takes none
back (R33). -/
def AdminTakes (s t : State) (p : Plate) (v : Word) (l : List (DWord × Nat)) : Prop :=
  let g := (s.pl p).sl.adm
  let adds := decide (dist g.prod g.fetched < dist v g.fetched)
  (t.pl p).sl.adm = { g with prod := if adds then v else g.prod, faulted := false } ∧
  ReadsIssued s t p .admin (l ++ if adds then (List.range (dist v g.prod)).map fun k =>
    (g.sqEntry (g.prod + BitVec.ofNat 32 k), 64) else [])

/-- RING_ENABLE at the home plate starts the ring with every index 0 and no fence, copies the write to the peer, and
RING_DISABLE of a ring with no job takes it out of service for new work while its descriptors drain; RING_FAULT_CLEAR lets
fetching go on from F, with a read of each descriptor submitted that has none. A size field outside 6 to 16, or a ring at or above the slice's quota, is not enabled; nor is one of a
DRAINING slice (the model's choice, log 111), and a source in migration hold enables none (R186). RING_DRAIN_END: a draining
ring whose submitted descriptors all have their completion leaves service, and nothing else changes while no slice command is in
progress. The admin ring: ADM_CFG enables it at sizes 64 to 1,024, ADM_PI submits descriptors and asks for each of them, ENABLE
0 empties the admin queue and drains, and clearing ADM_STATE.FAULTED takes the ADM_PI that is then held. -/
def Obligations.RingSetUp : Prop :=
  (∀ (p : Plate) (i r : Nat) (cfg : Word) (s : State), SetupAccepted s p i → cfg.getLsbD 31 = true →
    (let q := RingRef.tenant i r
     (s.ring p q).enabled = false → (s.ring p q).draining = false → r < (s.quotaNow p i).rings → 6 ≤ cfg.toNat % 32 →
     cfg.toNat % 32 ≤ 16 → (s.impo p i).st ≠ .draining → (s.pl p).vlt.hold = none →
     ∃ t, exec (.ringEnable p i r cfg) s = .next t ∧
       (let g := t.ring p q
        g.active = true ∧ g.enabled = true ∧ g.cfg = cfg &&& ringCfgMask ∧ g.prod = 0 ∧ g.fetched = 0 ∧ g.low = 0 ∧
        g.count = 0 ∧ g.fence = none ∧ g.sq = (s.ring p q).sq ∧ g.cq = (s.ring p q).cq) ∧
       t.gut p.peer = s.gut p.peer ++ [.copy (ringOffset i r 0x10) 4 (cfg.setWidth 64)] ∧ OnlyRing s t p q ∧
       SameBut [.sl p, .pow p, .out, .gut p.peer] s t)) ∧
  (∀ (p : Plate) (i r : Nat) (cfg : Word) (s : State), SetupAccepted s p i → cfg.getLsbD 31 = true →
    (s.ring p (.tenant i r)).enabled = false →
    (s.quotaNow p i).rings ≤ r ∨ cfg.toNat % 32 < 6 ∨ 16 < cfg.toNat % 32 →
    ∃ t, exec (.ringEnable p i r cfg) s = .next t ∧ t.ring p (.tenant i r) = s.ring p (.tenant i r) ∧
      SameBut [.gut p.peer] s t) ∧
  (∀ (p : Plate) (i r : Nat) (cfg : Word) (s : State), SetupAccepted s p i → cfg.getLsbD 31 = false →
    (let q := RingRef.tenant i r
     (s.ring p q).enabled = true → (s.ring p q).draining = false → (∀ j ∈ (s.pl p).sl.jobs, j.ring ≠ q) →
     ∃ t, exec (.ringDisable p i r cfg) s = .next t ∧
       (let g := t.ring p q
        g.draining = true ∧ g.enabled = false ∧ g.active = (s.ring p q).active ∧ g.prod = (s.ring p q).prod ∧
        g.fetched = (s.ring p q).fetched ∧ g.low = (s.ring p q).low ∧ g.count = (s.ring p q).count) ∧
       (t.pl p).sl.jobs = (s.pl p).sl.jobs ∧
       t.gut p.peer = s.gut p.peer ++ [.copy (ringOffset i r 0x10) 4 (cfg.setWidth 64)] ∧ OnlyRing s t p q ∧
       SameBut [.sl p, .pow p, .out, .gut p.peer] s t)) ∧
  (∀ (p : Plate) (i r : Nat) (s : State), SetupAccepted s p i → (s.ring p (.tenant i r)).faulted = true →
    (s.ring p (.tenant i r)).enabled = true →
    ∃ t, exec (.ringFaultClear p i r) s = .next t ∧
      t.ring p (.tenant i r) = { s.ring p (.tenant i r) with faulted := false } ∧
      ReadsIssued s t p (.tenant i r) (s.unread p (.tenant i r)) ∧
      t.gut p.peer = s.gut p.peer ++ [.copy (ringOffset i r 0x18) 4 2] ∧ OnlyRing s t p (.tenant i r) ∧
      SameBut [.sl p, .pow p, .out, .gut p.peer] s t) ∧
  (∀ (p : Plate) (i r : Nat) (cfg : Word) (s : State), s.acceptsCopied p i = false →
    exec (.ringEnable p i r cfg) s = .next s ∧ exec (.ringDisable p i r cfg) s = .next s ∧
    exec (.ringFaultClear p i r) s = .next s) ∧
  (∀ (p : Plate) (q : RingRef) (s : State), (s.ring p q).draining = true → (s.ring p q).fetched = (s.ring p q).prod →
     (s.ring p q).low = (s.ring p q).prod → s.pa.sl.ops = [] → s.pb.sl.ops = [] →
     ∃ t, exec (.ringDrainEnd p q) s = .next t ∧
       t.ring p q = { s.ring p q with draining := false, active := false } ∧ (t.pl p).sl.jobs = (s.pl p).sl.jobs ∧
       OnlyRing s t p q ∧ SameBut [.sl p] s t) ∧
  (∀ (p : Plate) (cfg : Word) (s : State), s.up p = true → (s.pl p).pow.ready = true → cfg.getLsbD 31 = true →
    (s.pl p).sl.adm.enabled = false → (s.pl p).sl.adm.draining = false → 6 ≤ cfg.toNat % 32 → cfg.toNat % 32 ≤ 10 →
    (s.pl p).vlt.hold = none →
    ∃ t, exec (.adminRingEnable p cfg) s = .next t ∧
      (let g := (t.pl p).sl.adm
       g.active = true ∧ g.enabled = true ∧ g.prod = 0 ∧ g.fetched = 0 ∧ g.low = 0 ∧ g.count = 0 ∧ g.fence = none ∧
       g.sq = (s.pl p).sl.adm.sq ∧ g.cq = (s.pl p).sl.adm.cq) ∧
      (t.pl p).sl.admPi = 0 ∧ (t.pl p).sl.rings = (s.pl p).sl.rings ∧ SameBut [.sl p] s t) ∧
  (∀ (p : Plate) (v : Word) (s : State), s.up p = true → (s.pl p).pow.ready = true → (s.pl p).sl.adm.takesP = true →
    (s.pl p).sl.adm.faulted = false → AdminWithin s p v →
    ∃ t, exec (.adminDoorbell p v) s = .next t ∧ AdminTakes s t p v [] ∧ (t.pl p).sl.admPi = v ∧ OnlyRing s t p .admin ∧
      SameBut [.sl p, .pow p, .out] s t) ∧
  (∀ (p : Plate) (cfg : Word) (s : State), s.up p = true → (s.pl p).pow.ready = true → cfg.getLsbD 31 = false →
    (s.pl p).sl.adm.enabled = true → (s.pl p).sl.adm.draining = false → (∀ j ∈ (s.pl p).sl.jobs, j.ring ≠ .admin) →
    ∃ t, exec (.adminRingDisable p cfg) s = .next t ∧ (t.pl p).sl.adm.draining = true ∧
      (t.pl p).sl.adm.enabled = false ∧ (t.pl p).sl.adm.prod = (s.pl p).sl.adm.prod ∧ (t.pl p).mgt.queue = [] ∧
      (t.pl p).sl.jobs = (s.pl p).sl.jobs ∧ OnlyRing s t p .admin ∧ SameBut [.sl p, .pow p, .out, .mgt p] s t) ∧
  (∀ (p : Plate) (s : State), s.up p = true → (s.pl p).pow.ready = true → (s.pl p).sl.adm.faulted = true →
    (s.pl p).sl.adm.takesP = true → AdminWithin s p (s.pl p).sl.admPi →
    ∃ t, exec (.adminFaultClear p) s = .next t ∧ AdminTakes s t p (s.pl p).sl.admPi (s.unread p .admin) ∧
      (t.pl p).sl.adm.faulted = false ∧ OnlyRing s t p .admin ∧ SameBut [.sl p, .pow p, .out] s t)


/-! ## Posting (R43 to R45) -/

/-- PROGRESS_LINE_WRITE writes the line of a slice that has records not yet shown, and the slice leaves the list;
IRQ_COAL_TIMEOUT sends the ring's vector COAL_US after the first record not covered by a message, and both do nothing where
there is nothing to show. -/
def Obligations.ProgressAndInterrupts : Prop :=
  (∀ (p : Plate) (i : Nat) (v : BitVec 20) (s : State), (s.pl p).sl.progress.contains i = true → s.pasid p i = some v →
    s.mayWrite p = true →
    ∃ t, exec (.progressLineWrite p i) s = .next t ∧ (t.pl p).sl.progress.contains i = false ∧
      Out.write p (some v) ((s.pl p).sl.regs.get {} i).pg (progressBytes s p i) false ∈ t.out ∧ s.out <+: t.out ∧
      SameBut [.sl p, .pow p, .out] s t) ∧
  (∀ (p : Plate) (i : Nat) (s : State), (s.pl p).sl.progress.contains i = false →
    exec (.progressLineWrite p i) s = .next s) ∧
  (∀ (p : Plate) (i r t0 : Nat) (s : State),
    (let g := s.ring p (.tenant i r)
     g.irqSince = some t0 → g.coalUs ≠ 0 → s.past t0 g.coalUs = true → g.irqCount ≠ 0 →
     (s.pl p).sl.progress.contains i = false → (s.msixEntry p g.vector).2.2 = false → (s.pl p).pow.fnMask = false →
     ∃ t, exec (.irqCoalTimeout p i r) s = .next t ∧
       t.ring p (.tenant i r) = { g with irqCount := 0, irqSince := none } ∧
       t.out = s.out ++ [.msix p g.vector] ∧ OnlyRing s t p (.tenant i r) ∧ SameBut [.sl p, .out] s t)) ∧
  (∀ (p : Plate) (i r : Nat) (s : State), (s.ring p (.tenant i r)).irqSince = none →
    exec (.irqCoalTimeout p i r) s = .next s)
/-! ## Checks 4 to 7 and starts (R40, R64, R70, R144, R161, R188, R373) -/

/-- Checks 5 to 7 pass job `j` with key `k`, and it asks for no lines and no ledger entry of its own. -/
abbrev NeedsNoMore (j : Job) (k : Key) : Prop :=
  permOk j.desc k = true ∧ newLines j.desc (some k) = 0 ∧ takesLedger j.desc = false ∧ check7 j.desc (some k) = none

/-- In `t` job `j` waits for the class of its opcode, its cost fixed. -/
def MadeReady (t : State) (r : JobRef) (j : Job) : Prop :=
  (t.jobAt r).map (fun k => (k.stage, k.cls, k.cost, k.desc)) =
    some (.ready, opClass j.desc.op j.desc.al, jobCost j.desc j.key, j.desc)

/-- SLUG_RESOLVE: a header or material that cannot be read is DMA_FAULT, a header that is not one of the slice and material that
does not open under TRK are KEY_BAD, and one whose ledger entry does not stand is KEY_GONE; after a good header the wrapped
material is read under the slice's PASID. LINE_RESERVE_RETRY of a job whose lines are still held changes nothing but the job's
stage, of one whose entry has been filled, or whose lines have come free, makes it ready (R64); FILL_DONE marks the entry filled and frees the lane; DMA_READ_TIMEOUT ends only a read that has been outstanding for 50
ms. -/
def Obligations.KeyResolution : Prop :=
  (∀ (r : JobRef) (j : Job) (h m : Dma) (s : State), s.jobAt r = some j → j.stage = .resolving →
    (if j.slug.isSome then m else h) = .fault →
    ∃ t, exec (.slugResolve r h m) s = .next t ∧ Completes s t r.plate j { status := .dmaFault } ∧
      SameBut (completing r.plate) s t) ∧
  (∀ (r : JobRef) (j : Job) (b : Bytes) (m : Dma) (s : State), s.jobAt r = some j → j.stage = .resolving → j.slug = none →
    slugHeaderOk (fit 48 b) ((ringSlice j.ring).getD 0) = false →
    ((s.pl r.plate).vlt.recs.get {} ((ringSlice j.ring).getD 0)).tagOk = true →
    ∃ t, exec (.slugResolve r (.ok b) m) s = .next t ∧ Completes s t r.plate j { status := .keyBad } ∧
      SameBut (completing r.plate) s t) ∧
  (∀ (r : JobRef) (i n : Nat) (j : Job) (b : Bytes) (m : Dma) (v : BitVec 20) (s : State), r.ring = .tenant i n →
    j.ring = r.ring → s.jobAt r = some j → j.stage = .resolving → j.slug = none → j.desc.op ≠ 0x32 →
    slugHeaderOk (fit 48 b) i = true → ((s.pl r.plate).vlt.recs.get {} i).tagOk = true →
    s.checkLedger r.plate i (slugKey (fit 48 b)).ledger true (slugKey (fit 48 b)).gen = none → s.hasTrk r.plate i = true →
    s.cached r.plate i (slugKey (fit 48 b)) = none → s.pasid r.plate i = some v →
    ∃ t, exec (.slugResolve r (.ok b) m) s = .next t ∧
      (t.jobAt r).map (fun k => (k.stage, k.slug, k.desc)) = some (.resolving, some (slugKey (fit 48 b)), j.desc) ∧
      t.sent = s.sent ++ [.read r.plate (some v) (BitVec.ofNat 64 (j.slugAt + 48)) (leAt (fit 48 b) 0x14 4 + 16) false] ∧
      SameBut [.sl r.plate, .pow r.plate, .out] s t) ∧
  (∀ (r : JobRef) (j : Job) (k : Key) (h w : Bytes) (d : Dma) (s : State), s.jobAt r = some j → j.stage = .resolving →
    j.slug = some k → k.src = .slug h →
    ∃ t, exec (.slugResolve r d (.ok w)) s = .next t ∧
      (Config.sivOpen (s.trk r.plate ((ringSlice j.ring).getD 0)) (cut h 0x18 12) h (fit (leAt h 0x14 4 + 16) w) = none →
        Completes s t r.plate j { status := .keyBad } ∧ SameBut (completing r.plate) s t)) ∧
  (∀ (r : JobRef) (i n : Nat) (j : Job) (b : Bytes) (m : Dma) (k : Nat) (s : State), r.ring = .tenant i n →
    j.ring = r.ring → s.jobAt r = some j → j.stage = .resolving → j.slug = none → slugHeaderOk (fit 48 b) i = true →
    ((s.pl r.plate).vlt.recs.get {} i).tagOk = true → (slugKey (fit 48 b)).ledger = some k →
    s.ledgerBad r.plate k = false → ledgerLive (s.ledgerAt r.plate k) i true (slugKey (fit 48 b)).gen = false →
    ∃ t, exec (.slugResolve r (.ok b) m) s = .next t ∧ Completes s t r.plate j { status := .keyGone } ∧
      SameBut (completing r.plate) s t) ∧
  (∀ (r : JobRef) (j : Job) (k : Key) (pos : Nat) (e : CacheEntry) (s : State), s.jobAt r = some j → j.stage = .waitLines →
    usesCache j.desc = true → j.key = some k → j.entry = some pos →
    s.entryAt r.plate ((ringSlice j.ring).getD 0) pos = some e → e.filled = false →
    ∃ t, exec (.lineReserveRetry r) s = .next t ∧ t.jobAt r = some { j with stage := .waitLines } ∧
      SameBut [.sl r.plate] s t) ∧
  (∀ (r : JobRef) (j : Job) (k : Key) (pos : Nat) (e : CacheEntry) (s : State), s.jobAt r = some j → j.stage = .waitLines →
    usesCache j.desc = true → j.key = some k → j.key2 = none → j.newPos = none → j.entry = some pos →
    s.entryAt r.plate ((ringSlice j.ring).getD 0) pos = some e → e.filled = true →
    s.exhaustedNow r.plate ((ringSlice j.ring).getD 0) j k = false → NeedsNoMore j k →
    ∃ t, exec (.lineReserveRetry r) s = .next t ∧ MadeReady t r j ∧ SameBut [.sl r.plate, .pow r.plate, .out] s t) ∧
  (∀ (r : JobRef) (j : Job) (k : Key) (m pos : Nat) (s : State), s.jobAt r = some j → j.stage = .waitLines →
    usesCache j.desc = true → j.key = some k → j.key2 = none → j.newPos = none → j.entry = none → j.reserving = true →
    parseKref j.desc.keyRef = .slot m → k.vinst = none → fillCost k.alg = 0 → NeedsNoMore j k →
    (let i := (ringSlice j.ring).getD 0
     s.cached r.plate i k = none →
     s.linesUsed r.plate i + keyLines k.alg k.material.length ≤ (s.quotaNow r.plate i).lines →
     s.findPos r.plate i (s.quotaNow r.plate i).lines (s.quotaNow r.plate i).lines (Config.freeNat s.free) = some pos →
     s.exhaustedNow r.plate i j k = false →
     ∃ t, exec (.lineReserveRetry r) s = .next t ∧ MadeReady t r j ∧ (t.jobAt r).map Job.entry = some (some pos) ∧
       (t.entryAt r.plate i pos).map (fun e => (e.filled, e.lines)) = some (true, keyLines k.alg k.material.length) ∧
       SameBut [.sl r.plate, .vlt r.plate, .pow r.plate, .out, .free] s t)) ∧
  (∀ (r : JobRef) (j : Job) (k : Key) (pos : Nat) (e : CacheEntry) (s : State), s.jobAt r = some j → j.stage = .filling →
    usesCache j.desc = true → j.desc.op ≠ 0x33 → isSeal j.desc.op = false → j.key = some k → j.key2 = none →
    j.entry2 = none → j.newPos = none → j.entry = some pos →
    s.past j.startedAt (fillCost k.alg) = true → s.entryAt r.plate ((ringSlice j.ring).getD 0) pos = some e →
    NeedsNoMore j k →
    ∃ t, exec (.fillDone r) s = .next t ∧
      (t.entryAt r.plate ((ringSlice j.ring).getD 0) pos).map CacheEntry.filled = some true ∧
      MadeReady t r j ∧ (t.jobAt r).map (fun j => (j.unit, j.window)) = some (none, none) ∧
      SameBut [.sl r.plate, .vlt r.plate, .pow r.plate, .out] s t) ∧
  (∀ (p : Plate) (k : ReadKind) (s : State), s.readExpired p k = false → exec (.dmaReadTimeout p k) s = .next s) ∧
  (∀ (p : Plate) (q : RingRef) (i : Word) (j : Job) (s : State), s.job? p q i = some j → j.stage = .resolving →
    s.readExpired p (.slug q i) = true →
    ∃ t, exec (.dmaReadTimeout p (.slug q i)) s = .next t ∧ Completes s t p j { status := .dmaFault } ∧
      SameBut (completing p) s t)

/-- INPUT_PREFETCH: once every input a lane job asked for has returned, they stand in the job and it may be chosen; one that
failed completes the job with DMA_FAULT before it starts and without a charge. -/
def Obligations.LaneInputsComeFirst : Prop :=
  (∀ (r : JobRef) (j : Job) (d : Inputs) (a b c e : Bytes) (s : State), s.jobAt r = some j → j.stage = .ready →
    j.cls = .lane → j.prefetched = false → lanePrefetched j.desc d = some (a, b, c, e) →
    ∃ t, exec (.inputPrefetch r d) s = .next t ∧
      t.jobAt r = some { j with inp := a, aad := b, par := c, pub := e, prefetched := true } ∧ SameBut [.sl r.plate] s t) ∧
  (∀ (r : JobRef) (j : Job) (d : Inputs) (s : State), s.jobAt r = some j → j.stage = .ready → j.cls = .lane →
    j.prefetched = false → lanePrefetched j.desc d = none →
    ∃ t, exec (.inputPrefetch r d) s = .next t ∧ Completes s t r.plate j { status := .dmaFault } ∧
      (t.pl r.plate).sl.buckets = (s.pl r.plate).sl.buckets ∧ SameBut (completing r.plate) s t)

/-- A started job stands on its unit from now on, and only jobs, buckets, schedulers, windows and outstanding reads moved. -/
def Started (s t : State) (p : Plate) (j : Job) (unit : Option Nat) (stage : Stage) : Prop :=
  (t.job? p j.ring j.index).map (fun k => (k.stage, k.unit, k.startedAt, k.desc)) = some (stage, unit, s.clock, j.desc) ∧
  (t.pl p).sl.rings = (s.pl p).sl.rings ∧ (t.pl p).sl.live = (s.pl p).sl.live ∧ (t.pl p).sl.lanes = (s.pl p).sl.lanes ∧
  SameBut [.sl p, .pow p, .out] s t

/-- Nothing stops a chosen job at its start step: no armed fence covers it, its keys still stand, random output serves it, and
it draws no invocation number. -/
abbrev FreeToStart (s : State) (p : Plate) (j : Job) : Prop :=
  (s.ring p j.ring).covers j.index = false ∧ s.keyAtStart p j = none ∧ s.entropyAtStart p j = none ∧
  (j.key.all fun k => !drawsNumber j.desc.op k) = true

/-- JOB_START of each class starts the job that the scheduler chose, on a free unit of its class. At its start step a job
whose fence is armed completes with CANCELLED, one whose key fails a tag or no longer stands with KEY_BAD or KEY_GONE, and one
that needs random values which neither plate gives with ENTROPY_HALT; none of them starts. -/
def Obligations.StartStep : Prop :=
  (∀ (p : Plate) (s : State) (j : Job) (u : Nat), s.up p = true → s.cipherRestart p = none →
    (s.choose p .cipher).2 = some j →
    let t0 := (s.choose p .cipher).1
    t0.job? p j.ring j.index = some j → j.cls = .cipher → t0.unitFor p j = some u →
    FreeToStart t0 p j → ∃ t, exec (.jobStart p .cipher) s = .next t ∧ Started s t p j (some u) .started) ∧
  (∀ (p : Plate) (s : State) (j : Job), s.up p = true →
    (s.choose p .random).2 = some j →
    let t0 := (s.choose p .random).1
    t0.job? p j.ring j.index = some j → j.cls = .random →
    FreeToStart t0 p j → ∃ t, exec (.jobStart p .random) s = .next t ∧ Started s t p j (some 0) .started) ∧
  (∀ (p : Plate) (s : State) (j : Job), s.up p = true →
    (s.choose p .vault).2 = some j →
    let t0 := (s.choose p .vault).1
    t0.job? p j.ring j.index = some j → j.cls = .vault →
    FreeToStart t0 p j → ∃ t, exec (.jobStart p .vault) s = .next t ∧ Started s t p j none .accepted) ∧
  (∀ (p : Plate) (s : State) (j : Job) (u : Nat), s.up p = true → s.selectedJob p = none →
    ((s.updSl p fun x => { x with selected := none }).choose p .lane).2 = some j →
    let t0 := ((s.updSl p fun x => { x with selected := none }).choose p .lane).1
    t0.job? p j.ring j.index = some j →
    j.cls = .lane → t0.freeLane p = some u → (t0.pl p).sl.resume = [] → FreeToStart t0 p j →
    ∃ t, exec (.jobStart p .lane) s = .next t ∧ Started s t p j (some u) .started ∧ (t.pl p).sl.selected = none) ∧
  (∀ (p : Plate) (s : State) (j : Job), s.up p = true →
    (s.choose p .vault).2 = some j →
    let t0 := (s.choose p .vault).1
    j.begun = false → (t0.ring p j.ring).covers j.index = true →
    ∃ t, exec (.jobStart p .vault) s = .next t ∧ Completes s t p j { status := .cancelled } ∧
      SameBut (completing p) s t) ∧
  (∀ (p : Plate) (s : State) (j : Job), s.up p = true →
    (s.choose p .vault).2 = some j →
    let t0 := (s.choose p .vault).1
    ∀ st, j.begun = false → (t0.ring p j.ring).covers j.index = false →
    t0.keyAtStart p j = some st ∨ (t0.keyAtStart p j = none ∧ t0.entropyAtStart p j = some true ∧ st = .entropyHalt) →
    ∃ t, exec (.jobStart p .vault) s = .next t ∧ Completes s t p j { status := st } ∧
      SameBut (completing p) s t)


/-- Whatever job the scheduler chooses is a checked job that waits for that class, of a slice whose bucket is above 0 and,
for the lane class, that has a free window; and the choice moves only the schedulers. -/
def Obligations.SchedulerChoosesAReadyJob : Prop :=
  ∀ (p : Plate) (c : EngClass) (s : State) (j : Job), (s.choose p c).2 = some j →
    let t := (s.choose p c).1
    j ∈ (s.pl p).sl.jobs ∧ s.waits p c j = true ∧ s.levelUp p c (roundKey j.ring) = true ∧
    (c = .lane → j.ring ≠ .admin → ∀ i n, j.ring = .tenant i n → s.windowFree p i = true) ∧
    (t.pl p).sl.jobs = (s.pl p).sl.jobs ∧ (t.pl p).sl.rings = (s.pl p).sl.rings ∧ SameBut [.sl p] s t

/-- PARK_SELECT marks the running job with the most remaining time once the selected job has waited more than 20 µs with
every lane busy, and one waiting job causes at most one park; PARK sets the marked job aside with its window; JOB_RESUME
starts the head of the resume queue. -/
def Obligations.ParkingAndResuming : Prop :=
  (∀ (p : Plate) (w j : Job) (q : RingRef) (i : Word) (t0 : Nat) (s : State), s.selectedJob p = some w →
    (s.pl p).sl.selected = some (q, i, t0) → s.freeLane p = none → 20 < s.clock - t0 → w.causedPark = false →
    s.parkChoice p w = some j → s.job? p j.ring j.index = some j → s.job? p w.ring w.index = some w →
    (j.ring, j.index) ≠ (w.ring, w.index) →
    ∃ t, exec (.parkSelect p) s = .next t ∧ t.job? p j.ring j.index = some { j with toPark := true } ∧
      t.job? p w.ring w.index = some { w with causedPark := true } ∧ SameBut [.sl p] s t) ∧
  (∀ (p : Plate) (w : Job) (s : State), s.selectedJob p = some w → w.causedPark = true →
    exec (.parkSelect p) s = .next s) ∧
  (∀ (r : JobRef) (j : Job) (s : State), s.jobAt r = some j → j.stage = .started → j.toPark = true → j.rawDone = false →
    j.critical = false → (s.ring r.plate r.ring).covers r.index = false → s.selectedJob r.plate = none →
    ∃ t, exec (.park r) s = .next t ∧
      (t.jobAt r).map (fun k => (k.stage, k.unit, k.window, k.parks, k.wasParked, k.resumedAt)) =
        some (.parked, none, j.window, j.parks + 1, true, none) ∧
      (t.pl r.plate).sl.resume = (s.pl r.plate).sl.resume ++ [(r.ring, r.index)] ∧
      (t.pl r.plate).sl.buckets = (s.pl r.plate).sl.buckets ∧ SameBut [.sl r.plate] s t) ∧
  (∀ (p : Plate) (q : RingRef) (i : Word) (l : List (RingRef × Word)) (n : Nat) (j : Job) (s : State),
    s.mayRun p q = true → (s.pl p).sl.resume = (q, i) :: l → s.freeLane p = some n → s.job? p q i = some j →
    j.stage = .parked →
    ∃ t, exec (.jobResume p) s = .next t ∧
      t.job? p q i = some { j with stage := .started, unit := some n, resumedAt := some s.clock, accFrom := j.accBase } ∧
      (t.pl p).sl.resume = l ∧ (t.pl p).sl.buckets = (s.pl p).sl.buckets ∧ SameBut [.sl p, .pow p, .out] s t)
/-! ## The cipher engines (04) -/

/-- A unit runs job `j`, of this opcode, and has no outcome for it yet. -/
abbrev Working (s : State) (r : JobRef) (op : Nat) (j : Job) : Prop :=
  s.jobAt r = some j ∧ j.stage = .started ∧ j.unit.isSome = true ∧ j.desc.op = op ∧ j.result = none

/-- The unit computed outcome `x` for job `j`, and only that job changed. -/
def Computed (s t : State) (r : JobRef) (j : Job) (x : Result) : Prop :=
  t.jobAt r = some { j with result := some x } ∧ (t.pl r.plate).sl.rings = (s.pl r.plate).sl.rings ∧
  (t.pl r.plate).sl.jobs.length = (s.pl r.plate).sl.jobs.length ∧ t.out = s.out ∧ SameBut [.sl r.plate] s t

/-- AEAD_SEAL, SIV_SEAL up to 65,536 bytes, WRAP, MAC_GEN and DIGEST compute what their standard gives, with the lengths of
Table 4.3 and the completion fields of Table 4.4; the GCM IV is T ‖ N and is written at param where param is not 0. A read
that fails gives DMA_FAULT. AEAD_OPEN, SIV_OPEN, UNWRAP and MAC_VERIFY: a match gives the plaintext, the key data or OK, and
a mismatch AUTH_FAIL and no data write; info counts the passes of an open, and a second pass reads the ciphertext and the
additional data again and keeps the tag and the IV of the first. -/
def Obligations.CipherJobs : Prop :=
  (∀ (r : JobRef) (j : Job) (k : Key) (d : Inputs) (n : Nat) (pt aad o : Bytes) (s : State), Working s r 0x10 j →
    j.key = some k → j.inv = some n → cipherReads j.desc d 0 = some (pt, aad, o) →
    ∃ t, exec (.aeadSeal r d) s = .next t ∧
      (let iv := beBytes 4 k.kit.toNat ++ beBytes 8 n
       let out := fit (j.desc.inLen.toNat + 16) (Config.gcmSeal k.material iv aad pt)
       Computed s t r j { status := .ok, outLen := j.desc.inLen.toNat + 16, info := BitVec.ofNat 32 n,
                          info2 := BitVec.ofNat 32 (n / 2 ^ 32),
                          writes := (j.desc.outAddr, out) :: (if j.desc.param = 0 then [] else [(j.desc.param, iv)]) })) ∧
  (∀ (r : JobRef) (j : Job) (k : Key) (d : Inputs) (n : Nat) (pt aad nonce : Bytes) (s : State), Working s r 0x12 j →
    j.key = some k → j.inv = some n → cipherReads j.desc d 12 = some (pt, aad, nonce) → j.desc.inLen.toNat ≤ 65536 →
    ∃ t, exec (.sivSeal r d) s = .next t ∧
      Computed s t r j { status := .ok, outLen := j.desc.inLen.toNat + 16, info := BitVec.ofNat 32 n,
                         info2 := BitVec.ofNat 32 (n / 2 ^ 32),
                         writes := [(j.desc.outAddr,
                           fit (j.desc.inLen.toNat + 16) (Config.sivSeal k.material nonce aad pt))] }) ∧
  (∀ (r : JobRef) (j : Job) (k : Key) (d : Inputs) (m a o : Bytes) (s : State), Working s r 0x16 j → j.key = some k →
    cipherReads j.desc d 0 = some (m, a, o) →
    ∃ t, exec (.wrap r d) s = .next t ∧
      Computed s t r j { status := .ok, outLen := kwpLen j.desc.inLen.toNat,
                         writes := [(j.desc.outAddr, fit (kwpLen j.desc.inLen.toNat) (Config.kwpWrap k.material m))] }) ∧
  (∀ (r : JobRef) (j : Job) (d : Inputs) (m a o : Bytes) (s : State), Working s r 0x14 j →
    cipherReads j.desc d 0 = some (m, a, o) →
    ∃ t, exec (.macGen r d) s = .next t ∧
      Computed s t r j { status := .ok, outLen := macLen j.desc.al (j.desc.fl 8 8), writes := [(j.desc.outAddr, macOf j m a)] }) ∧
  (∀ (r : JobRef) (j : Job) (d : Inputs) (m a o : Bytes) (s : State), Working s r 0x18 j →
    cipherReads j.desc d 0 = some (m, a, o) →
    ∃ t, exec (.digest r d) s = .next t ∧
      Computed s t r j { status := .ok, outLen := digestLen j.desc.al,
                         writes := [(j.desc.outAddr, fit (digestLen j.desc.al) (Config.hash j.desc.al m))] }) ∧
  (∀ (r : JobRef) (j : Job) (d : Inputs) (s : State), Working s r 0x10 j → cipherReads j.desc d 0 = none →
    ∃ t, exec (.aeadSeal r d) s = .next t ∧ Computed s t r j { status := .dmaFault }) ∧
  (∀ (r : JobRef) (j : Job) (k : Key) (d : Inputs) (ct aad iv : Bytes) (s : State), Working s r 0x11 j → j.key = some k →
    j.passes = 1 → cipherReads j.desc d 12 = some (ct, aad, iv) →
    ∃ t, exec (.aeadOpen r d) s = .next t ∧
      Computed s t r (if 65552 < j.desc.inLen.toNat then { j with inp := sealTag ct, par := iv } else j)
        (match Config.gcmOpen k.material iv aad ct with
        | some m => { status := .ok, outLen := j.desc.inLen.toNat - 16, info := 1,
                      writes := [(j.desc.outAddr, fit (j.desc.inLen.toNat - 16) m)] }
        | none => { status := .authFail, info := 1 })) ∧
  (∀ (r : JobRef) (j : Job) (k : Key) (d : Inputs) (ct aad o : Bytes) (s : State), Working s r 0x11 j → j.key = some k →
    j.passes = 2 → cipherReads { j.desc with inLen := j.desc.inLen - 16 } d 0 = some (ct, aad, o) →
    ∃ t, exec (.aeadOpen r d) s = .next t ∧
      Computed s t r j (match Config.gcmOpen k.material j.par aad (ct ++ j.inp) with
        | some m => { status := .ok, outLen := j.desc.inLen.toNat - 16, info := 2,
                      writes := [(j.desc.outAddr, fit (j.desc.inLen.toNat - 16) m)] }
        | none => { status := .authFail, info := 2 })) ∧
  (∀ (r : JobRef) (j : Job) (k : Key) (d : Inputs) (ct aad iv : Bytes) (s : State), Working s r 0x13 j → j.key = some k →
    j.passes = 1 → cipherReads j.desc d 12 = some (ct, aad, iv) →
    ∃ t, exec (.sivOpen r d) s = .next t ∧
      Computed s t r (if 65552 < j.desc.inLen.toNat then { j with inp := sealTag ct, par := iv } else j)
        (match Config.sivOpen k.material iv aad ct with
        | some m => { status := .ok, outLen := j.desc.inLen.toNat - 16, info := 1,
                      writes := [(j.desc.outAddr, fit (j.desc.inLen.toNat - 16) m)] }
        | none => { status := .authFail, info := 1 })) ∧
  (∀ (r : JobRef) (j : Job) (k : Key) (d : Inputs) (ct aad o : Bytes) (s : State), Working s r 0x13 j → j.key = some k →
    j.passes = 2 → cipherReads { j.desc with inLen := j.desc.inLen - 16 } d 0 = some (ct, aad, o) →
    ∃ t, exec (.sivOpen r d) s = .next t ∧
      Computed s t r j (match Config.sivOpen k.material j.par aad (ct ++ j.inp) with
        | some m => { status := .ok, outLen := j.desc.inLen.toNat - 16, info := 2,
                      writes := [(j.desc.outAddr, fit (j.desc.inLen.toNat - 16) m)] }
        | none => { status := .authFail, info := 2 })) ∧
  (∀ (r : JobRef) (j : Job) (k : Key) (d : Inputs) (m a o : Bytes) (s : State), Working s r 0x17 j → j.key = some k →
    cipherReads j.desc d 0 = some (m, a, o) →
    ∃ t, exec (.unwrap r d) s = .next t ∧
      Computed s t r j (match Config.kwpUnwrap k.material m with
        | some v => { status := .ok, outLen := (v.take (j.desc.inLen.toNat - 8)).length,
                      writes := [(j.desc.outAddr, v.take (j.desc.inLen.toNat - 8))] }
        | none => { status := .authFail })) ∧
  (∀ (r : JobRef) (j : Job) (d : Inputs) (m a tag : Bytes) (s : State), Working s r 0x15 j →
    cipherReads j.desc d (macLen j.desc.al (j.desc.fl 8 8)) = some (m, a, tag) →
    ∃ t, exec (.macVerify r d) s = .next t ∧
      Computed s t r j { status := if macOf j m a = tag then .ok else .authFail })


/-- The key of an entry can be made now: a key of a GCM algorithm with SEAL needs the next V of a committed epoch of the plate
(R90, R91). -/
abbrev CanIssue (s : State) (p : Plate) (k : Key) : Prop :=
  k.src = .volatileKey → needsVinst k = true → (s.pl p).vlt.epochUp = true ∧ (s.pl p).vlt.nextV < 2 ^ 40

/-- The key of an entry needs an epoch that has not committed yet, or the next one, and NVM still stores it (R91, R341). -/
abbrev AwaitsEpoch (s : State) (p : Plate) (k : Key) : Prop :=
  k.src = .volatileKey ∧ needsVinst k = true ∧ (s.pl p).nvm.state ≠ 3 ∧
    ((s.pl p).vlt.epochUp = false ∨ 2 ^ 40 ≤ (s.pl p).vlt.nextV)

/-- Between `s` and `t` plate `p` made no key: it begins the next epoch where V has come to 2^40, and no V of that epoch is taken
before it has committed (R91). -/
def EpochAwaited (s t : State) (p : Plate) : Prop :=
  if (s.pl p).vlt.epochUp = true then
    (t.pl p).vlt.epoch = (s.pl p).vlt.epoch + 1 ∧ (t.pl p).vlt.nextV = 0 ∧ (t.pl p).vlt.epochUp = false ∧
    (t.pl p).vlt.seqs = [] ∧ (t.pl p).sl = (s.pl p).sl ∧ (t.pl p).vlt.cache = (s.pl p).vlt.cache ∧ t.out = s.out ∧
    SameBut [.vlt p, .nvm p, .gut p.peer] s t
  else t = s

/-- Between `s` and `t` the entry of key `k` at a position of slice `i` became a handle entry with value `h` (R146). A volatile
GCM key with SEAL takes T and the next V of the plate's epoch (R90, R91). -/
def HandleIssued (s t : State) (p : Plate) (i pos : Nat) (k : Key) (h : DWord) : Prop :=
  let fresh := k.src = .volatileKey ∧ needsVinst k = true
  ∃ f, t.entryAt p i pos = some f ∧ f.handle = some h ∧ f.filled = true ∧
    f.key.alg = k.alg ∧ f.key.attr = k.attr ∧ f.key.material = k.material ∧ (k.src ≠ .volatileKey → f.key = k) ∧
    h = makeHandle p (s.era p i) (s.nextSeq p i pos) pos ∧
    (t.pl p).vlt.issued.get 0 (seqKey (s.era p i) pos) = s.nextSeq p i pos + 1 ∧ (t.pl p).vlt.epoch = (s.pl p).vlt.epoch ∧
    (fresh → f.key.vinst = some (s.pl p).vlt.nextV ∧ f.key.kit = s.volatileT p ∧
      (t.pl p).vlt.nextV = (s.pl p).vlt.nextV + 1)

/-- What issuing a handle may touch. -/
def issuing (p : Plate) : List Part := [.sl p, .vlt p]

/-- DERIVE leaves KDF(K, "derive:" ‖ label, context) in the lines reserved for it, with the algorithm asked for and the use
bits and EXPORTABLE of param; KEY_EXPORT_WRAPPED wraps the export header and the material under the wrapping key.
ENGINE_JOB_DONE posts the outcome of a cipher or random job, for a key that it made with the handle issued to it, or with VAULT_RO
where the epoch that the key needs cannot be stored, and not before that epoch has committed; OPEN_FIRST_PASS_DONE lets the second pass of a long open start
only on a match, which reads the ciphertext and the additional data again, and a mismatch completes the job. -/
def Obligations.EngineOutcomes : Prop :=
  (∀ (r : JobRef) (j : Job) (k : Key) (d : Inputs) (ctx label o : Bytes) (pos : Nat) (e : CacheEntry) (s : State),
    Working s r 0x26 j → j.key = some k → j.newPos = some pos →
    s.entryAt r.plate ((ringSlice j.ring).getD 0) pos = some e → cipherReads j.desc d 0 = some (ctx, label, o) →
    ∃ t, exec (.derive r d) s = .next t ∧ t.jobAt r = some { j with result := some { status := .ok } } ∧
      (t.entryAt r.plate ((ringSlice j.ring).getD 0) pos).map CacheEntry.key =
        some { alg := j.desc.al, attr := BitVec.ofNat 32 j.desc.param.toNat &&& 0xFF01,
               material := fit (materialLen j.desc.al (j.desc.fl 8 8)) (Config.kmac256 k.material ctx
                 (materialLen j.desc.al (j.desc.fl 8 8)) (ascii "derive:" ++ label)) } ∧
      SameBut [.sl r.plate, .vlt r.plate] s t) ∧
  (∀ (r : JobRef) (j : Job) (k w : Key) (s : State), Working s r 0x36 j → j.key = some k → j.key2 = some w →
    ∃ t, exec (.keyExportWrapped r) s = .next t ∧
      (let n := kwpLen (16 + k.material.length)
       Computed s t r j { status := .ok, outLen := n,
                          writes := [(j.desc.outAddr, fit n (Config.kwpWrap w.material (exportHeader k ++ k.material)))] })) ∧
  (∀ (r : JobRef) (j : Job) (x : Result) (s : State), s.jobAt r = some j → j.stage = .started →
    j.cls = .cipher ∨ j.cls = .random → j.result = some x → j.engineEnds x = true → j.newPos = none →
    ∃ t, exec (.engineJobDone r) s = .next t ∧ Completes s t r.plate j x ∧ SameBut (completing r.plate) s t) ∧
  (∀ (r : JobRef) (j : Job) (x : Result) (pos : Nat) (e : CacheEntry) (s : State), s.jobAt r = some j → j.stage = .started →
    j.cls = .cipher → j.result = some x → x.status = .ok → j.engineEnds x = true → j.newPos = some pos →
    s.entryAt r.plate ((ringSlice j.ring).getD 0) pos = some e → CanIssue s r.plate e.key →
    ∃ t h, exec (.engineJobDone r) s = .next t ∧ HandleIssued s t r.plate ((ringSlice j.ring).getD 0) pos e.key h ∧
      Completes s t r.plate j { x with info := wordOf h 0, info2 := wordOf h 1 } ∧
      SameBut (issuing r.plate ++ completing r.plate) s t) ∧
  (∀ (r : JobRef) (j : Job) (x : Result) (pos : Nat) (e : CacheEntry) (s : State), s.jobAt r = some j → j.stage = .started →
    j.cls = .cipher → j.result = some x → x.status = .ok → j.engineEnds x = true → j.newPos = some pos →
    s.entryAt r.plate ((ringSlice j.ring).getD 0) pos = some e → ¬ CanIssue s r.plate e.key →
    (s.pl r.plate).nvm.state = 3 →
    ∃ t, exec (.engineJobDone r) s = .next t ∧ Completes s t r.plate j { status := .vaultRo } ∧
      SameBut (completing r.plate) s t) ∧
  (∀ (r : JobRef) (j : Job) (x : Result) (pos : Nat) (e : CacheEntry) (s : State), s.jobAt r = some j → j.stage = .started →
    j.cls = .cipher → j.result = some x → x.status = .ok → j.engineEnds x = true → j.newPos = some pos →
    s.entryAt r.plate ((ringSlice j.ring).getD 0) pos = some e → AwaitsEpoch s r.plate e.key →
    ∃ t, exec (.engineJobDone r) s = .next t ∧ EpochAwaited s t r.plate) ∧
  (∀ (r : JobRef) (j : Job) (x : Result) (s : State), s.jobAt r = some j → j.stage = .started → twoPass j.desc = true →
    j.passes = 1 → j.result = some x → x.status = .ok →
    ∃ t, exec (.openFirstPassDone r) s = .next t ∧ t.jobAt r = some { j with passes := 2, result := none } ∧
      ReadsIssued s t r.plate j.ring (dataReads { j.desc with inLen := j.desc.inLen - 16 }) ∧
      SameBut [.sl r.plate, .pow r.plate, .out] s t) ∧
  (∀ (r : JobRef) (j : Job) (x : Result) (s : State), s.jobAt r = some j → j.stage = .started → twoPass j.desc = true →
    j.passes = 1 → j.result = some x → x.status ≠ .ok →
    ∃ t, exec (.openFirstPassDone r) s = .next t ∧ Completes s t r.plate j x ∧ SameBut (completing r.plate) s t)/-! ## The public-key lanes and the justifier (05) -/

/-- A lane runs job `j`, of this opcode, with its inputs and its whole message, and has no outcome for it yet. -/
abbrev LaneWorking (s : State) (r : JobRef) (op : Nat) (j : Job) : Prop :=
  Working s r op j ∧ j.cls = .lane ∧ j.waitingMsg = false ∧ j.forced = none

/-- The lane computed outcome `x` for job `j` in `a` attempts and finished the first of them; it drew these lengths from its
DRBG instance, and only that job and that instance changed. -/
def LaneComputed (s t : State) (r : JobRef) (j : Job) (a : Nat) (draws : List Nat) (x : Result) : Prop :=
  t.jobAt r = some { j with attempts := a, rawA := 1, result := some x } ∧
  (t.pl r.plate).sl.rings = (s.pl r.plate).sl.rings ∧ t.out = s.out ∧
  (if draws = [] then SameBut [.sl r.plate] s t
   else (t.pl r.plate).rng = ((s.drew r.plate j.drbg draws).pl r.plate).rng ∧ SameBut [.sl r.plate, .rng r.plate] s t)

/-- The lane computed a shared secret `ss` with outcome `x`: under CLEAR it is written to host memory at `addr`; without it, it is
left in the lines reserved for it as a KMAC256 key with DERIVE alone. -/
def SecretComputed (s t : State) (r : JobRef) (j : Job) (draws : List Nat) (x : Result) (ss : Bytes) (addr : DWord) : Prop :=
  if j.desc.clear = true then LaneComputed s t r j 1 draws { x with writes := x.writes ++ [(addr, ss)] }
  else t.jobAt r = some { j with attempts := 1, rawA := 1, result := some x } ∧ t.out = s.out ∧
    (∀ pos e, j.newPos = some pos → s.entryAt r.plate ((ringSlice j.ring).getD 0) pos = some e →
      (t.entryAt r.plate ((ringSlice j.ring).getD 0) pos).map CacheEntry.key =
        some { alg := 0x0C, attr := BitVec.ofNat 32 (2 ^ useDerive), material := ss }) ∧
    SameBut (if draws = [] then [.sl r.plate, .vlt r.plate] else [.sl r.plate, .vlt r.plate, .rng r.plate]) s t

/-- SIGN: a signature of the length of Table 5.6 at out_addr, hedged with a fresh value that its lane's instance can give (32 bytes
for ML-DSA; the 64 of the other algorithms are the model's choice, log 141) or, under DET, with 32 zero bytes; info
is the attempt count, 1 but for ML-DSA; each later SIGN finishes one more attempt of the lane. VERIFY: OK or AUTH_FAIL, and
RANGE for an inline key that fails its check. KEM_DECAPS and KEM_ENCAPS with CLEAR write the shared secret to host memory, and
without it leave it in the lines reserved for it as a KMAC256 key with DERIVE alone; decapsulation is always OK; an inline KEM
key or ECDH peer key that fails its check is RANGE; RSA_DECRYPT that does not decode is AUTH_FAIL. -/
def Obligations.LaneOperations : Prop :=
  (∀ (r : JobRef) (j : Job) (k : Key) (s : State), LaneWorking s r 0x20 j → j.key = some k →
    j.desc.fl 13 1 = 1 ∨ s.canDraw r.plate j.drbg 1 = true →
    ∃ t, exec (.sign r) s = .next t ∧
      (let det := j.desc.fl 13 1 = 1
       let n := if isDsa j.desc.al = true then 32 else 64
       let rnd := if det then zeros 32 else s.drawn r.plate j.drbg n
       let a := if isDsa j.desc.al = true then 1 + Config.dsaAttempts j.desc.al k.material (withCtx j.aad j.inp) rnd else 1
       LaneComputed s t r j a (if det then [] else [n])
         { status := .ok, outLen := signatureLen j.desc.al, info := BitVec.ofNat 32 a,
           writes := [(j.desc.outAddr, fit (signatureLen j.desc.al) (Config.pkSign j.desc.al k.material
             (optionFlags j.desc) j.aad j.inp rnd))] })) ∧
  (∀ (r : JobRef) (j : Job) (s : State), s.jobAt r = some j → j.stage = .started → j.cls = .lane → j.unit.isSome = true →
    j.desc.op = 0x20 → j.result.isSome = true → j.rawA < j.attempts →
    ∃ t, exec (.sign r) s = .next t ∧ t.jobAt r = some { j with rawA := j.rawA + 1 } ∧ SameBut [.sl r.plate] s t) ∧
  (∀ (r : JobRef) (j : Job) (k : Key) (s : State), LaneWorking s r 0x21 j → j.key = some k →
    ∃ t, exec (.verify r) s = .next t ∧
      (let pub := fit (publicLen k.alg) (Config.pkPublic k.alg k.material)
       let good := Config.pkVerify j.desc.al pub (optionFlags j.desc) j.aad j.inp j.par
       LaneComputed s t r j 1 [] { status := if good = true then .ok else .authFail })) ∧
  (∀ (r : JobRef) (j : Job) (s : State), LaneWorking s r 0x21 j → j.key = none →
    ∃ t, exec (.verify r) s = .next t ∧
      (let good := Config.pkVerify j.desc.al j.pub (optionFlags j.desc) j.aad j.inp j.par
       let st : Status := if isRsa j.desc.al = false ∧ Config.pkValid j.desc.al j.pub = false then .range
         else if good = true then .ok else .authFail
       LaneComputed s t r j 1 [] { status := st })) ∧
  (∀ (r : JobRef) (j : Job) (k : Key) (s : State), LaneWorking s r 0x22 j → j.key = some k →
    ∃ t, exec (.kemDecaps r) s = .next t ∧
      SecretComputed s t r j [] { status := .ok, outLen := if j.desc.clear = true then 32 else 0 }
        (fit 32 (Config.kemDecaps j.desc.al k.material j.inp)) j.desc.outAddr) ∧
  (∀ (r : JobRef) (j : Job) (s : State), LaneWorking s r 0x23 j → s.canDraw r.plate j.drbg 1 = true →
    ∃ t, exec (.kemEncaps r) s = .next t ∧
      (if j.key = none ∧ Config.pkValid j.desc.al j.inp = false then LaneComputed s t r j 1 [] { status := .range } else
       let ek := match j.key with
         | some k => fit (publicLen k.alg) (Config.pkPublic k.alg k.material)
         | none => j.inp
       let o := Config.kemEncaps j.desc.al ek (s.drawn r.plate j.drbg 32)
       SecretComputed s t r j [32] { status := .ok, outLen := kemCtLen j.desc.al,
                                     writes := [(j.desc.outAddr, fit (kemCtLen j.desc.al) o.1)] } (fit 32 o.2) j.desc.aadAddr)) ∧
  (∀ (r : JobRef) (j : Job) (k : Key) (s : State), LaneWorking s r 0x24 j → j.key = some k →
    ∃ t, exec (.ecdh r) s = .next t ∧
      (match Config.pkAgree j.desc.al k.material j.inp with
        | some z => SecretComputed s t r j [] { status := .ok, outLen := if j.desc.clear = true then secretLen j.desc.al else 0 }
            (fit (secretLen j.desc.al) z) j.desc.outAddr
        | none => LaneComputed s t r j 1 [] { status := .range })) ∧
  (∀ (r : JobRef) (j : Job) (k : Key) (s : State), LaneWorking s r 0x25 j → j.key = some k →
    ∃ t, exec (.rsaDecrypt r) s = .next t ∧
      LaneComputed s t r j 1 [] (match Config.rsaOaep j.desc.al k.material (j.desc.fl 8 2) j.aad j.inp with
        | some m => (let v := m.take (publicLen j.desc.al - 2 * hashLen (j.desc.fl 8 2) - 2)
                     { status := .ok, outLen := v.length, writes := [(j.desc.outAddr, v)] })
        | none => { status := .authFail }))


/-- DEVICE_ATTEST and KEY_ATTEST compute a statement: a colophon of kind 1 or an imprint of kind 2 over this part's identity,
the challenge and the operating time, with both signatures under values that the lane's instance can give (the 64 bytes of the first
are the model's choice, log 141), and the attempt count of the second in info. -/
def Obligations.StatementsAreSigned : Prop :=
  (∀ (r : JobRef) (j : Job) (s : State), LaneWorking s r 0x50 j → s.canDraw r.plate j.drbg 2 = true →
    ∃ t, exec (.deviceAttest r) s = .next t ∧
      (let head := s.statementHead r.plate 0x01 j.par (s.colophonBody r.plate)
       let draw := s.drawnAt r.plate j.drbg [64, 32]
       let b := signStatement (s.seed r.plate) head (draw 0) (draw 1)
       let a := statementAttempts (s.seed r.plate) head (draw 1)
       LaneComputed s t r j a [64, 32] { status := .ok, outLen := b.length, info := BitVec.ofNat 32 a,
                                         writes := [(j.desc.outAddr, b)] })) ∧
  (∀ (r : JobRef) (j : Job) (k : Key) (s : State), LaneWorking s r 0x34 j → j.key = some k →
    s.canDraw r.plate j.drbg 2 = true →
    ∃ t, exec (.keyAttest r) s = .next t ∧
      (let head := s.statementHead r.plate 0x02 j.par
         (s.keyRecord r.plate ((ringSlice j.ring).getD 0) k j.entry)
       let draw := s.drawnAt r.plate j.drbg [64, 32]
       let b := signStatement (s.seed r.plate) head (draw 0) (draw 1)
       let a := statementAttempts (s.seed r.plate) head (draw 1)
       LaneComputed s t r j a [64, 32] { status := .ok, outLen := b.length, info := BitVec.ofNat 32 a,
                                         writes := [(j.desc.outAddr, b)] }))

/-- LANE_RESULT_READY frees the lane once every attempt is done and leaves the outcome with the justifier; MESSAGE_DATA_ARRIVE
keeps what arrived, and a message that cannot be read ends the job at the boundary of its attempt; ATTEMPT_BOUNDARY moves to the
next attempt, charged once, and a lane that has not finished an attempt at its boundary ends its job with TIMING_FAULT.
JUSTIFIER_RELEASE posts a lane job's outcome when its accrued justified time reaches its target, and not before, with the handle
of a key that it made; a generated key then waits for its key-state step; a job whose lane has no result then completes with
TIMING_FAULT, counted in PLT_PKE_TF. The release target of a job: M + a × D1, where D1 is the entry of Table 5.8 and M one
microsecond for each further KiB of a message. -/
def Obligations.JustifiedTime : Prop :=
  (∀ (r : JobRef) (j : Job) (s : State), s.jobAt r = some j → j.stage = .started → j.cls = .lane → j.unit.isSome = true →
    j.critical = false → (j.result.isSome = true ∧ j.rawA = j.attempts) ∨ j.forced.isSome = true →
    ∃ t, exec (.laneResultReady r) s = .next t ∧
      t.jobAt r = some { j with rawDone := true, unit := none, toPark := false } ∧ t.out = s.out ∧
      SameBut [.sl r.plate] s t) ∧
  (∀ (r : JobRef) (j : Job) (b : Bytes) (s : State), s.jobAt r = some j → j.stage = .started ∨ j.stage = .parked →
    j.waitingMsg = true →
    ∃ t, exec (.messageDataArrive r (.ok b)) s = .next t ∧
      (let n := min (j.msgGot + b.length) j.desc.inLen.toNat
       t.jobAt r = some { j with inp := (j.inp ++ b).take j.desc.inLen.toNat, msgGot := n,
                                 waitingMsg := decide (n ≠ j.desc.inLen.toNat), accBase := s.accrued j,
                                 resumedAt := if j.stage = .started then some s.clock else none }) ∧
      SameBut [.sl r.plate] s t) ∧
  (∀ (r : JobRef) (j : Job) (s : State), s.jobAt r = some j → j.stage = .started ∨ j.stage = .parked →
    j.waitingMsg = true →
    ∃ t, exec (.messageDataArrive r .fault) s = .next t ∧
      t.jobAt r = some { j with waitingMsg := false, accBase := s.accrued j, forced := some .dmaFault, attempts := j.boundary,
                                resumedAt := if j.stage = .started then some s.clock else none } ∧
      SameBut [.sl r.plate] s t) ∧
  (∀ (r : JobRef) (j : Job) (s : State), s.jobAt r = some j → j.stage = .started → j.cls = .lane → j.critical = false →
    j.forced = none → j.waitingMsg = false → j.bound ≤ s.accrued j → j.boundary ≤ j.rawA → j.boundary < j.attempts →
    ∃ t, exec (.attemptBoundary r) s = .next t ∧
      t.jobAt r = some { j with boundary := j.boundary + 1, charged := max j.charged (j.boundary + 1) } ∧
      (t.pl r.plate).sl.buckets = (if j.charged ≤ j.boundary then
        ((s.charge r.plate .lane (roundKey j.ring) j.d1).pl r.plate).sl.buckets else (s.pl r.plate).sl.buckets) ∧
      t.out = s.out ∧ (t.pl r.plate).sl.rings = (s.pl r.plate).sl.rings ∧ SameBut [.sl r.plate] s t) ∧
  (∀ (r : JobRef) (j : Job) (s : State), s.jobAt r = some j → j.stage = .started → j.cls = .lane → j.critical = false →
    j.forced = none → j.waitingMsg = false → j.bound ≤ s.accrued j → j.rawA < j.boundary →
    ∃ t, exec (.attemptBoundary r) s = .next t ∧ Completes s t r.plate j { status := .timingFault } ∧
      (t.pl r.plate).sl.pkeTf = (s.pl r.plate).sl.pkeTf + 1) ∧
  (∀ (r : JobRef) (j : Job) (s : State), s.jobAt r = some j → s.accrued j < j.bound →
    exec (.attemptBoundary r) s = .next s) ∧
  (∀ (r : JobRef) (j : Job) (x : Result) (s : State), s.jobAt r = some j → s.atTarget j = true → j.forced = none →
    j.result = some x → j.rawDone = true → j.desc.op ≠ 0x30 → j.desc.op ≠ 0x31 → j.newPos = none → s.pa.sl.ops = [] → s.pb.sl.ops = [] →
    ∃ t, exec (.justifierRelease r) s = .next t ∧ Completes s t r.plate j x ∧ SameBut (completing r.plate) s t) ∧
  (∀ (r : JobRef) (j : Job) (x : Result) (pos : Nat) (e : CacheEntry) (s : State), s.jobAt r = some j →
    s.atTarget j = true → j.forced = none → j.result = some x → j.rawDone = true → x.status = .ok → j.desc.op ≠ 0x30 →
    j.desc.op ≠ 0x31 → j.newPos = some pos → s.entryAt r.plate ((ringSlice j.ring).getD 0) pos = some e →
    CanIssue s r.plate e.key → s.pa.sl.ops = [] → s.pb.sl.ops = [] →
    ∃ t h, exec (.justifierRelease r) s = .next t ∧ HandleIssued s t r.plate ((ringSlice j.ring).getD 0) pos e.key h ∧
      Completes s t r.plate j { x with info := wordOf h 0, info2 := wordOf h 1 } ∧
      SameBut (issuing r.plate ++ completing r.plate) s t) ∧
  (∀ (r : JobRef) (j : Job) (x : Result) (s : State), s.jobAt r = some j → s.atTarget j = true → j.forced = none →
    j.result = some x → j.rawDone = true → x.status = .ok → j.desc.op = 0x30 → s.pa.sl.ops = [] → s.pb.sl.ops = [] →
    ∃ t, exec (.justifierRelease r) s = .next t ∧
      (t.jobAt r).map (fun k => (k.stage, k.cls, k.begun, k.par, k.window)) = some (.ready, .vault, true, j.par, none) ∧
      t.out = s.out ∧ SameBut [.sl r.plate] s t) ∧
  (∀ (r : JobRef) (j : Job) (st : Status) (s : State), s.jobAt r = some j → s.atTarget j = true → j.forced = some st →
    s.pa.sl.ops = [] → s.pb.sl.ops = [] →
    ∃ t, exec (.justifierRelease r) s = .next t ∧ Completes s t r.plate j { status := st } ∧
      SameBut (completing r.plate) s t) ∧
  (∀ (r : JobRef) (j : Job) (s : State), s.jobAt r = some j → s.atTarget j = true → j.forced = none → j.result = none →
    s.pa.sl.ops = [] → s.pb.sl.ops = [] →
    ∃ t, exec (.justifierRelease r) s = .next t ∧ Completes s t r.plate j { status := .timingFault } ∧
      (t.pl r.plate).sl.pkeTf = (s.pl r.plate).sl.pkeTf + 1) ∧
  (∀ (r : JobRef) (j : Job) (s : State), s.jobAt r = some j → s.accrued j < j.target →
    exec (.justifierRelease r) s = .next s) ∧
  (∀ j : Job, j.target = j.addOn + j.attempts * j.d1) ∧
  (∀ n : Nat, n ≤ 1024 → msgAddOn n = 0) ∧
  (∀ n : Nat, 1024 < n → 1024 * msgAddOn n < n ∧ n ≤ 1024 * (msgAddOn n + 1)) ∧
  jtabAt 0 = 48 ∧ jtabAt 1 = 96 ∧ jtabAt 9 = 420 ∧ jtabAt 13 = 2700 ∧ jtabAt 25 = 40 ∧ jtabAt 37 = 50000 ∧
  (∀ k : Nat, 39 ≤ k → jtabAt k = 0)/-! ## Keys (06, 07) -/

/-- Between `s` and `t` nothing left but reads, and the translation requests before them. -/
def ReadsOnly (s t : State) : Prop :=
  ∃ l, t.sent = s.sent ++ l ∧ ∀ o ∈ l, ∃ p v a n r, o = Out.read p v a n r

/-- Between `s` and `t` plate `p` began one key-state change with these items: the next commit sequence is taken, the change
stands last, and while the plates are PAIRED and the gutter is up its mirror write is under way to the peer, under the mirror key
unless it carries secrets (R137, R210, R211). -/
def ChangeBegun (s t : State) (p : Plate) (items : List VItem) : Prop :=
  (t.pl p).vlt.counter = (s.pl p).vlt.counter + 1 ∧ ReadsOnly s t ∧
  ∃ c, (t.pl p).vlt.changes = (s.pl p).vlt.changes ++ [c] ∧
    c.items = items.map (VItem.stamp (commitSeq p ((s.pl p).vlt.counter + 1))) ∧
    ((s.pl p).pr.mode = .paired → s.gutterUp p = true →
      ∃ key, t.gut p.peer = s.gut p.peer ++ [.mirror key c] ∧ (itemDraws items = [] → key = (s.pl p).vlt.kr.mirror))

/-- A change that plate `p` began for a job, which now waits for it with outcome `r` (R210). -/
def CommitBegun (s t : State) (p : Plate) (q : RingRef) (i : Word) (items : List VItem) (r : Result) : Prop :=
  (t.job? p q i).map (fun k => (k.stage, k.result)) = some (.commit, some r) ∧ ChangeBegun s t p items

/-- What a change that begins may touch. -/
def committing (p : Plate) : List Part := [.sl p, .vlt p, .gut p.peer, .nvm p, .free]

/-- The vault controller has accepted job `j`, of this opcode, and has no outcome for it yet. -/
abbrev Accepted (s : State) (r : JobRef) (op : Nat) (j : Job) : Prop :=
  s.jobAt r = some j ∧ j.stage = .accepted ∧ j.desc.op = op ∧ j.result = none

/-- KEY_INFO answers the key record, unsigned; KEY_LOAD issues a handle of the position reserved for it, of a persistent key or
for a copy of a volatile key with a new V, is VAULT_RO where the epoch that V needs cannot
be stored, and waits until it has committed; VAULT_JOB_DONE posts
the outcome of an accepted job. -/
def Obligations.VaultControllerAnswers : Prop :=
  (∀ (r : JobRef) (j : Job) (k : Key) (s : State), Accepted s r 0x35 j → j.key = some k →
    ∃ t, exec (.keyInfo r) s = .next t ∧
      (let b := s.keyRecord r.plate ((ringSlice j.ring).getD 0) k j.entry
       let x : Result := { status := .ok, outLen := b.length, writes := [(j.desc.outAddr, b)] }
       t.jobAt r = some { j with unit := none, result := some x }) ∧
      t.out = s.out ∧ SameBut [.sl r.plate] s t) ∧
  (∀ (r : JobRef) (j : Job) (k : Key) (pos : Nat) (e : CacheEntry) (s : State), Accepted s r 0x33 j → j.key = some k →
    CanIssue s r.plate k → j.newPos = some pos → s.entryAt r.plate ((ringSlice j.ring).getD 0) pos = some e →
    ∃ t h, exec (.keyLoad r) s = .next t ∧ HandleIssued s t r.plate ((ringSlice j.ring).getD 0) pos k h ∧
      t.jobAt r = some { j with unit := none, result := some { status := .ok, info := wordOf h 0, info2 := wordOf h 1 } } ∧
      t.out = s.out ∧ SameBut (issuing r.plate) s t) ∧
  (∀ (r : JobRef) (j : Job) (k : Key) (pos : Nat) (e : CacheEntry) (s : State), Accepted s r 0x33 j → j.key = some k →
    ¬ CanIssue s r.plate k → (s.pl r.plate).nvm.state = 3 → j.newPos = some pos →
    s.entryAt r.plate ((ringSlice j.ring).getD 0) pos = some e →
    ∃ t, exec (.keyLoad r) s = .next t ∧
      t.jobAt r = some { j with unit := none, result := some { status := .vaultRo } } ∧
      t.out = s.out ∧ SameBut [.sl r.plate, .vlt r.plate] s t) ∧
  (∀ (r : JobRef) (j : Job) (k : Key) (pos : Nat) (s : State), Accepted s r 0x33 j → j.key = some k →
    AwaitsEpoch s r.plate k → j.newPos = some pos → ∃ t, exec (.keyLoad r) s = .next t ∧ EpochAwaited s t r.plate) ∧
  (∀ (r : JobRef) (j : Job) (x : Result) (s : State), s.jobAt r = some j → j.stage = .accepted → j.result = some x →
    ∃ t, exec (.vaultJobDone r) s = .next t ∧ Completes s t r.plate j x ∧ SameBut (completing r.plate) s t)

/-- The generated key of a KEY_GENERATE's key-state step: what was drawn for it, and its outcome (Table 7.2, R167 to R169). -/
structure Generated where
  mat     : Bytes
  kit     : Word
  nonce   : Bytes

/-- What the key-state step of a KEY_GENERATE draws: the material, unless a lane released it, and then the key instance tag and
the nonce of its slot or slug. -/
def generatedNow (s : State) (p : Plate) (j : Job) : Generated :=
  let n := materialLen j.desc.al (j.desc.fl 8 8)
  let s1 := if j.begun = true then s else s.drew p vaultInst [n]
  { mat := if j.begun = true then j.par else s.drawn p vaultInst n
    kit := BitVec.ofNat 32 (leNat (s1.drawnAt p vaultInst [4, 12] 0))
    nonce := s1.drawnAt p vaultInst [4, 12] 1 }

/-- The update message that a KEY_IMPORT read, cut to its length (Table 7.3). -/
abbrev messageOf (j : Job) (b : Bytes) : Update := parseUpdate (fit j.desc.inLen.toNat b)

/-- KEY_IMPORT runs the steps of Table 7.4 in order, the first that fails deciding the status: the vault controller reads the
message and checks form, target, device and signer; a lane checks the signature; the counter; a lane opens the body; and the
vault controller commits the counter with the key, its slug, or the new importer binding. -/
def UpdateMessageSteps : Prop :=
  (∀ (r : JobRef) (j : Job) (m : Dma) (s : State), Accepted s r 0x31 j → (s.pl r.plate).mgt.sec ≠ .running →
    ∃ t, exec (.keyImport r m) s = .next t ∧ Completes s t r.plate j { status := .busy } ∧
      SameBut (completing r.plate) s t) ∧
  (∀ (r : JobRef) (j : Job) (s : State), Accepted s r 0x31 j → (s.pl r.plate).mgt.sec = .running → j.phase ≠ 8 →
    ∃ t, exec (.keyImport r .fault) s = .next t ∧ Completes s t r.plate j { status := .dmaFault } ∧
      SameBut (completing r.plate) s t) ∧
  (∀ (r : JobRef) (j : Job) (b : Bytes) (s : State), Accepted s r 0x31 j → (s.pl r.plate).mgt.sec = .running → j.phase ≠ 8 →
    ∃ t, exec (.keyImport r (.ok b)) s = .next t ∧
      (let i := (ringSlice j.ring).getD 0
       let u := messageOf j b
       let rec_ := (s.pl r.plate).vlt.recs.get {} i
       match updateStep1 u j.desc.inLen.toNat, updateStep2 u j.desc i rec_.impAlg with
       | some st, _ => Completes s t r.plate j { status := st }
       | none, some (st, n) => Completes s t r.plate j { status := st, outLen := n }
       | none, none =>
         if u.sigAlg ≠ rec_.impAlg ∨ u.device ≠ s.identityDigest r.plate then Completes s t r.plate j { status := .range }
         else if fit 32 (Config.sha3 (cut u.b u.signerAt (publicLen u.sigAlg))) ≠ rec_.impKey then
           Completes s t r.plate j { status := .authFail }
         else (t.jobAt r).map (fun k => (k.stage, k.cls, k.phase, k.inp, k.target)) =
             some (.ready, .lane, 5, u.b, msgAddOn u.signedLen + signD1 u) ∧ t.out = s.out) ∧
      SameBut (completing r.plate) s t) ∧
  (∀ (r : JobRef) (j : Job) (m : Dma) (s : State), Working s r 0x31 j → j.cls = .lane →
    ∃ t, exec (.keyImport r m) s = .next t ∧
      (let u := parseUpdate j.inp
       let signer := cut u.b u.signerAt (publicLen u.sigAlg)
       let good := sigOk u.sigAlg signer [] (cut u.b 0 u.signedLen) (cut u.b u.signedLen (signatureLen u.sigAlg))
       if j.phase = 5 then
         t.jobAt r = some { j with rawA := 1, result := some { status := if good = true then .ok else .authFail } }
       else match updateBody (s.seed r.plate) u with
         | some body => t.jobAt r = some { j with rawA := 1, par := body, result := some { status := .ok } }
         | none => t.jobAt r = some { j with rawA := 1, result := some { status := .authFail } }) ∧
      t.out = s.out ∧ SameBut [.sl r.plate] s t) ∧
  (∀ (r : JobRef) (j : Job) (x : Result) (s : State), s.jobAt r = some j → s.atTarget j = true → j.forced = none →
    j.result = some x → j.rawDone = true → j.desc.op = 0x31 → s.pa.sl.ops = [] → s.pb.sl.ops = [] →
    ∃ t, exec (.justifierRelease r) s = .next t ∧
      (let imp := ((s.pl r.plate).vlt.recs.get {} ((ringSlice j.ring).getD 0)).imp
       if x.status ≠ .ok then Completes s t r.plate j x
       else if j.phase = 5 ∧ (parseUpdate j.inp).counter ≤ imp then Completes s t r.plate j { status := .counterStale }
       else (t.jobAt r).map (fun k => (k.stage, k.cls, k.phase)) =
           some (if j.phase = 5 then (.ready, .lane, 7) else (.ready, .vault, 8)) ∧ t.out = s.out) ∧
      SameBut (completing r.plate) s t) ∧
  (∀ (r : JobRef) (j : Job) (i m : Nat) (d : Dma) (s : State), Accepted s r 0x31 j → r.ring = .tenant i m →
    (s.pl r.plate).mgt.sec = .running → j.phase = 8 → s.refuses r.plate false = none →
    (let u := parseUpdate j.inp
     (s.recAhead r.plate i).imp < u.counter → u.type = 2 →
     ∃ t, exec (.keyImport r d) s = .next t ∧
       (if Config.pkValid u.alg j.par = true then
          CommitBegun s t r.plate r.ring r.index
            [.record i { s.recAhead r.plate i with imp := u.counter, impAlg := u.alg, impKey := fit 32 (Config.sha3 j.par) }]
            { status := .ok, info := 0, info2 := 0xFFFFFFFF, work := importWork u }
        else Completes s t r.plate j { status := .range }) ∧
       SameBut (.out :: .pow r.plate :: committing r.plate) s t)) ∧
  (∀ (r : JobRef) (j : Job) (i m : Nat) (d : Dma) (s : State), Accepted s r 0x31 j → r.ring = .tenant i m →
    (s.pl r.plate).mgt.sec = .running → j.phase = 8 → (parseUpdate j.inp).type = 2 →
    (parseUpdate j.inp).counter ≤ (s.recAhead r.plate i).imp →
    ∃ t, exec (.keyImport r d) s = .next t ∧
      Completes s t r.plate j { status := if Config.pkValid (parseUpdate j.inp).alg j.par = true then .counterStale else .range } ∧
      SameBut (completing r.plate) s t) ∧
  (∀ (r : JobRef) (j : Job) (i m : Nat) (d : Dma) (s : State), Accepted s r 0x31 j → r.ring = .tenant i m →
    (s.pl r.plate).mgt.sec = .running → j.phase = 8 → s.refuses r.plate false = none → s.canDraw r.plate vaultInst 2 = true →
    (let u := parseUpdate j.inp
     let old := s.slotAhead r.plate (slotKey i u.slot)
     (s.recAhead r.plate i).imp < u.counter → u.type = 1 → u.target = 0 →
     hasLedger u.alg = false → u.alg ≠ 0x4A → u.slot < (s.quotaNow r.plate i).slots →
     s.slotErasing r.plate i u.slot = false → (s.slotAt r.plate i u.slot).tagOk = true → old.st = .free ∨ old.st = .active →
     old.alg ≠ 0x4A → old.ledger = none → (∀ k ∈ (s.pl r.plate).sl.jobs, generatesInto k i u.slot = false) →
     ∃ t, exec (.keyImport r d) s = .next t ∧
       (let gen := if old.st = .active then old.gen + 1 else 1
        if materialOk u.alg j.par = false ∨ updateAttrs u = false then Completes s t r.plate j { status := .range } else
        CommitBegun s t r.plate r.ring r.index
          [.record i { s.recAhead r.plate i with imp := u.counter },
           .slot (slotKey i u.slot)
             { st := .active, alg := u.alg, attr := u.attr, gen := gen, ledger := none,
               kit := BitVec.ofNat 32 (leNat (s.drawnAt r.plate vaultInst [4, 12] 0)), span := 1,
               created := s.optime r.plate, nonce := s.drawnAt r.plate vaultInst [4, 12] 1, material := j.par }]
          { status := .ok, info := gen, info2 := 0xFFFFFFFF, work := importWork u }) ∧
       SameBut (.rng r.plate :: .out :: .pow r.plate :: committing r.plate) s t)) ∧
  (∀ (r : JobRef) (j : Job) (i m e : Nat) (d : Dma) (s : State), Accepted s r 0x31 j → r.ring = .tenant i m →
    (s.pl r.plate).mgt.sec = .running → j.phase = 8 → s.refuses r.plate false = none → s.takeLedger r.plate i = some e →
    s.canDraw r.plate vaultInst 2 = true →
    (let u := parseUpdate j.inp
     (s.recAhead r.plate i).imp < u.counter → u.type = 1 → u.target = 1 →
     ∃ t, exec (.keyImport r d) s = .next t ∧
       (let gen := (s.ledgerAt r.plate e).gen + 1
        let slug := makeSlug (s.trk r.plate i)
          { alg := u.alg, attr := u.attr, gen := gen, ledger := some e,
            kit := BitVec.ofNat 32 (leNat (s.drawnAt r.plate vaultInst [4, 12] 0)), created := s.optime r.plate,
            material := j.par } i (s.drawnAt r.plate vaultInst [4, 12] 1)
        if materialOk u.alg j.par = false ∨ updateAttrs u = false then Completes s t r.plate j { status := .range } else
        CommitBegun s t r.plate r.ring r.index
          [.record i { s.recAhead r.plate i with imp := u.counter }, .ledger e (newLedger (u.newKey j.par) i true gen)]
          { status := .ok, info := gen, info2 := BitVec.ofNat 32 e, writes := [(j.desc.aadAddr, slug)],
            work := importWork u }) ∧
       SameBut (.rng r.plate :: .out :: .pow r.plate :: committing r.plate) s t))

/-- KEY_GENERATE, where the instance that it draws from can give what it draws: the lane step of an asymmetric key leaves valid
material and its attempt count with the justifier and writes nothing, and rejected material is drawn again, for ML-DSA and RSA as one
more attempt or quantum that the lane has finished; the key-state step commits the key to its slot or to a ledger entry, with
GENERATED_INSIDE, a fresh key instance tag and the operating time, at generation 1 or the next one of its ledger entry, and
completes only after that commit. Where the commit is refused the job completes with that status. KEY_IMPORT runs the steps of
Table 7.4 in order, the first that fails deciding the status, up to the commit of the counter with the key, its slug, or the new
importer binding (`UpdateMessageSteps`). -/
def Obligations.KeysAreMade : Prop :=
  (∀ (r : JobRef) (j : Job) (s : State), LaneWorking s r 0x30 j → s.canDraw r.plate j.drbg 1 = true →
    ∃ t n, exec (.keyGenerate r) s = .next t ∧
      (let m := s.drawn r.plate j.drbg (materialLen j.desc.al 0)
       let many := isRsa j.desc.al = true ∨ isDsa j.desc.al = true
       t.jobAt r = some (if generatedOk j.desc.al m = true then
         { j with par := m, attempts := n, rawA := if many then j.rejects + 1 else 1
                  result := some { status := .ok, info := BitVec.ofNat 32 n } }
         else if many then { j with rejects := j.rejects + 1, attempts := j.rejects + 2, rawA := j.rejects + 1 }
         else { j with rejects := j.rejects + 1 })) ∧
      (isRsa j.desc.al = true → j.rejects < n) ∧
      1 ≤ n ∧ (isRsa j.desc.al = false → n = if isDsa j.desc.al = true then j.rejects + 1 else 1) ∧
      (t.pl r.plate).rng = ((s.drew r.plate j.drbg [materialLen j.desc.al 0]).pl r.plate).rng ∧
      t.out = s.out ∧ SameBut [.sl r.plate, .rng r.plate, .free] s t) ∧
  (∀ (r : JobRef) (j : Job) (i n m : Nat) (s : State), Accepted s r 0x30 j → r.ring = .tenant i m →
    j.desc.toSlug = false → parseKref j.desc.keyRef = .slot n → s.refuses r.plate false = none →
    s.canDraw r.plate vaultInst 3 = true →
    ∃ t, exec (.keyGenerate r) s = .next t ∧
      (let g := generatedNow s r.plate j
       let gen := match j.ledgerNew with
         | some e => (s.ledgerAt r.plate e).gen + 1
         | none => 1
       let pub := if isAsym j.desc.al = true then fit (publicLen j.desc.al) (Config.pkPublic j.desc.al g.mat) else []
       let v : Slot :=
         { st := .active, alg := j.desc.al, attr := BitVec.ofNat 32 j.desc.param.toNat ||| attrInside, gen := gen,
           ledger := j.ledgerNew, kit := g.kit, span := if j.desc.al = 0x4A then 2 else 1, created := s.optime r.plate,
           nonce := g.nonce, material := g.mat }
       CommitBegun s t r.plate r.ring r.index
         ([.slot (slotKey i n) v] ++
           (if j.desc.al = 0x4A then [.slot (slotKey i (n + 1)) { v with st := .cont, material := [] }] else []) ++
           (match j.ledgerNew with
             | some e => [.ledger e (newLedger (generated j.desc g.mat) i false gen)]
             | none => []))
         { status := .ok, outLen := pub.length, info := BitVec.ofNat 32 (if j.begun = true then j.attempts else 1),
           info2 := BitVec.ofNat 32 (j.ledgerNew.getD 0xFFFFFFFF), writes := if pub = [] then [] else [(j.desc.outAddr, pub)],
           work := if j.begun = true then j.target else 0 }) ∧
      SameBut (.rng r.plate :: committing r.plate) s t) ∧
  (∀ (r : JobRef) (j : Job) (i m e : Nat) (s : State), Accepted s r 0x30 j → r.ring = .tenant i m →
    j.desc.toSlug = true → j.ledgerNew = some e → s.refuses r.plate true = none →
    s.canDraw r.plate vaultInst 3 = true →
    ∃ t, exec (.keyGenerate r) s = .next t ∧
      (let g := generatedNow s r.plate j
       let gen := (s.ledgerAt r.plate e).gen + 1
       let pub := if isAsym j.desc.al = true then fit (publicLen j.desc.al) (Config.pkPublic j.desc.al g.mat) else []
       let slug := makeSlug (s.trk r.plate i)
         { alg := j.desc.al, attr := BitVec.ofNat 32 j.desc.param.toNat ||| attrInside, gen := gen, ledger := some e,
           kit := g.kit, created := s.optime r.plate, material := g.mat } i g.nonce
       CommitBegun s t r.plate r.ring r.index [.ledger e (newLedger (generated j.desc g.mat) i true gen)]
         { status := .ok, outLen := pub.length, info := BitVec.ofNat 32 (if j.begun = true then j.attempts else 1),
           info2 := BitVec.ofNat 32 e,
           writes := (if pub = [] then [] else [(j.desc.outAddr, pub)]) ++ [(j.desc.aadAddr, slug)],
           work := if j.begun = true then j.target else 0 }) ∧
      SameBut (.rng r.plate :: committing r.plate) s t) ∧
  (∀ (r : JobRef) (j : Job) (st : Status) (s : State), Accepted s r 0x30 j →
    s.canDraw r.plate vaultInst 3 = true → s.refuses r.plate j.desc.toSlug = some st →
    ∃ t, exec (.keyGenerate r) s = .next t ∧ Completes s t r.plate j { status := st } ∧
      SameBut (.rng r.plate :: .free :: completing r.plate) s t) ∧
  UpdateMessageSteps

/-- The slots of the key in slot number `k`: two of them for RSA-4096 (R155). -/
def keySlots (v : Slot) (k : Nat) : List Nat := if v.alg = 0x4A then [k, k + 1] else [k]

/-- KEY_ERASE of a slot that is ACTIVE once the changes under way are done (log 26) commits ERASING first, with its ledger
entry; of a slug it commits ERASING in its ledger entry; of a handle it ends that handle at once, frees its lines when no
started job uses them, and leaves the persistent key; of a slot that is not ACTIVE, a slug
whose ledger entry is not or holds another generation, or a handle that has ended it is KEY_GONE; of a slot with the gutter lost it
is PARTITIONED.
REFCOUNT_ZERO: an erase that drains goes to its last step once no started job holds the item, which writes zero bytes over the
slot and frees the ledger entry with its generation kept, and in NO_WRITE completes with VAULT_RO; a rewrite that drains has its
outcome once no started job holds the old generation; while a job still holds the item nothing happens. -/
def Obligations.KeysAreErased : Prop :=
  (∀ (r : JobRef) (j : Job) (i n m : Nat) (s : State), Accepted s r 0x32 j → r.ring = .tenant i m →
    parseKref j.desc.keyRef = .slot n → s.alreadyErasing r.plate j = false → s.refuses r.plate false = none →
    (s.pl r.plate).pr.mode ≠ .paired ∨ s.gutterUp r.plate = true →
    (let v := s.slotAhead r.plate (slotKey i n)
     v.tagOk = true → v.st = .active →
     ∃ t, exec (.keyErase r) s = .next t ∧
       CommitBegun s t r.plate r.ring r.index
         ((keySlots v (slotKey i n)).map (fun k => .slot k { s.slotAhead r.plate k with st := .erasing }) ++
           (match v.ledger with
             | some e => [.ledger e { s.ledgerAhead r.plate e with st := .erasing }]
             | none => []))
         { status := .ok, info := v.gen } ∧ SameBut (committing r.plate) s t)) ∧
  (∀ (r : JobRef) (j : Job) (i n m : Nat) (s : State), Accepted s r 0x32 j → r.ring = .tenant i m →
    parseKref j.desc.keyRef = .slot n → (s.slotAhead r.plate (slotKey i n)).tagOk = true →
    (s.slotAhead r.plate (slotKey i n)).st ≠ .active →
    ∃ t, exec (.keyErase r) s = .next t ∧ Completes s t r.plate j { status := .keyGone } ∧
      SameBut (completing r.plate) s t) ∧
  (∀ (r : JobRef) (j : Job) (a : Nat) (k : Key) (e : Nat) (s : State), Accepted s r 0x32 j →
    parseKref j.desc.keyRef = .slug a → j.key = some k → k.ledger = some e → s.alreadyErasing r.plate j = false →
    s.refuses r.plate true = none → (s.pl r.plate).pr.mode ≠ .paired ∨ s.gutterUp r.plate = true →
    (s.ledgerAhead r.plate e).st = .active → (s.ledgerAhead r.plate e).gen = k.gen →
    ∃ t, exec (.keyErase r) s = .next t ∧
      CommitBegun s t r.plate r.ring r.index [.ledger e { s.ledgerAhead r.plate e with st := .erasing }]
        { status := .ok, info := k.gen } ∧ SameBut (committing r.plate) s t) ∧
  (∀ (r : JobRef) (j : Job) (a : Nat) (k : Key) (e : Nat) (s : State), Accepted s r 0x32 j →
    parseKref j.desc.keyRef = .slug a → j.key = some k → k.ledger = some e →
    (s.ledgerAhead r.plate e).st ≠ .active ∨ (s.ledgerAhead r.plate e).gen ≠ k.gen →
    ∃ t, exec (.keyErase r) s = .next t ∧ Completes s t r.plate j { status := .keyGone } ∧
      SameBut (completing r.plate) s t) ∧
  (∀ (r : JobRef) (j : Job) (i n m : Nat) (s : State), Accepted s r 0x32 j → r.ring = .tenant i m →
    parseKref j.desc.keyRef = .slot n → s.alreadyErasing r.plate j = false →
    (s.slotAhead r.plate (slotKey i n)).tagOk = true → (s.slotAhead r.plate (slotKey i n)).st = .active →
    (s.pl r.plate).pr.mode = .paired → s.gutterUp r.plate = false →
    ∃ t, exec (.keyErase r) s = .next t ∧ Completes s t r.plate j { status := .partitioned } ∧
      SameBut (completing r.plate) s t) ∧
  (∀ (r : JobRef) (j : Job) (h : DWord) (pos : Nat) (e : CacheEntry) (s : State), Accepted s r 0x32 j →
    parseKref j.desc.keyRef = .handle h → j.entry = some pos →
    s.entryAt r.plate ((ringSlice j.ring).getD 0) pos = some e → e.ended = false → e.handle = some h →
    ∃ t, exec (.keyErase r) s = .next t ∧
      (t.jobAt r).map (fun k => (k.stage, k.result.map Result.status)) = some (.accepted, some .ok) ∧
      (t.entryAt r.plate ((ringSlice j.ring).getD 0) pos).map CacheEntry.ended =
        (if s.refcount r.plate (.handle ((ringSlice j.ring).getD 0) pos) = 0 then none else some true) ∧
      (t.pl r.plate).vlt.slots = (s.pl r.plate).vlt.slots ∧ (t.pl r.plate).vlt.ledger = (s.pl r.plate).vlt.ledger ∧
      SameBut [.sl r.plate, .vlt r.plate] s t) ∧
  (∀ (r : JobRef) (j : Job) (h : DWord) (pos : Nat) (s : State), Accepted s r 0x32 j →
    parseKref j.desc.keyRef = .handle h → j.entry = some pos →
    s.handleStands r.plate ((ringSlice j.ring).getD 0) pos j.desc.keyRef = false →
    ∃ t, exec (.keyErase r) s = .next t ∧ Completes s t r.plate j { status := .keyGone } ∧
      SameBut (completing r.plate) s t) ∧
  (∀ (p : Plate) (i n : Nat) (j : Job) (x : Result) (s : State),
    (s.pl p).sl.jobs.filter (fun j => j.stage == .draining && drainsItem j (.slot i n)) = [j] → j.desc.op = 0x32 →
    j.result = some x → s.job? p j.ring j.index = some j → eraseItem j = some (.slot i n) →
    s.refcount p (.slot i n) = 0 → s.refuses p true = none →
    ∃ t, exec (.refcountZero p (.slot i n)) s = .next t ∧
      CommitBegun s t p j.ring j.index
        ((keySlots (s.slotAt p i n) (slotKey i n)).map (fun k => .slot k {}) ++
          (match (s.slotAt p i n).ledger with
            | some e => [.ledger e { gen := (s.ledgerAt p e).gen }]
            | none => [])) x ∧ SameBut (committing p) s t) ∧
  (∀ (p : Plate) (e : Nat) (j : Job) (x : Result) (s : State),
    (s.pl p).sl.jobs.filter (fun j => j.stage == .draining && drainsItem j (.ledger e)) = [j] → j.desc.op = 0x32 →
    j.result = some x → s.job? p j.ring j.index = some j → eraseItem j = some (.ledger e) →
    s.refcount p (.ledger e) = 0 → s.refuses p true = none →
    ∃ t, exec (.refcountZero p (.ledger e)) s = .next t ∧
      CommitBegun s t p j.ring j.index [.ledger e { gen := (s.ledgerAt p e).gen }] x ∧ SameBut (committing p) s t) ∧
  (∀ (p : Plate) (i n : Nat) (j : Job) (s : State),
    (s.pl p).sl.jobs.filter (fun j => j.stage == .draining && drainsItem j (.slot i n)) = [j] → j.desc.op = 0x32 →
    eraseItem j = some (.slot i n) → s.refcount p (.slot i n) = 0 → s.wear p = 3 →
    ∃ t, exec (.refcountZero p (.slot i n)) s = .next t ∧ Completes s t p j { status := .vaultRo } ∧
      SameBut (completing p) s t) ∧
  (∀ (p : Plate) (i n : Nat) (j : Job) (s : State),
    (s.pl p).sl.jobs.filter (fun j => j.stage == .draining && drainsItem j (.slot i n)) = [j] → j.desc.op = 0x32 →
    eraseItem j = some (.slot i n) → s.refcount p (.slot i n) ≠ 0 → exec (.refcountZero p (.slot i n)) s = .next s) ∧
  (∀ (p : Plate) (i n : Nat) (j : Job) (x : Result) (s : State),
    (s.pl p).sl.jobs.filter (fun j => j.stage == .draining && drainsItem j (.slot i n)) = [j] → j.desc.op ≠ 0x32 →
    j.result = some x → s.job? p j.ring j.index = some j → s.drained p j = true →
    ∃ t, exec (.refcountZero p (.slot i n)) s = .next t ∧
      t.job? p j.ring j.index = some { j with stage := .accepted, unit := none } ∧ SameBut [.sl p] s t) ∧
  (∀ (p : Plate) (i pos : Nat) (e : CacheEntry) (s : State), s.entryAt p i pos = some e → e.ended = true →
    s.refcount p (.handle i pos) = 0 → (∀ j ∈ (s.pl p).sl.jobs, j.stage ≠ .draining) →
    ∃ t, exec (.refcountZero p (.handle i pos)) s = .next t ∧ t.entryAt p i pos = none ∧ SameBut [.vlt p] s t)
/-! ## Random numbers (08) -/

/-- A DRBG instance reseeded with one pool block at this clock (R198). -/
def Reseeded (d : Drbg) (block : Bytes) (now : Nat) : Drbg :=
  { d with key := (Config.drbgReseed d.key d.v block).1, v := (Config.drbgReseed d.key d.v block).2, count := 0, seeded := now,
           must := false }

/-- RANDOM makes one generate request of its slice's instance, with the additional input, and answers in_len bytes; under PR the
instance is reseeded with one pool block first; it waits while its instance is due, or under PR for a block that no due
instance takes. A read of RNG_DATA stalls until its instance can give its bits, and then the first stalled read of its world returns
fresh bits of its width; on a HALTED plate a read ends at once with a bus error. -/
def Obligations.RandomJobs : Prop :=
  (∀ (r : JobRef) (j : Job) (i n : Nat) (d : Inputs) (o : Bytes) (s : State), Working s r 0x40 j → r.ring = .tenant i n →
    j.desc.fl 8 1 = 0 → s.gives r.plate = true → s.due r.plate i = false →
    takeRead d.aad (j.desc.aadLen != 0) j.desc.aadLen.toNat = some o →
    ∃ t, exec (.random r d) s = .next t ∧
      (let len := j.desc.inLen.toNat
       let g := s.inst r.plate i
       Computed (s.updInst r.plate i fun g => g.next o len) t r j
         { status := .ok, outLen := len, bytes := len,
           writes := [(j.desc.outAddr, fit len (Config.drbgGenerate g.key g.v o len))] } ∧
       (t.inst r.plate i).count = g.count + 1) ∧ SameBut [.sl r.plate, .rng r.plate] s t) ∧
  (∀ (r : JobRef) (j : Job) (i n : Nat) (d : Inputs) (o b : Bytes) (l : List Bytes) (s : State), Working s r 0x40 j →
    r.ring = .tenant i n → j.desc.fl 8 1 = 1 → s.gives r.plate = true → (s.inst r.plate i).made = true →
    (s.pl r.plate).rng.pool = b :: l → s.dueCount r.plate - (if s.due r.plate i = true then 1 else 0) ≤ l.length →
    takeRead d.aad (j.desc.aadLen != 0) j.desc.aadLen.toNat = some o →
    ∃ t, exec (.random r d) s = .next t ∧
      (let len := j.desc.inLen.toNat
       let g := Reseeded (s.inst r.plate i) b s.clock
       let x : Result := { status := .ok, outLen := len, bytes := len,
                           writes := [(j.desc.outAddr, fit len (Config.drbgGenerate g.key g.v o len))] }
       t.jobAt r = some { j with result := some x } ∧
       t.inst r.plate i = g.next o len) ∧
      (t.pl r.plate).rng.pool = l ∧ (t.pl r.plate).rng.reseeds = (s.pl r.plate).rng.reseeds + 1 ∧
      t.out = s.out ∧ SameBut [.sl r.plate, .rng r.plate] s t) ∧
  (∀ (r : JobRef) (j : Job) (i n : Nat) (d : Inputs) (s : State), Working s r 0x40 j → r.ring = .tenant i n →
    s.gives r.plate = true → s.randomWaits r.plate i (j.desc.fl 8 1 == 1) = false →
    takeRead d.aad (j.desc.aadLen != 0) j.desc.aadLen.toNat = none →
    ∃ t, exec (.random r d) s = .next t ∧ Computed s t r j { status := .dmaFault }) ∧
  (∀ (r : JobRef) (j : Job) (d : Inputs) (s : State), Working s r 0x40 j →
    (let k := (ringSlice j.ring).getD 0
     s.gives r.plate = false ∨
     (j.desc.fl 8 1 = 1 ∧ (s.inst r.plate k).made = true ∧
       (s.pl r.plate).rng.pool.length ≤ s.dueCount r.plate - (if s.due r.plate k = true then 1 else 0)) ∨
     (j.desc.fl 8 1 = 0 ∨ (s.inst r.plate k).made = false) ∧ s.due r.plate k = true) →
    exec (.random r d) s = .next s) ∧
  (∀ (p : Plate) (w : World) (n : Nat) (s : State), s.up p = true → n = 32 ∨ n = 64 → (s.pl p).rng.st ≠ .halted →
    ∃ t, exec (.rngDataRead p w n) s = .next t ∧ (t.pl p).rng.stalls = (s.pl p).rng.stalls ++ [(w, n)] ∧
      (t.pl p).rng.inst = (s.pl p).rng.inst ∧ SameBut [.rng p] s t) ∧
  (∀ (p : Plate) (w : World) (n : Nat) (s : State), s.up p = true → n = 32 ∨ n = 64 → (s.pl p).rng.st = .halted →
    ∃ t, exec (.rngDataRead p w n) s = .next t ∧ t.out = s.out ++ [.reply p none] ∧ SameBut [.out] s t) ∧
  (∀ (p : Plate) (w : World) (n : Nat) (rest : List (World × Nat)) (s : State),
    takeStall w (s.pl p).rng.stalls = some (n, rest) → s.canDraw p (worldInst w) 1 = true →
    ∃ t, exec (.rngDataReady p w) s = .next t ∧ (t.pl p).rng.stalls = rest ∧
      t.out = s.out ++ [.reply p (some (BitVec.ofNat 64 (leNat (s.drawn p (worldInst w) (n / 8)))))] ∧
      (t.pl p).rng.inst = ((s.drew p (worldInst w) [n / 8]).pl p).rng.inst ∧ SameBut [.rng p, .out] s t) ∧
  (∀ (p : Plate) (w : World) (s : State), takeStall w (s.pl p).rng.stalls = none ∨ s.canDraw p (worldInst w) 1 = false →
    exec (.rngDataReady p w) s = .next s)


/-- A conditioner input of 256 bits of each cell, in cell order, whose bits pass both health tests adds their SHA3-256 to the pool
of 64, and one that fails halts the plate: the pool is discarded, the cause and the cell are recorded, stalled reads end, and
ENTROPY (27) is latched. A due instance is reseeded from the pool, and one that has not been made yet is instantiated from two
blocks of it. -/
def Obligations.EntropyHealth : Prop :=
  (∀ (p : Plate) (raw : List (BitVec 256)) (h : Tab Cell) (apt rct : Nat) (s : State), s.gives p = true →
    s.up p = true → testAll (s.pl p).rng.health (s.pl p).rng.aptMax (s.pl p).rng.rctMax 0 (raw.take 8) = (h, none, apt, rct) →
    ∃ t, exec (.conditionerBlock p raw) s = .next t ∧
      (t.pl p).rng.pool = (if raw.length = 8 ∧ (s.pl p).rng.pool.length < 64 then
        (s.pl p).rng.pool ++ [fit 32 (Config.sha3 (raw.flatMap fun v => leBytes 32 v.toNat))] else (s.pl p).rng.pool) ∧
      (t.pl p).rng.st = .serving ∧ (t.pl p).rng.health = h ∧ (t.pl p).rng.inst = (s.pl p).rng.inst ∧ SameBut [.rng p] s t) ∧
  (∀ (p : Plate) (raw : List (BitVec 256)) (h : Tab Cell) (apt rct cell cause : Nat) (s : State),
    s.gives p = true → s.up p = true →
    testAll (s.pl p).rng.health (s.pl p).rng.aptMax (s.pl p).rng.rctMax 0 (raw.take 8) = (h, some (cell, cause), apt, rct) →
    ∃ t, exec (.conditionerBlock p raw) s = .next t ∧ (t.pl p).rng.st = .halted ∧ (t.pl p).rng.cause = cause ∧
      (t.pl p).rng.cell = cell ∧ (t.pl p).rng.cells.getLsbD cell = false ∧ (t.pl p).rng.health = h ∧
      (t.pl p).rng.pool = [] ∧ (t.pl p).rng.stalls = [] ∧ (t.pl p).flt.status.getLsbD 27 = true ∧ t.pl p.peer = s.pl p.peer) ∧
  (∀ (p : Plate) (cell cause : Nat) (s : State), s.up p = true → cell < 8 → 1 ≤ cause → cause ≤ 5 →
    (s.pl p).rng.st ≠ .halted →
    ∃ t, exec (.healthTestFail p cell cause) s = .next t ∧ (t.pl p).rng.st = .halted ∧ (t.pl p).rng.cause = cause ∧
      (t.pl p).rng.pool = [] ∧ (t.pl p).rng.stalls = [] ∧
      (t.pl p).rng.cell = (if cause = 5 then 0 else cell) ∧ (cause ≠ 5 → (t.pl p).rng.cells.getLsbD cell = false) ∧
      (t.pl p).flt.status.getLsbD 27 = true ∧ t.pl p.peer = s.pl p.peer) ∧
  (∀ (p : Plate) (k : Nat) (b : Bytes) (l : List Bytes) (s : State), s.gives p = true → (s.inst p k).live = true →
    s.due p k = true → (s.inst p k).made = true → (s.pl p).rng.pool = b :: l →
    ∃ t, exec (.reseedDue p k) s = .next t ∧ t.inst p k = Reseeded (s.inst p k) b s.clock ∧ t.due p k = false ∧
      (t.pl p).rng.pool = l ∧ (t.pl p).rng.reseeds = (s.pl p).rng.reseeds + 1 ∧ SameBut [.rng p] s t) ∧
  (∀ (p : Plate) (k : Nat) (b c : Bytes) (l : List Bytes) (s : State), s.gives p = true → (s.inst p k).live = true →
    (s.inst p k).made = false → (s.pl p).rng.pool = b :: c :: l →
    ∃ t, exec (.reseedDue p k) s = .next t ∧
      (let x := Config.drbgInit b (c.take 16) (drbgPerson p k (s.optime p))
       t.inst p k = { live := true, made := true, key := x.1, v := x.2, count := 0, seeded := s.clock, must := false }) ∧
      t.due p k = false ∧ (t.pl p).rng.pool = l ∧ SameBut [.rng p] s t) ∧
  (∀ (p : Plate) (k : Nat) (s : State), s.due p k = false → exec (.reseedDue p k) s = .next s)

/-- The health tests fail a cell at 61 identical samples in a row and at 812 recurrences of a window's first sample, and at
nothing less. -/
def Obligations.HealthTestCutoffs : Prop :=
  (∀ (c : Cell) (b : Bool), c.run ≠ 0 → c.last = b → (c.feed b).run = c.run + 1) ∧
  (∀ (c : Cell) (b : Bool), c.last ≠ b → (c.feed b).run = 1) ∧
  (∀ c : Cell, c.fails = some 3 ↔ 61 ≤ c.run) ∧ (∀ c : Cell, c.fails = some 4 ↔ c.run < 61 ∧ 812 ≤ c.seen) ∧
  (∀ (c : Cell) (l : List Bool), c.run < 61 → c.seen < 812 → (c.feedAll l none 0 0).2.1 = none →
    ∀ k : Nat, k ≤ l.length → ((l.take k).foldl Cell.feed c).fails = none)

/-! ## Slices, custody and the lifecycle (03, 10) -/

/-- Plate `r.plate` takes admin command `r` now: it heads the admin queue, the secure world runs, and random output is not
halted (R206, R323). -/
abbrev Taken (s : State) (r : JobRef) (op : Nat) (j : Job) : Prop :=
  s.adminHead r op = some j ∧ s.entropyAtStart r.plate j = none

/-- What an admin command that ends or begins a commit may touch. -/
def adminParts (p : Plate) : List Part :=
  [.mgt p, .cus p, .sl p, .vlt p, .rng p, .pow p, .out, .gut p.peer, .nvm p, .free]

/-- What one that deals out a root or the identity seed may touch: the other plate draws and agrees a key too (R137). -/
def dealingParts (p : Plate) : List Part := .rng p.peer :: .vlt p.peer :: adminParts p

/-- A command under a session (R247): it completes with QUORUM where its session does not pass, and otherwise `P` holds. -/
def AfterQuorum (s t : State) (r : JobRef) (j : Job) (b : Bytes) (P : Prop) : Prop :=
  match (s.adminTake r).quorum r.plate j.desc b with
  | none => Completes s t r.plate j { status := .quorum }
  | some _ => P

/-- A command that either is refused or begins its commit (R210, R213, R374). -/
def RefusedOrCommitted (s t : State) (r : JobRef) (j : Job) (ro : Bool) (items : List VItem) (x : Result) : Prop :=
  match s.refuses r.plate ro with
  | some st => Completes s t r.plate j { status := st }
  | none => CommitBegun s t r.plate r.ring r.index items x

/-- A change of the custody page or the lifecycle page: PARTITIONED while the gutter is lost, the refusal of a commit, or the
commit on both plates (R238, R248). -/
def PageCommitted (s t : State) (r : JobRef) (j : Job) (ro : Bool) (items : List VItem) (x : Result) : Prop :=
  if s.gutterUp r.plate = false then Completes s t r.plate j { status := .partitioned }
  else RefusedOrCommitted s t r j ro items x

/-- A frame of this kind is on its way from an end: outstanding, or waiting for the window (R258). -/
def FrameQueued (t : State) (e : End) (p : Plate) (type : Nat) (res : Byte) (body : Bytes) : Prop :=
  (∃ o ∈ (t.link e p).sent, o.frame.type = type ∧ o.frame.res = res ∧ o.frame.payload = body) ∨
  (∃ f ∈ (t.link e p).waiting, f.type = type ∧ f.res = res ∧ f.payload = body)

/-- Plate `p` asked the card of session `a` something: the command is on its way in one APDU segment (R236). -/
def CardAsked (s t : State) (p : Plate) (a : LocalTry) (step : CardStep) (b : Bytes) : Prop :=
  (t.pl p).cus.attempt = some { a with step := step, segs := [], askedAt := s.clock, lastKey := s.clock } ∧
  FrameQueued t .plate p 0x12 (BitVec.ofNat 8 a.reader) ([1] ++ b)

/-- The card session `a` of plate `p` ended and counted nothing; an enrolment that it was for completes with QUORUM, AUTH_FAIL or
RANGE, which of them the spec does not say (R236, R245, log 30). -/
def TryEnded (s t : State) (p : Plate) (a : LocalTry) : Prop :=
  (t.pl p).cus = { (s.pl p).cus with
    attempt := none
    button := match a.enrol.bind fun e => s.job? p .admin e.index with
      | some j => (s.pl p).cus.button.filter fun w => w.index != j.index
      | none => (s.pl p).cus.button } ∧
  (match a.enrol.bind fun e => s.job? p .admin e.index with
   | some j => ∃ st ∈ [Status.quorum, .authFail, .range], Completes s t p j { status := st }
   | none => True)

/-- SLICE_CREATE, SLICE_RESIZE and SLICE_DESTROY under their session: RANGE, QUOTA, PARTITIONED or the refusal of a commit,
in that order, or else the commit of the slice record under a nonce drawn for it and the imposition entry with window sets of
free windows (which of them is the model's choice, log 112); of the new quotas and sets, for a resize that evicts nothing, once
the windows that leave are free, until when the command waits; of DRAINING. -/
def Obligations.SliceCommands : Prop :=
  (∀ (r : JobRef) (j : Job) (b : Bytes) (s : State), Taken s r 0x80 j → s.impoBusy = false →
    s.drawWaits r.plate vaultInst 1 = false →
    ∃ t, exec (.sliceCreate r (.ok b)) s = .next t ∧ SameBut (adminParts r.plate) s t ∧
      (let p := r.plate
       let w := fit 64 b
       let i := recSlice w
       let e := recImpo w
       AfterQuorum s t r j w
         (if createFields w = false ∨ (s.impo p i).st ≠ .free ∨ (match e.home with | .a => e.pasidA | .b => e.pasidB) = none ∨
            s.pasidTaken p i true e.pasidA = true ∨ s.pasidTaken p i false e.pasidB = true then
            Completes s t p j { status := .range }
          else if s.poolHolds p e.quota {} = false then Completes s t p j { status := .quota }
          else RefusedOrCommitted s t r j false
            [.record i (s.newRecord p i),
             .impo i { e with winA := takeRuns e.quota.windows (s.freeRuns p .a),
                              winB := takeRuns e.quota.windows (s.freeRuns p .b) }] { info := BitVec.ofNat 32 i }))) ∧
  (∀ (r : JobRef) (j : Job) (b : Bytes) (s : State), Taken s r 0x81 j →
    (s.inPartition r.plate = true ∨ s.sliceWaits r.plate (.ok b) = false) →
    (∀ e ∈ (s.pl r.plate).sl.ops, e.2.map SliceOp.index ≠ some r.index) →
    (let p := r.plate
     let w := fit 64 b
     let i := recSlice w
     let e := s.impo p i
     let q := recQuota w
     (∀ x : Plate, s.linesUsed x i ≤ q.lines ∧ s.linesUsed x i ≤ (s.impo x i).quota.lines) →
     ∃ t, exec (.sliceResize r (.ok b)) s = .next t ∧ SameBut (.sl p.peer :: adminParts p) s t ∧
       if s.inPartition p = true then Completes s t p j { status := .partitioned }
       else AfterQuorum s t r j w
         (if resizeFields w = false ∨ e.st = .free ∨ e.st = .draining then Completes s t p j { status := .range }
          else if s.poolHolds p q e.quota = false ∨ s.belowUse p i q = true then Completes s t p j { status := .quota }
          else match s.refuses p false with
            | some st => Completes s t p j { status := st }
            | none =>
              (t.jobAt r).map Job.stage = some .running ∧
              (if q.windows < s.winUsed .a i ∨ q.windows < s.winUsed .b i then
                 ReadsOnly s t ∧ (t.pl p).vlt = (s.pl p).vlt ∧
                 (t.pl p).sl.ops.get none i = some { index := r.index, by_ := p, step := 1, quota := q }
               else
                 (let wa := s.resizedSet p .a i q.windows
                  let wb := s.resizedSet p .b i q.windows
                  ChangeBegun s t p [.impo i { e with quota := q, winA := wa, winB := wb }] ∧
                  (t.pl p).sl.ops.get none i =
                    some { index := r.index, by_ := p, step := 2, quota := q, winA := wa, winB := wb }))))) ∧
  (∀ (r : JobRef) (j : Job) (b : Bytes) (s : State), Taken s r 0x82 j →
    (s.inPartition r.plate = true ∨ s.sliceWaits r.plate (.ok b) = false) →
    (∀ e ∈ (s.pl r.plate).sl.ops, e.2.map SliceOp.index ≠ some r.index) →
    ∃ t, exec (.sliceDestroy r (.ok b)) s = .next t ∧ SameBut (adminParts r.plate) s t ∧
      (let p := r.plate
       let w := fit 64 b
       let i := recSlice w
       let e := s.impo p i
       if s.inPartition p = true then Completes s t p j { status := .partitioned }
       else AfterQuorum s t r j w
         (if destroyFields w = false ∨ e.st = .free ∨ e.st = .draining then Completes s t p j { status := .range }
          else match s.refuses p false with
            | some st => Completes s t p j { status := st }
            | none => ChangeBegun s t p [.impo i { e with st := .draining }] ∧ (t.jobAt r).map Job.stage = some .running ∧
                (t.pl p).sl.ops.get none i = some { index := r.index, by_ := p, destroy := true, step := 1 })))

/-- QUORUM_OPEN opens a session of a new number, bound to the intended command, under a fresh nonce and for 600,000 ms;
QUORUM_APPROVE counts a signature of an ACTIVE custodian over the session's digest once; a session past its time ends, and so
does a local approval whose last key was 60 s ago. -/
def Obligations.QuorumSessions : Prop :=
  (∀ (r : JobRef) (j : Job) (b : Bytes) (input : Dma) (ib : Bytes) (s : State), Taken s r 0x84 j → 96 ≤ j.desc.outCap.toNat →
    (let p := r.plate
     let d := decodeDesc (fit 64 b)
     classA d.op = true ∨ classB d.op = true → checks13 .admin 0 d = none → s.canDraw p vaultInst 1 = true → (s.liveSessions p).length < 16 →
     (if d.inLen = 0 then Dma.ok [] else input) = .ok ib →
     ∃ t, exec (.quorumOpen r (.ok b) input) s = .next t ∧
       SameBut (.free :: .rng p :: .cus p :: .mgt p :: completing p) s t ∧
       (let y := s.policy p
        let nonce := s.drawn p vaultInst 32
        let x : Session :=
          { number := BitVec.ofNat 32 (p.num * 2 ^ 31 + ((s.pl p).cus.opened + 1) % 2 ^ 31), classA := classA d.op,
            m := if classA d.op then y.mA else y.mB, locals := if classA d.op then y.localA else 0,
            nonce := nonce, h := s.approvalDigest p d (fit d.inLen.toNat ib) nonce, expiry := s.optime p + 600000, op := d.op }
        (t.pl p).cus = { (s.pl p).cus with sessions := s.liveSessions p ++ [x], opened := (s.pl p).cus.opened + 1 } ∧
        (t.pl p).rng = ((s.drew p vaultInst [32]).pl p).rng ∧ t.free = (s.drew p vaultInst [32]).free ∧
        Completes s t p j { outLen := 96, info := x.number, writes := [(j.desc.outAddr, sessionRecord x)] }))) ∧
  (∀ (r : JobRef) (j : Job) (b : Bytes) (x : Session) (s : State), Taken s r 0x85 j →
    (let p := r.plate
     let w := fit 104 b
     let k := leAt w 4 1
     let n : Word := BitVec.ofNat 32 (leAt w 0 4)
     allZero (cut w 5 3) = true → k ≤ 7 → s.session p n = some x → (∀ a ∈ x.approvals, a.cust ≠ k) →
     ∃ t, exec (.quorumApprove r (.ok b)) s = .next t ∧ SameBut (.cus p :: .mgt p :: completing p) s t ∧
       (if s.approves p k x.h (cut w 8 96) = true then
         (t.pl p).cus = { (s.pl p).cus with sessions := (s.pl p).cus.sessions.map fun y =>
           if y.number = n then { y with approvals := y.approvals ++ [{ cust := k, sig := cut w 8 96 }] } else y } ∧
         Completes s t p j { info := BitVec.ofNat 32 (x.approvals.length + 1), info2 := BitVec.ofNat 32 x.localCount }
        else (t.pl p).cus = (s.pl p).cus ∧ Completes s t p j { status := .quorum }))) ∧
  (∀ (p : Plate) (n : Word) (x : Session) (s : State), (s.pl p).cus.sessions.find? (fun x => x.number == n) = some x →
    x.expiry ≤ s.optime p →
    ∃ t, exec (.quorumSessionExpire p n) s = .next t ∧ t.session p n = none ∧
      (t.pl p).cus.sessions = (s.pl p).cus.sessions.filter (fun y => y.number != n) ∧
      (t.pl p).cus.page = (s.pl p).cus.page ∧ SameBut [.cus p] s t) ∧
  (∀ (p : Plate) (n : Word) (x : Session) (s : State), (s.pl p).cus.sessions.find? (fun x => x.number == n) = some x →
    s.optime p < x.expiry → exec (.quorumSessionExpire p n) s = .next s) ∧
  (∀ (p : Plate) (a : LocalTry) (s : State), (s.pl p).cus.attempt = some a → s.past a.lastKey 60000000 = true →
    ∃ t, exec (.localApprovalTimeout p) s = .next t ∧ TryEnded s t p a ∧ SameBut (.free :: .cus p :: completing p) s t)

/-- A command's session is one that is open, unexpired, bound by its digest to exactly this command, with enough approvals of
custodians ACTIVE now; and it is used up by the command, but for a migration that goes on. -/
def Obligations.SessionIsUsedOnce : Prop :=
  ∀ (s u : State) (p : Plate) (d : Desc) (input : Bytes), s.quorum p d input = some u →
    ∃ x, s.session p (BitVec.ofNat 32 d.param.toNat) = some x ∧ s.optime p < x.expiry ∧
      (x.matched = none → x.h = s.approvalDigest p d input x.nonce ∧ s.enough p x = true) ∧
      (migrateCode d = none → x.matched = none ∧ u.session p (BitVec.ofNat 32 d.param.toNat) = none) ∧ SameBut [.cus p] s u

/-- The oldest accepted frame at an end that is not an ACK or LINK_RESET is `f`, and `l` the inbox without it. -/
abbrev Heads (s : State) (e : End) (p : Plate) (f : Frame) (l : List Frame) : Prop :=
  takeFrame (fun f => !f.bare) (s.link e p).inbox = some (f, l)

/-- Admin command `r` was taken and waits for button 1 with its input (R249). -/
def WaitsForButton (s t : State) (r : JobRef) (input : Bytes) : Prop :=
  (t.jobAt r).map Job.stage = some .running ∧ ReadsOnly s t ∧
  (t.pl r.plate).cus = { (s.pl r.plate).cus with button := some { index := r.index, since := s.clock, input := input } } ∧
  SameBut [.mgt r.plate, .sl r.plate, .cus r.plate, .pow r.plate, .out] s t

/-- An enrolment whose session has passed, or which was accepted in UNINITIALISED: RANGE where the index is taken (log 146); the
card of its reader is asked to select its application; or, with no card within reach, one of three statuses, which the spec does
not choose (R239, log 30). -/
def EnrolBegun (s t : State) (p : Plate) (j : Job) (label h : Bytes) : Prop :=
  if ((s.custody p).table.get {} (custodianIndex j.desc)).active = true then Completes s t p j { status := .range }
  else if s.reachesCard p (j.desc.fl 8 1) = true then
    CardAsked s t p { reader := j.desc.fl 8 1, enrol := some { index := j.index, h := h, label := label } } .select apduSelect
  else ∃ st ∈ [Status.quorum, .authFail, .range], Completes s t p j { status := st }

/-- CUSTODIAN_ENROLL asks the card in its reader, CUSTODIAN_REMOVE and POLICY_SET commit a new custody page, each under its
session, and in UNINITIALISED wait for button 1, the enrolment with its card asked to sign an H of a nonce drawn for it; a card
that signed H has its key and serial committed where they are new, in UNINITIALISED once the button is pressed;
IMPORTER_BIND replaces an ACTIVE slice's binding and keeps its counter. -/
def Obligations.CustodyChanges : Prop :=
  (∀ (r : JobRef) (j : Job) (b : Bytes) (s : State), Taken s r 0x86 j → j.desc.fl 2 2 = 0 →
    (s.pl r.plate).cus.attempt = none → s.up r.plate = true → s.lifecycle r.plate ≠ 0x33 →
    ∀ card, ∃ t, exec (.custodianEnroll r (.ok b) card) s = .next t ∧ SameBut (.mrg r.plate :: adminParts r.plate) s t ∧
      AfterQuorum s t r j (fit 16 b)
        (EnrolBegun s t r.plate j (fit 16 b) (((s.session r.plate (BitVec.ofNat 32 j.desc.param.toNat)).map Session.h).getD []))) ∧
  (∀ (p : Plate) (f : Frame) (l : List Frame) (a : LocalTry) (e : EnrolTry) (j : Job) (s : State), Heads s .plate p f l →
    f.type = 0x13 → (s.pl p).cus.attempt = some a → a.reader = f.res.toNat → a.step = .sign → a.enrol = some e →
    s.job? p .admin e.index = some j → f.at_ 0 % 2 = 1 →
    (let all := a.segs ++ f.payload.drop 1
     let sig := cut all 0 96
     let k := custodianIndex j.desc
     let c := s.custody p
     all.length = 98 → cut all 96 2 = [0x90, 0x00] →
     ∃ t, exec (.resp ⟨p, none⟩) s = .next t ∧ SameBut (.mgt p :: .mrg p :: adminParts p) s t ∧
       (if (c.table.get {} k).active = true ∨ ((List.range 8).any fun i => (c.table.get {} i).active &&
            ((c.table.get {} i).key == e.key || (c.table.get {} i).serial == e.serial)) = true then
          Completes s t p j { status := .range }
        else if Config.pkVerify 0x41 e.key ecdsa384Flags [] e.h sig = false then
          ∃ st ∈ [Status.quorum, .authFail, .range], Completes s t p j { status := st }
        else if s.lifecycle p = 0x33 then
          (t.pl p).cus = { (s.pl p).cus with
            attempt := none, button := (s.pl p).cus.button.map fun w => { w with signed := some e } } ∧
          t.job? p .admin e.index = some j
        else PageCommitted s t { plate := p, ring := .admin, index := j.index } j false
          [.custody { c with table := c.table.set {} k { active := true, key := e.key, serial := e.serial,
                                                         label := fit 16 e.label } }] {}))) ∧
  (∀ (r : JobRef) (j : Job) (s : State), Taken s r 0x86 j → j.desc.fl 2 2 = 1 → s.lifecycle r.plate ≠ 0x33 →
    ∃ t, exec (.custodianRemove r) s = .next t ∧ SameBut (adminParts r.plate) s t ∧
      (let p := r.plate
       let k := custodianIndex j.desc
       let c := s.custody p
       let c' := { c with table := c.table.set {} k {} }
       AfterQuorum s t r j []
         (if (c.table.get {} k).active = false ∨ c'.count < 2 ∨ c'.count < (s.policy p).mA ∨ c'.count < (s.policy p).mB then
            Completes s t p j { status := .range }
          else PageCommitted s t r j false [.custody c'] {}))) ∧
  (∀ (r : JobRef) (j : Job) (b : Bytes) (s : State), Taken s r 0x8A j → s.lifecycle r.plate ≠ 0x33 →
    ∃ t, exec (.policySet r (.ok b)) s = .next t ∧ SameBut (adminParts r.plate) s t ∧
      (let c := s.custody r.plate
       AfterQuorum s t r j (fit 64 b)
         (if policyOk (fit 64 b) c.count = false then Completes s t r.plate j { status := .range }
          else PageCommitted s t r j false [.custody { c with policy := some (parsePolicy (fit 64 b)) }] {}))) ∧
  (∀ (r : JobRef) (j : Job) (b : Bytes) (s : State), Taken s r 0x8A j → s.lifecycle r.plate = 0x33 →
    (s.pl r.plate).cus.button = none →
    ∃ t, exec (.policySet r (.ok b)) s = .next t ∧ WaitsForButton s t r (fit 64 b)) ∧
  (∀ (r : JobRef) (j : Job) (b : Bytes) (s : State), Taken s r 0x86 j → j.desc.fl 2 2 = 0 → s.lifecycle r.plate = 0x33 →
    (s.pl r.plate).cus.button = none → (s.pl r.plate).cus.attempt = none → s.canDraw r.plate vaultInst 1 = true →
    ((s.custody r.plate).table.get {} (custodianIndex j.desc)).active = false → s.reachesCard r.plate (j.desc.fl 8 1) = true →
    s.up r.plate = true →
    ∀ card, ∃ t, exec (.custodianEnroll r (.ok b) card) s = .next t ∧
      (t.pl r.plate).cus.button = some { index := r.index, since := s.clock, input := fit 16 b } ∧
      (let h := s.approvalDigest r.plate j.desc (fit 16 b) (s.drawn r.plate vaultInst 32)
       let e : EnrolTry := { index := j.index, h := h, label := fit 16 b }
       CardAsked s t r.plate { reader := j.desc.fl 8 1, enrol := some e } .select apduSelect) ∧
      (t.jobAt r).map Job.stage = some .running ∧ SameBut (.mrg r.plate :: dealingParts r.plate) s t) ∧
  (∀ (r : JobRef) (j : Job) (s : State), Taken s r 0x86 j → j.desc.fl 2 2 = 1 → s.lifecycle r.plate = 0x33 →
    (s.pl r.plate).cus.button = none → ∃ t, exec (.custodianRemove r) s = .next t ∧ WaitsForButton s t r []) ∧
  (∀ (p : Plate) (w : ButtonWait) (j : Job) (s : State), (s.pl p).cus.button = some w → s.past w.since 60000000 = true →
    s.job? p .admin w.index = some j →
    ∃ t, exec (.buttonWaitTimeout p) s = .next t ∧
      (t.pl p).cus = { (s.pl p).cus with
        button := none
        attempt := (s.pl p).cus.attempt.filter fun a => (a.enrol.map EnrolTry.index) != some w.index } ∧
      Completes s t p j { status := .quorum } ∧ SameBut (.cus p :: completing p) s t) ∧
  (∀ (r : JobRef) (j : Job) (b : Bytes) (s : State), Taken s r 0x83 j →
    ∃ t, exec (.importerBind r (.ok b)) s = .next t ∧ SameBut (adminParts r.plate) s t ∧
      (let i := j.desc.fl 4 12
       let w := fit j.desc.inLen.toNat b
       AfterQuorum s t r j w
         (if (s.impo r.plate i).st ≠ .active ∨ Config.pkValid j.desc.al w = false then Completes s t r.plate j { status := .range }
          else RefusedOrCommitted s t r j false
            [.record i { s.recAhead r.plate i with impAlg := j.desc.al, impKey := fit 32 (Config.sha3 w) }] {})))

/-- What button 1 lets go on (R249): in UNINITIALISED a POLICY_SET commits its policy, a removal its table, and an enrolment
whose card has signed its custodian; a debug authorisation that is valid commits DEBUG with the test root and a salt
drawn for it, and draws LCS_DBG_NONCE afresh; one that is not is AUTH_FAIL; retirement raises KO_CMD. -/
def ButtonGoesOn (s t : State) (p : Plate) (w : ButtonWait) (j : Job) : Prop :=
  let r : JobRef := { plate := p, ring := .admin, index := j.index }
  let c := s.custody p
  if j.desc.op = 0x8A then
    (if policyOk w.input c.count = false then Completes s t p j { status := .range }
     else PageCommitted s t r j false [.custody { c with policy := some (parsePolicy w.input) }] {})
  else if j.desc.op = 0x86 then
    (if j.desc.fl 2 2 = 1 then
       (let c' := { c with table := c.table.set {} (custodianIndex j.desc) {} }
        if (c.table.get {} (custodianIndex j.desc)).active = false ∨ c'.count < 2 ∨ c'.count < (s.policy p).mA ∨
            c'.count < (s.policy p).mB then Completes s t p j { status := .range }
        else PageCommitted s t r j false [.custody c'] {})
     else match w.signed with
       | some e => PageCommitted s t r j false
           [.custody { c with table := c.table.set {} (custodianIndex j.desc)
                                { active := true, key := e.key, serial := e.serial, label := fit 16 e.label } }] {}
       | none => t.job? p .admin w.index = some j)
  else if j.desc.fl 8 8 = 0x5A then
    (if s.debugAuth p w.input = false then Completes s t p j { status := .authFail }
     else
       (let s1 := s.drew p vaultInst [32]
        PageCommitted s t r j true [.root testRootKey (s1.drawn (s.dealer p) vaultInst 32) true, .lifecycle (LcPage.of 0x5A)] {}) ∧
       (s.lifecycleRefused p = none → (t.pl p).cus.dbgNonce = s.drawn p vaultInst 32))
  else True

/-- LIFECYCLE_SET: RANGE for a transition that Table 10.8 does not list; UNPROVISIONED to PROVISIONED commits a seed drawn for
it, on Plate A while both plates take it, and answers its public parts; in PROVISIONED it stores a chain that certifies them, and
opens UNINITIALISED with an empty custody page; UNINITIALISED to OPERATIONAL takes a session and two ACTIVE custodians, commits a
root drawn for it with the default policy where there is none, and to DEBUG waits for button 1. Button 1
lets the waiting command go on. KNOCKOUT_CMD outside OPERATIONAL and DEBUG is RANGE, and in them latches KO_CMD and becomes the
cause of the plate's line. -/
def Obligations.LifecycleCommands : Prop :=
  (∀ (r : JobRef) (j : Job) (b : Bytes) (s : State), Taken s r 0x87 j → (s.pl r.plate).cus.button = none →
    (s.lifecycleDraws r.plate j = true → s.canDeal r.plate = true) →
    transition (s.lifecycle r.plate).toNat (j.desc.fl 8 8) = none →
    ∃ t, exec (.lifecycleSet r (.ok b)) s = .next t ∧ Completes s t r.plate j { status := .range } ∧
      SameBut (.mgt r.plate :: completing r.plate) s t) ∧
  (∀ (r : JobRef) (j : Job) (b : Bytes) (s : State), Taken s r 0x87 j → (s.pl r.plate).cus.button = none →
    s.canDeal r.plate = true → s.lifecycle r.plate = 0x00 → j.desc.fl 8 8 = 0x0F → j.desc.inLen = 0 → noParam j.desc = true →
    ∃ t, exec (.lifecycleSet r (.ok b)) s = .next t ∧ SameBut (dealingParts r.plate) s t ∧
      (let seed := identityOf (s.drawn (s.dealer r.plate) vaultInst 192)
       if j.desc.outCap.toNat < 3330 then Completes s t r.plate j { status := .outSmall, outLen := 3330 }
       else PageCommitted s t r j true [.identity seed, .lifecycle (LcPage.of 0x0F)]
         { outLen := 3330, writes := [(j.desc.outAddr, publicParts seed)] })) ∧
  (∀ (r : JobRef) (j : Job) (b : Bytes) (s : State), Taken s r 0x87 j → (s.pl r.plate).cus.button = none →
    s.lifecycle r.plate = 0x0F → j.desc.fl 8 8 = 0x0F → noParam j.desc = true → noOut j.desc = true →
    ∃ t, exec (.lifecycleSet r (.ok b)) s = .next t ∧ SameBut (.cus r.plate.peer :: adminParts r.plate) s t ∧
      (let w := if j.desc.inLen = 0 then [] else fit j.desc.inLen.toNat b
       if chainIdentity w = some (s.identityParts r.plate) then
         Completes s t r.plate j {} ∧ ∀ q ∈ s.holders r.plate, (t.pl q).cus = { (s.pl q).cus with chain := w }
       else Completes s t r.plate j { status := .authFail } ∧ ∀ q : Plate, (t.pl q).cus = (s.pl q).cus)) ∧
  (∀ (r : JobRef) (j : Job) (b : Bytes) (s : State), Taken s r 0x87 j → (s.pl r.plate).cus.button = none →
    s.lifecycle r.plate = 0x0F → j.desc.fl 8 8 = 0x33 → j.desc.inLen = 0 → noParam j.desc = true → noOut j.desc = true →
    ∃ t, exec (.lifecycleSet r (.ok b)) s = .next t ∧ SameBut (adminParts r.plate) s t ∧
      (if (s.pl r.plate).cus.chain = [] then Completes s t r.plate j { status := .range }
       else PageCommitted s t r j true [.custody {}, .lifecycle (LcPage.of 0x33)] {})) ∧
  (∀ (r : JobRef) (j : Job) (b : Bytes) (s : State), Taken s r 0x87 j → (s.pl r.plate).cus.button = none →
    s.canDeal r.plate = true → s.lifecycle r.plate = 0x33 → j.desc.fl 8 8 = 0x3C → j.desc.inLen = 0 → noOut j.desc = true →
    ∃ t, exec (.lifecycleSet r (.ok b)) s = .next t ∧ SameBut (dealingParts r.plate) s t ∧
      (let c := s.custody r.plate
       let v (k : Nat) : Bytes := s.drawnAt (s.dealer r.plate) vaultInst [32, 32] k
       if c.count < 2 then Completes s t r.plate j { status := .range }
       else AfterQuorum s t r j [] (PageCommitted s t r j true
         ([.root (v 1) (v 0) false] ++ (if c.policy = none then [.custody { c with policy := some {} }] else []) ++
           [.lifecycle (LcPage.of 0x3C)]) {}))) ∧
  (∀ (r : JobRef) (j : Job) (b : Bytes) (s : State), Taken s r 0x87 j → (s.pl r.plate).cus.button = none →
    s.canDeal r.plate = true → s.lifecycle r.plate = 0x33 → j.desc.fl 8 8 = 0x5A → j.desc.inLen.toNat = 3509 →
    noParam j.desc = true → noOut j.desc = true →
    ∃ t, exec (.lifecycleSet r (.ok b)) s = .next t ∧ WaitsForButton s t r (fit 3509 b)) ∧
  (∀ (p : Plate) (f : Frame) (l : List Frame) (w : ButtonWait) (j : Job) (s : State), Heads s .plate p f l → f.type = 0x31 →
    f.at_ 1 = 1 → f.at_ 0 = 1 → (s.pl p).cus.attempt = none → (s.pl p).cus.button = some w →
    s.job? p .admin w.index = some j → s.canDeal p = true → s.up p = true →
    j.desc.fl 8 8 = 0x5A ∨ j.desc.op ≠ 0x87 →
    j.desc.op = 0x8A ∨ j.desc.op = 0x87 ∨ j.desc.op = 0x86 →
    ∃ t, exec (.button p) s = .next t ∧ (t.pl p).mrg.mailbox = (s.pl p).mrg.mailbox ++ [f] ∧
      (if j.desc.op = 0x86 ∧ j.desc.fl 2 2 ≠ 1 ∧ w.signed = none then (t.pl p).cus = (s.pl p).cus
       else (t.pl p).cus.button = none) ∧
      ButtonGoesOn s t p w j ∧ SameBut (.mrg p :: dealingParts p) s t) ∧
  (∀ (r : JobRef) (j : Job) (s : State), Taken s r 0x8F j → s.lifecycle r.plate ≠ 0x3C → s.lifecycle r.plate ≠ 0x5A →
    ∃ t, exec (.knockoutCmd r) s = .next t ∧ Completes s t r.plate j { status := .range } ∧
      SameBut (.mgt r.plate :: completing r.plate) s t) ∧
  (∀ (r : JobRef) (j : Job) (s : State), Taken s r 0x8F j → s.lifecycle r.plate = 0x3C ∨ s.lifecycle r.plate = 0x5A →
    (s.pl r.plate).tmp.ko = false → s.up r.plate = true →
    ∃ t, exec (.knockoutCmd r) s = .next t ∧
      SameBut (.cus r.plate.peer :: .tmp r.plate :: .flt r.plate :: adminParts r.plate) s t ∧
      AfterQuorum s t r j []
        ((t.pl r.plate).flt.status = (s.pl r.plate).flt.status ||| srcBit 40 ∧
         (t.pl r.plate).tmp = { (s.pl r.plate).tmp with
           local_ := some ((s.pl r.plate).tmp.local_.getD { code := 7, by_ := r.plate.num, index := 0 }) } ∧
         (t.jobAt r).map Job.stage = some .running ∧ (t.pl r.plate).vlt = (s.pl r.plate).vlt))

/-! ## The Margin (11) -/

/-- The state with an end's inbox replaced. -/
def inboxTaken (s : State) (e : End) (p : Plate) (l : List Frame) : State := s.updLink e p fun x => { x with inbox := l }

/-- The oldest frame at the Margin's end of plate `p`'s channel has this type and names resource `r`, which the plate owns. -/
abbrev OwnerAsks (s : State) (p : Plate) (f : Frame) (l : List Frame) (type r : Nat) : Prop :=
  Heads s .margin p f l ∧ f.type = type ∧ f.res.toNat = r ∧ r < 4 ∧ s.owner r = some p

/-- Between `s` and `t` source `k` was latched on plate `p`: its bit is set, and no other (R300). -/
def Latched (s t : State) (p : Plate) (k : Nat) : Prop := (t.pl p).flt.status = (s.pl p).flt.status ||| srcBit k

/-- What a latch may touch: the collector, MSI-X pending bits and FAULT_OUT#, the recorder, and the record of outputs. -/
def latching (p : Plate) : List Part := [.flt p, .pow p, .nvm p, .out]

/-- Links (R257, R258): a frame in order is accepted and answered with an ACK of its number, one out of order is answered with
the highest accepted, also where its type or length is not defined, and then it is counted and dropped; a bad CRC is counted at
a plate. An ACK takes off what it covers. After 1 ms every outstanding frame is sent again in order, and after three
retransmissions a plate restarts its link, sends LINK_RESET and latches MARGIN_LINK. -/
def Obligations.BripaLinks : Prop :=
  (∀ (e : End) (p : Plate) (bytes : Bytes) (idle : Bool) (f : Frame) (s : State), s.endUp e p = true →
    parseFrame bytes idle = some f → f.bare = false → frameOk e f = true →
    (e = .margin → hardwareFrame f.type = true ∨ (s.pl p).mrg.fieldUp = true) →
    ∃ t, exec (.bripaFrameRecv e p bytes idle) s = .next t ∧
      (let l := s.link e p
       if f.seq = l.expect then
         t.link e p = { l with expect := l.expect + 1, accepted := f.seq, inbox := l.inbox ++ [{ f with came := s.clock }] } ∧
         t.out = s.out ++ [.bripa e p { type := 0x03, seq := f.seq }]
       else t.link e p = l ∧ t.out = s.out ++ [.bripa e p { type := 0x03, seq := l.accepted }]) ∧
      (e = .plate → (t.pl p).mrg.linkUp = true) ∧ SameBut [.mrg .a, .mrg .b, .margin, .out] s t) ∧
  (∀ (e : End) (p : Plate) (bytes : Bytes) (idle : Bool) (f : Frame) (s : State), s.endUp e p = true →
    parseFrame bytes idle = some f → f.bare = false → frameOk e f = false →
    (e = .margin → toMargin f.type = false ∨ hardwareFrame f.type = true ∨ (s.pl p).mrg.fieldUp = true) →
    ∃ t, exec (.bripaFrameRecv e p bytes idle) s = .next t ∧
      (match e with
       | .plate => (t.pl p).mrg.dropped = min ((s.pl p).mrg.dropped + 1) 65535
       | .margin => t.margin.dropped = min (s.margin.dropped + 1) 65535) ∧
      (t.link e p).inbox = (s.link e p).inbox ∧
      t.out = s.out ++ [.bripa e p { type := 0x03, seq := if f.seq = (s.link e p).expect then f.seq else (s.link e p).accepted }] ∧
      SameBut [.mrg .a, .mrg .b, .margin, .out] s t) ∧
  (∀ (p : Plate) (bytes : Bytes) (idle : Bool) (s : State), s.up p = true → parseFrame bytes idle = none →
    exec (.bripaFrameRecv .plate p bytes idle) s =
      .next (s.updMrg p fun m => { m with crcErr := min (m.crcErr + 1) 65535 })) ∧
  (∀ (e : End) (p : Plate) (f : Frame) (l : List Frame) (s : State),
    takeFrame (fun f => f.type == 0x03) (s.link e p).inbox = some (f, l) → (s.link e p).waiting = [] ∨ (s.link e p).resetting = true →
    ∃ t, exec (.ack e p) s = .next t ∧
      t.link e p = { s.link e p with inbox := l, sent := (ackUpTo f.seq (s.link e p).sent).2 } ∧
      t.out = s.out ∧ SameBut [.mrg p, .margin] s t) ∧
  (∀ (e : End) (p : Plate) (o : Outstanding) (l : List Outstanding) (s : State), (s.link e p).sent = o :: l →
    s.endUp e p = true → s.past o.sent 1000 = true → o.tries < 3 →
    ∃ t, exec (.bripaRetransmit e p) s = .next t ∧
      (t.link e p).sent = (s.link e p).sent.map (fun o => { o with sent := s.clock, tries := o.tries + 1 }) ∧
      t.out = s.out ++ (s.link e p).sent.map (fun o => Out.bripa e p o.frame) ∧ SameBut [.mrg p, .margin, .out] s t) ∧
  (∀ (p : Plate) (o : Outstanding) (l : List Outstanding) (s : State), (s.link .plate p).sent = o :: l →
    s.up p = true → s.past o.sent 1000 = true → 3 ≤ o.tries →
    ∃ t, exec (.bripaRetransmit .plate p) s = .next t ∧ t.link .plate p = (s.link .plate p).restarted true ∧
      Out.bripa .plate p { type := 0x04 } ∈ t.out ∧ Latched s t p 10 ∧ (t.pl p).mrg.linkUp = false ∧ (t.pl p).mrg.own = 0 ∧
      (t.pl p).cus.attempt = none ∧ SameBut (.mrg p.peer :: .mrg p :: .cus p :: .free :: (latching p ++ completing p)) s t) ∧
  (∀ (e : End) (p : Plate) (f : Frame) (l : List Frame) (s : State),
    takeFrame (fun f => f.type == 0x04) (s.link e p).inbox = some (f, l) → (s.link e p).resetting = true →
    (s.link e p).waiting = [] →
    ∃ t, exec (.linkReset e p) s = .next t ∧ t.link e p = { s.link e p with inbox := l, resetting := false } ∧ t.out = s.out ∧
      SameBut [.mrg p, .margin] s t) ∧
  (∀ (p : Plate) (f : Frame) (l : List Frame) (s : State),
    takeFrame (fun f => f.type == 0x04) (s.link .plate p).inbox = some (f, l) → (s.link .plate p).resetting = false →
    s.up p = true → (s.link .plate p).waiting = [] →
    ∃ t, exec (.linkReset .plate p) s = .next t ∧ t.link .plate p = { inbox := l } ∧
      Out.bripa .plate p { type := 0x04 } ∈ t.out ∧ Latched s t p 10 ∧ (t.pl p).mrg.own = 0 ∧ (t.pl p).cus.attempt = none ∧
      SameBut (.mrg p.peer :: .mrg p :: .cus p :: .free :: (latching p ++ completing p)) s t) ∧
  (∀ (p : Plate) (f : Frame) (l : List Frame) (s : State),
    takeFrame (fun f => f.type == 0x04) (s.link .margin p).inbox = some (f, l) → (s.link .margin p).resetting = false →
    (s.link .margin p).waiting = [] → (∀ r < 4, s.margin.owners.get none r = none ∨ s.owner r = some p.peer) →
    ∃ t, exec (.linkReset .margin p) s = .next t ∧ t.link .margin p = { inbox := l } ∧ t.margin.owners = s.margin.owners ∧
      Out.bripa .margin p { type := 0x04 } ∈ t.out ∧ SameBut [.margin, .out] s t)

/-- Ownership (R260, R261) and configuration (R265): a mailbox channel sends its world's frame; CLAIM is granted to one plate at a
time, in the order in which claims arrived, GRANT is noted, RELEASE ends ownership, and a frame for a resource its sender does not
own is answered with GRANT 1; HELLO ends every ownership of its plate and is answered with CONFIG; a CONFIG older than the one held
is not applied. -/
def Obligations.MarginOwnership : Prop :=
  (∀ (p : Plate) (r : Fin 4) (b : Bytes) (s : State), s.up p = true → (s.pl p).mrg.fieldUp = true →
    (∃ t, exec (.claim ⟨p, some (r, b)⟩) s = .next t ∧ FrameQueued t .plate p 0x05 (BitVec.ofNat 8 r) b ∧ SameBut [.mrg p, .out] s t) ∧
    ((s.pl p).cus.attempt = none →
      ∃ t, exec (.releaseFrame ⟨p, some (r, b)⟩) s = .next t ∧ FrameQueued t .plate p 0x07 (BitVec.ofNat 8 r) b ∧
        (t.pl p).mrg.own = (s.pl p).mrg.own &&& ~~~ (BitVec.ofNat 4 (2 ^ r.val)) ∧ SameBut [.mrg .a, .mrg .b, .out] s t) ∧
    (∀ atr : CardAtr, ∃ t, exec (.cardCtrl ⟨p, some (r, b)⟩ atr) s = .next t ∧ FrameQueued t .plate p 0x10 (BitVec.ofNat 8 r) b ∧
      SameBut [.mrg p, .out] s t) ∧
    (∃ t, exec (.apdu ⟨p, some (r, b)⟩) s = .next t ∧ FrameQueued t .plate p 0x12 (BitVec.ofNat 8 r) b ∧ SameBut [.mrg p, .out] s t) ∧
    (∃ t, exec (.display ⟨p, some (r, b)⟩) s = .next t ∧ FrameQueued t .plate p 0x32 (BitVec.ofNat 8 r) b ∧
      SameBut [.mrg p, .out] s t) ∧
    (∃ t, exec (.led ⟨p, some (r, b)⟩) s = .next t ∧ FrameQueued t .plate p 0x33 (BitVec.ofNat 8 r) b ∧ SameBut [.mrg p, .out] s t)) ∧
  (∀ (p : Plate) (f : Frame) (l : List Frame) (s : State), Heads s .margin p f l → f.type = 0x05 → f.res.toNat < 4 →
    s.margin.powered = true → s.owner f.res.toNat = none → s.claimFirst p f = true →
    ∃ t, exec (.claim ⟨p, none⟩) s = .next t ∧ t.owner f.res.toNat = some p ∧ FrameQueued t .margin p 0x06 f.res [0] ∧
      SameBut [.margin, .out] s t) ∧
  (∀ (p q : Plate) (f : Frame) (l : List Frame) (s : State), Heads s .margin p f l → f.type = 0x05 → f.res.toNat < 4 →
    s.margin.powered = true → s.owner f.res.toNat = some q → s.claimFirst p f = true →
    ∃ t, exec (.claim ⟨p, none⟩) s = .next t ∧ t.margin.owners = s.margin.owners ∧
      FrameQueued t .margin p 0x06 f.res [if q = p then 0 else 1] ∧ SameBut [.margin, .out] s t) ∧
  (∀ (p : Plate) (f x : Frame) (l : List Frame) (s : State), Heads s .margin p f l → f.type = 0x05 →
    x ∈ (s.link .margin p.peer).inbox → x.type = 0x05 → x.res = f.res → x.came < f.came ∨ (x.came = f.came ∧ p = .b) →
    exec (.claim ⟨p, none⟩) s = .next s) ∧
  (∀ (p : Plate) (f : Frame) (l : List Frame) (s : State), Heads s .plate p f l → f.type = 0x06 → f.res.toNat < 4 →
    ∃ t, exec (.grant p) s = .next t ∧
      (let b := BitVec.ofNat 4 (2 ^ f.res.toNat)
       (t.pl p).mrg.own = (if f.at_ 0 = 0 then (s.pl p).mrg.own ||| b else (s.pl p).mrg.own &&& ~~~ b) ∧
       (t.pl p.peer).mrg.other = (if f.at_ 0 = 0 then (s.pl p.peer).mrg.other ||| b else (s.pl p.peer).mrg.other &&& ~~~ b)) ∧
      (t.pl p).mrg.mailbox = (s.pl p).mrg.mailbox ++ [f] ∧ SameBut [.mrg .a, .mrg .b, .mgt p] s t) ∧
  (∀ (p : Plate) (f : Frame) (l : List Frame) (r : Nat) (s : State), OwnerAsks s p f l 0x07 r →
    ∃ t, exec (.releaseFrame ⟨p, none⟩) s = .next t ∧ t.margin.owners = s.margin.owners.set none r none ∧
      SameBut [.margin, .out] s t) ∧
  (∀ (p : Plate) (f : Frame) (l : List Frame) (s : State), Heads s .margin p f l → f.type = 0x07 →
    s.margin.powered = true → 4 ≤ f.res.toNat ∨ s.owner f.res.toNat ≠ some p →
    ∃ t, exec (.releaseFrame ⟨p, none⟩) s = .next t ∧ t.margin.owners = s.margin.owners ∧ FrameQueued t .margin p 0x06 f.res [1] ∧
      SameBut [.margin, .out] s t) ∧
  (∀ (p : Plate) (f : Frame) (l : List Frame) (s : State), Heads s .plate p f l → f.type = 0x01 → s.up p = true →
    ∃ t, exec (.hello p) s = .next t ∧ (t.pl p).mrg.presence = BitVec.ofNat 4 (f.at_ 1) ∧
      (t.pl p).mrg.powerups = leAt f.payload 2 2 ∧ (t.pl p).mrg.own = 0 ∧ (t.pl p).mrg.configured = false ∧
      (∃ body, FrameQueued t .plate p 0x02 0xFF body ∧ leAt body 0 8 = (s.custody p).seq % 2 ^ 64) ∧
      SameBut (.mrg .a :: .mrg .b :: .cus p :: .free :: completing p) s t) ∧
  (∀ (p : Plate) (f : Frame) (l : List Frame) (s : State), Heads s .margin p f l → f.type = 0x02 →
    (let q := leAt f.payload 0 8
     ∃ t, exec (.config p) s = .next t ∧ SameBut [.margin, .free] s t ∧
      (if s.margin.configured = true ∧ q < s.margin.polSeq then t = inboxTaken s .margin p l
       else t.margin.configured = true ∧ t.margin.polSeq = q ∧ t.margin.loops = BitVec.ofNat 8 (f.at_ 8) ∧
         t.margin.tDisc = (List.range 4).map (fun k => f.at_ (9 + k)) ∧ t.margin.allClear = (!s.margin.frozen && s.margin.checks) ∧
         t.margin.owners = s.margin.owners)))

/-- The PIN of the card session `a` is asked for: PIN_COLLECT of 4 to 12 digits is on its way (R237, R268). -/
def PinAsked (s t : State) (p : Plate) (a : LocalTry) : Prop :=
  (t.pl p).cus.attempt = some { a with step := .pin, segs := [], lastKey := s.clock } ∧
  FrameQueued t .plate p 0x14 (BitVec.ofNat 8 a.reader) [4, 12, 0x00, 0x20, 0x00, 0x81]

/-- Card readers (R236, R237, R245, R266, R267): activation with a usable ATR in class B, else in class A, and the PPS answered, and a
report where it fails; deactivation; segments of a command gathered and then sent to the card in T=1 blocks, but for VERIFY PIN and
a command of extended length, which is dropped by the model's choice (log 152); the card's answer
sent to its owner in segments; at the plate a good answer carries its card session on (SELECT to GET KEY or to the PIN, GET KEY
to the PIN, SIGN APPROVAL to a local approval of the ACTIVE custodian it verifies under, counted once) and a bad status word
ends it; removal, a supply fault and 2 s without an answer end it too. -/
def Obligations.CardReaders : Prop :=
  (∀ (p : Plate) (f : Frame) (l : List Frame) (r : Nat) (atr : CardAtr) (b : Bytes) (classA : Bool) (v : Byte) (s : State),
    OwnerAsks s p f l 0x10 r → r < 2 → f.at_ 0 = 1 → (s.margin.readers.get {} r).present = true →
    activation atr.classB atr.classA = some (b, classA) → ppsSpeed b atr.pps = some v → s.margin.powered = true →
    ∃ t, exec (.cardCtrl ⟨p, none⟩ atr) s = .next t ∧
      t.margin.readers.get {} r = { s.margin.readers.get {} r with
        active := true, apdu := false, classA := classA, speed := v, mhz := 4, crc := atrCrc b, ifsc := atrIfsc b, ns := false } ∧
      (s.out ++ .card r [] :: (ppsFor b ++ [ifsRequest (atrCrc b)]).map (Out.card r)) <+: t.out ∧
      FrameQueued t .margin p 0x11 (BitVec.ofNat 8 r) (3 :: b) ∧ SameBut [.margin, .out] s t) ∧
  (∀ (p : Plate) (f : Frame) (l : List Frame) (r : Nat) (atr : CardAtr) (s : State), OwnerAsks s p f l 0x10 r → r < 2 →
    f.at_ 0 = 1 → s.margin.activates r atr = none → s.margin.powered = true →
    ∃ t, exec (.cardCtrl ⟨p, none⟩ atr) s = .next t ∧ (t.margin.readers.get {} r).active = false ∧
      FrameQueued t .margin p 0x11 (BitVec.ofNat 8 r) [4] ∧ SameBut [.margin, .out] s t) ∧
  (∀ (p : Plate) (f : Frame) (l : List Frame) (r : Nat) (atr : CardAtr) (s : State), OwnerAsks s p f l 0x10 r → r < 2 →
    f.at_ 0 = 2 →
    ∃ t, exec (.cardCtrl ⟨p, none⟩ atr) s = .next t ∧
      t.margin.readers.get {} r = { s.margin.readers.get {} r with active := false, apdu := false, segs := [], mhz := 0 } ∧
      SameBut [.margin, .out] s t) ∧
  (∀ (p : Plate) (f : Frame) (l : List Frame) (s : State), Heads s .plate p f l → f.type = 0x11 → f.res.toNat < 2 →
    ∃ t, exec (.cardEvent p) s = .next t ∧
      (let b := BitVec.ofNat 4 (2 ^ f.res.toNat)
       let v := (s.pl p).mrg.presence
       (t.pl p).mrg.presence = (if f.at_ 0 = 1 then v ||| b else if f.at_ 0 = 2 then v &&& ~~~ b else v)) ∧
      (t.pl p).mrg.mailbox = (s.pl p).mrg.mailbox ++ [f] ∧
      (match (s.pl p).cus.attempt with
       | some a =>
         if a.reader = f.res.toNat ∧ (f.at_ 0 = 2 ∨ f.at_ 0 = 4 ∨ f.at_ 0 = 5) then TryEnded s t p a
         else (t.pl p).cus = (s.pl p).cus
       | none => (t.pl p).cus = (s.pl p).cus) ∧
      SameBut (.mgt p :: .mrg p :: .cus p :: .free :: completing p) s t) ∧
  (∀ (p : Plate) (f : Frame) (l : List Frame) (r : Nat) (s : State), OwnerAsks s p f l 0x12 r → r < 2 →
    (s.margin.readers.get {} r).active = true →
    ∃ t, exec (.apdu ⟨p, none⟩) s = .next t ∧
      (let all := (s.margin.readers.get {} r).segs ++ f.payload.drop 1
       if f.at_ 0 % 2 = 1 then
         (if all.take 4 = [0x00, 0x20, 0x00, 0x81] ∨ shortApdu all = false then
            t.margin.readers.get {} r = { s.margin.readers.get {} r with segs := [] } ∧ t.out = s.out
          else
            (let l := (s.margin.readers.get {} r).blocks all
             t.margin.readers.get {} r = { s.margin.readers.get {} r with
               segs := [], apdu := true, sentAt := s.clock, ns := (s.margin.readers.get {} r).ns ^^ (l.length % 2 == 1) } ∧
             t.out = s.out ++ l.map (Out.card r)))
       else t.margin.readers.get {} r = { s.margin.readers.get {} r with segs := all } ∧ t.out = s.out) ∧
      SameBut [.margin, .out] s t) ∧
  (∀ (p : Plate) (r : Nat) (b : Bytes) (s : State), (s.margin.readers.get {} r).apdu = true → s.owner r = some p →
    s.margin.powered = true →
    ∃ t, exec (.resp ⟨p, some (r, b)⟩) s = .next t ∧
      t.margin.readers.get {} r = { s.margin.readers.get {} r with apdu := false } ∧
      (∀ x ∈ respSegments b (b.length + 1), FrameQueued t .margin p 0x13 (BitVec.ofNat 8 r) x) ∧ SameBut [.margin, .out] s t) ∧
  (∀ (p : Plate) (f : Frame) (l : List Frame) (a : LocalTry) (s : State), Heads s .plate p f l → f.type = 0x13 →
    (s.pl p).cus.attempt = some a → a.reader = f.res.toNat → a.waits = true → f.at_ 0 % 2 = 1 →
    (a.step = .sign → a.enrol = none) → s.up p = true → (s.pl p).mrg.fieldUp = true →
    ∃ t, exec (.resp ⟨p, none⟩) s = .next t ∧ (t.pl p).mrg.mailbox = (s.pl p).mrg.mailbox ++ [f] ∧
      (let all := a.segs ++ f.payload.drop 1
       let data := all.take (all.length - 2)
       if all.length < 2 ∨ all.drop (all.length - 2) ≠ [0x90, 0x00] then TryEnded s t p a
       else match a.step, a.enrol with
         | .select, some _ => CardAsked s t p a .getKey [0x80, 0xCA, 0x00, 0x01, 113]
         | .select, none => PinAsked s t p a
         | .getKey, some e =>
           if data.length = 113 then PinAsked s t p { a with enrol := some { e with key := cut data 0 97, serial := cut data 97 16 } }
           else TryEnded s t p a
         | .getKey, none => (t.pl p).cus = (s.pl p).cus
         | .sign, _ =>
           if data.length = 96 then
             (t.pl p).cus.attempt = none ∧
             (match s.session p a.session with
              | some x => match s.signerOf p x.h data with
                | some k =>
                  if (x.approvals.any fun y => y.cust == k) = true then (t.pl p).cus.sessions = (s.pl p).cus.sessions
                  else (t.session p a.session).map Session.approvals =
                    some (x.approvals ++ [{ cust := k, isLocal := true, sig := data }])
                | none => (t.pl p).cus.sessions = (s.pl p).cus.sessions
              | none => (t.pl p).cus.sessions = (s.pl p).cus.sessions)
           else TryEnded s t p a
         | _, _ => True) ∧
      SameBut (.mgt p :: .mrg p :: .cus p :: .free :: completing p) s t) ∧
  (∀ (r : Nat) (present : Bool) (s : State), r < 2 → (s.margin.readers.get {} r).present = !present →
    s.margin.powered = true →
    ∃ t, exec (.cardPresence r present) s = .next t ∧
      t.margin.readers.get {} r = (if present then { s.margin.readers.get {} r with present := true }
        else { s.margin.readers.get {} r with present := false, active := false, apdu := false, segs := [], mhz := 0 }) ∧
      (∀ p : Plate, FrameQueued t .margin p 0x11 (BitVec.ofNat 8 r) [if present then 1 else 2]) ∧ SameBut [.margin, .out] s t) ∧
  (∀ (r : Nat) (s : State), s.margin.powered = true → (s.margin.readers.get {} r).active = true → r < 2 →
    ∃ t, exec (.cardOvercurrent r) s = .next t ∧ (t.margin.readers.get {} r).active = false ∧
      (∀ p : Plate, FrameQueued t .margin p 0x11 (BitVec.ofNat 8 r) [5]) ∧ SameBut [.margin, .out] s t) ∧
  (∀ (p : Plate) (r : Nat) (s : State), (s.margin.readers.get {} r).apdu = true →
    s.past (s.margin.readers.get {} r).sentAt 2000000 = true → s.owner r = some p →
    ∃ t, exec (.cardResponseTimeout p r) s = .next t ∧
      t.margin.readers.get {} r = { s.margin.readers.get {} r with active := false, apdu := false, segs := [], mhz := 0 } ∧
      (match (s.pl p).cus.attempt with
       | some a =>
         if a.reader = r ∧ a.waits = true ∧ s.past a.askedAt 2000000 = true then TryEnded s t p a
         else (t.pl p).cus = (s.pl p).cus
       | none => (t.pl p).cus = (s.pl p).cus) ∧
      SameBut (.margin :: .mrg p :: .cus p :: .free :: completing p) s t)

/-- The console (R245, R268, R269): a plate that owns a reader and the console begins a local approval of an open session, shows
what it approves and asks the card; PIN_COLLECT begins the entry; digits stay in the Margin and reach the console's owner only
as 0xFF; the card gets header, length and digits; PIN_RESULT carries the card session on or ends it; button 2 ends it, and
button 1 sends H to the card. -/
def Obligations.ConsoleAndPin : Prop :=
  (∀ (p : Plate) (r : Nat) (n : Word) (x : Session) (s : State), s.session p n = some x → (s.pl p).cus.attempt = none →
    s.reachesCard p r = true → s.up p = true →
    ∃ t, exec (.pinCollect ⟨p, some (r, n)⟩) s = .next t ∧
      CardAsked s t p { session := n, reader := r } .select [0x00, 0xA4, 0x04, 0x00, 8, 0xF0, 0x52, 0x41, 0x4D, 0x41, 0x52, 0x44, 0x01] ∧
      (∀ k < 4, FrameQueued t .plate p 0x32 3 (leBytes 1 k ++
        fit 20 (Config.approvalLine x.classA x.op p (x.number.toNat % 65536) (cut x.h 0 8) k))) ∧
      (t.pl p).cus.sessions = (s.pl p).cus.sessions ∧ SameBut [.mrg p, .cus p, .out] s t) ∧
  (∀ (p : Plate) (f : Frame) (l : List Frame) (r : Nat) (s : State), OwnerAsks s p f l 0x14 r → r < 2 →
    s.owner 3 = some p → s.margin.pin = none →
    ∃ t, exec (.pinCollect ⟨p, none⟩) s = .next t ∧
      t.margin.pin = some { plate := p, reader := r, min := f.at_ 0, max := f.at_ 1, header := cut f.payload 2 4 } ∧
      SameBut [.margin] s t) ∧
  (∀ (p : Plate) (f : Frame) (l : List Frame) (r : Nat) (s : State), OwnerAsks s p f l 0x14 r → s.owner 3 ≠ some p →
    s.margin.powered = true →
    ∃ t, exec (.pinCollect ⟨p, none⟩) s = .next t ∧ t.margin.pin = s.margin.pin ∧ FrameQueued t .margin p 0x06 3 [1] ∧
      SameBut [.margin, .out] s t) ∧
  (∀ (p : Plate) (f : Frame) (l : List Frame) (a : LocalTry) (s : State), Heads s .plate p f l → f.type = 0x15 →
    (s.pl p).cus.attempt = some a → a.reader = f.res.toNat → a.step = .pin → s.up p = true → (s.pl p).mrg.fieldUp = true →
    ∃ t, exec (.pinResult p) s = .next t ∧ (t.pl p).mrg.mailbox = (s.pl p).mrg.mailbox ++ [f] ∧
      (if f.at_ 0 = 0 ∧ leAt f.payload 2 2 = 0x9000 then
         match a.enrol with
         | some e => CardAsked s t p a .sign ([0x80, 0x2A, 0x9E, 0x9A, 48] ++ fit 48 e.h ++ [96])
         | none => (t.pl p).cus = { (s.pl p).cus with attempt := some { a with step := .button } }
       else TryEnded s t p a) ∧
      SameBut (.mgt p :: .mrg p :: .cus p :: .free :: completing p) s t) ∧
  (∀ (ch : Byte) (x : Option (BitVec 16)) (y : PinTry) (p : Plate) (s : State), s.margin.powered = true → isDigit ch = true →
    s.margin.pin = some y → s.owner 3 = some p →
    ∃ t, exec (.keypadPress ch x) s = .next t ∧
      (if y.digits.length < y.max then
         t.margin.pin = some { y with digits := y.digits ++ [ch] } ∧ FrameQueued t .margin p 0x30 3 [0xFF]
       else t = s) ∧ SameBut [.margin, .out] s t) ∧
  (∀ (ch : Byte) (x : Option (BitVec 16)) (p : Plate) (s : State), s.margin.powered = true → isKey ch = true →
    s.margin.pin = none → s.owner 3 = some p →
    ∃ t, exec (.keypadPress ch x) s = .next t ∧ FrameQueued t .margin p 0x30 3 [ch] ∧ SameBut [.margin, .out] s t) ∧
  (∀ (x : Option (BitVec 16)) (y : PinTry) (s : State), s.margin.powered = true → s.margin.pin = some y →
    exec (.keypadPress 0x2A x) s =
      .next (s.updMargin fun g => { g with pin := some { y with digits := y.digits.dropLast } })) ∧
  (∀ (x : Option (BitVec 16)) (y : PinTry) (s : State), s.margin.powered = true → s.margin.pin = some y →
    y.min ≤ y.digits.length →
    ∃ t, exec (.keypadPress 0x23 x) s = .next t ∧ t.margin.pin = none ∧
      (∀ x ∈ (s.margin.readers.get {} y.reader).blocks (y.header ++ leBytes 1 y.digits.length ++ y.digits),
        Out.card y.reader x ∈ t.out) ∧
      FrameQueued t .margin y.plate 0x15 (BitVec.ofNat 8 y.reader)
        (leBytes 1 0 ++ leBytes 1 y.digits.length ++ leBytes 2 (x.getD 0).toNat) ∧ SameBut [.margin, .out] s t) ∧
  (∀ (n : Nat) (pressed : Bool) (p : Plate) (s : State), s.margin.powered = true → n = 1 ∨ n = 2 → s.owner 3 = some p →
    ∃ t, exec (.buttonPress n pressed) s = .next t ∧
      FrameQueued t .margin p 0x31 3 [BitVec.ofNat 8 n, if pressed then 1 else 0] ∧
      (if n = 2 ∧ pressed = true then
         t.margin.pin = none ∧ ∀ y, s.margin.pin = some y → FrameQueued t .margin y.plate 0x15 (BitVec.ofNat 8 y.reader)
           (leBytes 1 1 ++ leBytes 1 y.digits.length ++ leBytes 2 0)
       else t.margin.pin = s.margin.pin) ∧ SameBut [.margin, .out] s t) ∧
  (∀ (p : Plate) (f : Frame) (l : List Frame) (s : State), Heads s .plate p f l → f.type = 0x30 →
    ∃ t, exec (.key p) s = .next t ∧ (t.pl p).mrg.mailbox = (s.pl p).mrg.mailbox ++ [f] ∧
      (t.pl p).cus = { (s.pl p).cus with attempt := (s.pl p).cus.attempt.map fun a => { a with lastKey := s.clock } } ∧
      SameBut [.mrg p, .mgt p, .cus p] s t) ∧
  (∀ (p : Plate) (f : Frame) (l : List Frame) (s : State), Heads s .plate p f l → f.type = 0x31 → f.at_ 1 = 1 → f.at_ 0 = 2 →
    ∃ t, exec (.button p) s = .next t ∧ (t.pl p).mrg.mailbox = (s.pl p).mrg.mailbox ++ [f] ∧
      (match (s.pl p).cus.attempt with
       | some a => TryEnded s t p a
       | none => (t.pl p).cus = (s.pl p).cus) ∧ SameBut (.mgt p :: .mrg p :: .cus p :: .free :: completing p) s t) ∧
  (∀ (p : Plate) (f : Frame) (l : List Frame) (a : LocalTry) (x : Session) (s : State), Heads s .plate p f l → f.type = 0x31 →
    f.at_ 1 = 1 → f.at_ 0 = 1 → (s.pl p).cus.attempt = some a → a.step = .button →
    s.session p a.session = some x → s.up p = true → (s.pl p).mrg.fieldUp = true →
    ∃ t, exec (.button p) s = .next t ∧
      CardAsked s t p a .sign ([0x80, 0x2A, 0x9E, 0x9A, 48] ++ fit 48 x.h ++ [96]) ∧
      (t.pl p).cus.sessions = (s.pl p).cus.sessions ∧ SameBut [.mrg p, .mgt p, .cus p, .out] s t) ∧
  (∀ (p : Plate) (f : Frame) (l : List Frame) (s : State), OwnerAsks s p f l 0x32 3 → f.at_ 0 < 4 →
    exec (.display ⟨p, none⟩) s = .next (((inboxTaken s .margin p l).updMargin fun g =>
      { g with display := g.display.set [] (f.at_ 0) (cut f.payload 1 20) }).emit (.i2c f.payload))) ∧
  (∀ (p : Plate) (f : Frame) (l : List Frame) (s : State), OwnerAsks s p f l 0x33 3 → f.at_ 0 < 3 → f.at_ 1 < 3 →
    exec (.led ⟨p, none⟩) s = .next ((inboxTaken s .margin p l).updMargin fun g =>
      { g with led1 := BitVec.ofNat 8 (f.at_ 0), led3 := BitVec.ofNat 8 (f.at_ 1) }))

/-- Blocks `x` from a block on are on their way to the card: the write command and every piece of its data (R270, R274). -/
def BlocksSent (t : State) (p : Plate) (x : Nat × Bytes) : Prop :=
  FrameQueued t .plate p 0x20 2 ([2, 0] ++ leBytes 2 (payloadBlocks x.2.length) ++ leBytes 8 x.1) ∧
  ∀ k < x.2.length / 64, FrameQueued t .plate p 0x21 2 (cut x.2 (64 * k) 64)

/-- The SD slot (R270 to R274): a command is refused at once with its status, reads and writes at its LBA, or initialises the
card; data of a write is taken, and data of a read given, 64 bytes at a time; a finished operation, a card error, a busy card
after its time and removal end it with the blocks done; insertion and removal go to both plates. The plate that owns the slot
reads the spool, and appends a record to it: payload first, and the header once the payload is confirmed. -/
def Obligations.SdSlot : Prop :=
  (∀ (p : Plate) (f : Frame) (l : List Frame) (card : Option SdShow) (locked : Bool) (s : State), OwnerAsks s p f l 0x20 2 →
    s.margin.sdOp = none → f.at_ 0 = 1 ∨ f.at_ 0 = 2 → 1 ≤ leAt f.payload 2 2 → leAt f.payload 2 2 ≤ 128 →
    s.margin.powered = true → s.margin.sdPresent = true →
    ∃ t, exec (.sdCmd p (.card card locked)) s = .next t ∧ SameBut [.margin, .out] s t ∧
      (let op := f.at_ 0
       let blocks := leAt f.payload 2 2
       let lba := leAt f.payload 4 8
       t.margin.sdLocked = (if op = 2 then locked else s.margin.sdLocked) ∧
       match t.margin.sdRefuses op lba blocks with
       | some st => t.margin.sdOp = none ∧ ∃ body, FrameQueued t .margin p 0x22 2 body ∧ leAt body 0 1 = st
       | none => t.margin.sdOp = some { op := op, lba := lba, blocks := blocks, plate := p } ∧
           t.out = s.out ++ [.sd op (s.margin.sdAddr lba) blocks])) ∧
  (∀ (p : Plate) (f : Frame) (l : List Frame) (card : Option SdShow) (locked : Bool) (s : State), OwnerAsks s p f l 0x20 2 →
    s.margin.sdOp = none → f.at_ 0 = 3 → s.margin.sdPresent = true → s.margin.powered = true →
    ∃ t, exec (.sdCmd p (.card card locked)) s = .next t ∧ t.margin.sd = card.map sdInfoOf ∧ (s.out ++ sdInitOuts card) <+: t.out ∧
      (∃ body, FrameQueued t .margin p 0x22 2 body ∧ leAt body 0 1 = (if card.isSome then 0 else 3)) ∧
      SameBut [.margin, .out] s t) ∧
  (∀ (p : Plate) (b : List (Nat × Bytes)) (s : State), s.ownsSd p = true → (s.pl p).mrg.spool.job = none →
    exec (.sdCmd p (.openSpool b)) s = .next (s.updMrg p fun m => { m with spool := readSpool b })) ∧
  (∀ (p : Plate) (kind : Nat) (b : Bytes) (id : DWord) (s : State), s.ownsSd p = true → (s.pl p).mrg.spool.job = none →
    (s.pl p).mrg.spool.id = some id →
    (let y := (s.pl p).mrg.spool
     let todo := payloadWrites (b.length + 1) (y.next + 1) b ++
       [(y.next, spoolHeader kind id (y.number + 1) b (s.optime p) (s.identityDigest p))]
     ∃ t, exec (.sdCmd p (.append kind b)) s = .next t ∧
       (t.pl p).mrg.spool = { y with job := some { todo := todo, id := id, next := y.next + 1 + payloadBlocks b.length } } ∧
       (∀ x, todo.head? = some x → BlocksSent t p x) ∧ SameBut [.mrg p, .out] s t)) ∧
  (∀ (p : Plate) (f : Frame) (l : List Frame) (d : SdEnd) (j : SpoolJob) (x : Nat × Bytes) (rest : List (Nat × Bytes)) (s : State),
    Heads s .plate p f l → f.type = 0x22 → (s.pl p).mrg.spool.job = some j → j.todo = x :: rest →
    d.at_ = .plate → d.plate = p → s.up p = true → (s.pl p).mrg.fieldUp = true →
    f.at_ 0 ≠ 0 ∨ leAt f.payload 4 4 = payloadBlocks x.2.length → 0 < x.2.length →
    ∃ t, exec (.sdDone d) s = .next t ∧ (t.pl p).mrg.mailbox = (s.pl p).mrg.mailbox ++ [f] ∧
      (t.pl p).mrg.spool = (if f.at_ 0 ≠ 0 then { (s.pl p).mrg.spool with job := none }
        else if rest = [] then { id := some j.id, next := j.next, number := (s.pl p).mrg.spool.number + 1 }
        else { (s.pl p).mrg.spool with job := some { j with todo := rest } }) ∧
      (f.at_ 0 = 0 → ∀ y, rest.head? = some y → BlocksSent t p y) ∧ SameBut [.mrg p, .mgt p, .out] s t) ∧
  (∀ (p : Plate) (f : Frame) (l : List Frame) (o : SdOp) (x : SdBlock) (s : State), OwnerAsks s p f l 0x21 2 →
    s.margin.sdOp = some o → o.op = 2 → o.plate = p → x.plate = p → o.bytes < 512 * o.blocks →
    ∃ t, exec (.sdData .margin x) s = .next t ∧
      (if (o.bytes + 64) % 512 = 0 then
         t.margin.sdOp = some { o with bytes := o.bytes + 64, busy := some s.clock, buf := []
                                       done := if x.ack then o.done + 1 else o.done } ∧
         t.out = s.out ++ [.sdData (o.buf ++ fit 64 f.payload)]
       else t.margin.sdOp = some { o with bytes := o.bytes + 64, buf := o.buf ++ fit 64 f.payload } ∧ t.out = s.out) ∧
      SameBut [.margin, .out] s t) ∧
  (∀ (p : Plate) (o : SdOp) (data : Bytes) (ack : Bool) (s : State), s.margin.sdOp = some o → o.op = 1 → o.plate = p →
    o.bytes < 512 * o.blocks → s.margin.powered = true →
    ∃ t, exec (.sdData .margin ⟨p, data, ack⟩) s = .next t ∧
      t.margin.sdOp = some { o with bytes := o.bytes + 64, done := (o.bytes + 64) / 512 } ∧
      FrameQueued t .margin p 0x21 2 (fit 64 data) ∧ SameBut [.margin, .out] s t) ∧
  (∀ (p : Plate) (f : Frame) (l : List Frame) (data : Bytes) (ack : Bool) (s : State), Heads s .plate p f l → f.type = 0x21 →
    ∃ t, exec (.sdData .plate ⟨p, data, ack⟩) s = .next t ∧ (t.pl p).mrg.mailbox = (s.pl p).mrg.mailbox ++ [f] ∧
      SameBut [.mrg p, .mgt p] s t) ∧
  (∀ (p : Plate) (o : SdOp) (d : SdEnd) (s : State), s.margin.sdOp = some o → o.plate = p → s.margin.powered = true →
    d.at_ = .margin → d.plate = p →
    ((d.error = true ∨ o.unacknowledged = true) ∨ (o.bytes = 512 * o.blocks ∧ (o.op = 2 → sdReady d.dat0 d.polls = true))) →
    ∃ t, exec (.sdDone d) s = .next t ∧ t.margin.sdOp = none ∧
      (let bad := d.error || o.unacknowledged
       ∃ body, FrameQueued t .margin p 0x22 2 body ∧ leAt body 0 1 = (if bad then 3 else 0) ∧
        leAt body 4 4 = (if bad then o.done else o.blocks) % 2 ^ 32) ∧ SameBut [.margin, .out] s t) ∧
  (∀ (p : Plate) (o : SdOp) (d : SdEnd) (s : State), s.margin.sdOp = some o → o.plate = p → s.margin.powered = true →
    d.at_ = .margin → d.plate = p → d.error = false → o.unacknowledged = false → o.bytes = 512 * o.blocks → o.op = 2 →
    sdReady d.dat0 d.polls = false →
    ∃ t, exec (.sdDone d) s = .next t ∧ t.margin = s.margin ∧
      t.out = s.out ++ sdPolls ((s.margin.sd.map SdInfo.rca).getD 0) d.polls ∧ SameBut [.out] s t) ∧
  (∀ (p : Plate) (f : Frame) (l : List Frame) (d : SdEnd) (s : State), Heads s .plate p f l → f.type = 0x22 →
    (s.pl p).mrg.spool.job = none → d.at_ = .plate → d.plate = p →
    ∃ t, exec (.sdDone d) s = .next t ∧ (t.pl p).mrg = { (inboxTaken s .plate p l |>.pl p).mrg with
        mailbox := (s.pl p).mrg.mailbox ++ [f] } ∧ SameBut [.mrg p, .mgt p] s t) ∧
  (∀ (p : Plate) (f : Frame) (l : List Frame) (s : State), Heads s .plate p f l → f.type = 0x23 →
    ∃ t, exec (.sdEvent p) s = .next t ∧ (t.pl p).mrg.mailbox = (s.pl p).mrg.mailbox ++ [f] ∧
      (t.pl p).mrg.presence = BitVec.ofNat 4 (f.at_ 0) ∧ SameBut [.mrg p, .mgt p] s t) ∧
  (∀ (o : SdOp) (t0 : Nat) (s : State), s.margin.sdOp = some o → o.busy = some t0 → s.margin.powered = true →
    s.past t0 (if (s.margin.sd.map SdInfo.cardType) = some 3 then 500000 else 250000) = true →
    ∃ t, exec .sdBusyTimeout s = .next t ∧ t.margin.sdOp = none ∧
      (∃ body, FrameQueued t .margin o.plate 0x22 2 body ∧ leAt body 0 1 = 4 ∧ leAt body 4 4 = o.done % 2 ^ 32) ∧
      SameBut [.margin, .out] s t) ∧
  (∀ (s : State), s.margin.sdPresent = true → s.margin.powered = true →
    ∃ t, exec .sdRemoval s = .next t ∧ t.margin.sdPresent = false ∧ t.margin.sdOp = none ∧ t.margin.sd = none ∧
      (∀ o, s.margin.sdOp = some o →
        ∃ body, FrameQueued t .margin o.plate 0x22 2 body ∧ leAt body 0 1 = 1 ∧ leAt body 4 4 = o.done % 2 ^ 32) ∧
      (∀ p : Plate, ∃ body, FrameQueued t .margin p 0x23 2 body) ∧ SameBut [.margin, .out] s t) ∧
  (∀ (locked : Bool) (card : Option SdShow) (s : State), s.margin.sdPresent = false → s.margin.powered = true →
    ∃ t, exec (.sdInsertion locked card) s = .next t ∧ t.margin.sdPresent = true ∧ t.margin.sdLocked = locked ∧
      t.margin.sd = card.map sdInfoOf ∧ (∀ p : Plate, ∃ body, FrameQueued t .margin p 0x23 2 body) ∧
      (∀ p, s.owner 2 = some p → ∃ body, FrameQueued t .margin p 0x22 2 body ∧ leAt body 0 1 = (if card.isSome then 0 else 3) ∧
        leAt body 8 8 = ((card.map SdShow.capacity).getD 0) % 2 ^ 64) ∧ SameBut [.margin, .out] s t)

/-- The all-clear is lost at a plate as it finds it: no transition for 50 µs, or a count of transitions in 1 ms outside 180 to 220
(R262). -/
def ClearLost (s : State) : ClearLoss → Prop
  | .quiet => s.margin.allClear = true ∨ s.past s.margin.stopAt 50 = true
  | .count n => n < 180 ∨ 220 < n

/-- Tamper inputs (R256, R275 to R278): a tripped loop opens a discrepancy, both loops or a discrepancy at its time decide
tamper, 50 µs without one end it; a decision asserts the knockout channel and both plates see it; counts are reported after 1
s. Field power (R262 to R264): power-up forgets everything but the pins, a brown-out freezes every decision, and a lost all-
clear releases the plate's resources and is FIELD_LOSS, or KO_FIELD under the policy. -/
def Obligations.TamperInputsAndField : Prop :=
  (∀ (i loop : Nat) (st : LoopState) (s : State), i < 4 → loop < 2 → s.margin.senses i = true → st ≠ .ok →
    (let x := s.margin.inputs.get {} i
     (if loop = 0 then x.loopB else x.loopA) = .ok → x.since = none →
     ∃ t, exec (.loopDeglitch i loop st) s = .next t ∧
       (∃ k ≤ 40 * s.margin.tDisc.getD i 0,
         t.margin.inputs.get {} i = { x with loopA := if loop = 0 then st else x.loopA, loopB := if loop = 0 then x.loopB else st,
                                             since := some (s.clock - 50), slack := k, okFrom := none }) ∧
       t.margin.koDecided = s.margin.koDecided ∧ SameBut [.margin, .free] s t)) ∧
  (∀ (i loop : Nat) (st : LoopState) (s : State), i < 4 → loop < 2 → s.margin.senses i = true → st ≠ .ok →
    (let x := s.margin.inputs.get {} i
     (if loop = 0 then x.loopB else x.loopA) ≠ .ok →
     ∃ t, exec (.loopDeglitch i loop st) s = .next t ∧ t.margin.koDecided = s.margin.koDecided ++ [(i, 1)] ∧
       t.margin.ledTamper = true ∧ (t.margin.inputs.get {} i).since = none ∧
       (t.margin.inputs.get {} i).counted = (s.margin.inputs.get {} i).counted ∧ SameBut [.margin] s t)) ∧
  (∀ (i t0 : Nat) (s : State), s.margin.expiry i = some t0 → s.margin.senses i = true → t0 ≤ s.clock →
    (s.margin.inputs.get {} i).okFrom = none →
    ∃ t, exec (.discrepancyExpire i) s = .next t ∧ t.margin.koDecided = s.margin.koDecided ++ [(i, 2)] ∧
      t.margin.ledTamper = true ∧ SameBut [.margin] s t) ∧
  (∀ (i a b : Nat) (s : State), (s.margin.inputs.get {} i).since = some a → (s.margin.inputs.get {} i).okFrom = some b →
    (s.margin.inputs.get {} i).slack ≤ 40 * s.margin.tDisc.getD i 0 → s.past b 50 = true → s.margin.senses i = true →
    ∃ t, exec (.discrepancyEnd i) s = .next t ∧ (t.margin.inputs.get {} i).since = none ∧
      (b - a < 980 * s.margin.tDisc.getD i 0 → t.margin.koDecided = s.margin.koDecided ∧
        (t.margin.inputs.get {} i).counted = (s.margin.inputs.get {} i).counted + 1) ∧
      (1020 * s.margin.tDisc.getD i 0 ≤ b - a → t.margin.koDecided = s.margin.koDecided ++ [(i, 2)] ∧
        (t.margin.inputs.get {} i).counted = (s.margin.inputs.get {} i).counted) ∧ SameBut [.margin] s t) ∧
  (∀ (i c : Nat) (l : List (Nat × Nat)) (s : State), s.margin.koDecided = (i, c) :: l → s.margin.powered = true →
    ∃ t, exec .koChannelAssert s = .next t ∧ t.margin.ko = true ∧ t.margin.koInput = i ∧ t.margin.koAt = s.clock ∧
      t.margin.koDecided = l ∧
      (∀ p : Plate, (t.pl p).tmp.marginKo =
        if (s.pl p).pow.phase = .off then (s.pl p).tmp.marginKo else some ((s.pl p).tmp.marginKo.getD i)) ∧
      (∀ p : Plate, ∃ body, FrameQueued t .margin p 0x40 0xFF body ∧ cut body 0 2 = [BitVec.ofNat 8 i, BitVec.ofNat 8 c]) ∧
      SameBut [.margin, .tmp .a, .tmp .b, .out] s t) ∧
  (∀ (p : Plate) (f : Frame) (l : List Frame) (s : State), Heads s .plate p f l → f.type = 0x40 →
    exec (.tamper p) s = .next (inboxTaken s .plate p l)) ∧
  (∀ (s : State), s.margin.powered = true → s.past s.margin.periodAt 1000000 = true →
    (∃ i < 4, (s.margin.inputs.get {} i).counted ≠ 0) →
    ∃ t, exec .loopStatusPeriod s = .next t ∧ t.margin.periodAt = s.clock ∧ t.margin.koDecided = s.margin.koDecided ∧
      (∀ p : Plate, ∃ body, FrameQueued t .margin p 0x41 0xFF body ∧
        ∀ i < 4, leAt body i 1 = min (s.margin.inputs.get {} i).counted 255) ∧ SameBut [.margin, .out] s t) ∧
  (∀ (p : Plate) (f : Frame) (l : List Frame) (s : State), Heads s .plate p f l → f.type = 0x41 → f.at_ 0 ≠ 0 →
    ∃ t, exec (.loopStatus p) s = .next t ∧
      (t.pl p).mrg.discCount.get 0 0 = min ((s.pl p).mrg.discCount.get 0 0 + f.at_ 0) 255 ∧ SameBut [.mrg p, .nvm p] s t) ∧
  (∀ (s : State), s.margin.powered = false →
    ∃ t, exec .fieldPowerUp s = .next t ∧ t.margin.powered = true ∧ t.margin.powerups = s.margin.powerups + 1 ∧
      t.margin.frozen = false ∧ t.margin.configured = false ∧ t.margin.allClear = false ∧ t.margin.ko = false ∧
      t.margin.owners = [] ∧ t.margin.koDecided = [] ∧ t.margin.sdPresent = s.margin.sdPresent ∧
      (∀ i < 4, (t.margin.inputs.get {} i).loopA = (s.margin.inputs.get {} i).loopA ∧
        (t.margin.inputs.get {} i).since = none) ∧
      (∀ p : Plate, ∃ body, FrameQueued t .margin p 0x01 0xFF body ∧ cut body 0 1 = [1]) ∧
      SameBut [.margin, .out] s t) ∧
  (∀ (s : State), exec .brownOut s =
    .next { s with margin := { s.margin with
      powered := false, frozen := true, allClear := false, stopAt := if s.margin.allClear then s.clock else s.margin.stopAt } }) ∧
  (∀ (p : Plate) (s : State), s.up p = true → s.margin.allClear = true →
    s.past (max s.margin.clearAt (s.pl p).mrg.lostAt) 1000 = true →
    exec (.allClearValid p) s = .next (s.updMrg p fun m => { m with fieldUp := true })) ∧
  (∀ (p : Plate) (n : Nat) (s : State), 180 ≤ n → n ≤ 220 → exec (.allClearLost ⟨p, .count n⟩) s = .next s) ∧
  (∀ (p : Plate) (x : ClearLoss) (s : State), (s.pl p).mrg.fieldUp = true → s.up p = true →
    ClearLost s x →
    ∃ t, exec (.allClearLost ⟨p, x⟩) s = .next t ∧ (t.pl p).mrg.fieldUp = false ∧ t.link .plate p = {} ∧
      (t.pl p).mrg.own = 0 ∧ t.margin.owners = s.margin.owners ∧ (t.pl p).mrg.losses = min ((s.pl p).mrg.losses + 1) 65535 ∧
      Latched s t p (if (s.policy p).flags.getLsbD 0 = true then 41 else 29) ∧
      ((s.policy p).flags.getLsbD 0 = true → (t.pl p).tmp.local_.isSome = true) ∧
      SameBut (.margin :: .mrg .a :: .mrg .b :: .cus p :: .tmp p :: .free :: (completing p ++ latching p)) s t)

/-! ## Tamper and faults (12, 13) -/

/-- Every part of plate `p`, and what is under way to it. -/
def plateParts (p : Plate) : List Part :=
  [.pow p, .sl p, .vlt p, .rng p, .pr p, .cus p, .mrg p, .tmp p, .flt p, .mgt p, .nvm p, .gut p]

/-- Between `s` and `t` plate `p` entered reset: no job, cache line, session or fault bit is left, and no instance but the one
that drives the chase (R279); its fuses, its arming and its KNOCKOUT line stay; and the other plate keeps everything but its
view of the Margin's ticks (R235, R244, R291, R308). -/
def PlateReset (s t : State) (p : Plate) : Prop :=
  (t.pl p).pow.phase = .reset ∧ (t.pl p).sl.jobs = [] ∧ (t.pl p).vlt.cache = [] ∧
  (t.pl p).rng = { inst := (s.pl p).rng.inst.filter fun e => e.1 == chaseInst } ∧
  (t.pl p).cus.sessions = [] ∧ (t.pl p).flt.status = 0 ∧ (t.pl p).mgt.queue = [] ∧ t.gut p = [] ∧
  (t.pl p).cus.idf = (s.pl p).cus.idf ∧ (t.pl p).cus.rtf = (s.pl p).cus.rtf ∧ (t.pl p).tmp.armed = (s.pl p).tmp.armed ∧
  (t.pl p).tmp.ko = (s.pl p).tmp.ko ∧ (t.pl p).pr.token = (s.pl p).pr.token ∧ (t.pl p).vlt.epoch = (s.pl p).vlt.epoch

/-- What a plate reset may touch. -/
def resetting (p : Plate) : List Part := .free :: .out :: .mrg p.peer :: .pr p.peer :: plateParts p

/-- Sources (R300 to R303): an asserting source sets its bit and no other, and in a word that was zero starts the grace of its
class; a class T source that is armed is also the cause of the plate's line; a lane that asserts LANE is withdrawn and its jobs
restart, and it returns when the reset that an expiry began has ended within 1 ms and its self-test passes; an uncorrectable
PCIe error logs the header of its request. A plate in reset collects nothing, but a tamper source is a cause of its line then
too (R291); a lane that is out already holds the pin of LANE when it asserts it. -/
def Obligations.FaultSources : Prop :=
  (∀ (p : Plate) (k : Nat) (u : UnitRef) (s : State), s.up p = true → (3 ≤ k ∧ k ≤ 16) ∨ (24 ≤ k ∧ k ≤ 30 ∧ k ≠ 28) →
    ∃ t, exec (.faultSourceAssert p k u true) s = .next t ∧ Latched s t p k ∧ SameBut (.free :: latching p) s t ∧
      (k = 16 → (t.pl p).pow.cfg.header = some ((s.pl p).pow.cfg.header.getD (s.unknown 16))) ∧
      ((s.pl p).flt.status = 0 → (s.pl p).flt.react = .none →
        (t.pl p).flt.graceAt = some (s.clock + (if 24 ≤ k then 200 else (s.pl p).flt.graceMs * 1000)) ∧
        (t.pl p).flt.first = some ((s.pl p).flt.first.getD k))) ∧
  (∀ (p : Plate) (k : Nat) (u : UnitRef) (s : State), s.up p = true → (32 ≤ k ∧ k ≤ 37) ∨ k = 40 ∨ k = 41 →
    s.armedFor p k = true →
    ∃ t, exec (.faultSourceAssert p k u true) s = .next t ∧ Latched s t p k ∧
      (t.pl p).tmp.local_ = some ((s.pl p).tmp.local_.getD { code := causeCode k, by_ := p.num, index := 0 }) ∧
      (t.pl p).flt.graceAt = (if hasSrc (s.pl p).flt.status k then (s.pl p).flt.graceAt else none) ∧
      SameBut (.tmp p :: latching p) s t) ∧
  (∀ (p : Plate) (n : Nat) (s : State), s.up p = true → s.isWithdrawn p (.lane n) = false →
    ∃ t, exec (.faultSourceAssert p 0 (.lane n) true) s = .next t ∧ Latched s t p 0 ∧
      (t.pl p).sl.lanes = (s.pl p).sl.lanes &&& ~~~ srcBit n ∧ (t.pl p).flt.units = (s.pl p).flt.units ||| srcBit n ∧
      (t.pl p).sl.jobs = (s.pl p).sl.jobs.map (fun j => if j.runsOn (.lane n) then restartJob j else j) ∧
      SameBut (.sl p :: latching p) s t) ∧
  (∀ (p : Plate) (n : Nat) (s : State), s.up p = true → s.isWithdrawn p (.lane n) = true →
    UnitRef.lane n ∈ (s.pl p).flt.resetting → s.clock ≤ (s.pl p).flt.resetAt + 1000 →
    (∀ j ∈ (s.pl p).sl.jobs, j.runsOn (.lane n) = true → j.critical = false) →
    ∃ t, exec (.unitResetDone p (.lane n) true) s = .next t ∧ (t.pl p).sl.lanes = (s.pl p).sl.lanes ||| srcBit n ∧
      (t.pl p).flt.units = (s.pl p).flt.units &&& ~~~ srcBit n ∧ (t.pl p).flt.status = (s.pl p).flt.status ∧
      UnitRef.lane n ∉ (t.pl p).flt.resetting ∧ (t.pl p).sl.jobs = (s.pl p).sl.jobs ∧ SameBut [.sl p, .flt p] s t) ∧
  (∀ (p : Plate) (u : UnitRef) (pass : Bool) (s : State), s.up p = true → u ∈ (s.pl p).flt.resetting →
    pass = false ∨ (s.pl p).flt.resetAt + 1000 < s.clock →
    exec (.unitResetDone p u pass) s =
      .next (s.updFlt p fun f => { f with resetting := f.resetting.filter (· != u) })) ∧
  (∀ (p : Plate) (n : Nat) (s : State), s.up p = true → s.isWithdrawn p (.lane n) = true →
    ∃ t, exec (.faultSourceAssert p 0 (.lane n) true) s = .next t ∧ Latched s t p 0 ∧ hasSrc (t.pl p).flt.pins 0 = true ∧
      (t.pl p).flt.units = (s.pl p).flt.units ∧ SameBut (latching p) s t) ∧
  (∀ (p : Plate) (k : Nat) (u : UnitRef) (s : State), (s.pl p).pow.phase = .reset → (32 ≤ k ∧ k ≤ 37) ∨ k = 40 ∨ k = 41 →
    s.armedFor p k = true →
    exec (.faultSourceAssert p k u true) s = .next (s.updTmp p fun t =>
      { t with local_ := some (t.local_.getD { code := causeCode k, by_ := p.num, index := 0 }) })) ∧
  (∀ (p : Plate) (k : Nat) (u : UnitRef) (on : Bool) (s : State), s.up p = false →
    isClassT k = false ∨ k = 38 ∨ k = 39 ∨ on = false → exec (.faultSourceAssert p k u on) s = .next s)

/-- FAULT_CLEAR clears exactly the class S bits written as 1 whose source is not asserting, and stops the timer when the word
becomes zero (R305); where an expiry is due, it takes effect after the expiry (R304). FAULT_FORCE takes the bits that may be forced and latches the sources that go from 0 to 1; outside drill
mode no class T bit is accepted (R306). Drill mode (R298): the secure world enters and leaves it, it ends after 60 s, and
with it every class T force bit and every alarm marked as a drill. The normal world's accesses do nothing. -/
def Obligations.FaultWordAndDrill : Prop :=
  (∀ (p : Plate) (v : DWord) (s : State), s.up p = true → ((s.pl p).flt.graceAt.all fun t0 => decide (s.clock < t0)) = true →
    ∃ t, exec (.faultClear p v) s = .next t ∧ SameBut [.flt p, .pow p] s t ∧
      (∀ k < 64, hasSrc (t.pl p).flt.status k =
        (hasSrc (s.pl p).flt.status k && !(isClassS k && hasSrc v k && !(s.pl p).flt.asserting k))) ∧
      ((t.pl p).flt.status = 0 → (t.pl p).flt.graceAt = none ∧ (t.pl p).flt.first = none) ∧
      ((t.pl p).flt.status ≠ 0 → (t.pl p).flt.graceAt = (s.pl p).flt.graceAt ∧ (t.pl p).flt.first = (s.pl p).flt.first) ∧
      (t.pl p).flt.pins = (s.pl p).flt.pins ∧ (t.pl p).flt.force = (s.pl p).flt.force) ∧
  (∀ (p : Plate) (v : DWord) (s u : State), s.up p = true → exec (.graceExpire p) s = .next u →
    ∃ t, exec (.faultClear p v) s = .next t ∧
      (∀ k < 64, hasSrc (t.pl p).flt.status k =
        (hasSrc (u.pl p).flt.status k && !(isClassS k && hasSrc v k && !(u.pl p).flt.asserting k)))) ∧
  (∀ (p : Plate) (v : DWord) (s : State), s.up p = true → (s.pl p).tmp.drill = false →
    ∃ t, exec (.faultForce p v) s = .next t ∧ SameBut (latching p) s t ∧
      (t.pl p).flt.force = v &&& (maskS ||| maskC) ∧
      (∀ k < 64, hasSrc (t.pl p).flt.status k =
        (hasSrc (s.pl p).flt.status k || (hasSrc v k && (isClassS k || isClassC k) && !hasSrc (s.pl p).flt.force k)))) ∧
  (∀ (p : Plate) (v : DWord) (s : State), s.up p = false →
    exec (.faultClear p v) s = .next s ∧ exec (.faultForce p v) s = .next s) ∧
  (∀ (p : Plate) (s : State), s.up p = true → (s.pl p).tmp.drill = false →
    ∃ t, exec (.drillEnter p .secure) s = .next t ∧
      (t.pl p).tmp = { (s.pl p).tmp with drill := true, hit := false, drillSrc := 0, drillLat := 0, drillAt := s.clock } ∧
      SameBut [.tmp p, .nvm p] s t) ∧
  (∀ (p : Plate) (s : State), s.up p = true → (s.pl p).tmp.drill = true →
    ∃ t, exec (.drillExit p .secure) s = .next t ∧
      (t.pl p).tmp = { (s.pl p).tmp with drill := false, alarms := (s.pl p).tmp.alarms.filter fun a => !a.2 } ∧
      (t.pl p).flt = { (s.pl p).flt with force := (s.pl p).flt.force &&& ~~~ maskT } ∧ SameBut [.tmp p, .flt p, .nvm p] s t ∧
      (s.past (s.pl p).tmp.drillAt 60000000 = true → exec (.drillTimeout p) s = .next t)) ∧
  (∀ (p : Plate) (s : State), exec (.drillEnter p .normal) s = .next s ∧ exec (.drillExit p .normal) s = .next s)

/-- GRACE_EXPIRE (R304): without a class C bit the advisory bits clear, the marked units go into reset, GUTTER_LINK trains the sub-links that are down afresh, the others count an
escalation each, and the timer runs again while the word is not zero; a third escalation within 60,000 ms latches ESCALATED and
starts the class C grace; with a class C bit the class C reaction begins, at step 2 for a plate without the token.
ISOLATION_TIMEOUT (R308) resets the plate after 1 s, unless its peer is in reset (R235). -/
def Obligations.GraceExpiry : Prop :=
  (∀ (p : Plate) (t0 : Nat) (s : State), (s.pl p).flt.graceAt = some t0 → s.up p = true → t0 ≤ s.clock →
    (s.pl p).flt.react = .none → (s.pl p).flt.status &&& maskC = 0 →
    ∃ t, exec (.graceExpire p) s = .next t ∧ SameBut (.pr p :: latching p) s t ∧
      (hasSrc (s.pl p).flt.status 4 = true → ∀ k < 2, (s.pl p).pr.linkUp k = false → (t.pl p).pr.hbRun k = 0) ∧
      (let f := (s.pl p).flt
       let left := f.status &&& ~~~ advisoryBits
       (t.pl p).flt.sEsc = min (f.sEsc + f.counted.length) 65535 ∧
       (t.pl p).flt.resetting = f.toReset ∧ (t.pl p).flt.resetAt = s.clock ∧
       if (f.counted.any fun k => f.thirdTime s.clock k) = true then
         (t.pl p).flt.status = left ||| srcBit 30 ∧ (t.pl p).flt.graceAt = some (s.clock + 200)
       else (t.pl p).flt.status = left ∧
         (t.pl p).flt.graceAt = (if left = 0 then none else some (s.clock + f.graceMs * 1000)))) ∧
  (∀ (p : Plate) (t0 : Nat) (s : State), (s.pl p).flt.graceAt = some t0 → s.up p = true → t0 ≤ s.clock →
    (s.pl p).flt.react = .none → (s.pl p).flt.status &&& maskC ≠ 0 → (s.pl p).tmp.ko = false → (s.pl p).pr.token = false →
    ∃ t, exec (.graceExpire p) s = .next t ∧ (t.pl p).flt.react = .waitToken ∧ (t.pl p).flt.graceAt = none ∧
      (t.pl p).flt.status = (s.pl p).flt.status ∧ (t.pl p).pr.asking = true ∧
      (s.gutterUp p = true → t.gut p.peer = s.gut p.peer ++ [.askToken]) ∧
      SameBut (.pr p :: .gut p.peer :: latching p) s t) ∧
  (∀ (p : Plate) (t0 : Nat) (s : State), (s.pl p).flt.graceAt = some t0 → s.clock < t0 →
    exec (.graceExpire p) s = .next s) ∧
  (∀ (p : Plate) (s : State), (s.pl p).flt.react = .isolated → s.up p = true → s.past (s.pl p).flt.isoAt 1000000 = true →
    (s.pl p.peer).pow.phase ≠ .reset →
    ∃ t, exec (.isolationTimeout p) s = .next t ∧ PlateReset s t p ∧ SameBut (resetting p) s t)


/-- The tamper monitor (R279, R280, R285, R286, R289, R290): a segment that differs once is counted and one that differs twice
in succession is CHASE where the monitor is armed, and instance 4,101 gives the next pattern, unless it waits for a block; a condition beyond its threshold of Table 12.1 raises its
source once it has lasted its time, and a level condition holds it while it lasts; a logic alarm is appended to the page once until the reset that follows and latches LOGIC; a sample is taken
up, and a sensor without one for 1 ms is invalid. -/
def Obligations.TamperMonitor : Prop :=
  (∀ (p : Plate) (m : BitVec 256) (s : State), (s.pl p).pow.phase ≠ .off → m &&& (s.pl p).tmp.lastMism = 0 →
    (s.pl p).tmp.mismatch ≤ 65535 → (s.inst p chaseInst).live = true →
    ∃ t, exec (.chaseCompare p m) s = .next t ∧ (t.pl p).tmp.lastMism = m ∧
      (t.pl p).tmp.mismatch = min ((s.pl p).tmp.mismatch + (segments m).length) 65535 ∧
      (if s.drawWaits p chaseInst 1 = true then (t.pl p).tmp.pattern = (s.pl p).tmp.pattern ∧ (t.pl p).rng = (s.pl p).rng
       else (t.pl p).tmp.pattern = s.drawn p chaseInst 32 ∧ (t.pl p).rng = ((s.drew p chaseInst [32]).pl p).rng) ∧
      (t.pl p).tmp.local_ = (s.pl p).tmp.local_ ∧ SameBut [.tmp p, .nvm p, .rng p] s t) ∧
  (∀ (p : Plate) (m : BitVec 256) (k : Nat) (s : State), s.up p = true → (s.pl p).tmp.armed = true →
    (segments (m &&& (s.pl p).tmp.lastMism)).head? = some k →
    ∃ t, exec (.chaseCompare p m) s = .next t ∧ (t.pl p).tmp.lastMism = m ∧ Latched s t p 32 ∧
      (t.pl p).tmp.local_ = some ((s.pl p).tmp.local_.getD { code := 1, by_ := p.num, index := k }) ∧
      SameBut (.tmp p :: .rng p :: latching p) s t) ∧
  (∀ (p : Plate) (c : EnvCond) (k : Nat) (r : RailReading) (s : State), s.up p = true →
    (c, k) ∈ [(EnvCond.vsupWarn r, 11), (.vsupHigh r, 25), (.thermWarn, 12), (.thermCrit, 26)] →
    (if envBeyond c (s.pl p).tmp = true ∧ envLasted c (s.pl p).tmp s.clock = true then
       ∃ t, exec (.envThreshold p c true) s = .next t ∧ Latched s t p k ∧ hasSrc (t.pl p).flt.pins k = true ∧
         SameBut (latching p) s t
     else exec (.envThreshold p c true) s = .next s) ∧
    exec (.envThreshold p c false) s =
      .next (if envBeyond c (s.pl p).tmp = true ∨ (c = .thermCrit ∧ (s.pl p).tmp.validSensors < 4) then s
        else s.updFlt p fun f => { f with pins := f.pins &&& ~~~ srcBit k })) ∧
  (∀ (p : Plate) (r : RailReading) (s : State), s.up p = true → (s.pl p).tmp.armed = true →
    r.mv < (railLimits r.rail).2.2.2 → 2 ≤ r.us →
    ∃ t, exec (.envThreshold p (.vsupLow r) true) s = .next t ∧ Latched s t p 33 ∧
      (t.pl p).tmp.local_ = some ((s.pl p).tmp.local_.getD { code := 3, by_ := p.num, index := r.rail }) ∧
      SameBut (.tmp p :: latching p) s t) ∧
  (∀ (p : Plate) (src : AlarmSrc) (s : State), s.up p = true → (s.pl p).tmp.alarmOn = false →
    ∃ t, exec (.logicAlarm p src) s = .next t ∧ (t.pl p).tmp.alarmOn = true ∧
      (t.pl p).tmp.alarms = (s.pl p).tmp.alarms ++ [(s.optime p, false)] ∧
      (t.pl p).tmp.alarmNew = min ((s.pl p).tmp.alarmNew + 1) 255 ∧ hasSrc (t.pl p).flt.status 24 = true ∧
      hasSrc (t.pl p).flt.status 37 = (hasSrc (s.pl p).flt.status 37 || decide (3 ≤ t.alarmWindow p false)) ∧
      SameBut (.tmp p :: latching p) s t) ∧
  (∀ (p : Plate) (src : AlarmSrc) (s : State), (s.pl p).tmp.alarmOn = true → exec (.logicAlarm p src) s = .next s) ∧
  (∀ (p : Plate) (k : Nat) (v : Int) (s : State), s.up p = true → ((s.pl p).tmp.sensors.get {} k).valid = true →
    (let others := sensorTemps (s.pl p).tmp.sensors (some k)
     ((s.pl p).tmp.sensors.get {} k).fails (some v) others (median others (Config.freeNat (s.free + 1))) s.clock = false →
     ∃ t, exec (.sensorSample p k (some v)) s = .next t ∧
       (t.pl p).tmp.sensors.get {} k = { last := v, atUs := s.clock, seen := true, valid := true } ∧
       SameBut [.tmp p, .free] s t)) ∧
  (∀ (p : Plate) (k : Nat) (s : State), s.up p = true → ((s.pl p).tmp.sensors.get {} k).valid = true →
    ((s.pl p).tmp.sensors.get {} k).atUs + 1000 ≤ s.clock → (s.pl p).pr.leftReset + 1000 ≤ s.clock →
    (s.pl p).pow.resetAt + 1000 ≤ s.clock →
    ∃ t, exec (.sensorSample p k none) s = .next t ∧ ((t.pl p).tmp.sensors.get {} k).valid = false ∧
      hasSrc (t.pl p).flt.status 13 = true ∧
      ((t.pl p).tmp.validSensors < 4 → hasSrc (t.pl p).flt.status 26 = true) ∧ SameBut (.tmp p :: .free :: latching p) s t)

/-- Knockout (R291 to R297, R376): the line asserts for a raised source, its cause is recorded and sent to the peer, root, keys,
caches, window contents, instances, sessions, jobs and the imposition table of the plate are gone in one step, and from
OPERATIONAL and DEBUG the lifecycle is KNOCKED_OUT. A line already asserted, or not asserted, changes nothing. The peer's cause
is kept once. -/
def Obligations.KnockoutDestroysKeys : Prop :=
  (∀ (p : Plate) (c : Cause) (scans : List RingScan) (s : State), (s.pl p).pow.phase ≠ .off → (s.pl p).tmp.ko = false →
    (s.pl p).tmp.local_ = some c →
    ∃ t, exec (.knockoutLineAssert p .source scans) s = .next t ∧ (t.pl p).tmp.ko = true ∧ (t.pl p).tmp.koAt = s.clock ∧
      (t.pl p).tmp.cause = c ∧ (t.pl p).tmp.helper = none ∧ (t.pl p).vlt.root = none ∧ (t.pl p).vlt.keys = false ∧
      (t.pl p).vlt.mounted = false ∧ (t.pl p).vlt.cache = [] ∧ (t.pl p).vlt.changes = [] ∧ (t.pl p).rng.inst = [] ∧
      (t.pl p).rng.pool = [] ∧ (t.pl p).sl.winData = [] ∧ (t.pl p).mgt.l2 = [] ∧ (t.pl p).mgt.l1 = [] ∧
      (t.pl p).mgt.sram = [] ∧ (t.pl p).mgt.lpddr = [] ∧ (t.pl p).sl.impo = [] ∧ (t.pl p).sl.jobs = [] ∧ (t.pl p).cus.sessions = [] ∧
      (t.pl p).flt.graceAt = none ∧ s.out <+: t.out ∧
      ((s.pl p).nvm.groups = [] → s.lifecycle p = 0x3C ∨ s.lifecycle p = 0x5A → (s.pl p).cus.retire = false →
        t.lifecycle p = 0x55) ∧
      ((s.pl p).cus.retire = true → (t.pl p).cus.rtf = 0x66) ∧
      (s.gutterUp p = true → GMsg.cause c.code c.by_ c.index ∈ t.gut p.peer) ∧
      SameBut ([.free, .out, .margin, .mrg p.peer, .gut p.peer] ++ plateParts p) s t) ∧
  (∀ (p : Plate) (by_ : KoTrigger) (scans : List RingScan) (s : State), (s.pl p).tmp.ko = true ∨ s.koAsserts p by_ = false →
    exec (.knockoutLineAssert p by_ scans) s = .next s) ∧
  (∀ (p : Plate) (code by_ index : Nat) (l : List GMsg) (s : State), s.gut p = .cause code by_ index :: l →
    (s.pl p).tmp.ko = false →
    exec (.knockoutCauseRecv p) s = .next ((s.setGut p l).updTmp p fun t =>
      { t with peerCause := some (t.peerCause.getD { code := code, by_ := by_, index := index }) }))

/-! ## Management (14; 09 R234) -/

/-- What the end of a secure world's work may touch: the cluster, the sessions and waits of admin commands, their jobs, and the changes
they began, whose mirror writes and groups are discarded with them (R323). -/
def stalling (p : Plate) : List Part := .mgt p :: .cus p :: .nvm p :: .gut p.peer :: completing p

/-- Core `c` stands at the entry of image `i`: in S-mode, its number in a0, the pc at the load address plus the entry offset
(R327; log 153). -/
def AtEntry (t : State) (p : Plate) (i : Image) (c : Nat) : Prop :=
  let h := (t.pl p).mgt.hart c
  h.prv = .s ∧ h.get 10 = BitVec.ofNat 64 c ∧ h.pc = BitVec.ofNat 64 (leAt i.whole 0x10 8 + leAt i.whole 0x18 8)

/-- Liveness of the worlds (R315, R322 to R324, R234): the signal interrupts the other world; ALIVE writes run a world and feed
the cluster's watchdog; a stalled secure world empties the admin queue and ends every call; a restart loads the first valid
image, places its code and starts the world's cores at its entry, or leaves the world without one; after 2 s that are not paused the watchdog resets the cluster, the peer's cluster doing
it while the gutter is up and the sequencer otherwise, and the sequencer asks for the reset token 5 s later. -/
def Obligations.WorldLiveness : Prop :=
  (∀ (p : Plate) (v : Word) (s : State), s.up p = true → v.getLsbD 0 = true →
    ((s.pl p).mgt.runs .secure = true →
      exec (.worldSignal p .secure v) s = .next (s.updMgt p fun m => { m with intN := m.intN ++ [64] })) ∧
    ((s.pl p).mgt.runs .normal = true →
      exec (.worldSignal p .normal v) s = .next (s.updMgt p fun m => { m with intS := m.intS ++ [64] }))) ∧
  (∀ (p : Plate) (s : State), s.up p = true → (s.pl p).mgt.sec ≠ .noImage →
    ∃ t, exec (.secAliveWrite p .secure) s = .next t ∧
      (t.pl p).mgt = { (s.pl p).mgt with sec := .running, secAt := s.clock,
                                         secPause := (s.pl p).mgt.secPause.map fun _ => s.clock } ∧
      (t.pl p).pr = { (s.pl p).pr with
        seqSt := if (s.pl p).pr.seqSt = .wait ∨ (s.pl p).pr.seqSt = .clusterReset then .idle else (s.pl p).pr.seqSt } ∧
      SameBut [.mgt p, .pr p] s t) ∧
  (∀ (p : Plate) (s : State), s.up p = true → (s.pl p).mgt.nrm ≠ .noImage →
    exec (.nrmAliveWrite p .normal) s = .next (s.updMgt p fun m =>
      { m with nrm := .running, nrmAt := s.clock, nrmPause := m.nrmPause.map fun _ => s.clock })) ∧
  (∀ (p : Plate) (s : State), exec (.secAliveWrite p .normal) s = .next s ∧ exec (.nrmAliveWrite p .secure) s = .next s) ∧
  (∀ (p : Plate) (s : State), s.up p = true → (s.pl p).mgt.sec = .running →
    50000 ≤ elapsed (s.pl p).mgt.secAt (s.pl p).mgt.secPause s.clock →
    ∃ t, exec (.secStallTimeout p) s = .next t ∧ (t.pl p).mgt.sec = .stalled ∧ (t.pl p).mgt.queue = [] ∧
      (t.pl p).mgt.calls = [] ∧ (∀ i ∈ (s.pl p).mgt.queue, t.job? p .admin i = none) ∧ s.out <+: t.out ∧
      SameBut (stalling p) s t) ∧
  (∀ (p : Plate) (s : State), s.up p = true → (s.pl p).mgt.sec ≠ .noImage →
    1000000 ≤ elapsed (s.pl p).mgt.secAt (s.pl p).mgt.secPause s.clock →
    ∃ t, exec (.secRestartTimeout p) s = .next t ∧ (t.pl p).cus.sessions = [] ∧ (t.pl p).mgt.entry = none ∧
      (t.pl p).mgt.restarts = min ((s.pl p).mgt.restarts + 1) 255 ∧
      (match s.pickImage p true (s.pl p).mgt.imgS (s.pl p).mgt.imgS2 with
       | some (i, other) => (t.pl p).mgt.sec = .restarting ∧ (t.pl p).mgt.verS = i.version ∧ (t.pl p).mgt.slotS = other ∧
           (t.pl p).mgt.measS = measure i ∧ AtEntry t p i 0
       | none => (t.pl p).mgt.sec = .noImage ∧ ((t.pl p).mgt.hart 0).prv = .m) ∧
      SameBut (.mrg p :: stalling p) s t) ∧
  (∀ (p : Plate) (s : State), s.up p = true → (s.pl p).mgt.nrm ≠ .noImage →
    1000000 ≤ elapsed (s.pl p).mgt.nrmAt (s.pl p).mgt.nrmPause s.clock →
    ∃ t, exec (.nrmRestartTimeout p) s = .next t ∧ (t.pl p).mgt.calls = [] ∧ (t.pl p).mgt.intN = [] ∧
      (match s.pickImage p false (s.pl p).mgt.imgN (s.pl p).mgt.imgN2 with
       | some (i, other) => (t.pl p).mgt.nrm = .restarting ∧ (t.pl p).mgt.verN = i.version ∧ (t.pl p).mgt.slotN = other ∧
           (t.pl p).mgt.own = (s.pl p).mgt.own ∧ ∀ c, c = 1 ∨ c = 2 ∨ c = 3 → AtEntry t p i c
       | none => (t.pl p).mgt.nrm = .noImage ∧ (t.pl p).mgt.own = 0x3FFFF) ∧ SameBut [.mgt p, .mrg p] s t) ∧
  (∀ (p : Plate) (s : State), s.up p = true → (s.pl p).pr.seqSt = .idle →
    (s.pl p).pr.wdPause = none → s.past (s.pl p).pr.wdFed 2000000 = true →
    ∃ t, exec (.clusterWatchdogExpire p) s = .next t ∧ Latched s t p 15 ∧
      (if s.gutterUp p = true ∧ s.up p.peer = true then
         (t.pl p).pr.seqSt = .wait ∧ (t.pl p).pr.peerRecov = min ((s.pl p).pr.peerRecov + 1) 255
       else (t.pl p).pr.seqSt = .clusterReset ∧ (t.pl p).pr.peerRecov = (s.pl p).pr.peerRecov) ∧
      (t.pl p).pr.seqAt = s.clock ∧ (t.pl p).mgt.world = 1 ∧ (t.pl p).mgt.halted = 0 ∧ (t.pl p).mgt.haltedM = 0 ∧
      (t.pl p).mgt.l2 = [] ∧ (t.pl p).mgt.calls = [] ∧ (t.pl p).mgt.move = none ∧ (t.pl p).cus.sessions = [] ∧
      (t.pl p).mgt.l1 = [] ∧ (t.pl p).mgt.saved = [] ∧
      SameBut ([.pr p, .mrg p] ++ latching p ++ stalling p) s t) ∧
  (∀ (p : Plate) (s : State), s.up p = true → (s.pl p).pr.seqSt = .wait ∨ (s.pl p).pr.seqSt = .clusterReset →
    s.past (s.pl p).pr.seqAt 5000000 = true → (s.pl p).pr.token = false →
    ∃ t, exec (.sequencerWaitExpire p) s = .next t ∧ (t.pl p).pr.seqSt = .plateReset ∧ (t.pl p).pr.asking = true ∧
      (s.gutterUp p = true → t.gut p.peer = s.gut p.peer ++ [.askToken]) ∧ SameBut [.pr p, .gut p.peer] s t) ∧
  (∀ (p : Plate) (s : State), s.up p = true → (s.pl p).pr.seqSt = .wait ∨ (s.pl p).pr.seqSt = .clusterReset →
    s.past (s.pl p).pr.seqAt 5000000 = false →
    exec (.sequencerWaitExpire p) s = .next (s.updPr p fun r => { r with seqSt := .wait }))

/-- Between `s` and `t` the secure call of core `c` ended: the core is in the normal world again, with the registers it had there and
the answer, and with empty L1 caches (R315). -/
def CallEnded (s t : State) (p : Plate) (c : Nat) (e : Int) (l : List DWord) : Prop :=
  (t.pl p).mgt.world = (s.pl p).mgt.world &&& ~~~ BitVec.ofNat 4 (2 ^ c) ∧
  (t.pl p).mgt.calls = (s.pl p).mgt.calls.filter (fun x => x.core != c) ∧
  (t.pl p).mgt.replies = (s.pl p).mgt.replies ++ [(c, e, l)] ∧ (t.pl p).mgt.l2 = (s.pl p).mgt.l2 ∧
  ((s.pl p).mgt.worldOf c = .secure →
    (t.pl p).mgt.hart c = ((s.pl p).mgt.saved.get {} (2 * c)).answered e l ∧
    (t.pl p).mgt.saved.get {} (2 * c + 1) = { (s.pl p).mgt.hart c with resv := none }) ∧
  (t.pl p).mgt.l1 = (s.pl p).mgt.l1.filter (fun x => x.1 / 2 != c) ∧ SameBut [.mgt p] s t

/-- Core `c`'s access at `va` is not translated: it is in M-mode, or satp's mode is not Sv39; and it is aligned, or a fetch. -/
def Plain (s : State) (p : Plate) (c : Nat) (k : RvUse) (va : DWord) (n : Nat) : Prop :=
  (((s.pl p).mgt.hart c).prv = .m ∨ (((s.pl p).mgt.hart c).csrAt 0x180).toNat / 2 ^ 60 ≠ 8) ∧ (k = .fetch ∨ va.toNat % n = 0)

/-- The address is of the management SRAM or the LPDDR stack. -/
def IsMemory (a : Nat) : Prop := (0x10000000 ≤ a ∧ a < 0x11000000) ∨ (0x100000000 ≤ a ∧ a < 0x200000000)

/-- Whether Table 14.1 and the rules of chapter 14 let core `c` make the access. -/
def Admitted (s : State) (p : Plate) (c : Nat) (k : RvUse) (a : Nat) : Bool :=
  let m := (s.pl p).mgt
  m.admits (m.worldOf c) ((m.hart c).prv == .m) (k == .fetch) (k == .store) a

/-- Monitor calls (R314 to R320): what each does, which ECALL of a running core asks for it, the error that answers a call of the wrong
world or core, and that a world without the right changes nothing. A CALL saves the registers of the normal world and starts the
secure one at its entry with both L1 caches of the core empty. During a watermark move a RELEASE answers busy or hands over: which
block a move uses is a free value (log 109). Accesses of a core (R312, R317, R15): one that is refused is an access fault with no
other effect, as is each of the normal world below a watermark; what is stored is read back, no other byte changes, and a line that
fails its tag is a bus error and the source MEM_TAG, never data. The debug halt and the debug module's registers (R321), shedding
(R325) and the raw page window (R337). -/
def Obligations.MonitorCalls : Prop :=
  (∀ (p : Plate) (core : Nat) (s : State), s.coreRuns p core = true →
    (let m := (s.pl p).mgt
     let secure := m.worldOf core = .secure
     exec (.info p core) s = .next (s.answer p core 0
       [if m.worldOf core = .secure then 1 else 0, BitVec.ofNat 64 core, Config.monitorVersion]) ∧
     (∀ args, secure ∨ (core ≠ 1 ∧ core ≠ 2) → exec (.call p core args) s = .next (s.answer p core (-4) [])) ∧
     (∀ args, ¬secure → core = 1 ∨ core = 2 → m.sec ≠ .running → exec (.call p core args) s = .next (s.answer p core (-5) [])) ∧
     (∀ args a, ¬secure → core = 1 ∨ core = 2 → m.sec = .running → m.entry = some a →
       ∃ t, exec (.call p core args) s = .next t ∧ (t.pl p).mgt.world = m.world ||| BitVec.ofNat 4 (2 ^ core) ∧
         (t.pl p).mgt.calls = m.calls ++ [{ core := core, since := s.clock, args := args.take 6 }] ∧
         (t.pl p).mgt.replies = m.replies ∧ (t.pl p).mgt.l2 = m.l2 ∧ (∀ x ∈ (t.pl p).mgt.l1, x.1 / 2 ≠ core) ∧
         (t.pl p).mgt.saved.get {} (2 * core) = { m.hart core with resv := none } ∧
         ((t.pl p).mgt.hart core).pc = a ∧ ((t.pl p).mgt.hart core).prv = .s ∧
         (∀ k v, (args.take 6)[k]? = some v → ((t.pl p).mgt.hart core).get (10 + k) = v) ∧ SameBut [.mgt p] s t) ∧
     (∀ args, ¬secure → core = 1 ∨ core = 2 → m.sec = .running → m.entry = none →
       exec (.call p core args) s = .next ((s.tick 1).answer p core s.openError [])) ∧
     (∀ l, (∃ c ∈ m.calls, c.core = core) →
       ∃ t, exec (.ret p core l) s = .next t ∧ CallEnded s t p core 0 (l.take 6)) ∧
     (∀ l, (∀ c ∈ m.calls, c.core ≠ core) → exec (.ret p core l) s = .next (s.answer p core (-4) [])) ∧
     (∀ a, secure → m.entry = none →
       exec (.setEntry p core a) s = .next ((s.updMgt p fun m => { m with entry := some a }).answer p core 0 [])) ∧
     (∀ a, ¬secure ∨ m.entry.isSome = true → exec (.setEntry p core a) s = .next (s.answer p core (-4) [])) ∧
     (∀ mem new, watermarkOk mem new = true → (if secure then new < m.watermark mem else m.watermark mem < new) →
       m.move = none →
       ∃ t, exec (.wmGive p core mem new) s = .next t ∧
         (t.pl p).mgt.move = some { lpddr := mem == 1, new := new, core := core, world := m.worldOf core } ∧
         ((t.pl p).mgt.hart core).prv = .m ∧ (t.pl p).mgt.sram = m.sram ∧ (t.pl p).mgt.lpddr = m.lpddr ∧
         (∀ x ∈ (t.pl p).mgt.l1, (t.pl p).mgt.moving (x.2 * Config.l2Line) = false) ∧
         (∀ k line, (t.pl p).mgt.l2.get none k = some line → (t.pl p).mgt.moving (line * Config.l2Line) = false) ∧
         SameBut [.mgt p] s t) ∧
     (∀ mem new, watermarkOk mem new = true → (if secure then new < m.watermark mem else m.watermark mem < new) →
       m.move ≠ none → exec (.wmGive p core mem new) s = .next (s.answer p core (-5) [])) ∧
     (∀ mem new, watermarkOk mem new = false ∨ ¬(if secure then new < m.watermark mem else m.watermark mem < new) →
       exec (.wmGive p core mem new) s = .next (s.answer p core (-3) [])) ∧
     (∀ b, b < 18 → m.owner b ≠ m.worldOf core → exec (.release p core b) s = .next (s.answer p core (-4) [])) ∧
     (∀ b, 18 ≤ b → exec (.release p core b) s = .next (s.answer p core (-3) [])) ∧
     (∀ b, b < 18 → m.owner b = m.worldOf core → m.move ≠ none →
       exec (.release p core b) s = .next ((s.tick 1).answer p core (-5) []) ∨
       ∃ t, exec (.release p core b) s = .next t ∧ (t.pl p).mgt.own = m.own ^^^ BitVec.ofNat 18 (2 ^ b) ∧
         (t.pl p).mgt.replies = m.replies ++ [(core, 0, [])] ∧ SameBut [.mgt p, .mrg p, .out, .free] s t) ∧
     (∀ b, b < 18 → m.owner b = m.worldOf core → m.move = none →
       ∃ t, exec (.release p core b) s = .next t ∧ (t.pl p).mgt.own = m.own ^^^ BitVec.ofNat 18 (2 ^ b) ∧
         (t.pl p).mgt.replies = m.replies ++ [(core, 0, [])] ∧
         (secure → (t.pl p).mgt.intN = m.intN.filter (fun n => n != b && n != 32 + b) ++ [b]) ∧
         (¬secure → (t.pl p).mgt.intS = m.intS.filter (fun n => n != b && n != 32 + b) ++ [b]) ∧ SameBut [.mgt p, .mrg p, .out] s t) ∧
     (let h := m.hart core
      (h.get 17 ≠ 0x00574C44 ∨ 6 ≤ (h.get 16).toNat → s.monitor p core = s.answer p core (-2) []) ∧
      (h.get 17 = 0x00574C44 →
        (h.get 16 = 0 → exec (.info p core) s = .next (s.monitor p core)) ∧
        (h.get 16 = 3 → exec (.release p core (h.get 10).toNat) s = .next (s.monitor p core)) ∧
        (h.get 16 = 4 → exec (.wmGive p core (h.get 10).toNat (h.get 11).toNat) s = .next (s.monitor p core)) ∧
        (h.get 16 = 5 → exec (.setEntry p core (h.get 10)) s = .next (s.monitor p core)) ∧
        (let args := [h.get 10, h.get 11, h.get 12, h.get 13, h.get 14, h.get 15]
         (h.get 16 = 1 → exec (.call p core args) s = .next (s.monitor p core)) ∧
         (h.get 16 = 2 → exec (.ret p core args) s = .next (s.monitor p core))))))) ∧
  (∀ (p : Plate) (core n : Nat) (s t : State), s.coreRuns p core = true → (s.pl p).mgt.interruptDue core = none →
    (s.pl p).mgt.trigger core .fetch ((s.pl p).mgt.hart core).pc = none → s.fetchRv p core = (t, .ok (.ecall, n)) →
    t.coreRuns p core = true → s.runCore p core = t.monitor p core) ∧
  (∀ (p : Plate) (c : Nat) (k : RvUse) (va d : DWord) (n : Nat) (s : State), Plain s p c k va n → Admitted s p c k va.toNat = false →
    s.coreAccess p c k va n d = (s, .trap k.accessFault va)) ∧
  (∀ (m : Mgmt) (mmode fetch write : Bool) (a : Nat), IsMemory a → m.move = none →
    m.admits .secure mmode fetch write a = true ∧
    (m.admits .normal mmode fetch write a = true ↔
      (if a < 0x100000000 then 0x10000000 + 65536 * m.wmSram else 0x100000000 + 65536 * m.wmLpddr) ≤ a)) ∧
  (∀ (p : Plate) (c : Nat) (va d : DWord) (n : Nat) (s : State), Plain s p c .store va n → Admitted s p c .store va.toNat = true →
    IsMemory va.toNat → n = 1 ∨ n = 2 ∨ n = 4 ∨ n = 8 →
    (0x100000000 ≤ va.toNat → (s.pl p).mgt.readLine ((va.toNat - 0x100000000) / 64) ≠ none) →
    ∃ t, s.coreAccess p c .store va n d = (t, .value 0) ∧
      (t.coreAccess p c .load va n 0).2 = .value (BitVec.ofNat 64 (d.toNat % 2 ^ (8 * n))) ∧
      (∀ x, IsMemory x → x < va.toNat ∨ va.toNat + n ≤ x → (t.pl p).mgt.readMem x 1 = (s.pl p).mgt.readMem x 1) ∧
      (t.pl p).mgt.hart c = (s.pl p).mgt.hart c ∧ SameBut [.mgt p, .free] s t) ∧
  (∀ (p : Plate) (c : Nat) (k : RvUse) (va d : DWord) (n : Nat) (s : State), Plain s p c k va n → Admitted s p c k va.toNat = true →
    s.up p = true → 0x100000000 ≤ va.toNat → va.toNat < 0x200000000 →
    (s.pl p).mgt.readLine ((va.toNat - 0x100000000) / 64) = none →
    ∃ t, s.coreAccess p c k va n d = (t, .trap k.accessFault va) ∧ Latched s t p 3 ∧ (t.pl p).mgt.lpddr = (s.pl p).mgt.lpddr ∧
      (t.pl p).mgt.harts = (s.pl p).mgt.harts ∧ SameBut (.mgt p :: .free :: latching p) s t) ∧
  (∀ (p : Plate) (core : Nat) (s : State), s.up p = true →
    (∃ c ∈ (s.pl p).mgt.calls, c.core = core ∧ s.past c.since 50000 = true) →
    ∃ t, exec (.callTimeout p core) s = .next t ∧ CallEnded s t p core (-5) []) ∧
  (∀ (p : Plate) (v : WmMove) (s : State), (s.pl p).mgt.move = some v → s.up p = true →
    ∃ t, exec (.wmScrubDone p) s = .next t ∧
      (t.pl p).mgt.wmLpddr = (if v.lpddr then v.new else (s.pl p).mgt.wmLpddr) ∧
      (t.pl p).mgt.wmSram = (if v.lpddr then (s.pl p).mgt.wmSram else v.new) ∧ (t.pl p).mgt.move = none ∧
      (t.pl p).mgt.replies = (s.pl p).mgt.replies ++ [(v.core, 0, [])] ∧
      (∀ k, (t.pl p).mgt.sram.get 0 k =
        if (s.pl p).mgt.moving (0x10000000 + k) = true then 0 else (s.pl p).mgt.sram.get 0 k) ∧
      (∀ k, (t.pl p).mgt.lpddr.get none k =
        if (s.pl p).mgt.moving (0x100000000 + 64 * k) = true then none else (s.pl p).mgt.lpddr.get none k) ∧
      ((s.pl p).mgt.worldOf v.core = v.world → ((s.pl p).mgt.hart v.core).prv = .m →
        (t.pl p).mgt.hart v.core = { ((s.pl p).mgt.hart v.core).answered 0 [] with prv := .s }) ∧ SameBut [.mgt p] s t) ∧
  (∀ (p : Plate) (core : Nat) (on mmode : Bool) (s : State), s.up p = true → core < 4 →
    (let m := (s.pl p).mgt
     let b := BitVec.ofNat 4 (2 ^ core)
     let inM := if on then mmode else m.haltedM.getLsbD core
     let enabled := if m.worldOf core = .secure ∨ inM = true then (s.debugEnables p).getLsbD 3 else (s.debugEnables p).getLsbD 1
     (enabled = true → ∃ t, exec (.debugHalt p core ⟨on, mmode, none⟩) s = .next t ∧
       (t.pl p).mgt.halted = (if on then m.halted ||| b else m.halted &&& ~~~ b) ∧
       (t.pl p).mgt.haltedM = (if on ∧ mmode then m.haltedM ||| b else m.haltedM &&& ~~~ b) ∧
       (t.pl p).pr.wdPause = (if (t.pl p).mgt.haltedM = 0 then none else some ((s.pl p).pr.wdPause.getD s.clock)) ∧
       (t.pl p).mgt.sec = m.sec ∧ (t.pl p).mgt.nrm = m.nrm ∧ (t.pl p).mgt.world = m.world ∧ SameBut [.mgt p, .pr p] s t) ∧
     (enabled = false → exec (.debugHalt p core ⟨on, mmode, none⟩) s = .next s) ∧
     (let reach := if m.worldOf core = .secure ∨ m.haltedM.getLsbD core = true then (s.debugEnables p).getLsbD 3
        else (s.debugEnables p).getLsbD 1
      (∀ n, 0 < n → n < 32 → reach = true → m.halted.getLsbD core = true →
        exec (.debugHalt p core ⟨on, mmode, some (.readReg (0x1000 + n))⟩) s =
          .next ((s.emit (.reply p (some ((m.hart core).get n)))).tick 1) ∧
        ∀ v, ∃ t, exec (.debugHalt p core ⟨on, mmode, some (.writeReg (0x1000 + n) v)⟩) s = .next t ∧
          ((t.pl p).mgt.hart core).get n = v ∧ (∀ k, k ≠ n → ((t.pl p).mgt.hart core).get k = (m.hart core).get k) ∧
          ((t.pl p).mgt.hart core).pc = (m.hart core).pc ∧ SameBut [.mgt p] s t) ∧
      (∀ op, (∀ n, op ≠ .counter n) → reach = false ∨ m.halted.getLsbD core = false →
        exec (.debugHalt p core ⟨on, mmode, some op⟩) s = .next s)))) ∧
  (∀ (p : Plate) (s : State), s.up p = true →
    (let m := (s.pl p).mgt
     let n := if m.deep2.any (fun t => t + 10000 ≤ s.clock) = true then 2
       else if m.deep1.any (fun t => t + 10000 ≤ s.clock) = true then max 1 m.shed
       else if m.shallow.any (fun t => t + 100000 ≤ s.clock) = true then m.shed - 1
       else m.shed
     ∃ t, exec (.shedLevelChange p) s = .next t ∧ (t.pl p).mgt.shed = n ∧ (t.pl p).nvm.coalesce = (n == 2) ∧
       (t.pl p).mgt.queue = m.queue ∧ SameBut [.mgt p, .nvm p] s t)) ∧
  (∀ (p : Plate) (page : Word) (s : State), s.up p = true →
    exec (.nvmRawSelect p .secure page) s = .next (s.updNvm p fun n => { n with raw := page }) ∧
    exec (.nvmRawSelect p .normal page) s = .next s)

/-! ## Firmware, migration, log and NVM (07, 09, 14, 15) -/

/-- Plate `r.plate` began a makeready of its peer: it holds the images that step 4 will write, and every ACTIVE slice that the peer
homes begins its hand-over (Table 9.10 steps 2 and 3). -/
def MakereadyBegun (s t : State) (r : JobRef) (swap : Bool) (i n : Image) (bad : Nat) : Prop :=
  let x := r.plate
  let homed := ((s.pl x).sl.impo.filter fun e => e.2.st != .free && e.2.home == x.peer).map Prod.fst
  (t.pl x).pr.makeready = some { step := 3, index := r.index, swap := swap, slices := homed, since := s.clock,
                                 imgS := i, imgN := n, bad := bad } ∧
  (let moves := if s.wear x.peer = 3 then []
     else homed.eraseDups.filter fun k => (s.impo x.peer k).st == .active && (s.impo x.peer k).home == x.peer
   (t.pl x.peer).vlt.changes.map Change.after = (s.pl x.peer).vlt.changes.map Change.after ++ moves.map After.moving) ∧
  (t.jobAt r).map Job.stage = some .running

/-- What the begin of a makeready may touch beside the command's plate: the other plate's changes. -/
def makereadyParts (p : Plate) : List Part :=
  [.mgt p, .pr p, .nvm p, .free, .vlt p.peer, .nvm p.peer, .gut p, .gut p.peer] ++ completing p

/-- FW_MAKEREADY and FW_SWAP (R228): RANGE where no makeready may run; the bundle's own check; and the start of the sequence
while the peer still homes slices. 5 s after the peer was reset and did not come back on the new images its previous images are
active again, and where it runs it asks for the reset token to boot them (R229); plates that run different images for 24 h say so
(R230). -/
def Obligations.FirmwareMakeready : Prop :=
  (∀ (r : JobRef) (j : Job) (b : Bytes) (bad : Nat) (s : State), Taken s r 0x88 j → s.impoBusy = false →
    s.homesAll r.plate = false → s.wear r.plate ≠ 3 →
    ∃ t, exec (.fwMakeready r ⟨.ok b, bad⟩) s = .next t ∧
      (let x := r.plate
       let w := fit j.desc.inLen.toNat b
       AfterQuorum s t r j w
         (if s.makereadyFree x = false ∨ j.desc.fl 2 1 ≠ x.peer.num then Completes s t x j { status := .range }
          else match s.checkBundle x w with
            | .error st => Completes s t x j { status := st }
            | .ok (i, n) => MakereadyBegun s t r false i n bad)) ∧
      SameBut (.cus r.plate :: makereadyParts r.plate) s t) ∧
  (∀ (r : JobRef) (j : Job) (bad : Nat) (s : State), Taken s r 0x89 j → s.impoBusy = false → s.homesAll r.plate = false →
    s.wear r.plate ≠ 3 →
    ∃ t, exec (.fwSwap ⟨r, bad⟩) s = .next t ∧
      (if s.makereadyFree r.plate = false then Completes s t r.plate j { status := .range }
       else MakereadyBegun s t r true (s.pl r.plate).mgt.imgS (s.pl r.plate).mgt.imgN bad) ∧
      SameBut (makereadyParts r.plate) s t) ∧
  (∀ (p : Plate) (k : Makeready) (s : State), (s.pl p).pr.makeready = some k → k.step = 5 → k.fell = false →
    s.past k.since 5000000 = true → s.up p.peer = false →
    exec (.makereadyBootTimeout p) s = .next ((s.updPr p fun r => { r with makeready := some { k with fell := true } }).updMgt
      p.peer fun m => { m with imgS := m.imgS2, imgN := m.imgN2, imgS2 := m.imgS, imgN2 := m.imgN })) ∧
  (∀ (p : Plate) (k : Makeready) (s : State), (s.pl p).pr.makeready = some k → k.step = 5 → k.fell = false →
    s.past k.since 5000000 = true → s.up p.peer = true →
    (s.pl p.peer).pr.mode ≠ .resync ∨ (s.pl p.peer).mgt.slotS = true ∨ (s.pl p.peer).mgt.slotN = true →
    ∃ t, exec (.makereadyBootTimeout p) s = .next t ∧
      (t.pl p.peer).mgt.imgS = (s.pl p.peer).mgt.imgS2 ∧ (t.pl p.peer).mgt.imgS2 = (s.pl p.peer).mgt.imgS ∧
      (t.pl p.peer).mgt.imgN = (s.pl p.peer).mgt.imgN2 ∧ (t.pl p.peer).mgt.imgN2 = (s.pl p.peer).mgt.imgN ∧
      (if (s.pl p.peer).pr.token = false then
         (t.pl p).pr.makeready = some { k with fell := true, step := 4 } ∧ (t.pl p.peer).pr.asking = true ∧
         (s.gutterUp p.peer = true → t.gut p = s.gut p ++ [.askToken])
       else if (s.pl p).pow.phase ≠ .reset ∧ (s.pl p.peer).pr.seqSt ≠ .plateReset then
         (t.pl p).pr.makeready = some { k with fell := true, step := 5, since := s.clock } ∧ PlateReset s t p.peer
       else True) ∧
      SameBut (.pr p :: .gut p :: resetting p.peer) s t) ∧
  (∀ (p : Plate) (t0 : Nat) (s : State), s.up p = true → (s.pl p).pr.mixed = false → s.sameImages = false →
    (s.pl p).pr.mixedFrom = some t0 → s.past t0 86400000000 = true →
    ∃ t, exec (.mixedFwTimeout p) s = .next t ∧
      (∀ q : Plate, (t.pl q).pr.mixed = true ∧ (s.up q = true → Latched s t q 9)) ∧
      SameBut (.pr .a :: .pr .b :: (latching .a ++ latching .b)) s t)

/-- The last chunk of a package has opened (R185, Table 7.9): a payload whose items check out is adopted with its root by one
commit, which answers the receipt; RANGE or AUTH_FAIL where an item fails. -/
def PackageAdopted (s t : State) (r : JobRef) (j : Job) (a : Apply) (payload : Bytes) : Prop :=
  let p := r.plate
  let drk := cut payload 0 32
  let salt := cut payload 32 32
  if j.desc.outCap.toNat < receiptLen then Completes s t p j { status := .outSmall, outLen := receiptLen }
  else if payload.length < 64 then Completes s t p j { status := .range }
  else match unpackAll (vikOf drk salt) payload.length {} (payload.drop 64) with
    | .error e => Completes s t p j { status := e }
    | .ok u => match parseSlots (vekOf drk salt) u.raw with
      | none => Completes s t p j { status := .authFail }
      | some slots =>
        let b := s.receipt p a.source a.chunk0 (s.pl p).vlt.migration 1
        CommitBegun s t p r.ring r.index [.package drk salt u.recs slots u.ledger]
          { outLen := b.length, writes := [(j.desc.outAddr, b)] }

/-- MIGRATE_OUT (R183, R186): PACKAGE without a hold verifies the colophon, and with every slice FREE and no change under way
enters hold and forfeits its leases; in hold it writes the next chunks to the same target alone; CONFIRM erases the roots or
lets the source go on. MIGRATE_IN (R185): a chunk in order is gathered, the last one adopts the package, and ABANDON raises the
counter and answers a receipt. -/
def Obligations.Migration : Prop :=
  (∀ (r : JobRef) (j : Job) (b : Bytes) (h : Hold) (s : State), Taken s r 0x8B j → j.desc.fl 2 2 = 0 → s.impoBusy = false →
    s.drawWaits r.plate vaultInst packageDraws = false → (s.pl r.plate).vlt.hold = some h →
    ∃ t, exec (.migrateOutPackage r (.ok b)) s = .next t ∧
      (let p := r.plate
       let w := fit j.desc.inLen.toNat b
       let n := (s.pl p).vlt.payload.length
       let m := chunksThatFit n (chunkCount n) (chunkCount n) h.next j.desc.outCap.toNat
       AfterQuorum s t r j w
         (match colophonIdentity w with
          | none => Completes s t p j { status := .authFail }
          | some id =>
            if h.target ≠ id then Completes s t p j { status := .range }
            else if chunkCount n ≤ h.next then Completes s t p j { status := .range }
            else if m = 0 then Completes s t p j { status := .outSmall, outLen := chunkLen n h.next }
            else
              (let l := ((List.range m).map fun k => s.chunk p h (s.pl p).vlt.payload (h.next + k) k m).flatten
               Completes s t p j { outLen := l.length, writes := [(j.desc.outAddr, l)] }) ∧
              (t.pl p).vlt.hold.map (fun x => (x.target, x.c, x.kek, x.next)) = some (h.target, h.c, h.kek, h.next + m))) ∧
      SameBut ([.cus r.plate, .mgt r.plate, .rng r.plate, .vlt r.plate.peer, .free] ++ completing r.plate) s t) ∧
  (∀ (r : JobRef) (j : Job) (b : Bytes) (s : State), Taken s r 0x8B j → j.desc.fl 2 2 = 0 → s.impoBusy = false →
    s.drawWaits r.plate vaultInst packageDraws = false →
    (s.pl r.plate).vlt.hold = none → (∀ e ∈ (s.pl r.plate).sl.impo, e.2.st = .free) →
    (∀ q ∈ s.holders r.plate, (s.pl q).vlt.changes = []) →
    ∃ t, exec (.migrateOutPackage r (.ok b)) s = .next t ∧
      (let p := r.plate
       let w := fit j.desc.inLen.toNat b
       AfterQuorum s t r j w
         (match colophonIdentity w with
          | none => Completes s t p j { status := .authFail }
          | some id =>
            if colophonFits w = false ∨ s.lifecycle p ≠ 0x3C then Completes s t p j { status := .range }
            else match s.refuses p true with
              | some st => Completes s t p j { status := st }
              | none =>
                if j.desc.outCap.toNat < chunkLen (s.pl p).vlt.payload.length 0 then
                  Completes s t p j { status := .outSmall, outLen := chunkLen (s.pl p).vlt.payload.length 0 }
                else match s.packageKey p id (leAt w (0x60 + 0x28) 8) (chunkCount (s.pl p).vlt.payload.length) with
                  | none => Completes s t p j { status := .authFail }
                  | some h => ∀ q ∈ s.holders p, (t.pl q).vlt.leases = [] ∧
                      (t.pl q).vlt.hold.map (fun x => (x.target, x.c, x.kek)) = some (h.target, h.c, h.kek))) ∧
      SameBut ([.cus r.plate, .mgt r.plate, .rng r.plate, .vlt r.plate.peer, .free] ++ completing r.plate) s t) ∧
  (∀ (r : JobRef) (j : Job) (b : Bytes) (s : State), Taken s r 0x8B j → j.desc.fl 2 2 = 1 →
    ∃ t, exec (.migrateOutConfirm r (.ok b)) s = .next t ∧
      (let p := r.plate
       let w := fit j.desc.inLen.toNat b
       AfterQuorum s t r j w
         (match (s.pl p).vlt.hold with
          | none => Completes s t p j { status := .range }
          | some h =>
            if w.length ≠ receiptLen ∨ isStatement w 0x06 73 = false then Completes s t p j { status := .range }
            else if (s.pl p).pr.mode = .partition then Completes s t p j { status := .partitioned }
            else if cut w 0x10 32 ≠ fit 32 (Config.sha3 h.target) ∨ bothSigs w h.target 73 = false then
              Completes s t p j { status := .authFail }
            else if cut w 0x60 72 ≠ (receiptBody (s.identityDigest p) h.chunk0 h.c 0).take 72 then
              Completes s t p j { status := .range }
            else if leAt w (0x60 + 72) 1 = 1 then
              Completes s t p j {} ∧ ∀ q ∈ s.holders p, (t.pl q).vlt.root = none ∧ (t.pl q).vlt.keys = false ∧
                (t.pl q).vlt.hold = none ∧ (t.pl q).vlt.cache = [] ∧ (t.pl q).cus.lcPage.map LcPage.code = some 0x55
            else if leAt w (0x60 + 72) 1 = 2 then
              Completes s t p j {} ∧ ∀ q ∈ s.holders p, (t.pl q).vlt.hold = none ∧ (t.pl q).vlt.root = (s.pl q).vlt.root
            else Completes s t p j { status := .range })) ∧
      SameBut [.cus .a, .cus .b, .nvm .a, .nvm .b, .vlt .a, .vlt .b, .pow .a, .pow .b, .tmp .a, .tmp .b, .sl .a, .sl .b,
        .rng .a, .rng .b, .mgt r.plate, .free, .out] s t) ∧
  (∀ (r : JobRef) (j : Job) (b : Bytes) (a : Apply) (s : State), Taken s r 0x8C j → j.desc.fl 2 2 = 0 → s.impoBusy = false →
    (s.pl r.plate).vlt.apply = some a → s.canDeal r.plate = true → s.refuses r.plate false = none → s.targetEmpty r.plate = true →
    ∃ t, exec (.migrateInApply r (.ok b)) s = .next t ∧
      (let p := r.plate
       let w := fit j.desc.inLen.toNat b
       let n := leAt w 8 4
       let body := cut w 0x60 n
       let i := leAt body 0 4
       isStatement w 0x05 n = true → w.length = statementLen n → chunkHeadLen i + 16 ≤ n → w.length ≤ 16777216 →
       leAt body 8 8 = (s.pl p).vlt.migration → i = a.next → i ≠ 0 → i < leAt body 4 4 → leAt body 4 4 = a.total →
       cut w 0x10 32 = a.source →
       AfterQuorum s t r j w
         (if cut body 16 32 ≠ s.identityDigest p then Completes s t p j { status := .range }
          else if bothSigs w (Config.identityOf a.source) n = false then Completes s t p j { status := .authFail }
          else match Config.gcmOpen a.kek (chunkIv i) (Config.chunkAad (body.take (chunkHeadLen i)))
              (body.drop (chunkHeadLen i)) with
            | none => Completes s t p j { status := .authFail }
            | some m =>
              (let payload := a.gathered ++ fit (n - chunkHeadLen i - 16) m
               if i + 1 < a.total then
                 Completes s t p j {} ∧ ∀ q ∈ s.holders p, (t.pl q).vlt.apply = some { a with next := i + 1, gathered := payload }
               else PackageAdopted s t r j a payload))) ∧
      SameBut (dealingParts r.plate) s t) ∧
  (∀ (r : JobRef) (j : Job) (s : State), Taken s r 0x8C j → j.desc.fl 2 2 = 1 → receiptLen ≤ j.desc.outCap.toNat →
    s.canDraw r.plate vaultInst 2 = true → s.refuses r.plate false = none →
    ∃ t, exec (.migrateInAbandon r) s = .next t ∧
      (let p := r.plate
       AfterQuorum s t r j []
         ((∀ q ∈ s.holders p, (t.pl q).vlt.migration = (s.pl p).vlt.migration + 1 ∧ (t.pl q).vlt.apply = none) ∧
          ∃ source chunk0, ((s.pl p).vlt.apply.map fun a => (a.source, a.chunk0)).getD (source, chunk0) = (source, chunk0) ∧
            (let b := s.receipt p source chunk0 (s.pl p).vlt.migration 2
             Completes s t p j { outLen := b.length, writes := [(j.desc.outAddr, b)] }))) ∧
      SameBut ([.cus r.plate, .mgt r.plate, .rng r.plate, .vlt r.plate.peer, .free] ++ completing r.plate) s t)

/-- The program of the log's next position took no more than 8 pulses, and its page has not reached its last cycle (R338). -/
def LogPageLasts (s : State) (p : Plate) (k : Nat) : Prop :=
  let n := (s.pl p).nvm
  k ≤ 8 ∧ n.logCycles.get 0 (n.logPage (n.nextPos / 2)) < 1000000

/-- The recorder (R343 to R349): a trigger with its own profile is captured and staged, a priority record apart; records are
written oldest first within the limit of a window, and one beyond it is counted; a page of the log that took more than 8 pulses, or
has reached its last cycle, is retired and replaced from the spares; LOG_MODE commits its record on both plates;
LOG_EXPORT answers a signed chunk of the records from `param` on. -/
def Obligations.RecorderAndLog : Prop :=
  (∀ (p : Plate) (profile : Nat) (trigger : BitVec 16) (detail : Word) (s : State),
    triggerProfile trigger.toNat profile = true → (s.pl p).pow.phase ≠ .off → (s.pl p).nvm.coalesce = false →
    (let r := capture s p trigger.toNat profile detail
     exec (.eventRecord p profile trigger detail) s = .next (if triggerPriority trigger.toNat then
         s.updNvm p fun n => { n with priority := n.priority ++ [r] }
       else s.updNvm p fun n => { n with staged := n.staged ++ [(r, s.clock)] }))) ∧
  (∀ (p : Plate) (profile : Nat) (trigger : BitVec 16) (detail : Word) (s : State),
    triggerProfile trigger.toNat profile = false → exec (.eventRecord p profile trigger detail) s = .next s) ∧
  (∀ (p : Plate) (k : Nat) (r : Record) (l : List Record) (s : State), (s.pl p).nvm.priority = r :: l →
    s.optime p / 1000 ≤ (s.pl p).nvm.winStart → (s.pl p).nvm.full = false → (s.pl p).nvm.stopFull = false → LogPageLasts s p k →
    exec (.recordWrite ⟨p, k⟩) s = .next (if (s.pl p).nvm.inWindow < 999 then
        s.updNvm p fun n => { n.notePulses k s.clock with
          logCycles := n.logCycles.mod 0 (n.logPage (n.nextPos / 2)) (· + 1), priority := l, log := n.log.set {} n.nextPos { r with seq := n.nextLog }, nextLog := n.nextLog + 1
          nextPos := n.after n.nextPos, inWindow := n.inWindow + 1 }
      else s.updNvm p fun n => { n with priority := l, lost := min (n.lost + 1) 65535, dropWin := n.dropWin + 1 })) ∧
  (∀ (p : Plate) (k : Nat) (r : Record) (l : List Record) (s : State), (s.pl p).nvm.priority = r :: l →
    s.optime p / 1000 ≤ (s.pl p).nvm.winStart → (s.pl p).nvm.full = false → (s.pl p).nvm.stopFull = false →
    (s.pl p).nvm.inWindow < 999 → ¬LogPageLasts s p k → (s.pl p).nvm.spares ≠ 0 →
    ∃ t, exec (.recordWrite ⟨p, k⟩) s = .next t ∧ (t.pl p).nvm.spares = (s.pl p).nvm.spares - 1 ∧
      (t.pl p).nvm.retLog = min ((s.pl p).nvm.retLog + 1) 65535 ∧
      (t.pl p).nvm.logPage ((s.pl p).nvm.nextPos / 2) = 131072 - (s.pl p).nvm.spares ∧
      (t.pl p).nvm.log = (s.pl p).nvm.log.set {} (s.pl p).nvm.nextPos { r with seq := (s.pl p).nvm.nextLog } ∧
      SameBut (.free :: .gut p.peer :: latching p) s t) ∧
  (∀ (p : Plate) (k : Nat) (r : Record) (t0 : Nat) (l : List (Record × Nat)) (s : State), (s.pl p).nvm.staged = (r, t0) :: l →
    (s.pl p).nvm.priority = [] → s.optime p / 1000 ≤ (s.pl p).nvm.winStart → (s.pl p).nvm.full = false →
    (s.pl p).nvm.stopFull = false → (s.pl p).nvm.inWindow < 990 → LogPageLasts s p k →
    (let t := s.updNvm p fun n => { n.notePulses k s.clock with
       logCycles := n.logCycles.mod 0 (n.logPage (n.nextPos / 2)) (· + 1)
       staged := l, log := n.log.set {} n.nextPos { r with seq := n.nextLog }, nextLog := n.nextLog + 1
       nextPos := n.after n.nextPos, inWindow := n.inWindow + 1 }
     ((s.pl p).nvm.coalesce = false → r.merged = 0 → exec (.recordWrite ⟨p, k⟩) s = .next t) ∧
     (s.past t0 1000000 = true → exec (.coalesceFlush ⟨p, k⟩) s = .next t) ∧
     (s.past t0 1000000 = false → exec (.coalesceFlush ⟨p, k⟩) s = .next s))) ∧
  (∀ (p : Plate) (s : State), (s.pl p).nvm.winStart < s.optime p / 1000 → (s.pl p).nvm.full = false →
    (s.pl p).nvm.stopFull = false ∨ (s.pl p).nvm.dropWin = 0 →
    exec (.logWindowEnd p) s = .next (s.updNvm p fun n =>
      { (if n.dropWin = 0 then n else n.put (overflowRecord s p)) with
        winStart := s.optime p / 1000, inWindow := 0, dropWin := 0 })) ∧
  (∀ (r : JobRef) (j : Job) (b : Bytes) (s : State), Taken s r 0x8E j →
    ∃ t, exec (.logMode r (.ok b)) s = .next t ∧ SameBut (.nvm r.plate.peer :: adminParts r.plate) s t ∧
      (let p := r.plate
       let w := fit 16 b
       let stop := leAt w 1 1 == 1
       let clear := leAt w 2 1 == 1
       AfterQuorum s t r j w
         (if s.gutterUp p = false then Completes s t p j { status := .partitioned }
          else if logModeOk w = false ∨ (clear = false ∧ (s.logKept .a stop (leAt w 4 4) = true ∨
              s.logKept .b stop (leAt w 4 4) = true)) then Completes s t p j { status := .range }
          else RefusedOrCommitted s t r j false
            [.logMode stop (if stop then (s.pl p).nvm.head else leAt w 4 4) clear] {}))) ∧
  (∀ (r : JobRef) (j : Job) (c : Bytes) (s : State), Taken s r 0x8D j →
    s.drawWaits r.plate vaultInst 2 = false →
    ∃ t, exec (.logExport r (.ok c)) s = .next t ∧ SameBut (.mgt r.plate :: .rng r.plate :: .free :: completing r.plate) s t ∧
      (let p := r.plate
       let from_ : Word := BitVec.ofNat 32 j.desc.param.toNat
       let all := (s.pl p).nvm.available from_
       let need := statementLen 32 + (if all = [] then 0 else 128)
       if j.desc.outCap.toNat < need then Completes s t p j { status := .outSmall, outLen := need }
       else
         let l := all.take (min 8192 ((j.desc.outCap.toNat - statementLen 32) / 128))
         ∃ first, (∀ x, l.head? = some x → first = x.seq) ∧
           (let challenge := if j.desc.aadLen = 0 then [] else fit 32 c
            let b := signStatement (s.seed p) (s.statementHead p 0x03 challenge (logChunkBody p (s.pl p).nvm from_ first l))
              (s.drawnAt p vaultInst [64, 32] 0) (s.drawnAt p vaultInst [64, 32] 1)
            Completes s t p j { outLen := b.length, writes := [(j.desc.outAddr, b)] })))

/-- No page that a group took has reached its last cycle when it is programmed (R338). -/
def PagesLast (s : State) (p : Plate) (g : Group) : Prop :=
  ∀ x ∈ g.taken, ((s.pl p).nvm.page x).cycles + g.taken.length ≤ 1000000

/-- NVM (R210, R331, R333, R338 to R341, R142): a finished group takes effect and leaves: the map points at the page it took, with the
group's record, and the page that held the logical page before is free; a mirror group is acknowledged, a plate's own change leaves
with it and completes its command, the epoch's group ends the wait for it, a root that the peer sent is sealed under an SBK enrolled
afresh with the vault formatted, and a page that needed more than 8 pulses, or has reached 1,000,000 cycles, is retired; the operating
time is stored every 60,000 ms; wear levelling moves a page whose cycles lie more than 20,000 below those of the most-worn page; the
mask epoch, at which every entry of the key cache is masked afresh. -/
def Obligations.NvmCommits : Prop :=
  (∀ (p : Plate) (g : Group) (l : List Group) (lpn x : Nat) (s : State), (s.pl p).nvm.groups = g :: l → s.up p = true →
    g.items = [] → g.journal = none → g.kind = .page ∨ g.kind = .wear ∨ g.kind = .badPage → (s.pl p).nvm.waiting = [] →
    g.pages = [lpn] → g.taken = [x] → PagesLast s p g → ((s.pl p).nvm.page x).use_ = .taken →
    ∃ t, exec (.nvmCommitDone p ⟨false, []⟩) s = .next t ∧
      (t.pl p).nvm = { (s.pl p).nvm with groups := l.filter fun h => h.seq != g.seq, pages := (t.pl p).nvm.pages } ∧
      (let n := (s.pl p).nvm
       let m := (t.pl p).nvm
       (m.page x).use_ = .mapped lpn ∧ (m.page x).cycles = (n.page x).cycles + 1 ∧
       (m.page x).rec1 = some { seq := g.seq, k := 0, lpn := lpn } ∧ (m.page x).rec2 = (m.page x).rec1 ∧
       ∀ y, y ≠ x → m.page y = if y = n.pageOf lpn then { n.page y with use_ := .free } else n.page y) ∧
      (t.pl p).vlt = (s.pl p).vlt ∧ SameBut [.nvm p, .free] s t) ∧
  (∀ (p : Plate) (g : Group) (l : List Group) (id k : Nat) (v : Slot) (s : State), (s.pl p).nvm.groups = g :: l →
    s.up p = true → g.kind = .mirror id → g.items = [.slot k v] → (s.pl p).nvm.waiting = [] → PagesLast s p g →
    ∃ t, exec (.nvmCommitDone p ⟨true, []⟩) s = .next t ∧ (t.pl p).vlt.slots.get {} k = v ∧
      (∀ i, i ≠ k → (t.pl p).vlt.slots.get {} i = (s.pl p).vlt.slots.get {} i) ∧
      (t.pl p).nvm.groups = l.filter (fun h => h.seq != g.seq) ∧
      (s.gutterUp p = true → t.gut p.peer = s.gut p.peer ++ [.ack id]) ∧ SameBut [.vlt p, .nvm p, .gut p.peer, .free] s t) ∧
  (∀ (p : Plate) (g : Group) (l : List Group) (id k : Nat) (v : SliceRec) (c : Change) (i : Word) (r : Result) (j : Job)
    (s : State), (s.pl p).nvm.groups = g :: l → s.up p = true → g.kind = .own id → g.items = [.record k v] →
    (s.pl p).nvm.waiting = [] → PagesLast s p g → s.change? p id = some c → c.after = .finish .admin i r →
    s.job? p .admin i = some j →
    ∃ t, exec (.nvmCommitDone p ⟨false, []⟩) s = .next t ∧ (t.pl p).vlt.recs.get {} k = v ∧
      (∀ n, n ≠ k → (t.pl p).vlt.recs.get {} n = (s.pl p).vlt.recs.get {} n) ∧
      (t.pl p).vlt.changes = (s.pl p).vlt.changes.filter (fun c => c.id != id) ∧
      (t.pl p).nvm.groups = l.filter (fun h => h.seq != g.seq) ∧ Completes s t p j r ∧
      SameBut (.nvm p :: .free :: completing p) s t) ∧
  (∀ (p : Plate) (g : Group) (l : List Group) (s : State), (s.pl p).nvm.groups = g :: l → s.up p = true → g.items = [] →
    g.journal = none → g.kind = .epoch → (s.pl p).nvm.waiting = [] → PagesLast s p g →
    ∃ t, exec (.nvmCommitDone p ⟨false, []⟩) s = .next t ∧ (t.pl p).vlt = { (s.pl p).vlt with epochUp := true } ∧
      (t.pl p).nvm.groups = l.filter (fun h => h.seq != g.seq) ∧ SameBut [.vlt p, .nvm p, .free] s t) ∧
  (∀ (p : Plate) (g : Group) (l : List Group) (id : Nat) (drk salt : Bytes) (test : Bool) (s : State),
    (s.pl p).nvm.groups = g :: l → s.up p = true → g.kind = .mirror id → g.items = [.root drk salt test] →
    (s.pl p).nvm.waiting = [] → PagesLast s p g →
    ∃ t, exec (.nvmCommitDone p ⟨true, []⟩) s = .next t ∧
      (let x := (s.pl p).vlt.prep
       (t.pl p).tmp.helper = some (helperFor x.response x.bits) ∧ (t.pl p).vlt.kr.sbk = sbkOf p x.bits ∧
       (t.pl p).vlt.kr.drk = fit 32 drk ∧ (t.pl p).vlt.kr.salt = fit 32 salt ∧ (t.pl p).vlt.testRoot = test ∧
       (t.pl p).vlt.mounted = true ∧ (t.pl p).vlt.slots = [] ∧ (t.pl p).vlt.cache = []) ∧
      SameBut [.vlt p, .nvm p, .tmp p, .sl p, .gut p.peer, .free] s t) ∧
  (∀ (p : Plate) (g : Group) (l : List Group) (k x : Nat) (s : State), (s.pl p).nvm.groups = g :: l → s.up p = true →
    g.items = [] → g.journal = none → g.kind = .wear → g.taken = [x] → 8 < k ∨ 1000000 ≤ ((s.pl p).nvm.page x).cycles →
    (∀ z, z ≠ x → ((s.pl p).nvm.page z).cycles < 1000000) → (s.pl p).nvm.retVault < 65535 →
    ∃ t, exec (.nvmCommitDone p ⟨false, [k]⟩) s = .next t ∧ (t.pl p).nvm.retVault = (s.pl p).nvm.retVault + 1 ∧
      (t.pl p).nvm.free = (s.pl p).nvm.free - 1 ∧ x ∈ (t.pl p).nvm.bad ∧
      SameBut (.free :: .gut p.peer :: latching p) s t) ∧
  (∀ (p : Plate) (s : State), s.up p = true → (s.pl p).nvm.noWrite = false → (s.pl p).nvm.stored + 60000 ≤ s.optime p →
    ∃ t, exec (.optimeStore p) s = .next t ∧ (t.pl p).nvm.stored = s.optime p ∧ (t.pl p).nvm.clean = false ∧
      SameBut [.nvm p] s t) ∧
  (∀ (p : Plate) (lpn : Nat) (s : State), s.up p = true → lpn < 344064 → (s.pl p).nvm.noWrite = false →
    ((s.pl p).nvm.page ((s.pl p).nvm.pageOf lpn)).cycles + 20000 < (s.pl p).nvm.mostWorn →
    exec (.wearLevelRewrite p lpn) s = .next (s.startGroup p { pages := [lpn], kind := .wear })) ∧
  (∀ (p : Plate) (lpn : Nat) (s : State),
    (s.pl p).nvm.mostWorn ≤ ((s.pl p).nvm.page ((s.pl p).nvm.pageOf lpn)).cycles + 20000 ∨ (s.pl p).nvm.noWrite = true →
    exec (.wearLevelRewrite p lpn) s = .next s) ∧
  (∀ (p : Plate) (s : State), s.up p = true → s.past (s.pl p).vlt.maskAt 64000 = true →
    ∃ t, exec (.maskEpochAdvance p) s = .next t ∧
      (t.pl p).vlt = { (s.pl p).vlt with
        maskEpoch := (s.pl p).vlt.maskEpoch + 1, maskAt := s.clock, cache := (s.pl p).vlt.cache.map (t.masked p) } ∧
      (t.pl p).vlt.cache.map CacheEntry.key = (s.pl p).vlt.cache.map CacheEntry.key ∧ SameBut [.vlt p] s t) ∧
  (∀ (p : Plate) (v : Nat) (l : List GMsg) (s : State), s.gut p = .wear v :: l →
    exec (.peerWearStateReport p) s = .next ((s.setGut p l).updNvm p fun n => { n with peerWear := v })) ∧
  (∀ (p : Plate) (v : Nat) (l : List GMsg) (s : State), s.gut p = .epoch v :: l →
    exec (.peerEpochReport p) s = .next ((s.setGut p l).updVlt p fun x => { x with peerEpoch := v }))

/-! ## Power, the PCIe island, timebase, AVSBus, MCTP and the TAP (16) -/

/-- What a start-up of plate `p` does not touch: the Margin, the TAP, the clock and the queue, with a peer that waits for nothing
its fault collector and management cluster, and its random part and tamper monitor where it takes no root from `p`. -/
def outsideStart (s : State) (p : Plate) : List Part :=
  [.margin, .tapIr, .clock, .pending] ++
  (if s.needsToken p.peer then [] else [.flt p.peer, .mgt p.peer] ++ if s.up p.peer then [] else [.rng p.peer, .tmp p.peer])

/-- Random start-up in state `r` (R196) leaves plate `p` serving, or halted with ENTROPY (R204); a failed known-answer test
halts it with cause 5 and no block. -/
def RandomStarted (r s t : State) (p : Plate) (x : RandomStart) : Prop :=
  (t.pl p).rng.st = ((r.startRandom p x).pl p).rng.st ∧
  ((t.pl p).rng.st = .halted → hasSrc (t.pl p).flt.status 27 = true) ∧
  ((s.pl p).rng.st ≠ .halted → x.kat = false → (t.pl p).rng.st = .halted ∧ (t.pl p).rng.cause = 5 ∧ (t.pl p).rng.pool = [])

/-- POWER_UP (R361, R339, Table 16.7) from power-off: PWRGOOD is asserted, the power-cycle count rises, operating time resumes
above every value reported, random start-up leaves the plate serving or halted, the sources are armed, the vault is mounted
where the root opens, the volatile epoch rises, and CLKREQ# is held low (R354); after a reset the plate is in service again once
PERST# is released. POWER_DOWN (R288, R339) clears the keys, holds the plate and lets CLKREQ# go. -/
def Obligations.PowerUpAndDown : Prop :=
  (∀ (p : Plate) (c : ChaseReading) (x : RandomStart) (y : LinkShape) (l : List RingScan) (s : State), (s.pl p).pow.phase = .off →
    (s.pl p).pow.perst = true →
    ∃ t, exec (.powerUp p ⟨c, x, y⟩ l) s = .next t ∧ t.pwrgood = true ∧ (s.pwrgood = false → t.clkreqLow = true) ∧
      (t.pl p).pow.phase = .running ∧
      (t.pl p).pow.ready = (s.pl p).pow.ready ∧
      (t.pl p).nvm.pcycle = (s.pl p).nvm.pcycle + 1 ∧
      (t.pl p).nvm.optime = (s.pl p).nvm.stored + (if (s.pl p).nvm.clean then 1 else 60000) ∧
      RandomStarted (s.fromOff p) s t p x ∧ (t.pl p).tmp.armed = true ∧
      (t.pl p).tmp.corrected = s.chaseCorrected p c ∧
      (s.rootOpens p c = true ∨ s.up p.peer = false →
        (t.pl p).vlt.mounted = s.rootOpens p c ∧ (t.pl p).vlt.keys = s.rootOpens p c) ∧
      (t.pl p).vlt.epoch = (s.pl p).vlt.epoch + (if (s.pl p).nvm.noWrite then 0 else 1) ∧ s.out <+: t.out ∧
      (∀ x ∈ outsideStart s p, Same s t x)) ∧
  (∀ (p : Plate) (c : ChaseReading) (x : RandomStart) (y : LinkShape) (l : List RingScan) (s : State), (s.pl p).pow.phase = .reset →
    s.mayStart p = true →
    ∃ t, exec (.powerUp p ⟨c, x, y⟩ l) s = .next t ∧ (t.pl p).pow.phase = .running ∧ (t.pl p).pow.ready = true ∧
      (t.pl p).pow.linkUp = true ∧ (t.pl p).pow.lanes = y.lanes ∧ (t.pl p).pow.gen = y.gen ∧
      (t.pl p).nvm.pcycle = (s.pl p).nvm.pcycle ∧ RandomStarted s s t p x ∧
      (t.pl p).vlt.mounted = s.rootOpens p c ∧ (t.pl p).vlt.keys = s.rootOpens p c ∧ (t.pl p).vlt.savedWin = [] ∧
      s.out <+: t.out ∧ (∀ x ∈ outsideStart s p, Same s t x)) ∧
  (∀ (p : Plate) (c : ChaseReading) (x : RandomStart) (y : LinkShape) (l : List RingScan) (s : State), (s.pl p).pow.phase ≠ .off →
    s.mayStart p = false → exec (.powerUp p ⟨c, x, y⟩ l) s = .next s) ∧
  (∀ (p : Plate) (s : State), (s.pl p).pow.phase ≠ .off → s.pwrgood = true → s.needsToken p.peer = false →
    ∃ t, exec (.powerDown p) s = .next t ∧ t.pwrgood = false ∧ t.clkreqLow = false ∧ (t.pl p).pow.phase = .off ∧ (t.pl p).tmp.armed = false ∧
      (t.pl p).tmp.ko = false ∧ (t.pl p).vlt.keys = false ∧ (t.pl p).vlt.cache = [] ∧ (t.pl p).rng = {} ∧
      (t.pl p).flt.status = 0 ∧ (t.pl p).pr.token = false ∧ (t.pl p).nvm.optime = s.optime p ∧
      ((s.pl p).nvm.noWrite = false → (t.pl p).nvm.stored = s.optime p ∧ (t.pl p).nvm.clean = true) ∧ t.out = s.out ∧
      SameBut ([.pwrgood, .clkreqLow, .free, .mrg p.peer, .nvm p.peer] ++ plateParts p ++
        if (s.gut p).contains .token then [.pr p.peer] else []) s t) ∧
  (∀ (p : Plate) (s : State), (s.pl p).pow.phase = .off → exec (.powerDown p) s = .next s)

/-- The PCIe island (R23, R360 to R362, R365): PERST# resets the island, drops its settings and the translations it held, and
begins the class C reaction at step 2; its release trains the link, and a plate that had not got that far goes on to service; a
hot reset leaves the rest of the plate and trains the link afresh; AER logs the header of the first unsupported request; configuration requests are answered with Request Retry Status until the function is
ready, and after that with what the function's settings show; a write of a setting changes that setting alone, and only to a
value that Table 2.1 supports; the PowerState is D0 always; ATS turned off, and an invalidation, drop translations; a vector
unmasked is sent if it is pending. What stands at a place of the configuration space is a free function of the settings (log
96). -/
def Obligations.PcieIsland : Prop :=
  (∀ (p : Plate) (s : State), (s.pl p).pow.perst = false → s.up p = true → (s.pl p).tmp.ko = false →
    (s.pl p).flt.react = .none → (s.pl p).pr.token = false →
    ∃ t, exec (.perstAssert p) s = .next t ∧ (t.pl p).pow.perst = true ∧ (t.pl p).pow.linkUp = false ∧
      (t.pl p).pow.cfgReady = false ∧ (t.pl p).pow.fnMask = false ∧ (t.pl p).pow.pba = [] ∧
      (t.pl p).pow.cfg = {} ∧ (t.pl p).pow.atc = [] ∧
      (t.pl p).flt.react = .waitToken ∧ (t.pl p).flt.perst = true ∧ (t.pl p).pr.asking = true ∧ t.out = s.out ∧
      SameBut [.pow p, .flt p, .pr p, .nvm p, .gut p.peer] s t) ∧
  (∀ (p : Plate) (y : LinkShape) (s : State), (s.pl p).pow.perst = true → s.up p = true → (s.pl p).pow.ready = true →
    exec (.perstRelease ⟨p, y⟩) s = .next (s.updPow p fun w =>
      { w with perst := false, linkUp := true, cfgReady := true, lanes := y.lanes, gen := y.gen })) ∧
  (∀ (p : Plate) (y : LinkShape) (s : State), (s.pl p).pow.perst = true → s.up p = true → (s.pl p).pow.ready = false →
    ∃ t, exec (.perstRelease ⟨p, y⟩) s = .next t ∧ (t.pl p).pow.perst = false ∧ (t.pl p).pow.linkUp = true ∧
      (t.pl p).pow.lanes = y.lanes ∧ (t.pl p).pow.gen = y.gen ∧
      (t.pl p).pow.cfgReady = true ∧ (t.pl p).pow.ready = true ∧ (t.pl p).vlt.savedWin = [] ∧ s.out <+: t.out ∧
      (t.pl p).rng = (s.pl p).rng ∧ (t.pl p).tmp = (s.pl p).tmp) ∧
  (∀ (p : Plate) (y : LinkShape) (s : State), (s.pl p).pow.perst = true → s.up p = false →
    exec (.perstRelease ⟨p, y⟩) s = .next (s.updPow p fun w => { w with perst := false })) ∧
  (∀ (p : Plate) (y : LinkShape) (s : State), s.up p = true →
    exec (.hotReset ⟨p, y⟩) s = .next (s.updPow p fun w => { w with
      fnMask := false, pba := [], cfg := {}, atc := [],
      lanes := if w.linkUp then y.lanes else w.lanes, gen := if w.linkUp then y.gen else w.gen })) ∧
  (∀ (p : Plate) (q : CfgReq) (s : State), (s.pl p).pow.linkUp = true ∨ s.mayStart p = true →
    (s.pl p).pow.cfgReady = false → exec (.configRequest p q) s = .next (s.emit (.cfg p none))) ∧
  (∀ (p : Plate) (q : CfgReq) (s : State), (s.pl p).pow.linkUp = false → s.mayStart p = false →
    exec (.configRequest p q) s = .next s) ∧
  (∀ (p : Plate) (o : Nat) (f : CfgField) (x : PcieOption) (n : Nat) (s : State), (s.pl p).pow.linkUp = true →
    (s.pl p).pow.cfgReady = true →
    exec (.configRequest p (.read o)) s = .next (s.emit (.cfg p (some (Config.cfgSpace p (s.pl p).pow.cfg.values o)))) ∧
    exec (.configRequest p (.readField f)) s = .next (s.emit (.cfg p (some (BitVec.ofNat 32 ((s.pl p).pow.cfg.get f))))) ∧
    exec (.configRequest p (.readOption x)) s = .next (s.emit (.cfg p (some (if pcieSupported x then 1 else 0)))) ∧
    exec (.configRequest p (.writePowerState n)) s = .next (s.emit (.cfg p (some 0)))) ∧
  (∀ (p : Plate) (f : CfgField) (v : Nat) (s : State), (s.pl p).pow.linkUp = true → (s.pl p).pow.cfgReady = true →
    ∃ t, exec (.configRequest p (.writeField f v)) s = .next t ∧ t.out = s.out ++ [.cfg p (some 0)] ∧
      (∀ g, g ≠ f → (t.pl p).pow.cfg.get g = (s.pl p).pow.cfg.get g) ∧ (t.pl p).pow.cfg.header = (s.pl p).pow.cfg.header ∧
      (f = .payload → (t.pl p).pow.cfg.payload = (if v = 128 ∨ v = 256 ∨ v = 512 then v else (s.pl p).pow.cfg.payload)) ∧
      (f = .pasid → (t.pl p).pow.cfg.pasid = decide (v % 2 = 1)) ∧
      (f = .ats → (t.pl p).pow.cfg.ats = decide (v % 2 = 1) ∧ (v % 2 = 0 → (t.pl p).pow.atc = [])) ∧
      SameBut [.pow p, .out] s t) ∧
  (∀ (p : Plate) (s : State), (s.pl p).pow.linkUp = true → (s.pl p).pow.cfgReady = true →
    ∃ t, exec (.configRequest p .clearErrors) s = .next t ∧ (t.pl p).pow.cfg.header = none ∧
      (t.pl p).pow.cfg.values = (s.pl p).pow.cfg.values ∧ SameBut [.pow p, .out] s t) ∧
  (∀ (p : Plate) (h : Bytes) (s : State), (s.pl p).pow.linkUp = true → (s.pl p).pow.cfgReady = true →
    ∃ t, exec (.configRequest p (.unsupported h)) s = .next t ∧
      (t.pl p).pow.cfg.header = some (((s.pl p).pow.cfg.header).getD (fit 16 h)) ∧
      (t.pl p).pow.cfg.values = (s.pl p).pow.cfg.values ∧ SameBut [.pow p, .out] s t) ∧
  (∀ (p : Plate) (x : AtsPage) (s : State), (s.pl p).pow.linkUp = true →
    ∃ t, exec (.atsInvalidateRequest p x) s = .next t ∧ t.out = s.out ++ [.ats p] ∧
      (∀ e, e ∈ (t.pl p).pow.atc ↔ e ∈ (s.pl p).pow.atc ∧ e ≠ (x.pasid, x.addr.toNat / 4096)) ∧
      ((x.pasid, x.addr.toNat / 4096) ∈ (t.pl p).pow.denied ↔ x.gone = true) ∧ SameBut [.pow p, .out] s t) ∧
  (∀ (p : Plate) (v : Nat) (s : State), (s.pl p).pow.cfgReady = true → v < 2048 → (s.pl p).pow.pba = [v] →
    (s.pl p).pow.fnMask = false →
    ∃ t, exec (.msixVectorUnmask p (some v)) s = .next t ∧ t.out = s.out ++ [.msix p v] ∧ (t.pl p).pow.pba = [] ∧
      t.msixEntry p v = ((s.msixEntry p v).1, (s.msixEntry p v).2.1, false) ∧ SameBut [.pow p, .out] s t)

/-- The timebase (R358) is disciplined by the source that R358 chooses, its correction moving by at most 0.1 % in 1 ms; it runs
free without one on its last correction, and reads of TMB_NOW latch the upper word (R368); AVSBus (R352, R353) adopts a target
no sooner than 10 µs after the one before, counts errors, and suspends control at the third in succession; MCTP (R359) is
answered by a running world alone, whose anchor core it interrupts (R313); the TAP (R356) loads a code or resets to IDCODE. -/
def Obligations.ClockSupplyAndLinks : Prop :=
  (∀ (p : Plate) (hz : Nat) (ref : Bool) (corr : BitVec 16) (s : State), s.up p = true → s.past (s.pl p).pow.tmbAt 1000 = true →
    (let n := timebaseSource (s.pl p).pow.tmbCfg hz ref
     ∃ t, exec (.timebaseSelect p hz ref corr) s = .next t ∧ (t.pl p).pow.source = n ∧
       (t.pl p).pow.corr = (if n = 0 then (s.pl p).pow.corr else stepCorr (s.pl p).pow.corr corr) ∧
       ((t.pl p).pow.corr.toInt - (s.pl p).pow.corr.toInt).natAbs ≤ 1000 ∧ (n = 0 → (t.pl p).pow.locked = false) ∧
       (t.pl p).pow.tmbAt = s.clock ∧ SameBut [.pow p] s t)) ∧
  (∀ (p : Plate) (hz : Nat) (ref : Bool) (corr : BitVec 16) (s : State), s.past (s.pl p).pow.tmbAt 1000 = false →
    exec (.timebaseSelect p hz ref corr) s = .next s) ∧
  (∀ (p : Plate) (s : State), s.up p = true →
    ∃ t, exec (.timebaseRefLost p) s = .next t ∧ (t.pl p).pow.source = 0 ∧ (t.pl p).pow.locked = false ∧
      (t.pl p).pow.corr = (s.pl p).pow.corr ∧ SameBut [.pow p] s t) ∧
  (∀ (p : Plate) (s : State), s.barReady p = true →
    exec (.timebaseRead p) s = .next ((s.updPow p fun w => { w with upper := wordOf (tmbNow s p) 1 }).emit
      (.reply p (some ((wordOf (tmbNow s p) 0).setWidth 64))))) ∧
  (∀ (p : Plate) (mv : Nat) (s : State), s.up p = true → (s.pl p).pow.avsErr = false → 670 ≤ mv → mv ≤ 830 → mv % 10 = 0 →
    (∀ t, (s.pl p).pow.targetAt = some t → t + 10 ≤ s.clock) →
    exec (.avsTransactionDone p (.voltageWrite mv) true) s =
      .next ((s.updPow p fun w => { w with avsRun := 0, target := mv, targetAt := some s.clock }).emit (.avs p (.voltageWrite mv)))) ∧
  (∀ (p : Plate) (mv : Nat) (ok : Bool) (s : State), mv < 670 ∨ 830 < mv ∨ mv % 10 ≠ 0 ∨ (s.pl p).pow.avsErr = true ∨
      (∃ t, (s.pl p).pow.targetAt = some t ∧ s.clock < t + 10) →
    exec (.avsTransactionDone p (.voltageWrite mv) ok) s = .next s) ∧
  (∀ (p : Plate) (s : State), s.up p = true →
    ∃ t, exec (.avsTransactionDone p .statusRead false) s = .next t ∧
      (t.pl p).pow.avsErrors = min ((s.pl p).pow.avsErrors + 1) 255 ∧
      (t.pl p).pow.avsErr = ((s.pl p).pow.avsErr || decide (2 ≤ (s.pl p).pow.avsRun)) ∧
      (t.pl p).pow.target = (s.pl p).pow.target ∧ SameBut [.pow p, .out] s t) ∧
  (∀ (p : Plate) (q : MctpReq) (s : State), s.mctpAnswers p = true →
    (let m := (s.pl p).mgt
     ∃ t, exec (.mctpMessage p q) s = .next t ∧ t.out = s.out ++ [.mctp p (some (s.mctpAnswer p q))] ∧
       (t.pl p).mgt = { m.mctpSet q with
         intS := if m.owner 13 = .secure then m.intS ++ [45] else m.intS
         intN := if m.owner 13 = .secure then m.intN else m.intN ++ [45] } ∧ SameBut [.mgt p, .out, .free] s t)) ∧
  (∀ (p : Plate) (q : MctpReq) (s : State), s.mctpAnswers p = false →
    exec (.mctpMessage p q) s = .next (s.emit (.mctp p none))) ∧
  (∀ (code : Byte) (s : State), exec (.tapInstruction true code) s = .next { s with tapIr := 0x01 } ∧
    exec (.tapInstruction false code) s = .next { s with tapIr := code })

/-! ## Register accesses (17; 02 R57; 03 R75, R77) -/

/-- Host writes (R366 to R369): a slice register takes its clamped value at the plate and a copy goes to the peer; an access
of another size or alignment changes nothing; one of 8 bytes to two 32-bit registers is two of 4 bytes, the lower address first; a register of the plate takes its defined bits; the MSI-X table takes an entry.
The secure world writes FLT_GRACE within its range. A copy that arrives away from the home applies; the broadcast window
latches every selected slice at once, and MTR_LATCH one of them. -/
def Obligations.RegisterAccesses : Prop :=
  (∀ (p : Plate) (i : Nat) (v : Word) (s : State), s.acceptsCopied p i = true → (s.impo p i).st ≠ .free → i < 4096 →
    s.gutterUp p = true → v ≠ 0 →
    ∃ t, exec (.registerWrite p 0 (0x100000 + 0x100 * i + 0x28) 4 (v.setWidth 64)) s = .next t ∧
      ((t.pl p).sl.regs.get {} i).ratePk = (if v.toNat ≤ 64000000 then v else 64000000) ∧
      ((t.pl p).sl.regs.get {} i).weight = ((s.pl p).sl.regs.get {} i).weight ∧ (t.pl p).sl.rings = (s.pl p).sl.rings ∧
      t.gut p.peer = s.gut p.peer ++ [.copy (0x100000 + 0x100 * i + 0x28) 4 (v.setWidth 64)] ∧
      SameBut [.sl p, .gut p.peer] s t) ∧
  (∀ (p : Plate) (o size : Nat) (v : DWord) (s : State), ¬(size = 4 ∧ o % 4 = 0) → ¬(size = 8 ∧ o % 8 = 0) →
    exec (.registerWrite p 0 o size v) s = .next s) ∧
  (∀ (p : Plate) (o : Nat) (v : DWord) (s : State), o % 8 = 0 → ((copiedSlice o).isSome && wideCopied o) = false →
    ∃ t, exec (.registerWrite p 0 o 4 ((wordOf v 0).setWidth 64)) s = .next t ∧
      exec (.registerWrite p 0 o 8 v) s = exec (.registerWrite p 0 (o + 4) 4 (v >>> 32)) t) ∧
  (∀ (p : Plate) (v : Word) (s : State), s.barReady p = true →
    exec (.registerWrite p 0 0x1002C 4 (v.setWidth 64)) s = .next (s.updFlt p fun f => { f with irq := v &&& 0x800007FF }) ∧
    exec (.registerWrite p 0 0x30000 4 (v.setWidth 64)) s =
      .next (if boundsOk v then s.updSl p fun x => { x with dbpBounds := v } else s) ∧
    exec (.registerWrite p 0 0x20000 4 (v.setWidth 64)) s =
      .next (if tmbCfgOk v then s.updPow p fun w => { w with tmbCfg := v &&& 0xC000FFFF } else s)) ∧
  (∀ (p : Plate) (k : Nat) (v : Word) (s : State), (s.pl p).pow.cfgReady = true → k < 2048 → (s.pl p).pow.pba = [] → v ≠ 0 →
    ∃ t, exec (.registerWrite p 4 (16 * k + 8) 4 (v.setWidth 64)) s = .next t ∧
      t.msixEntry p k = ((s.msixEntry p k).1, v, (s.msixEntry p k).2.2) ∧ t.out = s.out ∧ SameBut [.pow p] s t) ∧
  (∀ (p : Plate) (v : Word) (s : State), s.up p = true →
    exec (.registerWrite p 1 0x10018 4 (v.setWidth 64)) s =
      .next (if 1 ≤ v.toNat ∧ v.toNat ≤ 10000 then s.updFlt p fun f => { f with graceMs := v.toNat } else s)) ∧
  (∀ (p : Plate) (i : Nat) (v : Word) (l : List GMsg) (s : State),
    s.gut p = .copy (0x100000 + 0x100 * i + 0x28) 4 (v.setWidth 64) :: l → s.up p = true → i < 4096 →
    (s.impo p i).st ≠ .free → (s.impo p i).home = p.peer → v ≠ 0 →
    ∃ t, exec (.registerCopyArrive p) s = .next t ∧
      ((t.pl p).sl.regs.get {} i).ratePk = (if v.toNat ≤ 64000000 then v else 64000000) ∧ t.gut p = l ∧
      t.gut p.peer = (s.gut p.peer).filter (fun m => !copyOverlaps (0x100000 + 0x100 * i + 0x28) 4 m) ∧
      SameBut [.sl p, .gut .a, .gut .b] s t) ∧
  (∀ (p : Plate) (v : DWord) (s : State), s.barReady p = true → v.getLsbD 0 = true →
    exec (.broadcastWrite p 0x50 4 v) s = .next (s.latchMeters p (s.selected p))) ∧
  (∀ (p : Plate) (i : Nat) (v : Word) (s : State), s.barReady p = true → v.getLsbD 0 = true → (s.impo p i).st ≠ .free →
    ∃ t, exec (.meterLatch p i v) s = .next t ∧ (t.pl p).sl.mtrSeq = (s.pl p).sl.mtrSeq + 1 ∧
      (t.pl p).sl.mtrTime = s.optime p ∧
      ((s.pl p).sl.mtrSeq + 1 ≠ 0 →
        (t.pl p).sl.bank.get {} i =
          { meter := (s.pl p).sl.live.get {} i, slots := s.slotsUsed p i, ledger := s.ledgerUsed p i,
            seq := (s.pl p).sl.mtrSeq + 1 }) ∧
      (∀ k, k ≠ i → (t.pl p).sl.bank.get {} k = (s.pl p).sl.bank.get {} k ∧
        (t.pl p).sl.live.get {} k = (s.pl p).sl.live.get {} k) ∧ SameBut [.sl p] s t) ∧
  (∀ (p : Plate) (i : Nat) (v : Word) (s : State), (s.impo p i).st = .free → exec (.meterLatch p i v) s = .next s)

/-! ## The pair of plates (09) -/

/-- The gutter (R214): heartbeats go out on both sub-links; the tenth in succession in each direction brings one up; 1 ms of
silence takes a sub-link down with GUTTER_LINK, and of both of them, while PAIRED with a peer not known stale, is a
partition. -/
def Obligations.GutterLinks : Prop :=
  (∀ (p : Plate) (s : State), s.up p = true → s.past (s.pl p).pr.hbSent 100 = true →
    ∃ t, exec (.gutterHeartbeatSend p) s = .next t ∧ GMsg.beat 0 ∈ t.gut p.peer ∧ GMsg.beat 1 ∈ t.gut p.peer ∧
      (∀ m ∈ s.gut p.peer, (∀ k, m ≠ .beat k) → m ∈ t.gut p.peer) ∧ SameBut [.pr p, .gut p.peer] s t) ∧
  (∀ (p : Plate) (k : Nat) (l : List GMsg) (s : State), s.gut p = .beat k :: l → k < 2 → s.up p = true →
    (s.pl p).pr.linkUp k = true →
    ∃ t, exec (.gutterHeartbeatRecv p k) s = .next t ∧ t.gut p = l ∧ (t.pl p).pr.hbAt k = s.clock ∧
      (t.pl p).pr.hbRun k = (if s.clock - (s.pl p).pr.hbAt k < 200 then (s.pl p).pr.hbRun k + 1 else 1) ∧
      (t.pl p).pr.links = (s.pl p).pr.links ∧ SameBut [.pr p, .gut p] s t) ∧
  (∀ (p : Plate) (k : Nat) (l : List GMsg) (s : State), s.gut p = .beat k :: l → k < 2 → s.up p = true →
    (s.pl p).pr.linkUp k = false → (s.pl p).pr.lost = false → s.clock < (s.pl p).pr.hbAt k + 200 →
    9 ≤ (s.pl p).pr.hbRun k → 10 ≤ (s.pl p.peer).pr.hbRun k →
    ∃ t, exec (.gutterHeartbeatRecv p k) s = .next t ∧ (t.pl p).pr.linkUp k = true ∧ t.gut p = l ∧
      SameBut [.pr p, .gut p] s t) ∧
  (∀ (p : Plate) (k : Nat) (l : List GMsg) (s : State), s.gut p = .beat k :: l → k < 2 → s.up p = true →
    (s.pl p).pr.linkUp k = false → (s.pl p).pr.hbAt k + 200 ≤ s.clock ∨ (s.pl p).pr.hbRun k < 9 ∨ (s.pl p.peer).pr.hbRun k < 10 →
    ∃ t, exec (.gutterHeartbeatRecv p k) s = .next t ∧ (t.pl p).pr.linkUp k = false ∧ t.gut p = l ∧
      SameBut [.pr p, .gut p] s t) ∧
  (∀ (p : Plate) (k : Nat) (s : State), s.up p = true → s.silent p k = true → (s.pl p).pr.linkUp k = true → k < 2 →
    ∃ t, exec (.sublinkDown p k) s = .next t ∧ (t.pl p).pr.linkUp k = false ∧ (t.pl p).pr.hbRun k = 0 ∧ Latched s t p 4 ∧
      (∀ n, n < 2 → n ≠ k → (s.pl p).pr.linkUp n = true → (s.pl p).pr.lost = false → t.gutterUp p = true) ∧
      SameBut (.pr p :: latching p) s t) ∧
  (∀ (p : Plate) (k : Nat) (s : State), s.silent p k = false → exec (.sublinkDown p k) s = .next s) ∧
  (∀ (p : Plate) (s : State), s.up p = true → (s.pl p).pr.lost = false → s.silent p 0 = true → s.silent p 1 = true →
    (s.pl p).pr.mode = .paired → (s.pl p).pr.met = true → (s.pl p).pr.stale = false → (s.pl p).pr.takeover = none →
    (s.pl p).vlt.changes = [] → GMsg.token ∉ s.gut p → s.needsToken p.peer = false →
    ∃ t, exec (.gutterLost p) s = .next t ∧ (t.pl p).pr.lost = true ∧ (t.pl p).pr.linkUp 0 = false ∧
      (t.pl p).pr.linkUp 1 = false ∧ t.gut p = [] ∧ (t.pl p).pr.mode = .partition ∧
      (t.pl p).pr.partitions = min ((s.pl p).pr.partitions + 1) 65535 ∧ (t.pl p).sl = (s.pl p).sl ∧
      SameBut (.pr p :: .gut p :: latching p) s t)

/-- Between `s` and `t` a group of plate `p`, of no more than eight logical pages, took its free pages and began step 2 with the next
SEQ, or joined those that wait: four are in progress already, SEQ q + 4 waits for q (R334), the plate's own groups leave one place in four to mirror writes (R215), or an earlier
group of its kind, or with a page in common, still waits. -/
def GroupEntered (s t : State) (p : Plate) (kind : GroupKind) (items : List VItem) (j : Option Journal) (q : Nat) : Prop :=
  let n := (s.pl p).nvm
  let m := (t.pl p).nvm
  (items.map fun v => v.lpns.length).sum ≤ 7 →
  m.jpos = n.jpos + (if j.isSome then 1 else 0) ∧
  ∃ g : Group, g.kind = kind ∧ g.items = items ∧ g.journal = j ∧ g.comSeq = q ∧
    g.pages = (items.flatMap VItem.lpns).eraseDups ++ (if j.isSome then [journalLpn n.jpos] else []) ∧
    if n.groups.length < 4 ∧ (∀ h ∈ n.groups, n.nextSeq < h.seq + 4) ∧
        (g.isMirror = true ∨ (n.groups.filter fun h => !h.isMirror).length < 3) ∧
        (∀ w ∈ n.waiting, w.isMirror ≠ g.isMirror ∧ w.meets g = false) then
      m.groups = n.groups ++ [g] ∧ g.seq = n.nextSeq ∧ m.nextSeq = n.nextSeq + 1 ∧ m.waiting = n.waiting ∧
      ∀ x ∈ g.taken, (m.page x).use_ = .taken
    else m.groups = n.groups ∧ m.nextSeq = n.nextSeq ∧ m.waiting = n.waiting ++ [g]

/-- Dual commit (R210 to R212): the peer commits a mirror write as one group of its commit sequence, with the sender's whole page
where its own copy of a ledger page fails its tag, a root once it can draw what it is to seal it with; and an acknowledged change starts its own group. The window copy (Table 9.1),
comparisons (R231 to R233) and the reset token (R235): one that the token reaches for a reset waits while its peer is in reset. -/
def Obligations.MirrorsAndToken : Prop :=
  (∀ (p : Plate) (key : Bytes) (c : Change) (l : List GMsg) (s : State), s.gut p = .mirror key c :: l →
    s.opens p key = true → (∀ e v, VItem.ledger e v ∈ c.items → s.ledgerBad p e = false) →
    (∀ k v, VItem.ledgerPage k v ∉ c.items) → itemDraws c.items = [] →
    ∃ t, exec (.mirrorWriteRecv p) s = .next t ∧ t.gut p = l ∧
      (t.pl p).vlt.counter = max (s.pl p).vlt.counter (c.seq / 2) ∧
      GroupEntered s t p (.mirror c.id) c.items c.journal c.seq ∧
      (t.pl p).vlt.slots = (s.pl p).vlt.slots ∧ SameBut [.vlt p, .nvm p, .gut p] s t) ∧
  (∀ (p : Plate) (key : Bytes) (c : Change) (l : List GMsg) (s : State), s.gut p = .mirror key c :: l →
    s.opens p key = true → itemDraws c.items ≠ [] → s.canDraw p vaultInst (itemDraws c.items).length = false →
    exec (.mirrorWriteRecv p) s = .next s) ∧
  (∀ (p : Plate) (key : Bytes) (c : Change) (drk salt : Bytes) (test : Bool) (l : List GMsg) (s : State),
    s.gut p = .mirror key c :: l → s.opens p key = true → c.items = [.root drk salt test] →
    s.canDraw p vaultInst 2 = true →
    ∃ t, exec (.mirrorWriteRecv p) s = .next t ∧ t.gut p = l ∧
      GroupEntered s t p (.mirror c.id) c.items c.journal c.seq ∧
      (t.pl p).vlt.prep.bits = s.drawnAt p vaultInst [32, 12] 0 ∧ (t.pl p).vlt.prep.nonce = s.drawnAt p vaultInst [32, 12] 1 ∧
      SameBut [.vlt p, .rng p, .nvm p, .gut p, .free] s t) ∧
  (∀ (p : Plate) (key : Bytes) (c : Change) (e : Nat) (v : Ledger) (l : List GMsg) (s : State), s.gut p = .mirror key c :: l →
    s.opens p key = true → (∀ x ∈ (s.pl p.peer).vlt.changes, c.id ≤ x.id) →
    c.items = [.ledger e v] → s.ledgerBad p e = true →
    ∃ t, exec (.mirrorWriteRecv p) s = .next t ∧ t.gut p = l ∧
      (t.pl p).vlt.counter = max (s.pl p).vlt.counter (c.seq / 2) ∧
      (t.pl p).vlt.repaired = min ((s.pl p).vlt.repaired + 1) 65535 ∧
      (∃ page, page.getD (e % 16) {} = v ∧
        (∀ k < 16, k ≠ e % 16 → page.getD k {} = (s.pl p.peer).vlt.ledger.get {} (e / 16 * 16 + k)) ∧
        ∃ g ∈ (t.pl p).nvm.groups ++ (t.pl p).nvm.waiting, g.kind = .mirror c.id ∧ g.items = [.ledgerPage (e / 16) page]) ∧
      SameBut [.vlt p, .nvm p, .gut p] s t) ∧
  (∀ (p : Plate) (c : Change) (id : Nat) (l : List GMsg) (s : State), s.gut p = .ack id :: l → s.change? p id = some c →
    c.acked = false →
    ∃ t, exec (.mirrorAckRecv p) s = .next t ∧ t.gut p = l ∧
      GroupEntered s t p (.own c.id) c.items c.journal c.seq ∧
      (t.pl p).vlt.changes = (s.pl p).vlt.changes.map (fun c => if c.id = id then { c with acked := true } else c) ∧
      SameBut [.vlt p, .nvm p, .gut p] s t) ∧
  (∀ (p : Plate) (s : State), s.up p = true → s.gutterUp p = true → s.up p.peer = true → (s.pl p.peer).pr.lost = false →
    ∃ t, exec (.inflightMirrorCopy p) s = .next t ∧
      ((t.pl p.peer).pr.admWindow.map Prod.fst) = some (s.pl p).sl.adm ∧ SameBut [.pr p.peer] s t) ∧
  (∀ (s : State), s.joined = true → s.pa.pr.mode = .paired → s.pb.pr.mode = .paired → s.pa.vlt.mounted = true →
    s.pb.vlt.mounted = true → s.past s.pa.pr.scrubAt 86400000000 = true →
    exec (.scrubStart .a []) s = .next ((s.updPr .a fun r => { r with scrubEnd := s.optime .a, scrubAt := s.clock }).updPr .b
      fun r => { r with scrubEnd := s.optime .b, scrubAt := s.clock }) ∧
    ∀ l, exec (.scrubStart .b l) s = .next s) ∧
  (∀ (p : Plate) (diff off : Nat) (s : State), s.up p = true → s.gutterUp p = true → (s.pl p).pow.source ≠ 0 → 500 < off →
    (s.pl p).pr.tbAt = none →
    ∃ t, exec (.timebaseCompare p diff off) s = .next t ∧ (t.pl p).pr.tbDiff = min diff 65535 ∧ Latched s t p 7 ∧
      (t.pl p).pr.tbAt = some s.clock ∧ SameBut (.pr p :: latching p) s t) ∧
  (∀ (p : Plate) (dt : Nat) (s : State), s.joined = true → 40 < dt → s.pa.pr.skewAt = none → s.pb.pr.skewAt = none →
    ((s.pl p).pr.skewFrom.any fun t0 => s.past t0 100000) = true →
    ∃ t, exec (.regionSkew p dt) s = .next t ∧
      (∀ q : Plate, (t.pl q).pr.dt = min dt 255 ∧ (t.pl q).pr.skewAt = some s.clock ∧ Latched s t q 6) ∧
      SameBut ([.pr .a, .pr .b] ++ latching .a ++ latching .b) s t) ∧
  (∀ (p : Plate) (dt : Nat) (s : State), s.joined = true → (s.pl p).pr.skewFrom = none →
    (let f (r : Pair) : Pair := { r with dt := min dt 255, skewFrom := if 40 < dt then some s.clock else none }
     exec (.regionSkew p dt) s = .next ((s.updPr .a f).updPr .b f))) ∧
  (∀ (p : Plate) (l : List GMsg) (s : State), s.gut p = .askToken :: l → (s.pl p).pr.token = true →
    s.needsToken p = false → (s.pl p).pr.resetHeld = false → s.gutterUp p = true →
    ∃ t, exec (.tokenRequestRecv p) s = .next t ∧ (t.pl p).pr.token = false ∧ t.gut p = l ∧
      t.gut p.peer = s.gut p.peer ++ [.token] ∧ SameBut [.pr p, .gut .a, .gut .b] s t) ∧
  (∀ (p : Plate) (l : List GMsg) (s : State), s.gut p = .askToken :: l →
    (s.pl p).pr.token = false ∨ s.needsToken p = true ∨ (s.pl p).pr.resetHeld = true →
    exec (.tokenRequestRecv p) s = .next ((s.setGut p l).updPr p fun r => { r with peerAsks := true })) ∧
  (∀ (p : Plate) (l : List GMsg) (s : State), s.gut p = .token :: l → s.needsToken p = false →
    exec (.tokenReceived p) s =
      .next ((s.setGut p l).updPr p fun r => { r with token := true, asking := false, resetHeld := false })) ∧
  (∀ (p : Plate) (l : List GMsg) (s : State), s.gut p = .token :: l → (s.pl p).pr.seqSt = .plateReset → s.gutterUp p = true →
    s.up p = true → (s.pl p.peer).pow.phase ≠ .reset →
    ∃ t, exec (.tokenReceived p) s = .next t ∧ (t.pl p).pow.phase = .reset ∧ (t.pl p).pr.token = true ∧
      (t.pl p).pr.seqResets = min ((s.pl p).pr.seqResets + 1) 255 ∧ GMsg.leave ∈ t.gut p.peer ∧ (t.pl p).sl.jobs = [] ∧
      SameBut (.gut p.peer :: resetting p) s t) ∧
  (∀ (p : Plate) (l : List GMsg) (s : State), s.gut p = .token :: l → (s.pl p.peer).pow.phase = .reset →
    exec (.tokenReceived p) s =
      .next ((s.setGut p l).updPr p fun r => { r with token := true, asking := false, resetHeld := false })) ∧
  (∀ (p : Plate) (s : State), s.tokenDue p = true → s.gutterUp p = true →
    ∃ t, exec (.tokenPassTimeout p) s = .next t ∧ (t.pl p).pr.token = false ∧ (t.pl p).pr.resetHeld = false ∧
      t.gut p.peer = s.gut p.peer ++ [.token] ∧ SameBut [.pr p, .gut p.peer] s t) ∧
  (∀ (p : Plate) (s : State), s.tokenDue p = false → exec (.tokenPassTimeout p) s = .next s)

/-- The witness line (R217 to R220): WIT_CFG begins it, each interval writes beat and state and reads the line, a plate in
LEAVING only reads it; a beat that reads have shown unchanged for more than 20 ms is stale, three failed intervals are WIT_ERR,
and a line that names the peer holder of a later epoch makes the plate yield. -/
def Obligations.WitnessLine : Prop :=
  (∀ (p : Plate) (cfg : Word) (s : State), s.up p = true → (s.pl p).pow.ready = true → cfg.getLsbD 31 = true →
    (s.pl p).pr.witOn = false →
    exec (.witnessEnable p cfg) s = .next (s.updPr p fun r =>
      { r with witCfg := cfg &&& 0x80000001, firstRead := true, fails := 0, wrBad := false })) ∧
  (∀ (p : Plate) (ok : Bool) (s : State), s.up p = true → (s.pl p).pr.witOn = true → (s.pl p).pr.mode ≠ .leaving →
    s.past (s.pl p).pr.beatAt 1000 = true →
    ∃ t, exec (.witnessBeat p ok) s = .next t ∧ (t.pl p).pr.beat = (s.pl p).pr.beat + 1 ∧ (t.pl p).pr.wrBad = !ok ∧
      t.sent = s.sent ++ [.write p none (s.beatAddr p)
          (leBytes 4 ((s.pl p).pr.beat + 1).toNat ++ leBytes 4 (s.pl p).pr.mode.witness) false,
        .read p none (s.pl p).pr.witAddr 64 false] ∧
      SameBut [.pr p, .sl p, .pow p, .out] s t) ∧
  (∀ (p : Plate) (ok : Bool) (s : State), s.up p = true → (s.pl p).pr.witOn = true → (s.pl p).pr.mode = .leaving →
    s.past (s.pl p).pr.beatAt 1000 = true →
    ∃ t, exec (.witnessBeat p ok) s = .next t ∧ t.sent = s.sent ++ [.read p none (s.pl p).pr.witAddr 64 false] ∧
      SameBut [.pr p, .sl p, .pow p, .out] s t) ∧
  (∀ (p : Plate) (b : Bytes) (s : State), (∃ e ∈ (s.pl p).sl.reads, e.1 = .witness) → (s.pl p).pr.firstRead = false →
    (s.pl p).pr.witErr = false → (s.pl p).pr.mode ≠ .leaving →
    (let w := fit 64 b
     let o := if p = .a then 0x10 else 0x08
     ∃ t, exec (.witnessRead p (.ok b)) s = .next t ∧ (t.pl p).pr.epoch = BitVec.ofNat 32 (leAt w 0 4) ∧
       (if leAt w 4 1 = holderOf p.peer ∧ (s.pl p).pr.epoch.toNat < leAt w 0 4 then
          (t.pl p).pr.mode = .yielded ∧ (t.pl p).sl.jobs = [] ∧ SameBut [.pr p, .sl p, .out] s t
        else leAt w (o + 4) 4 ≠ 5 →
          (t.pl p).pr.mode = (s.pl p).pr.mode ∧
          (BitVec.ofNat 32 (leAt w o 4) ≠ (s.pl p).pr.peerBeat →
            (t.pl p).pr.fresh = true ∧ (t.pl p).pr.stale = false ∧ (t.pl p).pr.peerAt = s.clock) ∧
          (BitVec.ofNat 32 (leAt w o 4) = (s.pl p).pr.peerBeat →
            (t.pl p).pr.peerAt = (s.pl p).pr.peerAt ∧ (t.pl p).pr.stale = (s.pl p).pr.stale ∧ (t.pl p).pr.readAt = s.clock) ∧
          SameBut [.pr p, .sl p] s t))) ∧
  (∀ (p : Plate) (s : State), (∃ e ∈ (s.pl p).sl.reads, e.1 = .witness) →
    ∃ t, exec (.witnessRead p .fault) s = .next t ∧ (t.pl p).pr.fails = (s.pl p).pr.fails + 1 ∧ SameBut [.pr p, .sl p] s t) ∧
  (∀ (p : Plate) (s : State), s.up p = true → (s.pl p).pr.witOn = true → 3 ≤ (s.pl p).pr.fails → (s.pl p).pr.witErr = false →
    ∃ t, exec (.witnessError p) s = .next t ∧ (t.pl p).pr.witErr = true ∧ (t.pl p).pr.fresh = true ∧
      (t.pl p).pr.stale = false ∧ Latched s t p 8 ∧ SameBut (.pr p :: latching p) s t) ∧
  (∀ (p : Plate) (s : State), s.up p = true → (s.pl p).pr.witOn = true → (s.pl p).pr.firstRead = false →
    (s.pl p).pr.witErr = false → (s.pl p).pr.stale = false → (s.pl p).pr.peerAt + 20000 < (s.pl p).pr.readAt → (s.pl p).pr.atomic = false →
    exec (.peerStale p) s = .next (s.updPr p fun r => { r with stale := true, fresh := false })) ∧
  (∀ (p : Plate) (s : State), (s.pl p).pr.readAt ≤ (s.pl p).pr.peerAt + 20000 → exec (.peerStale p) s = .next s)

/-- The takeover (R216, R220, R224 to R226): a trigger compares and swaps the witness word or, where it cannot, fences; a swap
that found the expected word fences and one that did not yields; after 10 ms with the peer in reset the survivor homes every
slice alone in SOLE, and 10 ms later releases the fence. -/
def Obligations.TakeoverSequence : Prop :=
  (∀ (p : Plate) (l : List GMsg) (s : State), s.gut p = .leave :: l → (s.pl p).pr.mode = .paired → s.up p = true →
    (s.pl p).tmp.ko = false → (s.pl p).pr.takeover = none → (s.pl p).pr.cas = true →
    ∃ t, exec (.leaveRecv p) s = .next t ∧ t.gut p = l ∧
      (t.pl p).pr.takeover = some { st := .cas, since := s.clock, index := none,
                                      epoch := (s.pl p).pr.epoch, holder := (s.pl p).pr.holder } ∧
      t.out = s.out ++ [.cas p (s.pl p).pr.witAddr (witnessWord (s.pl p).pr.epoch (s.pl p).pr.holder.toNat)
        (witnessWord ((s.pl p).pr.epoch + 1) (holderOf p))] ∧ SameBut [.pr p, .gut p, .out] s t) ∧
  (∀ (r : JobRef) (j : Job) (s : State), s.hwAdmin r 0x90 = some j →
    (s.gutterUp r.plate = true ∧ s.up r.plate.peer = true ∧ (s.pl r.plate.peer).pr.mode = .paired →
      ∃ t, exec (.takeover r) s = .next t ∧ Completes s t r.plate j { status := .range } ∧ SameBut (completing r.plate) s t) ∧
    (s.gutterUp r.plate = false → s.up r.plate = true → (s.pl r.plate).tmp.ko = false →
      (s.pl r.plate).pr.mode = .paired → (s.pl r.plate).pr.takeover = none → (s.pl r.plate).pr.cas = false →
      s.homesAll r.plate = false →
      exec (.takeover r) s = .next (s.updPr r.plate fun x => { x with
        fencing := true, takeover := some { st := .quiet, since := s.clock, index := some r.index,
                                             epoch := x.epoch, holder := x.holder } })) ∧
    (s.gutterUp r.plate = false → s.homesAll r.plate = true → s.peerInService r.plate = false →
      ∃ t, exec (.takeover r) s = .next t ∧ Completes s t r.plate j {} ∧ SameBut (completing r.plate) s t)) ∧
  (∀ (p : Plate) (k : Takeover) (v : DWord) (s : State), (s.pl p).pr.takeover = some k → k.st = .cas → s.up p = true →
    (s.pl p).tmp.ko = false →
    ∃ t, exec (.takeoverCasDone p (some v)) s = .next t ∧
      (if v = witnessWord k.epoch k.holder.toNat then
         (t.pl p).pr.epoch = k.epoch + 1 ∧ (t.pl p).pr.holder = BitVec.ofNat 8 (holderOf p) ∧
         (t.pl p).pr.fencing = true ∧ (t.pl p).pr.takeover = some { k with st := .quiet, since := s.clock } ∧
         SameBut [.pr p] s t
       else (t.pl p).pr.mode = .yielded ∧ (t.pl p).pr.takeover = none ∧ (t.pl p).sl.jobs = [] ∧
         SameBut [.pr p, .sl p, .out] s t) ∧
      exec (.takeoverCasDone p none) s = .next (s.updPr p fun r => { r with takeover := none })) ∧
  (∀ (p : Plate) (k : Takeover) (scans : List RingScan) (s : State), (s.pl p).pr.takeover = some k → k.st = .quiet →
    s.past k.since 10000 = true → (s.pl p).tmp.ko = false → s.up p = true → s.up p.peer = false →
    ∃ t, exec (.takeoverQuietEnd p scans) s = .next t ∧ (t.pl p).pr.mode = .sole ∧
      (t.pl p).pr.takeovers = min ((s.pl p).pr.takeovers + 1) 65535 ∧
      (t.pl p).pr.takeover = some { st := .hold, since := s.clock } ∧ (t.pl p).pr.admWindow = none ∧ t.gut p = [] ∧
      t.gut p.peer = [] ∧ (t.pl p.peer).sl.ops = [] ∧ (t.pl p).rng.pool.length ≤ (s.pl p).rng.pool.length ∧ s.out <+: t.out ∧
      (∀ x ∈ [Part.margin, .pwrgood, .clkreqLow, .tapIr, .clock, .pending, .tmp p.peer], Same s t x)) ∧
  (∀ (p : Plate) (k : Takeover) (s : State), (s.pl p).pr.takeover = some k → k.st = .hold → s.past k.since 10000 = true →
    exec (.fenceHoldEnd p) s = .next (s.updPr p fun r => { r with fencing := false, takeover := none }))

/-- The fence wires (R216): a plate whose peer asserts them goes into reset, fenced, and stays so while the wires are held: it
cannot start, and its own fence output is released and has no effect; where both plates assert, only Plate A's assertion holds.
The released plate is let go (R226). -/
def Obligations.FenceWires : Prop :=
  (∀ (p : Plate) (s : State), (s.pl p.peer).pr.fencing = true → (s.pl p).pow.phase = .running → (s.pl p).pow.fenced = false →
    (p = .a → (s.pl p).pr.fencing = false) →
    ∃ t, exec (.fenceAsserted p) s = .next t ∧ PlateReset s t p ∧ (t.pl p).pow.fenced = true ∧
      (t.pl p).pr.fencing = false ∧ exec (.fenceAsserted p.peer) t = .next t ∧
      (∀ c x y l, exec (.powerUp p ⟨c, x, y⟩ l) t = .next t) ∧ SameBut (resetting p) s t) ∧
  (∀ (p : Plate) (c : ChaseReading) (x : RandomStart) (y : LinkShape) (l : List RingScan) (s : State), (s.pl p.peer).pr.fencing = true →
    (s.pl p).pow.phase = .reset → (s.pl p).pow.fenced = true →
    exec (.fenceReleased p) s = .next s ∧ exec (.powerUp p ⟨c, x, y⟩ l) s = .next s) ∧
  (∀ s : State, (s.pl .a).pr.fencing = true → exec (.fenceAsserted .a) s = .next s) ∧
  (∀ (p : Plate) (s : State), (s.pl p).pow.fenced = true → (s.pl p.peer).pr.fencing = false →
    exec (.fenceReleased p) s = .next (s.updPow p fun w => { w with fenced := false, bootAt := s.clock }))

/-- A custody page's content, without the tag of the plate that holds it. -/
def pageContent (c : CustodyPage) : CustodyPage := { c with tag := [], tagOk := true }

/-- Hand-over and return (R226, R227, R375, Tables 9.4, 9.5, 9.9): REBALANCE commits MOVING; a drained slice's state goes to
its new home, which commits the new home; a peer back without homes begins its resync, at whose end both plates are PAIRED
with the same tables; and a partition ends with both vaults reconciled. -/
def Obligations.HandoverAndRejoin : Prop :=
  (∀ (r : JobRef) (j : Job) (s : State), s.hwAdmin r 0x91 = some j → s.gutterUp r.plate = true → s.impoBusy = false →
    ∃ t, exec (.rebalance r) s = .next t ∧
      (let p := r.plate
       let i := j.desc.fl 4 12
       let n := rebalanceTo j.desc
       let e := s.impo p i
       if e.st ≠ .active ∨ e.home = n ∨ e.pasid n = none ∨ (s.pl p).pr.mode ≠ .paired ∨ (s.pl p.peer).pr.mode ≠ .paired then
         Completes s t p j { status := .range }
       else if s.wear p = 3 then Completes s t p j { status := .vaultRo }
       else (t.jobAt r).map Job.stage = some .running ∧
         ChangeBegun s t n.peer [.impo i { s.impo n.peer i with st := .moving }]) ∧
      SameBut ([.vlt .a, .vlt .b, .gut .a, .gut .b] ++ completing r.plate) s t) ∧
  (∀ (r : JobRef) (j : Job) (s : State), s.hwAdmin r 0x91 = some j → s.gutterUp r.plate = false →
    ∃ t, exec (.rebalance r) s = .next t ∧ Completes s t r.plate j { status := .partitioned } ∧
      SameBut (completing r.plate) s t) ∧
  (∀ (o : Plate) (i : Nat) (s : State), (s.impo o i).st = .moving → (s.impo o i).home = o → s.up o = true →
    (s.pl o).tmp.ko = false → s.gutterUp o = true → s.movedSent o.peer i = false →
    (∀ j ∈ (s.pl o).sl.jobs, ringSlice j.ring ≠ some i) →
    ∃ t, exec (.handoverDrainDone o i) s = .next t ∧ t.gut o.peer = s.gut o.peer ++ [.moved (s.pl o).vlt.kr.mirror (s.movedState o i)] ∧
      (t.pl o).sl.jobs = (s.pl o).sl.jobs ∧ (t.pl o).sl.impo = (s.pl o).sl.impo ∧ SameBut [.sl o, .gut o.peer] s t) ∧
  (∀ (o : Plate) (i : Nat) (s : State), (s.impo o i).st = .moving → (s.impo o i).home = o → s.up o = true →
    (s.pl o).tmp.ko = false → s.gutterUp o = true → s.movedSent o.peer i = false →
    (∀ j ∈ (s.pl o).sl.jobs, ringSlice j.ring = some i → s.movable j = true ∧ (s.ring o j.ring).covers j.index = false) →
    ∃ t m, exec (.handoverDrainDone o i) s = .next t ∧ t.gut o.peer = s.gut o.peer ++ [.moved (s.pl o).vlt.kr.mirror m] ∧ m.slice = i ∧
      (∀ j ∈ (t.pl o).sl.jobs, ringSlice j.ring = some i → (j.stage = .parked ∨ j.stage = .restart) ∧ j.unit = none) ∧
      (t.pl o).sl.jobs.length = (s.pl o).sl.jobs.length ∧ (t.pl o).sl.impo = (s.pl o).sl.impo ∧
      SameBut [.sl o, .gut o.peer] s t) ∧
  (∀ (n : Plate) (key : Bytes) (m : Moved) (l : List GMsg) (scans : List RingScan) (s : State), s.gut n = .moved key m :: l →
    s.opens n key = true →
    ∃ t, exec (.handoverStateRecv n m.slice scans) s = .next t ∧
      ChangeBegun (s.setGut n l) t n [.impo m.slice { s.impo n m.slice with home := n, st := .active }] ∧
      (t.pl n).pr.pending = (s.pl n).pr.pending ++ [(m.slice, { m with scans := scans })] ∧ t.gut n = l ∧
      SameBut [.pr n, .vlt n, .nvm n, .gut .a, .gut .b] s t) ∧
  (∀ (p : Plate) (s : State), s.joined = true → (s.pl p).pr.mode = .sole → (s.pl p.peer).pr.mode = .resync →
    (s.pl p.peer).pr.rejoin = true →
    exec (.peerRejoin p) s = .next (s.updPr p fun r => { r with mode := .resync, rejoin := false })) ∧
  (∀ (p : Plate) (s : State), s.joined = true → (s.pl p).pr.mode = .resync → (s.pl p).pr.rejoin = false →
    (s.pl p.peer).pr.mode = .resync → (s.pl p.peer).pr.rejoin = true → (s.pl p).vlt.changes = [] → (s.pl p).pr.cas = false →
    (s.pl p).pr.makeready = none → s.needsToken p = false → s.needsToken p.peer = false →
    (s.pl p.peer).pr.makeready = none → (s.pl p).cus.page.tagOk = true → s.rootWaits = false →
    ∃ t, exec (.resyncComplete p none) s = .next t ∧ (∀ q : Plate, (t.pl q).pr.mode = .paired ∧ (t.pl q).pr.rejoin = false) ∧
      (∀ k, (t.pl p.peer).vlt.slots.get {} k =
        sentSlot ((s.pl p).vlt.slots.get {} k) ((s.pl p.peer).vlt.slots.get {} k)) ∧
      (∀ k, (t.pl p.peer).vlt.recs.get {} k = sentRec ((s.pl p).vlt.recs.get {} k) ((s.pl p.peer).vlt.recs.get {} k)) ∧
      (t.pl p.peer).vlt.ledger = sentLedger (s.pl p).vlt (s.pl p.peer).vlt ∧ (t.pl p.peer).sl.impo = (s.pl p).sl.impo ∧
      (∀ q : Plate, (t.pl q).vlt.counter = max (s.pl p).vlt.counter (s.pl p.peer).vlt.counter) ∧
      pageContent (t.pl p.peer).cus.page = pageContent (s.pl p).cus.page ∧ s.out <+: t.out ∧
      SameBut [.pr .a, .pr .b, .vlt .a, .vlt .b, .sl p.peer, .cus p.peer, .pow p.peer, .rng .a, .rng .b, .tmp p.peer, .mrg p.peer,
        .free, .out] s t) ∧
  (∀ (p : Plate) (old : Option DWord) (s : State), s.joined = true → (s.pl p).pr.mode = .resync → (s.pl p).pr.rejoin = false →
    (s.pl p.peer).pr.mode = .resync → (s.pl p.peer).pr.rejoin = true → (s.pl p).vlt.changes = [] → (s.pl p).pr.cas = true →
    s.rootWaits = false →
    (let now := witnessWord (s.pl p).pr.epoch (s.pl p).pr.holder.toNat
     old ≠ some now →
     exec (.resyncComplete p old) s =
       .next (s.emit (.cas p (s.pl p).pr.witAddr now (witnessWord ((s.pl p).pr.epoch + 1) 0))))) ∧
  (∀ (p : Plate) (s : State), s.joined = true → (s.pl p).pr.reconciling = true → s.bothHome = true →
    (s.pl .a).vlt.changes = [] → (s.pl .b).vlt.changes = [] → (s.pl .a).sl.jobs = [] → (s.pl .b).sl.jobs = [] →
    (s.pl .a).sl.ops = [] → (s.pl .b).sl.ops = [] → s.pa.cus.page.tagOk = true ∨ s.pb.cus.page.tagOk = true →
    s.rootWaits = false →
    ∃ t, exec (.reconcileDone p) s = .next t ∧ (∀ q : Plate, (t.pl q).pr.mode = .paired ∧ (t.pl q).pr.reconciling = false) ∧
      t.pa.vlt.slots = t.pb.vlt.slots ∧ t.pa.vlt.ledger = t.pb.vlt.ledger ∧ t.pa.vlt.recs = t.pb.vlt.recs ∧
      t.pa.sl.impo = t.pb.sl.impo ∧ pageContent t.pa.cus.page = pageContent t.pb.cus.page ∧ t.pa.vlt.counter = t.pb.vlt.counter ∧ s.out <+: t.out ∧
      (∀ x ∈ [Part.margin, .pwrgood, .clkreqLow, .tapIr, .clock, .pending, .flt .a, .flt .b, .mgt .a, .mgt .b, .gut .a, .gut .b],
        Same s t x))

/-! ## The whole machine -/

/-- Legal states: the fuse bytes hold a value of R248, the entropy pool holds at most 64 blocks (R194), and at most 4 NVM groups
are in progress (R334). -/
def LegalState (s : State) : Prop :=
  ∀ p : Plate, ((s.pl p).cus.idf = 0x00 ∨ (s.pl p).cus.idf = 0x0F) ∧ ((s.pl p).cus.rtf = 0x00 ∨ (s.pl p).cus.rtf = 0x66) ∧
    (s.pl p).rng.pool.length ≤ 64 ∧ (s.pl p).nvm.groups.length ≤ 4

/-- Every step from a legal state leads to a legal state, whatever command it runs. -/
def Obligations.LegalStatesStayLegal : Prop :=
  ∀ s t : State, LegalState s → step s = .next t → LegalState t

/-- What no step takes back: what was sent stays sent, the queue loses only its front, no command moves the clock, a blown fuse
stays blown, and the volatile epoch never falls. Every step answers a next state. -/
def Obligations.StepsKeepHistory : Prop :=
  ∀ s : State, ∃ t, step s = .next t ∧ s.out <+: t.out ∧ t.pending = s.pending.tail ∧ s.free ≤ t.free ∧
    t.clock = s.clock + (if s.pending = [] then 1 else 0) ∧
    ∀ p : Plate, ((s.pl p).cus.idf = 0x0F → (t.pl p).cus.idf = 0x0F) ∧ ((s.pl p).cus.rtf = 0x66 → (t.pl p).cus.rtf = 0x66) ∧
      (s.pl p).vlt.epoch ≤ (t.pl p).vlt.epoch

/-- HALTED (R205): no step leaves it but one that takes the plate out of service (a reset, or its power going), whatever a
cell's bits do meanwhile; while it lasts a read of RNG_DATA ends at once with a bus error, and so do the reads that are
stalled when the halt begins, each of them, of either world. -/
def Obligations.HaltedUntilReset : Prop :=
  (∀ (s t : State) (p : Plate), step s = .next t → s.up p = true → (s.pl p).rng.st = .halted → t.up p = true →
    (t.pl p).rng.st = .halted) ∧
  (∀ (s : State) (p : Plate) (w : World) (n : Nat), s.up p = true → n = 32 ∨ n = 64 → (s.pl p).rng.st = .halted →
    exec (.rngDataRead p w n) s = .next (s.emit (.reply p none))) ∧
  (∀ (s : State) (p : Plate) (cell cause : Nat), (s.pl p).rng.st ≠ .halted →
    (let t := s.entropyHalt p cell cause
     (t.pl p).rng.st = .halted ∧ (t.pl p).rng.stalls = [] ∧
     ∃ l, t.out = s.out ++ (s.pl p).rng.stalls.map (fun _ => .reply p none) ++ l))

/-- The state after reset: legal; both plates without power, as shipped UNINITIALISED (the model's choice, log 6), with no job,
no root, no session and no fault; registers at the reset values of their tables, and nothing sent or waiting. -/
def Obligations.ResetState : Prop :=
  LegalState State.reset ∧ State.reset.out = [] ∧ State.reset.pending = [] ∧ State.reset.pwrgood = false ∧ State.reset.clkreqLow = false ∧
  State.reset.margin.powered = false ∧ State.reset.tapIr = 0x01 ∧
  ∀ p : Plate, State.reset.up p = false ∧ State.reset.lifecycle p = 0x33 ∧ (State.reset.pl p).sl.jobs = [] ∧
    (State.reset.pl p).vlt.root = none ∧ (State.reset.pl p).cus.sessions = [] ∧ (State.reset.pl p).flt.status = 0 ∧
    (State.reset.pl p).flt.graceMs = 100 ∧ (State.reset.pl p).flt.outEn = 0x000003FF7F000000 ∧
    (State.reset.pl p).tmp.armed = false ∧ (State.reset.pl p).mgt.own = 0x2C30F ∧ (State.reset.pl p).mgt.wmSram = 0x80 ∧
    (State.reset.pl p).mgt.wmLpddr = 0x4000 ∧ (State.reset.pl p).pow.target = 800 ∧
    (∀ i, State.reset.impo p i = {}) ∧ (∀ v, (State.reset.msixEntry p v).2.2 = true)
end

