-- ==== Sys2Proof/Laws/State.lean ====
section
/-! SUPPORT. Reading one field of the state after one update of it: each lemma is true by computation. -/

namespace Sys2Proof.Machine

/-! ## Plates -/

@[simp] theorem Plate.peer_peer (p : Plate) : p.peer.peer = p := by cases p <;> rfl
@[simp] theorem Plate.peer_ne (p : Plate) : p.peer ≠ p := by cases p <;> decide
@[simp] theorem Plate.ne_peer (p : Plate) : p ≠ p.peer := by cases p <;> decide
@[simp] theorem State.setPl_self (s : State) (p : Plate) (v : PlateState) : (s.setPl p v).pl p = v := by cases p <;> rfl
@[simp] theorem State.setPl_peer (s : State) (p : Plate) (v : PlateState) : (s.setPl p v).pl p.peer = s.pl p.peer := by
  cases p <;> rfl
@[simp] theorem State.pl_a (s : State) : s.pl .a = s.pa := rfl
@[simp] theorem State.pl_b (s : State) : s.pl .b = s.pb := rfl

@[simp] theorem State.setPl_gutA (s : State) (p : Plate) (v : PlateState) : (s.setPl p v).gutA = s.gutA := by cases p <;> rfl
@[simp] theorem State.setPl_gutB (s : State) (p : Plate) (v : PlateState) : (s.setPl p v).gutB = s.gutB := by cases p <;> rfl
@[simp] theorem State.setPl_margin (s : State) (p : Plate) (v : PlateState) : (s.setPl p v).margin = s.margin := by cases p <;> rfl
@[simp] theorem State.setPl_pwrgood (s : State) (p : Plate) (v : PlateState) : (s.setPl p v).pwrgood = s.pwrgood := by cases p <;> rfl
@[simp] theorem State.setPl_clkreqLow (s : State) (p : Plate) (v : PlateState) : (s.setPl p v).clkreqLow = s.clkreqLow := by cases p <;> rfl
@[simp] theorem State.setPl_tapIr (s : State) (p : Plate) (v : PlateState) : (s.setPl p v).tapIr = s.tapIr := by cases p <;> rfl
@[simp] theorem State.setPl_clock (s : State) (p : Plate) (v : PlateState) : (s.setPl p v).clock = s.clock := by cases p <;> rfl
@[simp] theorem State.setPl_free (s : State) (p : Plate) (v : PlateState) : (s.setPl p v).free = s.free := by cases p <;> rfl
@[simp] theorem State.setPl_out (s : State) (p : Plate) (v : PlateState) : (s.setPl p v).out = s.out := by cases p <;> rfl
@[simp] theorem State.setPl_pending (s : State) (p : Plate) (v : PlateState) : (s.setPl p v).pending = s.pending := by cases p <;> rfl

/-! ## The parts of a plate -/

@[simp] theorem State.updPow_self (s : State) (p : Plate) (f : Power → Power) : ((s.updPow p f).pl p).pow = f (s.pl p).pow := by
  cases p <;> rfl
@[simp] theorem State.updPow_peer (s : State) (p : Plate) (f : Power → Power) : (s.updPow p f).pl p.peer = s.pl p.peer := by
  cases p <;> rfl
theorem State.updPow_comm (s : State) (p : Plate) (f g : Power → Power) :
    (s.updPow p f).updPow p g = s.updPow p fun x => g (f x) := by cases p <;> rfl
@[simp] theorem State.updPow_sl (s : State) (p q : Plate) (f : Power → Power) : ((s.updPow p f).pl q).sl = (s.pl q).sl := by
  cases p <;> cases q <;> rfl
@[simp] theorem State.updPow_vlt (s : State) (p q : Plate) (f : Power → Power) : ((s.updPow p f).pl q).vlt = (s.pl q).vlt := by
  cases p <;> cases q <;> rfl
@[simp] theorem State.updPow_rng (s : State) (p q : Plate) (f : Power → Power) : ((s.updPow p f).pl q).rng = (s.pl q).rng := by
  cases p <;> cases q <;> rfl
@[simp] theorem State.updPow_pr (s : State) (p q : Plate) (f : Power → Power) : ((s.updPow p f).pl q).pr = (s.pl q).pr := by
  cases p <;> cases q <;> rfl
@[simp] theorem State.updPow_cus (s : State) (p q : Plate) (f : Power → Power) : ((s.updPow p f).pl q).cus = (s.pl q).cus := by
  cases p <;> cases q <;> rfl
@[simp] theorem State.updPow_mrg (s : State) (p q : Plate) (f : Power → Power) : ((s.updPow p f).pl q).mrg = (s.pl q).mrg := by
  cases p <;> cases q <;> rfl
@[simp] theorem State.updPow_tmp (s : State) (p q : Plate) (f : Power → Power) : ((s.updPow p f).pl q).tmp = (s.pl q).tmp := by
  cases p <;> cases q <;> rfl
@[simp] theorem State.updPow_flt (s : State) (p q : Plate) (f : Power → Power) : ((s.updPow p f).pl q).flt = (s.pl q).flt := by
  cases p <;> cases q <;> rfl
@[simp] theorem State.updPow_mgt (s : State) (p q : Plate) (f : Power → Power) : ((s.updPow p f).pl q).mgt = (s.pl q).mgt := by
  cases p <;> cases q <;> rfl
@[simp] theorem State.updPow_nvm (s : State) (p q : Plate) (f : Power → Power) : ((s.updPow p f).pl q).nvm = (s.pl q).nvm := by
  cases p <;> cases q <;> rfl
@[simp] theorem State.updPow_gutA (s : State) (p : Plate) (f : Power → Power) : (s.updPow p f).gutA = s.gutA := by cases p <;> rfl
@[simp] theorem State.updPow_gutB (s : State) (p : Plate) (f : Power → Power) : (s.updPow p f).gutB = s.gutB := by cases p <;> rfl
@[simp] theorem State.updPow_margin (s : State) (p : Plate) (f : Power → Power) : (s.updPow p f).margin = s.margin := by cases p <;> rfl
@[simp] theorem State.updPow_pwrgood (s : State) (p : Plate) (f : Power → Power) : (s.updPow p f).pwrgood = s.pwrgood := by cases p <;> rfl
@[simp] theorem State.updPow_clkreqLow (s : State) (p : Plate) (f : Power → Power) : (s.updPow p f).clkreqLow = s.clkreqLow := by cases p <;> rfl
@[simp] theorem State.updPow_tapIr (s : State) (p : Plate) (f : Power → Power) : (s.updPow p f).tapIr = s.tapIr := by cases p <;> rfl
@[simp] theorem State.updPow_clock (s : State) (p : Plate) (f : Power → Power) : (s.updPow p f).clock = s.clock := by cases p <;> rfl
@[simp] theorem State.updPow_free (s : State) (p : Plate) (f : Power → Power) : (s.updPow p f).free = s.free := by cases p <;> rfl
@[simp] theorem State.updPow_out (s : State) (p : Plate) (f : Power → Power) : (s.updPow p f).out = s.out := by cases p <;> rfl
@[simp] theorem State.updPow_pending (s : State) (p : Plate) (f : Power → Power) : (s.updPow p f).pending = s.pending := by cases p <;> rfl
@[simp] theorem State.updSl_self (s : State) (p : Plate) (f : Slices → Slices) : ((s.updSl p f).pl p).sl = f (s.pl p).sl := by
  cases p <;> rfl
@[simp] theorem State.updSl_peer (s : State) (p : Plate) (f : Slices → Slices) : (s.updSl p f).pl p.peer = s.pl p.peer := by
  cases p <;> rfl
theorem State.updSl_comm (s : State) (p : Plate) (f g : Slices → Slices) :
    (s.updSl p f).updSl p g = s.updSl p fun x => g (f x) := by cases p <;> rfl
@[simp] theorem State.updSl_pow (s : State) (p q : Plate) (f : Slices → Slices) : ((s.updSl p f).pl q).pow = (s.pl q).pow := by
  cases p <;> cases q <;> rfl
@[simp] theorem State.updSl_vlt (s : State) (p q : Plate) (f : Slices → Slices) : ((s.updSl p f).pl q).vlt = (s.pl q).vlt := by
  cases p <;> cases q <;> rfl
@[simp] theorem State.updSl_rng (s : State) (p q : Plate) (f : Slices → Slices) : ((s.updSl p f).pl q).rng = (s.pl q).rng := by
  cases p <;> cases q <;> rfl
@[simp] theorem State.updSl_pr (s : State) (p q : Plate) (f : Slices → Slices) : ((s.updSl p f).pl q).pr = (s.pl q).pr := by
  cases p <;> cases q <;> rfl
@[simp] theorem State.updSl_cus (s : State) (p q : Plate) (f : Slices → Slices) : ((s.updSl p f).pl q).cus = (s.pl q).cus := by
  cases p <;> cases q <;> rfl
@[simp] theorem State.updSl_mrg (s : State) (p q : Plate) (f : Slices → Slices) : ((s.updSl p f).pl q).mrg = (s.pl q).mrg := by
  cases p <;> cases q <;> rfl
@[simp] theorem State.updSl_tmp (s : State) (p q : Plate) (f : Slices → Slices) : ((s.updSl p f).pl q).tmp = (s.pl q).tmp := by
  cases p <;> cases q <;> rfl
@[simp] theorem State.updSl_flt (s : State) (p q : Plate) (f : Slices → Slices) : ((s.updSl p f).pl q).flt = (s.pl q).flt := by
  cases p <;> cases q <;> rfl
@[simp] theorem State.updSl_mgt (s : State) (p q : Plate) (f : Slices → Slices) : ((s.updSl p f).pl q).mgt = (s.pl q).mgt := by
  cases p <;> cases q <;> rfl
@[simp] theorem State.updSl_nvm (s : State) (p q : Plate) (f : Slices → Slices) : ((s.updSl p f).pl q).nvm = (s.pl q).nvm := by
  cases p <;> cases q <;> rfl
@[simp] theorem State.updSl_gutA (s : State) (p : Plate) (f : Slices → Slices) : (s.updSl p f).gutA = s.gutA := by cases p <;> rfl
@[simp] theorem State.updSl_gutB (s : State) (p : Plate) (f : Slices → Slices) : (s.updSl p f).gutB = s.gutB := by cases p <;> rfl
@[simp] theorem State.updSl_margin (s : State) (p : Plate) (f : Slices → Slices) : (s.updSl p f).margin = s.margin := by cases p <;> rfl
@[simp] theorem State.updSl_pwrgood (s : State) (p : Plate) (f : Slices → Slices) : (s.updSl p f).pwrgood = s.pwrgood := by cases p <;> rfl
@[simp] theorem State.updSl_clkreqLow (s : State) (p : Plate) (f : Slices → Slices) : (s.updSl p f).clkreqLow = s.clkreqLow := by cases p <;> rfl
@[simp] theorem State.updSl_tapIr (s : State) (p : Plate) (f : Slices → Slices) : (s.updSl p f).tapIr = s.tapIr := by cases p <;> rfl
@[simp] theorem State.updSl_clock (s : State) (p : Plate) (f : Slices → Slices) : (s.updSl p f).clock = s.clock := by cases p <;> rfl
@[simp] theorem State.updSl_free (s : State) (p : Plate) (f : Slices → Slices) : (s.updSl p f).free = s.free := by cases p <;> rfl
@[simp] theorem State.updSl_out (s : State) (p : Plate) (f : Slices → Slices) : (s.updSl p f).out = s.out := by cases p <;> rfl
@[simp] theorem State.updSl_pending (s : State) (p : Plate) (f : Slices → Slices) : (s.updSl p f).pending = s.pending := by cases p <;> rfl
@[simp] theorem State.updVlt_self (s : State) (p : Plate) (f : Vault → Vault) : ((s.updVlt p f).pl p).vlt = f (s.pl p).vlt := by
  cases p <;> rfl
@[simp] theorem State.updVlt_peer (s : State) (p : Plate) (f : Vault → Vault) : (s.updVlt p f).pl p.peer = s.pl p.peer := by
  cases p <;> rfl
theorem State.updVlt_comm (s : State) (p : Plate) (f g : Vault → Vault) :
    (s.updVlt p f).updVlt p g = s.updVlt p fun x => g (f x) := by cases p <;> rfl
@[simp] theorem State.updVlt_pow (s : State) (p q : Plate) (f : Vault → Vault) : ((s.updVlt p f).pl q).pow = (s.pl q).pow := by
  cases p <;> cases q <;> rfl
@[simp] theorem State.updVlt_sl (s : State) (p q : Plate) (f : Vault → Vault) : ((s.updVlt p f).pl q).sl = (s.pl q).sl := by
  cases p <;> cases q <;> rfl
@[simp] theorem State.updVlt_rng (s : State) (p q : Plate) (f : Vault → Vault) : ((s.updVlt p f).pl q).rng = (s.pl q).rng := by
  cases p <;> cases q <;> rfl
@[simp] theorem State.updVlt_pr (s : State) (p q : Plate) (f : Vault → Vault) : ((s.updVlt p f).pl q).pr = (s.pl q).pr := by
  cases p <;> cases q <;> rfl
@[simp] theorem State.updVlt_cus (s : State) (p q : Plate) (f : Vault → Vault) : ((s.updVlt p f).pl q).cus = (s.pl q).cus := by
  cases p <;> cases q <;> rfl
@[simp] theorem State.updVlt_mrg (s : State) (p q : Plate) (f : Vault → Vault) : ((s.updVlt p f).pl q).mrg = (s.pl q).mrg := by
  cases p <;> cases q <;> rfl
@[simp] theorem State.updVlt_tmp (s : State) (p q : Plate) (f : Vault → Vault) : ((s.updVlt p f).pl q).tmp = (s.pl q).tmp := by
  cases p <;> cases q <;> rfl
@[simp] theorem State.updVlt_flt (s : State) (p q : Plate) (f : Vault → Vault) : ((s.updVlt p f).pl q).flt = (s.pl q).flt := by
  cases p <;> cases q <;> rfl
@[simp] theorem State.updVlt_mgt (s : State) (p q : Plate) (f : Vault → Vault) : ((s.updVlt p f).pl q).mgt = (s.pl q).mgt := by
  cases p <;> cases q <;> rfl
@[simp] theorem State.updVlt_nvm (s : State) (p q : Plate) (f : Vault → Vault) : ((s.updVlt p f).pl q).nvm = (s.pl q).nvm := by
  cases p <;> cases q <;> rfl
@[simp] theorem State.updVlt_gutA (s : State) (p : Plate) (f : Vault → Vault) : (s.updVlt p f).gutA = s.gutA := by cases p <;> rfl
@[simp] theorem State.updVlt_gutB (s : State) (p : Plate) (f : Vault → Vault) : (s.updVlt p f).gutB = s.gutB := by cases p <;> rfl
@[simp] theorem State.updVlt_margin (s : State) (p : Plate) (f : Vault → Vault) : (s.updVlt p f).margin = s.margin := by cases p <;> rfl
@[simp] theorem State.updVlt_pwrgood (s : State) (p : Plate) (f : Vault → Vault) : (s.updVlt p f).pwrgood = s.pwrgood := by cases p <;> rfl
@[simp] theorem State.updVlt_clkreqLow (s : State) (p : Plate) (f : Vault → Vault) : (s.updVlt p f).clkreqLow = s.clkreqLow := by cases p <;> rfl
@[simp] theorem State.updVlt_tapIr (s : State) (p : Plate) (f : Vault → Vault) : (s.updVlt p f).tapIr = s.tapIr := by cases p <;> rfl
@[simp] theorem State.updVlt_clock (s : State) (p : Plate) (f : Vault → Vault) : (s.updVlt p f).clock = s.clock := by cases p <;> rfl
@[simp] theorem State.updVlt_free (s : State) (p : Plate) (f : Vault → Vault) : (s.updVlt p f).free = s.free := by cases p <;> rfl
@[simp] theorem State.updVlt_out (s : State) (p : Plate) (f : Vault → Vault) : (s.updVlt p f).out = s.out := by cases p <;> rfl
@[simp] theorem State.updVlt_pending (s : State) (p : Plate) (f : Vault → Vault) : (s.updVlt p f).pending = s.pending := by cases p <;> rfl
@[simp] theorem State.updRng_self (s : State) (p : Plate) (f : Rng → Rng) : ((s.updRng p f).pl p).rng = f (s.pl p).rng := by
  cases p <;> rfl
@[simp] theorem State.updRng_peer (s : State) (p : Plate) (f : Rng → Rng) : (s.updRng p f).pl p.peer = s.pl p.peer := by
  cases p <;> rfl
theorem State.updRng_comm (s : State) (p : Plate) (f g : Rng → Rng) :
    (s.updRng p f).updRng p g = s.updRng p fun x => g (f x) := by cases p <;> rfl
@[simp] theorem State.updRng_pow (s : State) (p q : Plate) (f : Rng → Rng) : ((s.updRng p f).pl q).pow = (s.pl q).pow := by
  cases p <;> cases q <;> rfl
@[simp] theorem State.updRng_sl (s : State) (p q : Plate) (f : Rng → Rng) : ((s.updRng p f).pl q).sl = (s.pl q).sl := by
  cases p <;> cases q <;> rfl
@[simp] theorem State.updRng_vlt (s : State) (p q : Plate) (f : Rng → Rng) : ((s.updRng p f).pl q).vlt = (s.pl q).vlt := by
  cases p <;> cases q <;> rfl
@[simp] theorem State.updRng_pr (s : State) (p q : Plate) (f : Rng → Rng) : ((s.updRng p f).pl q).pr = (s.pl q).pr := by
  cases p <;> cases q <;> rfl
@[simp] theorem State.updRng_cus (s : State) (p q : Plate) (f : Rng → Rng) : ((s.updRng p f).pl q).cus = (s.pl q).cus := by
  cases p <;> cases q <;> rfl
@[simp] theorem State.updRng_mrg (s : State) (p q : Plate) (f : Rng → Rng) : ((s.updRng p f).pl q).mrg = (s.pl q).mrg := by
  cases p <;> cases q <;> rfl
@[simp] theorem State.updRng_tmp (s : State) (p q : Plate) (f : Rng → Rng) : ((s.updRng p f).pl q).tmp = (s.pl q).tmp := by
  cases p <;> cases q <;> rfl
@[simp] theorem State.updRng_flt (s : State) (p q : Plate) (f : Rng → Rng) : ((s.updRng p f).pl q).flt = (s.pl q).flt := by
  cases p <;> cases q <;> rfl
@[simp] theorem State.updRng_mgt (s : State) (p q : Plate) (f : Rng → Rng) : ((s.updRng p f).pl q).mgt = (s.pl q).mgt := by
  cases p <;> cases q <;> rfl
@[simp] theorem State.updRng_nvm (s : State) (p q : Plate) (f : Rng → Rng) : ((s.updRng p f).pl q).nvm = (s.pl q).nvm := by
  cases p <;> cases q <;> rfl
@[simp] theorem State.updRng_gutA (s : State) (p : Plate) (f : Rng → Rng) : (s.updRng p f).gutA = s.gutA := by cases p <;> rfl
@[simp] theorem State.updRng_gutB (s : State) (p : Plate) (f : Rng → Rng) : (s.updRng p f).gutB = s.gutB := by cases p <;> rfl
@[simp] theorem State.updRng_margin (s : State) (p : Plate) (f : Rng → Rng) : (s.updRng p f).margin = s.margin := by cases p <;> rfl
@[simp] theorem State.updRng_pwrgood (s : State) (p : Plate) (f : Rng → Rng) : (s.updRng p f).pwrgood = s.pwrgood := by cases p <;> rfl
@[simp] theorem State.updRng_clkreqLow (s : State) (p : Plate) (f : Rng → Rng) : (s.updRng p f).clkreqLow = s.clkreqLow := by cases p <;> rfl
@[simp] theorem State.updRng_tapIr (s : State) (p : Plate) (f : Rng → Rng) : (s.updRng p f).tapIr = s.tapIr := by cases p <;> rfl
@[simp] theorem State.updRng_clock (s : State) (p : Plate) (f : Rng → Rng) : (s.updRng p f).clock = s.clock := by cases p <;> rfl
@[simp] theorem State.updRng_free (s : State) (p : Plate) (f : Rng → Rng) : (s.updRng p f).free = s.free := by cases p <;> rfl
@[simp] theorem State.updRng_out (s : State) (p : Plate) (f : Rng → Rng) : (s.updRng p f).out = s.out := by cases p <;> rfl
@[simp] theorem State.updRng_pending (s : State) (p : Plate) (f : Rng → Rng) : (s.updRng p f).pending = s.pending := by cases p <;> rfl
@[simp] theorem State.updPr_self (s : State) (p : Plate) (f : Pair → Pair) : ((s.updPr p f).pl p).pr = f (s.pl p).pr := by
  cases p <;> rfl
@[simp] theorem State.updPr_peer (s : State) (p : Plate) (f : Pair → Pair) : (s.updPr p f).pl p.peer = s.pl p.peer := by
  cases p <;> rfl
theorem State.updPr_comm (s : State) (p : Plate) (f g : Pair → Pair) :
    (s.updPr p f).updPr p g = s.updPr p fun x => g (f x) := by cases p <;> rfl
@[simp] theorem State.updPr_pow (s : State) (p q : Plate) (f : Pair → Pair) : ((s.updPr p f).pl q).pow = (s.pl q).pow := by
  cases p <;> cases q <;> rfl
@[simp] theorem State.updPr_sl (s : State) (p q : Plate) (f : Pair → Pair) : ((s.updPr p f).pl q).sl = (s.pl q).sl := by
  cases p <;> cases q <;> rfl
@[simp] theorem State.updPr_vlt (s : State) (p q : Plate) (f : Pair → Pair) : ((s.updPr p f).pl q).vlt = (s.pl q).vlt := by
  cases p <;> cases q <;> rfl
@[simp] theorem State.updPr_rng (s : State) (p q : Plate) (f : Pair → Pair) : ((s.updPr p f).pl q).rng = (s.pl q).rng := by
  cases p <;> cases q <;> rfl
@[simp] theorem State.updPr_cus (s : State) (p q : Plate) (f : Pair → Pair) : ((s.updPr p f).pl q).cus = (s.pl q).cus := by
  cases p <;> cases q <;> rfl
@[simp] theorem State.updPr_mrg (s : State) (p q : Plate) (f : Pair → Pair) : ((s.updPr p f).pl q).mrg = (s.pl q).mrg := by
  cases p <;> cases q <;> rfl
@[simp] theorem State.updPr_tmp (s : State) (p q : Plate) (f : Pair → Pair) : ((s.updPr p f).pl q).tmp = (s.pl q).tmp := by
  cases p <;> cases q <;> rfl
@[simp] theorem State.updPr_flt (s : State) (p q : Plate) (f : Pair → Pair) : ((s.updPr p f).pl q).flt = (s.pl q).flt := by
  cases p <;> cases q <;> rfl
@[simp] theorem State.updPr_mgt (s : State) (p q : Plate) (f : Pair → Pair) : ((s.updPr p f).pl q).mgt = (s.pl q).mgt := by
  cases p <;> cases q <;> rfl
@[simp] theorem State.updPr_nvm (s : State) (p q : Plate) (f : Pair → Pair) : ((s.updPr p f).pl q).nvm = (s.pl q).nvm := by
  cases p <;> cases q <;> rfl
@[simp] theorem State.updPr_gutA (s : State) (p : Plate) (f : Pair → Pair) : (s.updPr p f).gutA = s.gutA := by cases p <;> rfl
@[simp] theorem State.updPr_gutB (s : State) (p : Plate) (f : Pair → Pair) : (s.updPr p f).gutB = s.gutB := by cases p <;> rfl
@[simp] theorem State.updPr_margin (s : State) (p : Plate) (f : Pair → Pair) : (s.updPr p f).margin = s.margin := by cases p <;> rfl
@[simp] theorem State.updPr_pwrgood (s : State) (p : Plate) (f : Pair → Pair) : (s.updPr p f).pwrgood = s.pwrgood := by cases p <;> rfl
@[simp] theorem State.updPr_clkreqLow (s : State) (p : Plate) (f : Pair → Pair) : (s.updPr p f).clkreqLow = s.clkreqLow := by cases p <;> rfl
@[simp] theorem State.updPr_tapIr (s : State) (p : Plate) (f : Pair → Pair) : (s.updPr p f).tapIr = s.tapIr := by cases p <;> rfl
@[simp] theorem State.updPr_clock (s : State) (p : Plate) (f : Pair → Pair) : (s.updPr p f).clock = s.clock := by cases p <;> rfl
@[simp] theorem State.updPr_free (s : State) (p : Plate) (f : Pair → Pair) : (s.updPr p f).free = s.free := by cases p <;> rfl
@[simp] theorem State.updPr_out (s : State) (p : Plate) (f : Pair → Pair) : (s.updPr p f).out = s.out := by cases p <;> rfl
@[simp] theorem State.updPr_pending (s : State) (p : Plate) (f : Pair → Pair) : (s.updPr p f).pending = s.pending := by cases p <;> rfl
@[simp] theorem State.updCus_self (s : State) (p : Plate) (f : Custody → Custody) : ((s.updCus p f).pl p).cus = f (s.pl p).cus := by
  cases p <;> rfl
@[simp] theorem State.updCus_peer (s : State) (p : Plate) (f : Custody → Custody) : (s.updCus p f).pl p.peer = s.pl p.peer := by
  cases p <;> rfl
theorem State.updCus_comm (s : State) (p : Plate) (f g : Custody → Custody) :
    (s.updCus p f).updCus p g = s.updCus p fun x => g (f x) := by cases p <;> rfl
@[simp] theorem State.updCus_pow (s : State) (p q : Plate) (f : Custody → Custody) : ((s.updCus p f).pl q).pow = (s.pl q).pow := by
  cases p <;> cases q <;> rfl
@[simp] theorem State.updCus_sl (s : State) (p q : Plate) (f : Custody → Custody) : ((s.updCus p f).pl q).sl = (s.pl q).sl := by
  cases p <;> cases q <;> rfl
@[simp] theorem State.updCus_vlt (s : State) (p q : Plate) (f : Custody → Custody) : ((s.updCus p f).pl q).vlt = (s.pl q).vlt := by
  cases p <;> cases q <;> rfl
@[simp] theorem State.updCus_rng (s : State) (p q : Plate) (f : Custody → Custody) : ((s.updCus p f).pl q).rng = (s.pl q).rng := by
  cases p <;> cases q <;> rfl
@[simp] theorem State.updCus_pr (s : State) (p q : Plate) (f : Custody → Custody) : ((s.updCus p f).pl q).pr = (s.pl q).pr := by
  cases p <;> cases q <;> rfl
@[simp] theorem State.updCus_mrg (s : State) (p q : Plate) (f : Custody → Custody) : ((s.updCus p f).pl q).mrg = (s.pl q).mrg := by
  cases p <;> cases q <;> rfl
@[simp] theorem State.updCus_tmp (s : State) (p q : Plate) (f : Custody → Custody) : ((s.updCus p f).pl q).tmp = (s.pl q).tmp := by
  cases p <;> cases q <;> rfl
@[simp] theorem State.updCus_flt (s : State) (p q : Plate) (f : Custody → Custody) : ((s.updCus p f).pl q).flt = (s.pl q).flt := by
  cases p <;> cases q <;> rfl
@[simp] theorem State.updCus_mgt (s : State) (p q : Plate) (f : Custody → Custody) : ((s.updCus p f).pl q).mgt = (s.pl q).mgt := by
  cases p <;> cases q <;> rfl
@[simp] theorem State.updCus_nvm (s : State) (p q : Plate) (f : Custody → Custody) : ((s.updCus p f).pl q).nvm = (s.pl q).nvm := by
  cases p <;> cases q <;> rfl
@[simp] theorem State.updCus_gutA (s : State) (p : Plate) (f : Custody → Custody) : (s.updCus p f).gutA = s.gutA := by cases p <;> rfl
@[simp] theorem State.updCus_gutB (s : State) (p : Plate) (f : Custody → Custody) : (s.updCus p f).gutB = s.gutB := by cases p <;> rfl
@[simp] theorem State.updCus_margin (s : State) (p : Plate) (f : Custody → Custody) : (s.updCus p f).margin = s.margin := by cases p <;> rfl
@[simp] theorem State.updCus_pwrgood (s : State) (p : Plate) (f : Custody → Custody) : (s.updCus p f).pwrgood = s.pwrgood := by cases p <;> rfl
@[simp] theorem State.updCus_clkreqLow (s : State) (p : Plate) (f : Custody → Custody) : (s.updCus p f).clkreqLow = s.clkreqLow := by cases p <;> rfl
@[simp] theorem State.updCus_tapIr (s : State) (p : Plate) (f : Custody → Custody) : (s.updCus p f).tapIr = s.tapIr := by cases p <;> rfl
@[simp] theorem State.updCus_clock (s : State) (p : Plate) (f : Custody → Custody) : (s.updCus p f).clock = s.clock := by cases p <;> rfl
@[simp] theorem State.updCus_free (s : State) (p : Plate) (f : Custody → Custody) : (s.updCus p f).free = s.free := by cases p <;> rfl
@[simp] theorem State.updCus_out (s : State) (p : Plate) (f : Custody → Custody) : (s.updCus p f).out = s.out := by cases p <;> rfl
@[simp] theorem State.updCus_pending (s : State) (p : Plate) (f : Custody → Custody) : (s.updCus p f).pending = s.pending := by cases p <;> rfl
@[simp] theorem State.updMrg_self (s : State) (p : Plate) (f : MrgSide → MrgSide) : ((s.updMrg p f).pl p).mrg = f (s.pl p).mrg := by
  cases p <;> rfl
@[simp] theorem State.updMrg_peer (s : State) (p : Plate) (f : MrgSide → MrgSide) : (s.updMrg p f).pl p.peer = s.pl p.peer := by
  cases p <;> rfl
theorem State.updMrg_comm (s : State) (p : Plate) (f g : MrgSide → MrgSide) :
    (s.updMrg p f).updMrg p g = s.updMrg p fun x => g (f x) := by cases p <;> rfl
@[simp] theorem State.updMrg_pow (s : State) (p q : Plate) (f : MrgSide → MrgSide) : ((s.updMrg p f).pl q).pow = (s.pl q).pow := by
  cases p <;> cases q <;> rfl
@[simp] theorem State.updMrg_sl (s : State) (p q : Plate) (f : MrgSide → MrgSide) : ((s.updMrg p f).pl q).sl = (s.pl q).sl := by
  cases p <;> cases q <;> rfl
@[simp] theorem State.updMrg_vlt (s : State) (p q : Plate) (f : MrgSide → MrgSide) : ((s.updMrg p f).pl q).vlt = (s.pl q).vlt := by
  cases p <;> cases q <;> rfl
@[simp] theorem State.updMrg_rng (s : State) (p q : Plate) (f : MrgSide → MrgSide) : ((s.updMrg p f).pl q).rng = (s.pl q).rng := by
  cases p <;> cases q <;> rfl
@[simp] theorem State.updMrg_pr (s : State) (p q : Plate) (f : MrgSide → MrgSide) : ((s.updMrg p f).pl q).pr = (s.pl q).pr := by
  cases p <;> cases q <;> rfl
@[simp] theorem State.updMrg_cus (s : State) (p q : Plate) (f : MrgSide → MrgSide) : ((s.updMrg p f).pl q).cus = (s.pl q).cus := by
  cases p <;> cases q <;> rfl
@[simp] theorem State.updMrg_tmp (s : State) (p q : Plate) (f : MrgSide → MrgSide) : ((s.updMrg p f).pl q).tmp = (s.pl q).tmp := by
  cases p <;> cases q <;> rfl
@[simp] theorem State.updMrg_flt (s : State) (p q : Plate) (f : MrgSide → MrgSide) : ((s.updMrg p f).pl q).flt = (s.pl q).flt := by
  cases p <;> cases q <;> rfl
@[simp] theorem State.updMrg_mgt (s : State) (p q : Plate) (f : MrgSide → MrgSide) : ((s.updMrg p f).pl q).mgt = (s.pl q).mgt := by
  cases p <;> cases q <;> rfl
@[simp] theorem State.updMrg_nvm (s : State) (p q : Plate) (f : MrgSide → MrgSide) : ((s.updMrg p f).pl q).nvm = (s.pl q).nvm := by
  cases p <;> cases q <;> rfl
@[simp] theorem State.updMrg_gutA (s : State) (p : Plate) (f : MrgSide → MrgSide) : (s.updMrg p f).gutA = s.gutA := by cases p <;> rfl
@[simp] theorem State.updMrg_gutB (s : State) (p : Plate) (f : MrgSide → MrgSide) : (s.updMrg p f).gutB = s.gutB := by cases p <;> rfl
@[simp] theorem State.updMrg_margin (s : State) (p : Plate) (f : MrgSide → MrgSide) : (s.updMrg p f).margin = s.margin := by cases p <;> rfl
@[simp] theorem State.updMrg_pwrgood (s : State) (p : Plate) (f : MrgSide → MrgSide) : (s.updMrg p f).pwrgood = s.pwrgood := by cases p <;> rfl
@[simp] theorem State.updMrg_clkreqLow (s : State) (p : Plate) (f : MrgSide → MrgSide) : (s.updMrg p f).clkreqLow = s.clkreqLow := by cases p <;> rfl
@[simp] theorem State.updMrg_tapIr (s : State) (p : Plate) (f : MrgSide → MrgSide) : (s.updMrg p f).tapIr = s.tapIr := by cases p <;> rfl
@[simp] theorem State.updMrg_clock (s : State) (p : Plate) (f : MrgSide → MrgSide) : (s.updMrg p f).clock = s.clock := by cases p <;> rfl
@[simp] theorem State.updMrg_free (s : State) (p : Plate) (f : MrgSide → MrgSide) : (s.updMrg p f).free = s.free := by cases p <;> rfl
@[simp] theorem State.updMrg_out (s : State) (p : Plate) (f : MrgSide → MrgSide) : (s.updMrg p f).out = s.out := by cases p <;> rfl
@[simp] theorem State.updMrg_pending (s : State) (p : Plate) (f : MrgSide → MrgSide) : (s.updMrg p f).pending = s.pending := by cases p <;> rfl
@[simp] theorem State.updTmp_self (s : State) (p : Plate) (f : Tamper → Tamper) : ((s.updTmp p f).pl p).tmp = f (s.pl p).tmp := by
  cases p <;> rfl
@[simp] theorem State.updTmp_peer (s : State) (p : Plate) (f : Tamper → Tamper) : (s.updTmp p f).pl p.peer = s.pl p.peer := by
  cases p <;> rfl
theorem State.updTmp_comm (s : State) (p : Plate) (f g : Tamper → Tamper) :
    (s.updTmp p f).updTmp p g = s.updTmp p fun x => g (f x) := by cases p <;> rfl
@[simp] theorem State.updTmp_pow (s : State) (p q : Plate) (f : Tamper → Tamper) : ((s.updTmp p f).pl q).pow = (s.pl q).pow := by
  cases p <;> cases q <;> rfl
@[simp] theorem State.updTmp_sl (s : State) (p q : Plate) (f : Tamper → Tamper) : ((s.updTmp p f).pl q).sl = (s.pl q).sl := by
  cases p <;> cases q <;> rfl
@[simp] theorem State.updTmp_vlt (s : State) (p q : Plate) (f : Tamper → Tamper) : ((s.updTmp p f).pl q).vlt = (s.pl q).vlt := by
  cases p <;> cases q <;> rfl
@[simp] theorem State.updTmp_rng (s : State) (p q : Plate) (f : Tamper → Tamper) : ((s.updTmp p f).pl q).rng = (s.pl q).rng := by
  cases p <;> cases q <;> rfl
@[simp] theorem State.updTmp_pr (s : State) (p q : Plate) (f : Tamper → Tamper) : ((s.updTmp p f).pl q).pr = (s.pl q).pr := by
  cases p <;> cases q <;> rfl
@[simp] theorem State.updTmp_cus (s : State) (p q : Plate) (f : Tamper → Tamper) : ((s.updTmp p f).pl q).cus = (s.pl q).cus := by
  cases p <;> cases q <;> rfl
@[simp] theorem State.updTmp_mrg (s : State) (p q : Plate) (f : Tamper → Tamper) : ((s.updTmp p f).pl q).mrg = (s.pl q).mrg := by
  cases p <;> cases q <;> rfl
@[simp] theorem State.updTmp_flt (s : State) (p q : Plate) (f : Tamper → Tamper) : ((s.updTmp p f).pl q).flt = (s.pl q).flt := by
  cases p <;> cases q <;> rfl
@[simp] theorem State.updTmp_mgt (s : State) (p q : Plate) (f : Tamper → Tamper) : ((s.updTmp p f).pl q).mgt = (s.pl q).mgt := by
  cases p <;> cases q <;> rfl
@[simp] theorem State.updTmp_nvm (s : State) (p q : Plate) (f : Tamper → Tamper) : ((s.updTmp p f).pl q).nvm = (s.pl q).nvm := by
  cases p <;> cases q <;> rfl
@[simp] theorem State.updTmp_gutA (s : State) (p : Plate) (f : Tamper → Tamper) : (s.updTmp p f).gutA = s.gutA := by cases p <;> rfl
@[simp] theorem State.updTmp_gutB (s : State) (p : Plate) (f : Tamper → Tamper) : (s.updTmp p f).gutB = s.gutB := by cases p <;> rfl
@[simp] theorem State.updTmp_margin (s : State) (p : Plate) (f : Tamper → Tamper) : (s.updTmp p f).margin = s.margin := by cases p <;> rfl
@[simp] theorem State.updTmp_pwrgood (s : State) (p : Plate) (f : Tamper → Tamper) : (s.updTmp p f).pwrgood = s.pwrgood := by cases p <;> rfl
@[simp] theorem State.updTmp_clkreqLow (s : State) (p : Plate) (f : Tamper → Tamper) : (s.updTmp p f).clkreqLow = s.clkreqLow := by cases p <;> rfl
@[simp] theorem State.updTmp_tapIr (s : State) (p : Plate) (f : Tamper → Tamper) : (s.updTmp p f).tapIr = s.tapIr := by cases p <;> rfl
@[simp] theorem State.updTmp_clock (s : State) (p : Plate) (f : Tamper → Tamper) : (s.updTmp p f).clock = s.clock := by cases p <;> rfl
@[simp] theorem State.updTmp_free (s : State) (p : Plate) (f : Tamper → Tamper) : (s.updTmp p f).free = s.free := by cases p <;> rfl
@[simp] theorem State.updTmp_out (s : State) (p : Plate) (f : Tamper → Tamper) : (s.updTmp p f).out = s.out := by cases p <;> rfl
@[simp] theorem State.updTmp_pending (s : State) (p : Plate) (f : Tamper → Tamper) : (s.updTmp p f).pending = s.pending := by cases p <;> rfl
@[simp] theorem State.updFlt_self (s : State) (p : Plate) (f : Faults → Faults) : ((s.updFlt p f).pl p).flt = f (s.pl p).flt := by
  cases p <;> rfl
@[simp] theorem State.updFlt_peer (s : State) (p : Plate) (f : Faults → Faults) : (s.updFlt p f).pl p.peer = s.pl p.peer := by
  cases p <;> rfl
theorem State.updFlt_comm (s : State) (p : Plate) (f g : Faults → Faults) :
    (s.updFlt p f).updFlt p g = s.updFlt p fun x => g (f x) := by cases p <;> rfl
@[simp] theorem State.updFlt_pow (s : State) (p q : Plate) (f : Faults → Faults) : ((s.updFlt p f).pl q).pow = (s.pl q).pow := by
  cases p <;> cases q <;> rfl
@[simp] theorem State.updFlt_sl (s : State) (p q : Plate) (f : Faults → Faults) : ((s.updFlt p f).pl q).sl = (s.pl q).sl := by
  cases p <;> cases q <;> rfl
@[simp] theorem State.updFlt_vlt (s : State) (p q : Plate) (f : Faults → Faults) : ((s.updFlt p f).pl q).vlt = (s.pl q).vlt := by
  cases p <;> cases q <;> rfl
@[simp] theorem State.updFlt_rng (s : State) (p q : Plate) (f : Faults → Faults) : ((s.updFlt p f).pl q).rng = (s.pl q).rng := by
  cases p <;> cases q <;> rfl
@[simp] theorem State.updFlt_pr (s : State) (p q : Plate) (f : Faults → Faults) : ((s.updFlt p f).pl q).pr = (s.pl q).pr := by
  cases p <;> cases q <;> rfl
@[simp] theorem State.updFlt_cus (s : State) (p q : Plate) (f : Faults → Faults) : ((s.updFlt p f).pl q).cus = (s.pl q).cus := by
  cases p <;> cases q <;> rfl
@[simp] theorem State.updFlt_mrg (s : State) (p q : Plate) (f : Faults → Faults) : ((s.updFlt p f).pl q).mrg = (s.pl q).mrg := by
  cases p <;> cases q <;> rfl
@[simp] theorem State.updFlt_tmp (s : State) (p q : Plate) (f : Faults → Faults) : ((s.updFlt p f).pl q).tmp = (s.pl q).tmp := by
  cases p <;> cases q <;> rfl
@[simp] theorem State.updFlt_mgt (s : State) (p q : Plate) (f : Faults → Faults) : ((s.updFlt p f).pl q).mgt = (s.pl q).mgt := by
  cases p <;> cases q <;> rfl
@[simp] theorem State.updFlt_nvm (s : State) (p q : Plate) (f : Faults → Faults) : ((s.updFlt p f).pl q).nvm = (s.pl q).nvm := by
  cases p <;> cases q <;> rfl
@[simp] theorem State.updFlt_gutA (s : State) (p : Plate) (f : Faults → Faults) : (s.updFlt p f).gutA = s.gutA := by cases p <;> rfl
@[simp] theorem State.updFlt_gutB (s : State) (p : Plate) (f : Faults → Faults) : (s.updFlt p f).gutB = s.gutB := by cases p <;> rfl
@[simp] theorem State.updFlt_margin (s : State) (p : Plate) (f : Faults → Faults) : (s.updFlt p f).margin = s.margin := by cases p <;> rfl
@[simp] theorem State.updFlt_pwrgood (s : State) (p : Plate) (f : Faults → Faults) : (s.updFlt p f).pwrgood = s.pwrgood := by cases p <;> rfl
@[simp] theorem State.updFlt_clkreqLow (s : State) (p : Plate) (f : Faults → Faults) : (s.updFlt p f).clkreqLow = s.clkreqLow := by cases p <;> rfl
@[simp] theorem State.updFlt_tapIr (s : State) (p : Plate) (f : Faults → Faults) : (s.updFlt p f).tapIr = s.tapIr := by cases p <;> rfl
@[simp] theorem State.updFlt_clock (s : State) (p : Plate) (f : Faults → Faults) : (s.updFlt p f).clock = s.clock := by cases p <;> rfl
@[simp] theorem State.updFlt_free (s : State) (p : Plate) (f : Faults → Faults) : (s.updFlt p f).free = s.free := by cases p <;> rfl
@[simp] theorem State.updFlt_out (s : State) (p : Plate) (f : Faults → Faults) : (s.updFlt p f).out = s.out := by cases p <;> rfl
@[simp] theorem State.updFlt_pending (s : State) (p : Plate) (f : Faults → Faults) : (s.updFlt p f).pending = s.pending := by cases p <;> rfl
@[simp] theorem State.updMgt_self (s : State) (p : Plate) (f : Mgmt → Mgmt) : ((s.updMgt p f).pl p).mgt = f (s.pl p).mgt := by
  cases p <;> rfl
@[simp] theorem State.updMgt_peer (s : State) (p : Plate) (f : Mgmt → Mgmt) : (s.updMgt p f).pl p.peer = s.pl p.peer := by
  cases p <;> rfl
theorem State.updMgt_comm (s : State) (p : Plate) (f g : Mgmt → Mgmt) :
    (s.updMgt p f).updMgt p g = s.updMgt p fun x => g (f x) := by cases p <;> rfl
@[simp] theorem State.updMgt_pow (s : State) (p q : Plate) (f : Mgmt → Mgmt) : ((s.updMgt p f).pl q).pow = (s.pl q).pow := by
  cases p <;> cases q <;> rfl
@[simp] theorem State.updMgt_sl (s : State) (p q : Plate) (f : Mgmt → Mgmt) : ((s.updMgt p f).pl q).sl = (s.pl q).sl := by
  cases p <;> cases q <;> rfl
@[simp] theorem State.updMgt_vlt (s : State) (p q : Plate) (f : Mgmt → Mgmt) : ((s.updMgt p f).pl q).vlt = (s.pl q).vlt := by
  cases p <;> cases q <;> rfl
@[simp] theorem State.updMgt_rng (s : State) (p q : Plate) (f : Mgmt → Mgmt) : ((s.updMgt p f).pl q).rng = (s.pl q).rng := by
  cases p <;> cases q <;> rfl
@[simp] theorem State.updMgt_pr (s : State) (p q : Plate) (f : Mgmt → Mgmt) : ((s.updMgt p f).pl q).pr = (s.pl q).pr := by
  cases p <;> cases q <;> rfl
@[simp] theorem State.updMgt_cus (s : State) (p q : Plate) (f : Mgmt → Mgmt) : ((s.updMgt p f).pl q).cus = (s.pl q).cus := by
  cases p <;> cases q <;> rfl
@[simp] theorem State.updMgt_mrg (s : State) (p q : Plate) (f : Mgmt → Mgmt) : ((s.updMgt p f).pl q).mrg = (s.pl q).mrg := by
  cases p <;> cases q <;> rfl
@[simp] theorem State.updMgt_tmp (s : State) (p q : Plate) (f : Mgmt → Mgmt) : ((s.updMgt p f).pl q).tmp = (s.pl q).tmp := by
  cases p <;> cases q <;> rfl
@[simp] theorem State.updMgt_flt (s : State) (p q : Plate) (f : Mgmt → Mgmt) : ((s.updMgt p f).pl q).flt = (s.pl q).flt := by
  cases p <;> cases q <;> rfl
@[simp] theorem State.updMgt_nvm (s : State) (p q : Plate) (f : Mgmt → Mgmt) : ((s.updMgt p f).pl q).nvm = (s.pl q).nvm := by
  cases p <;> cases q <;> rfl
@[simp] theorem State.updMgt_gutA (s : State) (p : Plate) (f : Mgmt → Mgmt) : (s.updMgt p f).gutA = s.gutA := by cases p <;> rfl
@[simp] theorem State.updMgt_gutB (s : State) (p : Plate) (f : Mgmt → Mgmt) : (s.updMgt p f).gutB = s.gutB := by cases p <;> rfl
@[simp] theorem State.updMgt_margin (s : State) (p : Plate) (f : Mgmt → Mgmt) : (s.updMgt p f).margin = s.margin := by cases p <;> rfl
@[simp] theorem State.updMgt_pwrgood (s : State) (p : Plate) (f : Mgmt → Mgmt) : (s.updMgt p f).pwrgood = s.pwrgood := by cases p <;> rfl
@[simp] theorem State.updMgt_clkreqLow (s : State) (p : Plate) (f : Mgmt → Mgmt) : (s.updMgt p f).clkreqLow = s.clkreqLow := by cases p <;> rfl
@[simp] theorem State.updMgt_tapIr (s : State) (p : Plate) (f : Mgmt → Mgmt) : (s.updMgt p f).tapIr = s.tapIr := by cases p <;> rfl
@[simp] theorem State.updMgt_clock (s : State) (p : Plate) (f : Mgmt → Mgmt) : (s.updMgt p f).clock = s.clock := by cases p <;> rfl
@[simp] theorem State.updMgt_free (s : State) (p : Plate) (f : Mgmt → Mgmt) : (s.updMgt p f).free = s.free := by cases p <;> rfl
@[simp] theorem State.updMgt_out (s : State) (p : Plate) (f : Mgmt → Mgmt) : (s.updMgt p f).out = s.out := by cases p <;> rfl
@[simp] theorem State.updMgt_pending (s : State) (p : Plate) (f : Mgmt → Mgmt) : (s.updMgt p f).pending = s.pending := by cases p <;> rfl
@[simp] theorem State.updNvm_self (s : State) (p : Plate) (f : Nvm → Nvm) : ((s.updNvm p f).pl p).nvm = f (s.pl p).nvm := by
  cases p <;> rfl
@[simp] theorem State.updNvm_peer (s : State) (p : Plate) (f : Nvm → Nvm) : (s.updNvm p f).pl p.peer = s.pl p.peer := by
  cases p <;> rfl
theorem State.updNvm_comm (s : State) (p : Plate) (f g : Nvm → Nvm) :
    (s.updNvm p f).updNvm p g = s.updNvm p fun x => g (f x) := by cases p <;> rfl
@[simp] theorem State.updNvm_pow (s : State) (p q : Plate) (f : Nvm → Nvm) : ((s.updNvm p f).pl q).pow = (s.pl q).pow := by
  cases p <;> cases q <;> rfl
@[simp] theorem State.updNvm_sl (s : State) (p q : Plate) (f : Nvm → Nvm) : ((s.updNvm p f).pl q).sl = (s.pl q).sl := by
  cases p <;> cases q <;> rfl
@[simp] theorem State.updNvm_vlt (s : State) (p q : Plate) (f : Nvm → Nvm) : ((s.updNvm p f).pl q).vlt = (s.pl q).vlt := by
  cases p <;> cases q <;> rfl
@[simp] theorem State.updNvm_rng (s : State) (p q : Plate) (f : Nvm → Nvm) : ((s.updNvm p f).pl q).rng = (s.pl q).rng := by
  cases p <;> cases q <;> rfl
@[simp] theorem State.updNvm_pr (s : State) (p q : Plate) (f : Nvm → Nvm) : ((s.updNvm p f).pl q).pr = (s.pl q).pr := by
  cases p <;> cases q <;> rfl
@[simp] theorem State.updNvm_cus (s : State) (p q : Plate) (f : Nvm → Nvm) : ((s.updNvm p f).pl q).cus = (s.pl q).cus := by
  cases p <;> cases q <;> rfl
@[simp] theorem State.updNvm_mrg (s : State) (p q : Plate) (f : Nvm → Nvm) : ((s.updNvm p f).pl q).mrg = (s.pl q).mrg := by
  cases p <;> cases q <;> rfl
@[simp] theorem State.updNvm_tmp (s : State) (p q : Plate) (f : Nvm → Nvm) : ((s.updNvm p f).pl q).tmp = (s.pl q).tmp := by
  cases p <;> cases q <;> rfl
@[simp] theorem State.updNvm_flt (s : State) (p q : Plate) (f : Nvm → Nvm) : ((s.updNvm p f).pl q).flt = (s.pl q).flt := by
  cases p <;> cases q <;> rfl
@[simp] theorem State.updNvm_mgt (s : State) (p q : Plate) (f : Nvm → Nvm) : ((s.updNvm p f).pl q).mgt = (s.pl q).mgt := by
  cases p <;> cases q <;> rfl
@[simp] theorem State.updNvm_gutA (s : State) (p : Plate) (f : Nvm → Nvm) : (s.updNvm p f).gutA = s.gutA := by cases p <;> rfl
@[simp] theorem State.updNvm_gutB (s : State) (p : Plate) (f : Nvm → Nvm) : (s.updNvm p f).gutB = s.gutB := by cases p <;> rfl
@[simp] theorem State.updNvm_margin (s : State) (p : Plate) (f : Nvm → Nvm) : (s.updNvm p f).margin = s.margin := by cases p <;> rfl
@[simp] theorem State.updNvm_pwrgood (s : State) (p : Plate) (f : Nvm → Nvm) : (s.updNvm p f).pwrgood = s.pwrgood := by cases p <;> rfl
@[simp] theorem State.updNvm_clkreqLow (s : State) (p : Plate) (f : Nvm → Nvm) : (s.updNvm p f).clkreqLow = s.clkreqLow := by cases p <;> rfl
@[simp] theorem State.updNvm_tapIr (s : State) (p : Plate) (f : Nvm → Nvm) : (s.updNvm p f).tapIr = s.tapIr := by cases p <;> rfl
@[simp] theorem State.updNvm_clock (s : State) (p : Plate) (f : Nvm → Nvm) : (s.updNvm p f).clock = s.clock := by cases p <;> rfl
@[simp] theorem State.updNvm_free (s : State) (p : Plate) (f : Nvm → Nvm) : (s.updNvm p f).free = s.free := by cases p <;> rfl
@[simp] theorem State.updNvm_out (s : State) (p : Plate) (f : Nvm → Nvm) : (s.updNvm p f).out = s.out := by cases p <;> rfl
@[simp] theorem State.updNvm_pending (s : State) (p : Plate) (f : Nvm → Nvm) : (s.updNvm p f).pending = s.pending := by cases p <;> rfl

/-! ## What lies beside the plates -/

@[simp] theorem State.updMargin_pl (s : State) (f : Margin → Margin) (q : Plate) : (s.updMargin f).pl q = s.pl q := by cases q <;> rfl
@[simp] theorem State.updMargin_gutA (s : State) (f : Margin → Margin) : (s.updMargin f).gutA = s.gutA := rfl
@[simp] theorem State.updMargin_gutB (s : State) (f : Margin → Margin) : (s.updMargin f).gutB = s.gutB := rfl
@[simp] theorem State.updMargin_pwrgood (s : State) (f : Margin → Margin) : (s.updMargin f).pwrgood = s.pwrgood := rfl
@[simp] theorem State.updMargin_clkreqLow (s : State) (f : Margin → Margin) : (s.updMargin f).clkreqLow = s.clkreqLow := rfl
@[simp] theorem State.updMargin_tapIr (s : State) (f : Margin → Margin) : (s.updMargin f).tapIr = s.tapIr := rfl
@[simp] theorem State.updMargin_clock (s : State) (f : Margin → Margin) : (s.updMargin f).clock = s.clock := rfl
@[simp] theorem State.updMargin_free (s : State) (f : Margin → Margin) : (s.updMargin f).free = s.free := rfl
@[simp] theorem State.updMargin_out (s : State) (f : Margin → Margin) : (s.updMargin f).out = s.out := rfl
@[simp] theorem State.updMargin_pending (s : State) (f : Margin → Margin) : (s.updMargin f).pending = s.pending := rfl
@[simp] theorem State.updMargin_margin (s : State) (f : Margin → Margin) : (s.updMargin f).margin = f s.margin := rfl
@[simp] theorem State.emit_pl (s : State) (x : Out) (q : Plate) : (s.emit x).pl q = s.pl q := by cases q <;> rfl
@[simp] theorem State.emit_gutA (s : State) (x : Out) : (s.emit x).gutA = s.gutA := rfl
@[simp] theorem State.emit_gutB (s : State) (x : Out) : (s.emit x).gutB = s.gutB := rfl
@[simp] theorem State.emit_margin (s : State) (x : Out) : (s.emit x).margin = s.margin := rfl
@[simp] theorem State.emit_pwrgood (s : State) (x : Out) : (s.emit x).pwrgood = s.pwrgood := rfl
@[simp] theorem State.emit_clkreqLow (s : State) (x : Out) : (s.emit x).clkreqLow = s.clkreqLow := rfl
@[simp] theorem State.emit_tapIr (s : State) (x : Out) : (s.emit x).tapIr = s.tapIr := rfl
@[simp] theorem State.emit_clock (s : State) (x : Out) : (s.emit x).clock = s.clock := rfl
@[simp] theorem State.emit_free (s : State) (x : Out) : (s.emit x).free = s.free := rfl
@[simp] theorem State.emit_pending (s : State) (x : Out) : (s.emit x).pending = s.pending := rfl
@[simp] theorem State.emit_out (s : State) (x : Out) : (s.emit x).out = s.out ++ [x] := rfl
@[simp] theorem State.emits_pl (s : State) (x : List Out) (q : Plate) : (s.emits x).pl q = s.pl q := by cases q <;> rfl
@[simp] theorem State.emits_gutA (s : State) (x : List Out) : (s.emits x).gutA = s.gutA := rfl
@[simp] theorem State.emits_gutB (s : State) (x : List Out) : (s.emits x).gutB = s.gutB := rfl
@[simp] theorem State.emits_margin (s : State) (x : List Out) : (s.emits x).margin = s.margin := rfl
@[simp] theorem State.emits_pwrgood (s : State) (x : List Out) : (s.emits x).pwrgood = s.pwrgood := rfl
@[simp] theorem State.emits_clkreqLow (s : State) (x : List Out) : (s.emits x).clkreqLow = s.clkreqLow := rfl
@[simp] theorem State.emits_tapIr (s : State) (x : List Out) : (s.emits x).tapIr = s.tapIr := rfl
@[simp] theorem State.emits_clock (s : State) (x : List Out) : (s.emits x).clock = s.clock := rfl
@[simp] theorem State.emits_free (s : State) (x : List Out) : (s.emits x).free = s.free := rfl
@[simp] theorem State.emits_pending (s : State) (x : List Out) : (s.emits x).pending = s.pending := rfl
@[simp] theorem State.emits_out (s : State) (x : List Out) : (s.emits x).out = s.out ++ x := rfl
@[simp] theorem State.tick_pl (s : State) (k : Nat) (q : Plate) : (s.tick k).pl q = s.pl q := by cases q <;> rfl
@[simp] theorem State.tick_gutA (s : State) (k : Nat) : (s.tick k).gutA = s.gutA := rfl
@[simp] theorem State.tick_gutB (s : State) (k : Nat) : (s.tick k).gutB = s.gutB := rfl
@[simp] theorem State.tick_margin (s : State) (k : Nat) : (s.tick k).margin = s.margin := rfl
@[simp] theorem State.tick_pwrgood (s : State) (k : Nat) : (s.tick k).pwrgood = s.pwrgood := rfl
@[simp] theorem State.tick_clkreqLow (s : State) (k : Nat) : (s.tick k).clkreqLow = s.clkreqLow := rfl
@[simp] theorem State.tick_tapIr (s : State) (k : Nat) : (s.tick k).tapIr = s.tapIr := rfl
@[simp] theorem State.tick_clock (s : State) (k : Nat) : (s.tick k).clock = s.clock := rfl
@[simp] theorem State.tick_out (s : State) (k : Nat) : (s.tick k).out = s.out := rfl
@[simp] theorem State.tick_pending (s : State) (k : Nat) : (s.tick k).pending = s.pending := rfl
@[simp] theorem State.tick_free (s : State) (k : Nat) : (s.tick k).free = s.free + k := rfl
@[simp] theorem State.setGut_pl (s : State) (p : Plate) (l : List GMsg) (q : Plate) : (s.setGut p l).pl q = s.pl q := by
  cases p <;> cases q <;> rfl
@[simp] theorem State.setGut_margin (s : State) (p : Plate) (l : List GMsg) : (s.setGut p l).margin = s.margin := by cases p <;> rfl
@[simp] theorem State.setGut_pwrgood (s : State) (p : Plate) (l : List GMsg) : (s.setGut p l).pwrgood = s.pwrgood := by cases p <;> rfl
@[simp] theorem State.setGut_clkreqLow (s : State) (p : Plate) (l : List GMsg) : (s.setGut p l).clkreqLow = s.clkreqLow := by cases p <;> rfl
@[simp] theorem State.setGut_tapIr (s : State) (p : Plate) (l : List GMsg) : (s.setGut p l).tapIr = s.tapIr := by cases p <;> rfl
@[simp] theorem State.setGut_clock (s : State) (p : Plate) (l : List GMsg) : (s.setGut p l).clock = s.clock := by cases p <;> rfl
@[simp] theorem State.setGut_free (s : State) (p : Plate) (l : List GMsg) : (s.setGut p l).free = s.free := by cases p <;> rfl
@[simp] theorem State.setGut_out (s : State) (p : Plate) (l : List GMsg) : (s.setGut p l).out = s.out := by cases p <;> rfl
@[simp] theorem State.setGut_pending (s : State) (p : Plate) (l : List GMsg) : (s.setGut p l).pending = s.pending := by cases p <;> rfl
@[simp] theorem State.setGut_self (s : State) (p : Plate) (l : List GMsg) : (s.setGut p l).gut p = l := by cases p <;> rfl
@[simp] theorem State.setGut_peer (s : State) (p : Plate) (l : List GMsg) : (s.setGut p l).gut p.peer = s.gut p.peer := by
  cases p <;> rfl

end Sys2Proof.Machine
end

