-- ==== Sys2Proof/Laws/Frame.lean ====
section
/-! SUPPORT. The frame relation, and the frame of every update that the shared operations are made of. -/

namespace Sys2Proof.Machine

theorem SameBut.refl (l : List Part) (s : State) : SameBut l s s := by
  intro x _
  cases x <;> rfl

theorem Same.trans {s t u : State} {x : Part} (h : Same s t x) (k : Same t u x) : Same s u x := by
  cases x <;> exact Eq.trans k h

theorem SameBut.trans {l : List Part} {s t u : State} (h : SameBut l s t) (k : SameBut l t u) : SameBut l s u :=
  fun x hx => (h x hx).trans (k x hx)

theorem SameBut.mono {l m : List Part} {s t : State} (h : SameBut l s t) (k : ∀ x, x ∈ l → x ∈ m) : SameBut m s t :=
  fun x hx => h x fun hl => hx (k x hl)

/-- An update with a small frame, followed by any change within a frame that contains it. -/
theorem SameBut.step {l m : List Part} {s t u : State} (h : SameBut l s t) (k : ∀ x, x ∈ l → x ∈ m)
    (h2 : SameBut m t u) : SameBut m s u := (h.mono k).trans h2

/-- A fold keeps a frame that each of its steps keeps. -/
theorem State.each_frame {α : Type} {m : List Part} (l : List α) (f : State → α → State)
    (h : ∀ s a, SameBut m s (f s a)) (s : State) : SameBut m s (s.each l f) := by
  induction l generalizing s with
  | nil => exact SameBut.refl m s
  | cons a t ih => exact (h s a).trans (ih (f s a))

theorem SameBut.ite {m : List Part} {s t u : State} {c : Prop} [Decidable c] (h : SameBut m s t) (k : SameBut m s u) :
    SameBut m s (if c then t else u) := by
  split
  · exact h
  · exact k

theorem State.updPow_frame (s : State) (p : Plate) (f : Power → Power) : SameBut [.pow p] s (s.updPow p f) := by
  intro x hx
  cases p <;> cases x <;> (try rename_i q; cases q) <;> first | rfl | simp at hx

theorem State.updSl_frame (s : State) (p : Plate) (f : Slices → Slices) : SameBut [.sl p] s (s.updSl p f) := by
  intro x hx
  cases p <;> cases x <;> (try rename_i q; cases q) <;> first | rfl | simp at hx

theorem State.updVlt_frame (s : State) (p : Plate) (f : Vault → Vault) : SameBut [.vlt p] s (s.updVlt p f) := by
  intro x hx
  cases p <;> cases x <;> (try rename_i q; cases q) <;> first | rfl | simp at hx

theorem State.updRng_frame (s : State) (p : Plate) (f : Rng → Rng) : SameBut [.rng p] s (s.updRng p f) := by
  intro x hx
  cases p <;> cases x <;> (try rename_i q; cases q) <;> first | rfl | simp at hx

theorem State.updPr_frame (s : State) (p : Plate) (f : Pair → Pair) : SameBut [.pr p] s (s.updPr p f) := by
  intro x hx
  cases p <;> cases x <;> (try rename_i q; cases q) <;> first | rfl | simp at hx

theorem State.updCus_frame (s : State) (p : Plate) (f : Custody → Custody) : SameBut [.cus p] s (s.updCus p f) := by
  intro x hx
  cases p <;> cases x <;> (try rename_i q; cases q) <;> first | rfl | simp at hx

theorem State.updMrg_frame (s : State) (p : Plate) (f : MrgSide → MrgSide) : SameBut [.mrg p] s (s.updMrg p f) := by
  intro x hx
  cases p <;> cases x <;> (try rename_i q; cases q) <;> first | rfl | simp at hx

theorem State.updTmp_frame (s : State) (p : Plate) (f : Tamper → Tamper) : SameBut [.tmp p] s (s.updTmp p f) := by
  intro x hx
  cases p <;> cases x <;> (try rename_i q; cases q) <;> first | rfl | simp at hx

theorem State.updFlt_frame (s : State) (p : Plate) (f : Faults → Faults) : SameBut [.flt p] s (s.updFlt p f) := by
  intro x hx
  cases p <;> cases x <;> (try rename_i q; cases q) <;> first | rfl | simp at hx

theorem State.updMgt_frame (s : State) (p : Plate) (f : Mgmt → Mgmt) : SameBut [.mgt p] s (s.updMgt p f) := by
  intro x hx
  cases p <;> cases x <;> (try rename_i q; cases q) <;> first | rfl | simp at hx

theorem State.updNvm_frame (s : State) (p : Plate) (f : Nvm → Nvm) : SameBut [.nvm p] s (s.updNvm p f) := by
  intro x hx
  cases p <;> cases x <;> (try rename_i q; cases q) <;> first | rfl | simp at hx

theorem State.updMargin_frame (s : State) (f : Margin → Margin) : SameBut [.margin] s (s.updMargin f) := by
  intro x hx
  cases x <;> first | rfl | simp at hx

theorem State.emit_frame (s : State) (x : Out) : SameBut [.out] s (s.emit x) := by
  intro y hy
  cases y <;> first | rfl | simp at hy

theorem State.emits_frame (s : State) (x : List Out) : SameBut [.out] s (s.emits x) := by
  intro y hy
  cases y <;> first | rfl | simp at hy

theorem State.tick_frame (s : State) (k : Nat) : SameBut [.free] s (s.tick k) := by
  intro y hy
  cases y <;> first | rfl | simp at hy

theorem State.setGut_frame (s : State) (p : Plate) (l : List GMsg) : SameBut [.gut p] s (s.setGut p l) := by
  intro x hx
  cases p <;> cases x <;> (try rename_i q; cases q) <;> first | rfl | simp at hx

end Sys2Proof.Machine
end

