-- ==== Sys2Proof/Laws/Tab.lean ====
section
/-! SUPPORT. Sparse tables: what a write reads back as, what it leaves alone, and that every table operation keeps the
canonical form. -/

namespace Sys2Proof.Machine

variable {α : Type} [DecidableEq α]

omit [DecidableEq α] in
/-- A key whose entries are left out reads as the default. -/
theorem Tab.get_filter_self (t : Tab α) (d : α) (i : Nat) : Tab.get (t.filter fun e => e.1 != i) d i = d := by
  induction t with
  | nil => rfl
  | cons e t ih =>
    obtain ⟨k, w⟩ := e
    by_cases h : k = i
    · simp [h, ih]
    · have : i ≠ k := fun x => h x.symm
      rw [List.filter_cons_of_pos (by simpa using h)]
      simp only [Tab.get, if_neg this]
      exact ih

omit [DecidableEq α] in
/-- Leaving out one key's entries leaves every other key alone. -/
theorem Tab.get_filter_ne (t : Tab α) (d : α) (i k : Nat) (h : k ≠ i) : Tab.get (t.filter fun e => e.1 != i) d k = t.get d k := by
  induction t with
  | nil => rfl
  | cons e t ih =>
    obtain ⟨j, w⟩ := e
    by_cases hj : j = i
    · have : k ≠ j := fun x => h (x.trans hj)
      rw [List.filter_cons_of_neg (by simpa using hj)]
      simp only [Tab.get, if_neg this]
      exact ih
    · rw [List.filter_cons_of_pos (by simpa using hj)]
      simp only [Tab.get, ih]

omit [DecidableEq α] in
theorem Tab.get_put (t : Tab α) (d : α) (i : Nat) (v : α) : (t.put i v).get d i = v := by
  induction t with
  | nil => simp [Tab.put, Tab.get]
  | cons e t ih =>
    obtain ⟨k, w⟩ := e
    simp only [Tab.put]
    split
    · simp [Tab.get]
    · split <;> simp [Tab.get, *]

omit [DecidableEq α] in
theorem Tab.get_put_ne (t : Tab α) (d : α) (i k : Nat) (v : α) (h : k ≠ i) : (t.put i v).get d k = t.get d k := by
  induction t with
  | nil => simp [Tab.put, Tab.get, h]
  | cons e t ih =>
    obtain ⟨j, w⟩ := e
    simp only [Tab.put]
    repeat' split
    all_goals simp_all [Tab.get]

/-- A written key reads as what was written. -/
@[simp] theorem Tab.get_set (t : Tab α) (d : α) (i : Nat) (v : α) : (t.set d i v).get d i = v := by
  unfold Tab.set
  split
  · next h => rw [h]; exact Tab.get_filter_self t d i
  · exact Tab.get_put t d i v

/-- A write leaves every other key alone. -/
theorem Tab.get_set_ne (t : Tab α) (d : α) (i k : Nat) (v : α) (h : k ≠ i) : (t.set d i v).get d k = t.get d k := by
  unfold Tab.set
  split
  · exact Tab.get_filter_ne t d i k h
  · exact Tab.get_put_ne t d i k v h

/-- A lower bound weakens the form. -/
theorem Tab.wfFrom_mono (u : Tab α) (d : α) (m n : Nat) (h : n ≤ m) (hu : Tab.wfFrom d m u = true) :
    Tab.wfFrom d n u = true := by
  cases u with
  | nil => rfl
  | cons f u =>
    simp only [Tab.wfFrom, Bool.and_eq_true, decide_eq_true_eq] at hu ⊢
    exact ⟨⟨by omega, hu.1.2⟩, hu.2⟩

/-- Leaving out entries keeps the canonical form. -/
theorem Tab.wfFrom_filter (t : Tab α) (d : α) (p : Nat × α → Bool) (lo : Nat) (h : Tab.wfFrom d lo t = true) :
    Tab.wfFrom d lo (t.filter p) = true := by
  induction t generalizing lo with
  | nil => rfl
  | cons e t ih =>
    obtain ⟨k, w⟩ := e
    simp only [Tab.wfFrom, Bool.and_eq_true, decide_eq_true_eq] at h
    by_cases hp : p (k, w) = true
    · rw [List.filter_cons_of_pos hp]
      simp only [Tab.wfFrom, Bool.and_eq_true, decide_eq_true_eq]
      exact ⟨h.1, ih _ h.2⟩
    · rw [List.filter_cons_of_neg hp]
      exact Tab.wfFrom_mono _ d _ lo (by omega) (ih _ h.2)

/-- A write keeps the canonical form, from any bound at or below the key. -/
theorem Tab.wfFrom_set (t : Tab α) (d : α) (i lo : Nat) (v : α) (h : Tab.wfFrom d lo t = true) (hi : lo ≤ i) :
    Tab.wfFrom d lo (t.set d i v) = true := by
  unfold Tab.set
  split
  · exact Tab.wfFrom_filter t d _ lo h
  · next hv =>
    induction t generalizing lo with
    | nil => simp [Tab.put, Tab.wfFrom, hi, hv]
    | cons e t ih =>
      obtain ⟨k, w⟩ := e
      simp only [Tab.wfFrom, Bool.and_eq_true, decide_eq_true_eq] at h
      simp only [Tab.put]
      by_cases h1 : i < k
      · simp only [if_pos h1, Tab.wfFrom, Bool.and_eq_true, decide_eq_true_eq]
        exact ⟨⟨hi, hv⟩, ⟨by omega, h.1.2⟩, h.2⟩
      · by_cases h2 : i = k
        · subst h2
          simp only [Nat.lt_irrefl, if_true, if_false, Tab.wfFrom, Bool.and_eq_true, decide_eq_true_eq]
          exact ⟨⟨hi, hv⟩, h.2⟩
        · simp only [if_neg h1, if_neg h2, Tab.wfFrom, Bool.and_eq_true, decide_eq_true_eq]
          exact ⟨⟨h.1.1, h.1.2⟩, ih _ h.2 (by omega)⟩

/-- A write keeps the canonical form. -/
theorem Tab.wf_set (t : Tab α) (d : α) (i : Nat) (v : α) (h : t.wf d = true) : (t.set d i v).wf d = true :=
  Tab.wfFrom_set t d i 0 v h (Nat.zero_le _)

/-- A change of one key keeps the canonical form. -/
theorem Tab.wf_mod (t : Tab α) (d : α) (i : Nat) (f : α → α) (h : t.wf d = true) : (t.mod d i f).wf d = true :=
  Tab.wf_set t d i _ h

/-- A changed key reads as the change of what it read before. -/
@[simp] theorem Tab.get_mod (t : Tab α) (d : α) (i : Nat) (f : α → α) : (t.mod d i f).get d i = f (t.get d i) :=
  Tab.get_set t d i _

/-- A change of one key leaves every other key alone. -/
theorem Tab.get_mod_ne (t : Tab α) (d : α) (i k : Nat) (f : α → α) (h : k ≠ i) : (t.mod d i f).get d k = t.get d k :=
  Tab.get_set_ne t d i k _ h

end Sys2Proof.Machine
end

