-- ==== Sys2Proof/Laws/Memory.lean ====
section
/-! SUPPORT. The memory of the cluster: its canonical form, which every operation on it keeps, and what a line that was written reads
back as (R15, R317). -/

namespace Sys2Proof.Machine

/-- The canonical form of the memory: addresses rising, no byte of the SRAM that is 0 and no line of the stack that is not written. -/
abbrev Mgmt.memWf (m : Mgmt) : Prop := Tab.wf m.sram 0 = true ∧ Tab.wf m.lpddr none = true

/-- A fold of writes keeps the canonical form. -/
theorem Tab.wf_foldl_set {α β : Type} [DecidableEq α] (d : α) (f : β → Nat) (g : β → α) (l : List β) (t : Tab α)
    (h : Tab.wf t d = true) : Tab.wf (l.foldl (fun t e => t.set d (f e) (g e)) t) d = true := by
  induction l generalizing t with
  | nil => exact h
  | cons e l ih => exact ih _ (Tab.wfFrom_set t d _ 0 _ h (Nat.zero_le _))

/-- A write to memory keeps the canonical form. -/
theorem Mgmt.writeMem_wf (m n : Mgmt) (a : Nat) (d : Bytes) (h : m.memWf) (e : m.writeMem a d = some n) : n.memWf := by
  unfold Mgmt.writeMem at e
  split at e
  · simp only [Option.map_eq_some_iff] at e
    obtain ⟨b, -, rfl⟩ := e
    exact ⟨h.1, Tab.wfFrom_set m.lpddr none ((a - 0x100000000) / 64) 0
      (some (sealLine m.memKey ((a - 0x100000000) / 64) (overlay b (a % 64) d))) h.2 (Nat.zero_le _)⟩
  · cases e
    exact ⟨Tab.wf_foldl_set 0 _ _ _ _ h.1, h.2⟩

/-- Placing bytes keeps the canonical form. -/
theorem Mgmt.place_wf (m : Mgmt) (w : World) (a : Nat) (d : Bytes) (h : m.memWf) : (m.place w a d).memWf := by
  unfold Mgmt.place
  generalize (List.range d.length).zip d = l
  induction l generalizing m with
  | nil => exact h
  | cons e l ih =>
    apply ih
    dsimp only
    split
    · cases x : m.writeMem (a + e.1) [e.2] with
      | none => exact h
      | some n => exact Mgmt.writeMem_wf m n _ _ h x
    · exact h

/-- A zero-fill keeps the canonical form. -/
theorem Mgmt.zeroFill_wf (m : Mgmt) (f : Nat → Bool) (h : m.memWf) : (m.zeroFill f).memWf :=
  ⟨Tab.wfFrom_filter _ _ _ 0 h.1, Tab.wfFrom_filter _ _ _ 0 h.2⟩

/-- The reset state's memory is in canonical form. -/
theorem State.reset_memWf (p : Plate) : (State.reset.pl p).mgt.memWf := by cases p <;> exact ⟨rfl, rfl⟩

/-- XOR with one string twice gives back a string that is no longer than it. -/
theorem xorBytes_twice (b k : Bytes) (h : b.length ≤ k.length) : xorBytes (xorBytes b k) k = b := by
  induction b generalizing k with
  | nil => simp [xorBytes]
  | cons x b ih =>
    cases k with
    | nil => simp at h
    | cons y k => simp only [xorBytes, List.zipWith_cons_cons, List.cons.injEq] at *
                  exact ⟨by simp, ih k (by simpa using h)⟩

theorem fit_length (n : Nat) (b : Bytes) : (fit n b).length = n := by simp [fit]

theorem fit_of_length (b : Bytes) : fit b.length b = b := by simp [fit]

/-- A line written under the memory key reads back as what was written: its tag holds, and the encryption is undone (R15). -/
theorem Mgmt.readLine_sealed (m : Mgmt) (k : Nat) (b : Bytes) (h : b.length = 64)
    (e : m.lpddr.get none k = some (sealLine m.memKey k b)) : m.readLine k = some b := by
  have hb : fit 64 b = b := by rw [← h]; exact fit_of_length b
  have hx : (xorBytes b (fit 64 (Config.lpddrPad (cut m.memKey 32 32) k))).length = 64 := by
    simp [xorBytes, h, fit_length]
  unfold Mgmt.readLine
  rw [e]
  simp only [sealLine, hb, BEq.rfl, if_true]
  have hf : fit 64 (xorBytes b (fit 64 (Config.lpddrPad (cut m.memKey 32 32) k))) =
      xorBytes b (fit 64 (Config.lpddrPad (cut m.memKey 32 32) k)) := by
    have := fit_of_length (xorBytes b (fit 64 (Config.lpddrPad (cut m.memKey 32 32) k)))
    rwa [hx] at this
  rw [hf, xorBytes_twice b _ (by rw [h, fit_length])]

/-! ## The caches -/

/-- An access through the L2 changes the L2 and counts free values, and nothing else (R316). -/
theorem State.l2Access_eq (s : State) (p : Plate) (w : World) (a : Nat) :
    ∃ l n, s.l2Access p w a = (s.tick n).updMgt p fun m => { m with l2 := l } := by
  unfold State.l2Access
  dsimp only
  by_cases h : ((l2Ways w).any fun k => (s.pl p).mgt.l2.get none (16 * (a / Config.l2Line % l2Sets) + k) ==
      some (a / Config.l2Line)) = true
  · rw [if_pos h]
    exact ⟨(s.pl p).mgt.l2, 0, by cases p <;> rfl⟩
  · rw [if_neg h]
    generalize (l2Ways w).find? _ = o
    exact ⟨(s.pl p).mgt.l2.set none (16 * (a / Config.l2Line % l2Sets) + o.getD
      ((l2Ways w).getD (Config.freeNat s.free % 8) 0)) (some (a / Config.l2Line)), 1, by cases p <;> rfl⟩

/-- An access through the caches changes the caches and counts free values, and nothing else (R312). -/
theorem State.cacheAccess_eq (s : State) (p : Plate) (c : Nat) (fetch : Bool) (a : Nat) :
    ∃ l1 l2 n, s.cacheAccess p c fetch a = (s.tick n).updMgt p fun m => { m with l1 := l1, l2 := l2 } := by
  unfold State.cacheAccess
  dsimp only
  by_cases h : (s.pl p).mgt.l1.contains (2 * c + if fetch then 1 else 0, a / Config.l2Line) = true
  · rw [if_pos h]
    exact ⟨(s.pl p).mgt.l1, (s.pl p).mgt.l2, 0, by cases p <;> rfl⟩
  · rw [if_neg h]
    generalize (if List.length _ < _ then _ else _ : List (Nat × Nat)) = keep
    obtain ⟨l, n, e⟩ := State.l2Access_eq ((s.tick 1).updMgt p fun m => { m with
      l1 := keep ++ [(2 * c + if fetch then 1 else 0, a / Config.l2Line)] }) p ((s.pl p).mgt.worldOf c) a
    rw [e]
    exact ⟨keep ++ [(2 * c + if fetch then 1 else 0, a / Config.l2Line)], l, 1 + n, by
      rw [show s.tick (1 + n) = (s.tick 1).tick n by simp [State.tick, Nat.add_assoc]]
      cases p <;> rfl⟩

end Sys2Proof.Machine
end

