-- ==== Sys2Proof/Laws/Posting.lean ====
section
/-! SUPPORT. What the shared operations over rings, jobs, messages and completions can do: their frames, and the record that a
completion leaves. -/

namespace Sys2Proof.Machine

/-! ## Rings, jobs and outputs -/

theorem State.updRing_frame (s : State) (p : Plate) (q : RingRef) (f : Ring → Ring) : SameBut [.sl p] s (s.updRing p q f) := by
  cases q <;> exact State.updSl_frame s p _

theorem State.updJob_frame (s : State) (p : Plate) (q : RingRef) (i : Word) (f : Job → Job) :
    SameBut [.sl p] s (s.updJob p q i f) := State.updSl_frame s p _

theorem State.updJobAt_frame (s : State) (r : JobRef) (f : Job → Job) : SameBut [.sl r.plate] s (s.updJobAt r f) :=
  State.updSl_frame s r.plate _

theorem State.dropJob_frame (s : State) (p : Plate) (q : RingRef) (i : Word) :
    SameBut [.sl p, .vlt p] s (s.dropJob p q i) :=
  (State.updVlt_frame s p _).step (by simp) ((State.updSl_frame _ p _).mono (by simp))

theorem State.meter_frame (s : State) (p : Plate) (q : RingRef) (f : Meter → Meter) : SameBut [.sl p] s (s.meter p q f) := by
  cases q
  · exact State.updSl_frame s p _
  · exact SameBut.refl _ s

theorem State.send_frame (s : State) (p : Plate) (m : GMsg) : SameBut [.gut p.peer] s (s.send p m) := by
  unfold State.send
  exact SameBut.ite (State.setGut_frame s _ _) (SameBut.refl _ s)

theorem State.receive_frame {β : Type} (s t : State) (p : Plate) (f : GMsg → Option β) (b : β)
    (h : s.receive p f = some (b, t)) : SameBut [.gut p] s t := by
  unfold State.receive at h
  split at h
  · cases h
    exact State.setGut_frame s p _
  · cases h

theorem State.translate_frame (s : State) (p : Plate) (v : Option (BitVec 20)) (a : DWord) :
    SameBut [.pow p, .out] s (s.translate p v a) :=
  SameBut.ite ((State.updPow_frame s p _).step (by simp) ((State.emit_frame _ _).mono (by simp))) (SameBut.refl _ s)

theorem State.sliceWrite_frame (s : State) (p : Plate) (i : Nat) (a : DWord) (d : Bytes) (x : Bool) :
    SameBut [.pow p, .out] s (s.sliceWrite p i a d x) := by
  unfold State.sliceWrite
  split
  · exact SameBut.ite ((State.translate_frame s p _ _).step (by simp) ((State.emit_frame _ _).mono (by simp)))
      (SameBut.refl _ s)
  · exact SameBut.refl _ s

theorem State.ringWrite_frame (s : State) (p : Plate) (q : RingRef) (a : DWord) (d : Bytes) (x : Bool) :
    SameBut [.pow p, .out] s (s.ringWrite p q a d x) := by
  cases q
  · exact State.sliceWrite_frame s p _ a d x
  · exact SameBut.ite ((State.translate_frame s p _ _).step (by simp) ((State.emit_frame _ _).mono (by simp)))
      (SameBut.refl _ s)

/-! ## Messages and progress lines -/

theorem State.sendMsix_frame (s : State) (p : Plate) (v : Nat) : SameBut [.pow p, .out] s (s.sendMsix p v) := by
  unfold State.sendMsix
  exact SameBut.ite ((State.updPow_frame s p _).mono (by simp)) ((State.emit_frame s _).mono (by simp))

theorem State.sendMsixN_frame (s : State) (p : Plate) (v k : Nat) : SameBut [.pow p, .out] s (s.sendMsixN p v k) := by
  induction k generalizing s with
  | zero => exact SameBut.refl _ s
  | succ k ih => exact (State.sendMsix_frame s p v).trans (ih _)

theorem State.flushRing_frame (s : State) (p : Plate) (q : RingRef) :
    SameBut [.sl p, .pow p, .out] s (s.flushRing p q) := by
  unfold State.flushRing
  exact SameBut.ite (SameBut.refl _ s)
    ((State.updRing_frame s p q _).step (by simp) ((State.sendMsixN_frame _ p _ _).mono (by simp)))

theorem State.writeProgress_frame (s : State) (p : Plate) (i : Nat) :
    SameBut [.sl p, .pow p, .out] s (s.writeProgress p i) := by
  unfold State.writeProgress
  exact (State.sliceWrite_frame s p i _ _ _).step (by simp) ((State.updSl_frame _ p _).step (by simp)
    (State.each_frame _ _ (fun s _ => State.flushRing_frame s p _) _))

theorem State.afterRecord_frame (s : State) (p : Plate) (q : RingRef) (a b : Bool) :
    SameBut [.sl p, .pow p, .out] s (s.afterRecord p q a b) := by
  cases q with
  | admin => exact State.flushRing_frame s p _
  | tenant i r =>
    exact SameBut.ite ((State.updSl_frame s p _).mono (by simp)) (SameBut.ite (State.writeProgress_frame s p i)
      (SameBut.ite (SameBut.refl _ s) (State.flushRing_frame s p _)))

/-! ## Completions -/

theorem State.postAs_frame (s : State) (p : Plate) (q : RingRef) (i : Word) (d : Option Desc) (r : Result) (a b c : Bool) :
    SameBut [.sl p, .pow p, .out] s (s.postAs p q i d r a b c) := by
  unfold State.postAs
  refine SameBut.trans (t := if r.status = .ok then s.each r.writes fun s w => s.ringWrite p q w.1 w.2 true else s)
    (SameBut.ite (State.each_frame _ _ (fun s w => (State.ringWrite_frame s p q _ _ _).mono (by simp)) s)
      (SameBut.refl _ s)) ?_
  generalize (if r.status = .ok then s.each r.writes fun s w => s.ringWrite p q w.1 w.2 true else s) = s1
  dsimp only
  refine SameBut.trans (t := match d with
    | some d => if cplZeroed r && d.outCap != 0 then s1.ringWrite p q d.outAddr (zeros d.outCap.toNat) true else s1
    | none => s1) ?_ ?_
  · cases d with
    | none => exact SameBut.refl _ s1
    | some d => exact SameBut.ite ((State.ringWrite_frame s1 p q _ _ _).mono (by simp)) (SameBut.refl _ s1)
  · exact (State.ringWrite_frame _ p q _ _ _).step (by simp) ((State.meter_frame _ p q _).step (by simp)
      ((State.updRing_frame _ p q _).step (by simp) (State.afterRecord_frame _ p q _ _)))

theorem State.post_frame (s : State) (p : Plate) (q : RingRef) (i : Word) (d : Option Desc) (r : Result) (a b c : Bool) :
    SameBut [.sl p, .pow p, .out] s (s.post p q i d r a b c) := State.postAs_frame s p q i d _ a b c

theorem State.finish_frame (s : State) (p : Plate) (j : Job) (r : Result) :
    SameBut [.sl p, .vlt p, .pow p, .out] s (s.finish p j r) :=
  SameBut.ite ((State.post_frame s p _ _ _ _ _ _ _).step (by simp) ((State.dropJob_frame _ p _ _).mono (by simp)))
    (SameBut.refl _ s)

theorem State.finishBatch_frame (s : State) (p : Plate) (j : Job) (r : Result) :
    SameBut [.sl p, .vlt p, .pow p, .out] s (s.finishBatch p j r) :=
  SameBut.ite ((State.post_frame s p _ _ _ _ _ _ _).step (by simp) ((State.dropJob_frame _ p _ _).mono (by simp)))
    (SameBut.refl _ s)

theorem State.fail_frame (s : State) (p : Plate) (j : Job) (st : Status) :
    SameBut [.sl p, .vlt p, .pow p, .out] s (s.fail p j st) := State.finish_frame s p j _

theorem State.ringFault_frame (s : State) (p : Plate) (q : RingRef) (k : Nat) (v : Word) :
    SameBut [.sl p, .pow p, .out] s (s.ringFault p q k v) :=
  (State.ringWrite_frame s p q _ _ _).step (by simp) ((State.meter_frame _ p q _).step (by simp)
    ((State.updRing_frame _ p q _).step (by simp) ((State.updSl_frame _ p _).step (by simp)
      (State.afterRecord_frame _ p q _ _))))

/-! ## The record of a completion -/

/-- What a part reads of a ring does not change where only outputs were added. -/
theorem State.emit_ring (s : State) (x : Out) (p : Plate) (q : RingRef) : (s.emit x).ring p q = s.ring p q := by
  cases q <;> simp [State.ring]

theorem State.ring_congr {s t : State} {p : Plate} (q : RingRef) (h : (t.pl p).sl = (s.pl p).sl) :
    t.ring p q = s.ring p q := by
  cases q <;> simp [State.ring, h]

theorem State.ringTag_congr {s t : State} {p : Plate} (q : RingRef) (h : (t.pl p).sl = (s.pl p).sl) :
    t.ringTag p q = s.ringTag p q := by
  cases q <;> cases p <;> simp only [State.ringTag, State.pasid, State.impo, h]

/-- A write of a ring changes nothing but the translations held and what was sent (Table 2.1). -/
theorem State.translate_mayWrite (s : State) (p q : Plate) (v : Option (BitVec 20)) (a : DWord) :
    (s.translate p v a).mayWrite q = s.mayWrite q := by
  unfold State.translate
  dsimp only
  split
  · cases p <;> cases q <;> rfl
  · rfl

theorem State.ringWrite_mayWrite (s : State) (p q : Plate) (g : RingRef) (a : DWord) (d : Bytes) (x : Bool) :
    (s.ringWrite p g a d x).mayWrite q = s.mayWrite q := by
  have e (s : State) (o : Out) : (s.emit o).mayWrite q = s.mayWrite q := by cases q <;> rfl
  cases g <;> simp only [State.ringWrite, State.sliceWrite] <;> repeat' split
  all_goals simp [e, State.translate_mayWrite]

theorem State.ringWrite_sl (s : State) (p q : Plate) (g : RingRef) (a : DWord) (d : Bytes) (x : Bool) :
    ((s.ringWrite p g a d x).pl q).sl = (s.pl q).sl := State.ringWrite_frame s p g a d x (.sl q) (by simp)

theorem State.translate_out (s : State) (p : Plate) (v : Option (BitVec 20)) (a : DWord) : s.out <+: (s.translate p v a).out := by
  unfold State.translate
  dsimp only
  split <;> simp

/-- Outputs are only ever added. -/
theorem State.ringWrite_out (s : State) (p : Plate) (q : RingRef) (a : DWord) (d : Bytes) (x : Bool) :
    s.out <+: (s.ringWrite p q a d x).out := by
  cases q <;> simp only [State.ringWrite, State.sliceWrite] <;> repeat' split
  all_goals first
    | exact (State.translate_out s p _ _).trans ⟨[_], rfl⟩
    | exact List.prefix_refl _

theorem State.ringWrite_mem (s : State) (p : Plate) (q : RingRef) (a : DWord) (d : Bytes) (x : Bool) (v : Option (BitVec 20))
    (h : s.ringTag p q = some v) (hw : s.mayWrite p = true) : Out.write p v a d x ∈ (s.ringWrite p q a d x).out := by
  cases q with
  | tenant i r =>
    simp only [State.ringTag, Option.map_eq_some_iff] at h
    obtain ⟨w, h, rfl⟩ := h
    simp [State.ringWrite, State.sliceWrite, h, hw]
  | admin =>
    simp only [State.ringTag, Option.some.injEq] at h
    subst h
    simp [State.ringWrite, hw]

theorem State.updRing_out (s : State) (p : Plate) (q : RingRef) (f : Ring → Ring) : (s.updRing p q f).out = s.out := by
  cases q <;> simp [State.updRing]

theorem State.meter_out (s : State) (p : Plate) (q : RingRef) (f : Meter → Meter) : (s.meter p q f).out = s.out := by
  cases q <;> simp [State.meter]

theorem State.sendMsix_out (s : State) (p : Plate) (v : Nat) : s.out <+: (s.sendMsix p v).out := by
  unfold State.sendMsix
  split <;> simp

theorem State.sendMsixN_out (s : State) (p : Plate) (v k : Nat) : s.out <+: (s.sendMsixN p v k).out := by
  induction k generalizing s with
  | zero => exact List.prefix_refl _
  | succ k ih => exact (State.sendMsix_out s p v).trans (ih _)

theorem State.flushRing_out (s : State) (p : Plate) (q : RingRef) : s.out <+: (s.flushRing p q).out := by
  unfold State.flushRing
  dsimp only
  split
  · exact List.prefix_refl _
  · exact (State.updRing_out s p q _ ▸ List.prefix_refl _ : s.out <+: _).trans (State.sendMsixN_out _ p _ _)

theorem State.each_out {α : Type} (l : List α) (f : State → α → State) (h : ∀ s a, s.out <+: (f s a).out) (s : State) :
    s.out <+: (s.each l f).out := by
  induction l generalizing s with
  | nil => exact List.prefix_refl _
  | cons a t ih => exact (h s a).trans (ih (f s a))

theorem State.writeProgress_out (s : State) (p : Plate) (i : Nat) : s.out <+: (s.writeProgress p i).out := by
  unfold State.writeProgress
  refine List.IsPrefix.trans ?_ (State.each_out _ _ (fun s _ => State.flushRing_out s p _) _)
  simpa [State.ringWrite] using State.ringWrite_out s p (.tenant i 0) _ _ false

theorem State.afterRecord_out (s : State) (p : Plate) (q : RingRef) (a b : Bool) : s.out <+: (s.afterRecord p q a b).out := by
  cases q with
  | admin => exact State.flushRing_out s p _
  | tenant i r =>
    simp only [State.afterRecord]
    repeat' split
    all_goals first
      | exact State.writeProgress_out s p i
      | exact State.flushRing_out s p _
      | simp

theorem State.writes_sl (s : State) (p q : Plate) (g : RingRef) (l : List (DWord × Bytes)) :
    ((s.each l fun s w => s.ringWrite p g w.1 w.2 true).pl q).sl = (s.pl q).sl :=
  State.each_frame l _ (fun s w => State.ringWrite_frame s p g w.1 w.2 true) s (.sl q) (by simp)

theorem State.writes_mayWrite (s : State) (p q : Plate) (g : RingRef) (l : List (DWord × Bytes)) :
    (s.each l fun s w => s.ringWrite p g w.1 w.2 true).mayWrite q = s.mayWrite q := by
  induction l generalizing s with
  | nil => rfl
  | cons a t ih => exact (ih _).trans (State.ringWrite_mayWrite s p q g _ _ _)

/-- Posting writes the completion record at the next entry of the ring, and outputs are only added. -/
theorem State.postAs_record (s : State) (p : Plate) (q : RingRef) (i : Word) (d : Desc) (r : Result) (a b c : Bool) :
    s.out <+: (s.postAs p q i (some d) r a b c).out ∧
    ∀ v, s.ringTag p q = some v → s.mayWrite p = true →
      Out.write p v ((s.ring p q).cqEntry (s.ring p q).count) (recordCpl d.cookie r.status.code p.num (cplFlags a b r)
        (cplOutLen r) r.info i r.info2 ((s.ring p q).phase (s.ring p q).count)) false ∈
        (s.postAs p q i (some d) r a b c).out := by
  have key : ((((if r.status = .ok then s.each r.writes fun s w => s.ringWrite p q w.1 w.2 true else s).pl p).sl = (s.pl p).sl) ∧
      (if r.status = .ok then s.each r.writes fun s w => s.ringWrite p q w.1 w.2 true else s).mayWrite p = s.mayWrite p) ∧
      s.out <+: (if r.status = .ok then s.each r.writes fun s w => s.ringWrite p q w.1 w.2 true else s).out := by
    split
    · exact ⟨⟨State.writes_sl s p p q _, State.writes_mayWrite s p p q _⟩,
        State.each_out _ _ (fun s _ => State.ringWrite_out s p q _ _ _) _⟩
    · exact ⟨⟨rfl, rfl⟩, List.prefix_refl _⟩
  unfold State.postAs
  revert key
  generalize (if r.status = .ok then s.each r.writes fun s w => s.ringWrite p q w.1 w.2 true else s) = s1
  rintro ⟨⟨e1, m1⟩, o1⟩
  dsimp only
  have key : ((((if cplZeroed r && d.outCap != 0 then s1.ringWrite p q d.outAddr (zeros d.outCap.toNat) true else s1).pl p).sl =
      (s.pl p).sl) ∧
      (if cplZeroed r && d.outCap != 0 then s1.ringWrite p q d.outAddr (zeros d.outCap.toNat) true else s1).mayWrite p =
        s.mayWrite p) ∧
      s.out <+: (if cplZeroed r && d.outCap != 0 then s1.ringWrite p q d.outAddr (zeros d.outCap.toNat) true else s1).out := by
    split
    · exact ⟨⟨(State.ringWrite_sl s1 p p q _ _ _).trans e1, (State.ringWrite_mayWrite s1 p p q _ _ _).trans m1⟩,
        o1.trans (State.ringWrite_out s1 p q _ _ _)⟩
    · exact ⟨⟨e1, m1⟩, o1⟩
  revert key
  generalize (if cplZeroed r && d.outCap != 0 then s1.ringWrite p q d.outAddr (zeros d.outCap.toNat) true else s1) = s2
  rintro ⟨⟨e2, m2⟩, o2⟩
  rw [State.ring_congr q e2]
  refine ⟨?_, fun v hv hw => ?_⟩
  · refine List.IsPrefix.trans ?_ (State.afterRecord_out _ p q _ _)
    rw [State.updRing_out, State.meter_out]
    exact o2.trans (State.ringWrite_out s2 p q _ _ _)
  · refine (State.afterRecord_out _ p q _ _).subset ?_
    rw [State.updRing_out, State.meter_out]
    exact State.ringWrite_mem s2 p q _ _ _ v (by rw [State.ringTag_congr q e2]; exact hv) (by rw [m2]; exact hw)

theorem State.dropJob_out (s : State) (p : Plate) (q : RingRef) (i : Word) : (s.dropJob p q i).out = s.out := by
  simp [State.dropJob]

theorem State.dropJob_gone (s : State) (p : Plate) (q : RingRef) (i : Word) : (s.dropJob p q i).job? p q i = none := by
  simp only [State.job?, State.dropJob, State.updSl_self, List.find?_eq_none, List.mem_filter]
  intro x h
  have h2 := h.2
  simp only [Bool.not_eq_eq_eq_not, Bool.not_true] at h2
  simp [h2]

/-- A completion is seen from any earlier state that agrees on the ring, the tag and the right to write. -/
theorem Completes.from_ {s s' t : State} {p : Plate} {j : Job} {r : Result} (h : Completes s' t p j r)
    (hr : s'.ring p j.ring = s.ring p j.ring) (ht : s'.ringTag p j.ring = s.ringTag p j.ring)
    (hm : s'.mayWrite p = s.mayWrite p) (ho : s.out <+: s'.out)
    (hx : s'.translated p j.ring (some j.desc) r = s.translated p j.ring (some j.desc) r) : Completes s t p j r := by
  refine ⟨ho.trans h.1, fun v hv => ?_⟩
  obtain ⟨h1, h2⟩ := h.2 v (ht ▸ hv)
  exact ⟨h1, fun hw => by simpa only [recordOf, hr, hx] using h2 (hm ▸ hw)⟩

/-- A ring whose memory the plate reaches has a tag. -/
theorem State.reaches_of_tag {s : State} {p : Plate} {q : RingRef} {v : Option (BitVec 20)} (h : s.ringTag p q = some v) :
    s.reaches p q = true := by
  cases q with
  | admin => rfl
  | tenant i r =>
    simp only [State.ringTag, Option.map_eq_some_iff] at h
    obtain ⟨w, h, -⟩ := h
    simp [State.reaches, h]

/-- A finished job has completed. -/
theorem State.finish_completes (s : State) (p : Plate) (j : Job) (r : Result) : Completes s (s.finish p j r) p j r := by
  unfold State.finish
  refine ⟨?_, fun v hv => ?_⟩
  · split
    · rw [State.dropJob_out]
      exact (State.postAs_record s p j.ring j.index j.desc _ _ _ false).1
    · exact List.prefix_refl _
  · rw [if_pos (State.reaches_of_tag hv)]
    refine ⟨State.dropJob_gone _ _ _ _, fun hw => ?_⟩
    rw [State.dropJob_out]
    exact (State.postAs_record s p j.ring j.index j.desc _ _ _ false).2 v hv hw

theorem State.finishBatch_completes (s : State) (p : Plate) (j : Job) (r : Result) :
    Completes s (s.finishBatch p j r) p j r := by
  unfold State.finishBatch
  refine ⟨?_, fun v hv => ?_⟩
  · split
    · rw [State.dropJob_out]
      exact (State.postAs_record s p j.ring j.index j.desc _ _ _ true).1
    · exact List.prefix_refl _
  · rw [if_pos (State.reaches_of_tag hv)]
    refine ⟨State.dropJob_gone _ _ _ _, fun hw => ?_⟩
    rw [State.dropJob_out]
    exact (State.postAs_record s p j.ring j.index j.desc _ _ _ true).2 v hv hw

theorem State.fail_completes (s : State) (p : Plate) (j : Job) (st : Status) :
    Completes s (s.fail p j st) p j { status := st } := State.finish_completes s p j _

end Sys2Proof.Machine
end

