-- ==== Sys2Proof/Laws/Shared.lean ====
section
/-! SUPPORT. What the operations shared by the families can do: records, NVM groups, latching a fault source, and frames on a
Bripa channel. -/

namespace Sys2Proof.Machine

/-! ## Records and groups -/

/-- A record touches the NVM part alone (R344, R345). -/
theorem State.record_frame (s : State) (p : Plate) (t k : Nat) (d : Word) : SameBut [.nvm p] s (s.record p t k d) := by
  unfold State.record
  exact SameBut.ite (SameBut.refl _ s) (SameBut.ite (State.updNvm_frame s p _)
    (SameBut.ite (State.updNvm_frame s p _) (State.updNvm_frame s p _)))

theorem State.startGroup_frame (s : State) (p : Plate) (g : Group) : SameBut [.nvm p] s (s.startGroup p g) :=
  State.updNvm_frame s p _

/-- At most four groups are in progress after a group begins that may (R334). -/
theorem Nvm.begin_le (n : Nvm) (g : Group) (c : n.canStart g = true) : (n.begin_ g).groups.length ≤ 4 := by
  simp only [Nvm.canStart, Bool.and_eq_true, decide_eq_true_eq] at c
  simp only [Nvm.begin_, List.length_append, List.length_singleton]
  omega

/-- At most four groups are in progress after a group enters the controller, if there were before (R334). -/
theorem Nvm.enter_le (n : Nvm) (g : Group) (h : n.groups.length ≤ 4) : (n.enter g).groups.length ≤ 4 := by
  have key : ∀ (m : Nvm) (x : Group), m.groups.length ≤ 4 →
      (if m.canStart x && !(m.waiting.any fun w => w.blocks x) then m.begin_ x
        else { m with waiting := m.waiting ++ [x] }).groups.length ≤ 4 := fun m x hm => by
    split
    · next c => exact Nvm.begin_le _ _ (by rw [Bool.and_eq_true] at c; exact c.1)
    · exact hm
  exact key _ _ (by split <;> exact h)

/-- At most four groups are in progress after a write starts, if there were before (R334). -/
theorem Nvm.startGroup_le (n : Nvm) (g : Group) (h : n.groups.length ≤ 4) : (n.startGroup g).groups.length ≤ 4 := by
  unfold Nvm.startGroup
  generalize g.split = l
  induction l generalizing n with
  | nil => exact h
  | cons x l ih => exact ih _ (Nvm.enter_le n x h)

/-- The waiting group chosen next may begin. -/
theorem Nvm.nextWaiting_canStart (n : Nvm) (seen l : List Group) (g : Group) (t : List Group)
    (h : n.nextWaiting seen l = some (g, t)) : n.canStart g = true := by
  induction l generalizing seen with
  | nil => simp [Nvm.nextWaiting] at h
  | cons x l ih =>
    unfold Nvm.nextWaiting at h
    split at h
    · next c =>
      simp only [Option.some.injEq, Prod.mk.injEq] at h
      obtain ⟨rfl, -⟩ := h
      simp only [Bool.and_eq_true] at c
      exact c.1
    · exact ih _ h

/-- At most four groups are in progress after waiting groups start. -/
theorem Nvm.promote_le (n : Nvm) (k : Nat) (h : n.groups.length ≤ 4) : (n.promote k).groups.length ≤ 4 := by
  induction k generalizing n with
  | zero => exact h
  | succ k ih =>
    unfold Nvm.promote
    split
    · next g t e => exact ih _ (Nvm.begin_le _ g (Nvm.nextWaiting_canStart n _ _ g t e))
    · exact h

/-! ## Faults (R300, R303) -/

theorem State.refreshOut_frame (s : State) (p : Plate) : SameBut [.pow p] s (s.refreshOut p) := State.updPow_frame s p _

theorem State.faultIrq_frame (s : State) (p : Plate) : SameBut [.pow p, .out] s (s.faultIrq p) := by
  unfold State.faultIrq State.sendMsix
  refine SameBut.ite (SameBut.ite ?_ ?_) (SameBut.refl _ s)
  · exact (State.updPow_frame s p _).mono (by simp)
  · exact (State.emit_frame s _).mono (by simp)

/-- What a latch may touch. -/
theorem State.latch_frame (s : State) (p : Plate) (k : Nat) : SameBut [.flt p, .pow p, .nvm p, .out] s (s.latch p k) := by
  unfold State.latch
  refine SameBut.ite (SameBut.refl _ s) ?_
  dsimp only
  split
  · exact (State.updFlt_frame s p _).step (by simp) ((State.faultIrq_frame _ p).step (by simp)
      ((State.refreshOut_frame _ p).step (by simp) ((State.record_frame _ p _ _ _).mono (by simp))))
  · exact (State.updFlt_frame s p _).step (by simp)
      ((State.refreshOut_frame _ p).step (by simp) ((State.record_frame _ p _ _ _).mono (by simp)))

/-- A set bit stays set. -/
theorem srcBit_or (w : DWord) (k : Nat) (h : hasSrc w k = true) : w ||| srcBit k = w := by
  apply BitVec.eq_of_getLsbD_eq
  intro i hi
  simp only [srcBit, BitVec.getLsbD_or, BitVec.getLsbD_ofNat, Nat.testBit_two_pow, hi, decide_true, Bool.true_and]
  by_cases e : k = i
  · subst e; simp only [hasSrc] at h; simp [h]
  · simp [e]

/-- Where an operation leaves a plate's collector alone. -/
theorem flt_of_frame {l : List Part} {s t : State} {p : Plate} (h : SameBut l s t) (n : Part.flt p ∉ l) :
    (t.pl p).flt = (s.pl p).flt := h _ n

/-- A latch sets its source's bit and clears none; a source that Table 13.1 does not have sets nothing (R300). -/
theorem State.latch_status (s : State) (p : Plate) (k : Nat) :
    ((s.latch p k).pl p).flt.status = if (isClassS k || isClassC k || isClassT k) = true then (s.pl p).flt.status ||| srcBit k
      else (s.pl p).flt.status := by
  have up (f : Faults → Faults) : ((s.updFlt p f).pl p).flt = f (s.pl p).flt := by cases p <;> rfl
  by_cases c : (isClassS k || isClassC k || isClassT k) = true
  · by_cases b : hasSrc (s.pl p).flt.status k = true
    · simp only [State.latch, c, b, Bool.not_true, Bool.false_or, if_true, srcBit_or _ _ b]
    · simp only [State.latch, c, b, Bool.not_true, Bool.false_or, if_true, Bool.false_eq_true, if_false]
      rw [flt_of_frame (State.record_frame _ p _ _ _) (by simp), flt_of_frame (State.refreshOut_frame _ p) (by simp)]
      split
      · rw [flt_of_frame (State.faultIrq_frame _ p) (by simp), up]
      · rw [up]
  · simp [State.latch, c]

theorem State.setPin_frame (s : State) (p : Plate) (k : Nat) (on : Bool) : SameBut [.flt p] s (s.setPin p k on) :=
  SameBut.ite (State.updFlt_frame s p _) (SameBut.refl _ s)

/-- What a raised source may touch. -/
theorem State.raise_frame (s : State) (p : Plate) (k : Nat) : SameBut [.flt p, .pow p, .nvm p, .out] s (s.raise p k) :=
  SameBut.ite ((State.setPin_frame s p k true).step (by simp) (State.latch_frame _ p k)) (SameBut.refl _ s)

/-- What a tamper source may touch (R288, R303). -/
theorem State.tamper_frame (s : State) (p : Plate) (k b i : Nat) :
    SameBut [.tmp p, .flt p, .pow p, .nvm p, .out] s (s.tamper p k b i) :=
  SameBut.ite ((State.updTmp_frame s p _).step (by simp) ((State.raise_frame _ p k).mono (by simp))) (SameBut.refl _ s)

/-! ## Bripa channels (R258) -/

/-- The part that holds an end of a channel. -/
def endPart (e : End) (p : Plate) : Part :=
  match e with
  | .plate => .mrg p
  | .margin => .margin

theorem State.updLink_frame (s : State) (e : End) (p : Plate) (f : Link → Link) :
    SameBut [endPart e p] s (s.updLink e p f) := by
  cases e
  · exact State.updMrg_frame s p _
  · cases p <;> exact State.updMargin_frame s _

theorem State.pumpLink_frame (s : State) (e : End) (p : Plate) : SameBut [endPart e p, .out] s (s.pumpLink e p) :=
  SameBut.ite (SameBut.refl _ s) ((State.updLink_frame s e p _).step (by simp) ((State.emits_frame _ _).mono (by simp)))

/-- A frame that is sent touches its end of the channel alone, and what is sent. -/
theorem State.sendFrame_frame (s : State) (e : End) (p : Plate) (t : Nat) (r : Byte) (b : Bytes) :
    SameBut [endPart e p, .out] s (s.sendFrame e p t r b) :=
  SameBut.ite (SameBut.refl _ s) ((State.updLink_frame s e p _).step (by simp) (State.pumpLink_frame _ e p))

theorem State.sendBare_frame (s : State) (e : End) (p : Plate) (t : Nat) (q : Byte) : SameBut [.out] s (s.sendBare e p t q) :=
  State.emit_frame s _

end Sys2Proof.Machine
end

