-- ==== Sys2Proof/WellFormed.lean ====
section
/-! DEFINITION. Which commands are well formed: every operand lies in the range its row gives it. -/

namespace Sys2Proof

/-- 4,096 slices of 16 rings (R14, 02). -/
def RingRef.wf : RingRef → Bool
  | .tenant i r => decide (i < 4096 ∧ r < 16)
  | .admin => true

/-- A job names a ring of a plate. -/
def JobRef.wf (j : JobRef) : Bool := j.ring.wf

/-- Items: slot 0 to 31 of a slice, a ledger entry, a cache position (06). -/
def ItemRef.wf : ItemRef → Bool
  | .slot i k => decide (i < 4096 ∧ k < 32)
  | .ledger k => decide (k < 1048576)
  | .handle i k => decide (i < 4096 ∧ k < 524288)

/-- Vault pages: of slots, ledger entries, slice records and imposition entries, the number lies in its range (R332). -/
def PageRef.wf : PageRef → Bool
  | .slot i k => decide (i < 4096 ∧ k < 32)
  | .ledger k => decide (k < 1048576)
  | .record i => decide (i < 4096)
  | .impo i => decide (i < 4096)
  | .custody => true
  | .lifecycle => true

/-- A finding names a page (Table 9.11). -/
def Finding.wf : Finding → Bool
  | .oneFails _ i => i.wf
  | .bothFail i => i.wf
  | .differs i => i.wf
  | .padding lpn => decide (lpn < 344064)
  | .weak _ lpn => decide (lpn < 344064)

/-- Random start-up takes 4,096 samples of each of 8 cells, and 256 bits of each for a block (Table 8.2). -/
def RandomStart.wf (x : RandomStart) : Bool :=
  decide (x.samples.length = 8) && (x.samples.all fun l => decide (l.length = 4096)) && x.blocks.all fun b => decide (b.length = 8)

/-- A link trains to x8, x4, x2 or x1 at a rate of Gen 1 to Gen 5 (Table 2.1). -/
def LinkShape.wf (x : LinkShape) : Bool := [1, 2, 4, 8].contains x.lanes && decide (1 ≤ x.gen ∧ x.gen ≤ 5)

/-- Units: 64 lanes, 8 engines, the hash path. -/
def UnitRef.wf : UnitRef → Bool
  | .lane n => decide (n < 64)
  | .engine n => decide (n < 8)
  | .hash => true

/-- The read that a time-out ends. -/
def ReadKind.wf : ReadKind → Bool
  | .doorbell i => decide (i < 4096)
  | .descriptor q _ => q.wf
  | .slug q _ => q.wf
  | .input q _ => q.wf
  | .message q _ => q.wf
  | .witness => true

/-- A frame's payload has at most 64 bytes (Table 11.2). -/
def MboxCmd.wf (c : MboxCmd) : Bool := (c.send.map fun x => decide (x.2.length ≤ 64)).getD true

/-- A record for the spool has a kind of Table 11.9 and a payload of at most 67,108,864 bytes. -/
def SdUse.wf : SdUse → Bool
  | .append kind payload => decide (1 ≤ kind ∧ kind ≤ 3 ∧ payload.length ≤ 67108864)
  | _ => true

/-- Environmental conditions name a rail or a light sensor of the plate (Table 12.1). -/
def EnvCond.wf : EnvCond → Bool
  | .vsupWarn r => decide (r.rail < 3)
  | .vsupHigh r => decide (r.rail < 3)
  | .vsupLow r => decide (r.rail < 3)
  | .light d _ => decide (d < 16)
  | _ => true

/-- A tamper input is one of four (R275). -/
def KoTrigger.wf : KoTrigger → Bool
  | .margin i => decide (i < 4)
  | _ => true

/-- Access sizes of a register access in bytes. -/
def sizeOk (n : Nat) : Bool := n == 1 || n == 2 || n == 4 || n == 8

/-- Whether a command is well formed. -/
def Instr.wf : Instr → Bool
  | .aeadSeal j _ => j.wf
  | .aeadOpen j _ => j.wf
  | .sivSeal j _ => j.wf
  | .sivOpen j _ => j.wf
  | .macGen j _ => j.wf
  | .macVerify j _ => j.wf
  | .wrap j _ => j.wf
  | .unwrap j _ => j.wf
  | .digest j _ => j.wf
  | .sign j => j.wf
  | .verify j => j.wf
  | .kemDecaps j => j.wf
  | .kemEncaps j => j.wf
  | .ecdh j => j.wf
  | .rsaDecrypt j => j.wf
  | .derive j _ => j.wf
  | .keyLoad j => j.wf
  | .keyGenerate j => j.wf
  | .keyImport j _ => j.wf
  | .keyErase j => j.wf
  | .keyAttest j => j.wf
  | .keyInfo j => j.wf
  | .keyExportWrapped j => j.wf
  | .random j _ => j.wf
  | .fence j => j.wf
  | .deviceAttest j => j.wf
  | .sliceCreate j _ => j.wf
  | .sliceResize j _ => j.wf
  | .sliceDestroy j _ => j.wf
  | .importerBind j _ => j.wf
  | .quorumOpen j _ _ => j.wf
  | .quorumApprove j _ => j.wf
  | .custodianEnroll j _ _ => j.wf
  | .custodianRemove j => j.wf
  | .policySet j _ => j.wf
  | .lifecycleSet j _ => j.wf
  | .knockoutCmd j => j.wf
  | .fwMakeready j _ => j.wf
  | .fwSwap j => j.job.wf
  | .migrateOutPackage j _ => j.wf
  | .migrateOutConfirm j _ => j.wf
  | .migrateInApply j _ => j.wf
  | .migrateInAbandon j => j.wf
  | .logMode j _ => j.wf
  | .logExport j _ => j.wf
  | .takeover j => j.wf
  | .rebalance j => j.wf
  | .doorbellPoll _ s => decide (s < 4096)
  | .doorbellReadDone _ s _ => decide (s < 4096)
  | .nudge _ s _ size _ => decide (s < 4096) && sizeOk size
  | .cancel _ s _ size _ => decide (s < 4096) && sizeOk size
  | .nudgeForwardArrive _ => true
  | .cancelForwardArrive _ => true
  | .descriptorFetch j _ => j.wf
  | .dmaReadTimeout _ kind => kind.wf
  | .slugResolve j _ _ => j.wf
  | .lineReserveRetry j => j.wf
  | .fillDone j => j.wf
  | .inputPrefetch j _ => j.wf
  | .jobStart _ _ => true
  | .laneResultReady j => j.wf
  | .messageDataArrive j _ => j.wf
  | .attemptBoundary j => j.wf
  | .justifierRelease j => j.wf
  | .engineJobDone j => j.wf
  | .openFirstPassDone j => j.wf
  | .vaultJobDone j => j.wf
  | .progressLineWrite _ s => decide (s < 4096)
  | .irqCoalTimeout _ s r => decide (s < 4096) && decide (r < 16)
  | .parkSelect _ => true
  | .park j => j.wf
  | .jobResume _ => true
  | .refcountZero _ item => item.wf
  | .ringEnable _ s r _ => decide (s < 4096) && decide (r < 16)
  | .ringDisable _ s r _ => decide (s < 4096) && decide (r < 16)
  | .ringDrainEnd _ q => q.wf
  | .ringFaultClear _ s r => decide (s < 4096) && decide (r < 16)
  | .adminDoorbell _ _ => true
  | .adminRingEnable _ _ => true
  | .adminRingDisable _ _ => true
  | .adminFaultClear _ => true
  | .registerWrite _ bar _ size _ => (bar == 0 || bar == 1 || bar == 4) && sizeOk size
  | .registerCopyArrive _ => true
  | .broadcastWrite _ _ size _ => sizeOk size
  | .meterLatch _ s _ => decide (s < 4096)
  | .witnessEnable _ _ => true
  | .timebaseRead _ => true
  | .rngDataRead _ _ width => (width == 32 || width == 64)
  | .rngDataReady _ _ => true
  | .faultClear _ _ => true
  | .faultForce _ _ => true
  | .drillEnter _ _ => true
  | .drillExit _ _ => true
  | .drillTimeout _ => true
  | .worldSignal _ _ _ => true
  | .secAliveWrite _ _ => true
  | .nrmAliveWrite _ _ => true
  | .secStallTimeout _ => true
  | .secRestartTimeout _ => true
  | .nrmRestartTimeout _ => true
  | .nvmRawSelect _ _ _ => true
  | .info _ core => decide (core < 4)
  | .call _ core _ => decide (core < 4)
  | .ret _ core _ => decide (core < 4)
  | .callTimeout _ core => decide (core < 4)
  | .release _ core block => decide (core < 4) && decide (block < 18)
  | .wmGive _ core mem _ => decide (core < 4) && decide (mem < 2)
  | .wmScrubDone _ => true
  | .setEntry _ core _ => decide (core < 4)
  | .conditionerBlock _ raw => decide (raw.length = 8)
  | .healthTestFail _ cell cause => decide (cell < 8) && decide (cause < 16)
  | .reseedDue _ inst => decide (inst < 4104)
  | .gutterHeartbeatSend _ => true
  | .gutterHeartbeatRecv _ link => decide (link < 2)
  | .sublinkDown _ link => decide (link < 2)
  | .gutterLost _ => true
  | .mirrorWriteRecv _ => true
  | .mirrorAckRecv _ => true
  | .nvmCommitDone _ _ => true
  | .inflightMirrorCopy _ => true
  | .witnessBeat _ _ => true
  | .witnessRead _ _ => true
  | .peerStale _ => true
  | .witnessError _ => true
  | .leaveRecv _ => true
  | .takeoverCasDone _ _ => true
  | .takeoverQuietEnd _ _ => true
  | .fenceHoldEnd _ => true
  | .fenceAsserted _ => true
  | .fenceReleased _ => true
  | .peerRejoin _ => true
  | .resyncComplete _ _ => true
  | .reconcileDone _ => true
  | .handoverDrainDone _ s => decide (s < 4096)
  | .handoverStateRecv _ s _ => decide (s < 4096)
  | .makereadyBootTimeout _ => true
  | .mixedFwTimeout _ => true
  | .scrubStart _ l => l.all Finding.wf
  | .timebaseCompare _ _ _ => true
  | .regionSkew _ _ => true
  | .clusterWatchdogExpire _ => true
  | .sequencerWaitExpire _ => true
  | .tokenRequestRecv _ => true
  | .tokenReceived _ => true
  | .tokenPassTimeout _ => true
  | .isolationTimeout _ => true
  | .faultSourceAssert _ src unit _ => decide (src < 64) && unit.wf
  | .unitResetDone _ u _ => u.wf
  | .graceExpire _ => true
  | .chaseCompare _ _ => true
  | .envThreshold _ cond _ => cond.wf
  | .sensorSample _ k _ => decide (k < 8)
  | .logicAlarm _ _ => true
  | .knockoutLineAssert _ by_ _ => by_.wf
  | .knockoutCauseRecv _ => true
  | .powerUp _ chase _ => decide (chase.chase.response.length = 128) && chase.rand.wf && chase.link.wf
  | .powerDown _ => true
  | .perstAssert _ => true
  | .perstRelease p => p.link.wf
  | .hotReset p => p.link.wf
  | .timebaseSelect _ _ _ _ => true
  | .timebaseRefLost _ => true
  | .avsTransactionDone _ _ _ => true
  | .optimeStore _ => true
  | .maskEpochAdvance _ => true
  | .wearLevelRewrite _ lpn => decide (lpn < 344064)
  | .eventRecord _ profile _ _ => decide (profile < 64)
  | .recordWrite _ => true
  | .logWindowEnd _ => true
  | .coalesceFlush _ => true
  | .shedLevelChange _ => true
  | .quorumSessionExpire _ _ => true
  | .localApprovalTimeout _ => true
  | .buttonWaitTimeout _ => true
  | .bripaFrameRecv _ _ _ _ => true
  | .bripaRetransmit _ _ => true
  | .hello _ => true
  | .config _ => true
  | .ack _ _ => true
  | .linkReset _ _ => true
  | .claim c => c.wf
  | .grant _ => true
  | .releaseFrame c => c.wf
  | .cardCtrl c _ => c.wf
  | .cardEvent _ => true
  | .apdu c => c.wf
  | .resp p => (p.card.map fun c => decide (c.1 < 2)).getD true
  | .pinCollect p => (p.local_.map fun c => decide (c.1 < 2)).getD true
  | .pinResult _ => true
  | .sdCmd _ u => u.wf
  | .sdData _ _ => true
  | .sdDone _ => true
  | .sdEvent _ => true
  | .key _ => true
  | .button _ => true
  | .display c => c.wf
  | .led c => c.wf
  | .tamper _ => true
  | .loopStatus _ => true
  | .loopStatusPeriod => true
  | .fieldPowerUp => true
  | .brownOut => true
  | .allClearLost _ => true
  | .allClearValid _ => true
  | .loopDeglitch input loop _ => decide (input < 4) && decide (loop < 2)
  | .discrepancyExpire input => decide (input < 4)
  | .discrepancyEnd input => decide (input < 4)
  | .koChannelAssert => true
  | .cardPresence reader _ => decide (reader < 2)
  | .cardOvercurrent reader => decide (reader < 2)
  | .cardResponseTimeout _ reader => decide (reader < 2)
  | .sdBusyTimeout => true
  | .sdRemoval => true
  | .keypadPress _ _ => true
  | .buttonPress n _ => decide (n < 4)
  | .sdInsertion _ _ => true
  | .mctpMessage _ _ => true
  | .tapInstruction _ _ => true
  | .debugHalt _ core _ => decide (core < 4)
  | .configRequest _ _ => true
  | .atsInvalidateRequest _ _ => true
  | .msixVectorUnmask _ _ => true
  | .peerWearStateReport _ => true
  | .peerEpochReport _ => true

end Sys2Proof
end

