-- ==== Sys2Proof/Tests/Slice0.lean ====
section
/-! SUPPORT. The model's own tests: the smoke test of WellFormed, worked examples of the spec, and for every statement with
hypotheses a state and operands that meet them. -/

namespace Sys2Proof.Tests

open Sys2Proof.Machine

set_option Elab.async false

/-! ## Small states -/

/-- An ACTIVE slice homed on Plate A. -/
def slice1 : Impo :=
  { st := .active, home := .a, pasidA := some 5, pasidB := some 6,
    quota := { rings := 4, slots := 8, windows := 4, lines := 64, ledger := 16 }
    winA := [(0, 4)], winB := [(0, 4)] }

/-- A ring of 256 entries in service. -/
def ring1 : Ring := { sq := 0x10000, cq := 0x20000, cfg := 0x80000008, active := true }

/-- A plate in service in OPERATIONAL, slice 1 with its ring 0. -/
def plate1 : PlateState :=
  { pow := { phase := .running, perst := false, ready := true, serving := true }
    sl := { impo := [(1, slice1)], regs := [(1, createdRegs)], rings := [(16, ring1)], adm := ring1 }
    vlt := { mounted := true, keys := true, epochUp := true }
    rng := { st := .serving, pool := List.replicate 8 (zeros 32) }
    cus := { lcPage := some (LcPage.of 0x3C) } }

/-- Two plates in service, PAIRED. -/
def base : State := { pa := plate1, pb := plate1, pwrgood := true, clock := 1000000 }

/-- The ring of the examples. -/
def q1 : RingRef := .tenant 1 0

/-- Descriptor 0 of that ring on Plate A. -/
def jr : JobRef := { plate := .a, ring := q1, index := 0 }

/-- The base with one job on Plate A. -/
def withJob (j : Job) : State := base.updSl .a fun x => { x with jobs := [j] }

/-- The base with its ring changed. -/
def withRing (f : Ring → Ring) : State := base.updRing .a q1 f

/-- The next state of a command, for checks of one field of it. -/
def after (c : Instr) (s : State) : State :=
  match exec c s with
  | .next t => t
  | _ => s

/-! ## States of the witnesses: rings and posting -/

/-- The base with a doorbell read of slice 1 under way. -/
def reading : State := base.updSl .a fun x => { x with poll := [(1, { reading := 1 })] }

/-- The ring with three descriptors fetched. -/
def three : State := withRing fun g => { g with prod := 3, fetched := 3 }

/-- A seal of the ring that waits for a lease. -/
def sealWaits : Job := { ring := q1, index := 1, stage := .waitLease }

/-- A submitted descriptor at index 0. -/
def submitted : State := withRing fun g => { g with prod := 1 }

/-- The 64 bytes of a SHA-256 DIGEST of 8 bytes. -/
def digestBytes : Bytes := encodeDesc { opcode := 0x18, alg := 0x10, inLen := 8, outCap := 32 }

/-- The 64 bytes of a FENCE. -/
def fenceBytes : Bytes := encodeDesc { opcode := 0x51 }

/-- A FENCE waiting at index 0. -/
def fenceJob : Job := { ring := q1, desc := { opcode := 0x51 }, stage := .queued }

/-- The base with the ring of index 1 not yet enabled. -/
def cfgOn : Word := 0x80000008

/-- A ring with one record that waits for its message. -/
def coalesced : State :=
  (withRing fun g => { g with coal := 0x0205, irqCount := 1, irqSince := some 0 }).updPow .a fun x =>
    { x with msix := [(0, (0xFEE00000, 0, false))] }

/-! ## States of the witnesses: keys, starts and parking -/

/-- A job of the ring at index 0. -/
def job0 : Job := { ring := q1 }

/-- A job whose slug is being read. -/
def slugJob : Job := { job0 with stage := .resolving, desc := { opcode := 0x10, keyRef := 0x4000000000001000 } }

/-- A slug header of slice 1 with AES-256-GCM-SIV, ledger entry 7 and generation 1. -/
def header1 : Bytes := slugHeader { alg := 0x04, gen := 1, ledger := some 7 } 1 32 []

/-- A key of a slot. -/
def key1 : Key := { alg := 0x40, attr := 0xFF01, gen := 1, src := .slot 1 0, material := zeros 32 }

/-- A job that waits for the cache entry at position 3. -/
def lineJob : Job := { job0 with stage := .waitLines, key := some key1, entry := some 3, desc := { opcode := 0x10 } }

/-- A signing job whose key is being filled. -/
def fillJob : Job :=
  { job0 with stage := .filling, cls := .lane, key := some key1, entry := some 3,
              desc := { opcode := 0x20, alg := 0x40, flags := 0x400, inLen := 32, outCap := 64 } }

/-- A job, and a cache entry for it that is not filled. -/
def withEntry (j : Job) (f : Bool) : State :=
  (withJob j).updVlt .a fun v => { v with cache := [{ slice := 1, pos := 3, lines := 1, key := key1, filled := f }] }

/-- A slug job whose header read has been outstanding for 50 ms. -/
def slugLate : State := (withJob slugJob).updSl .a fun x => { x with reads := [(.slug q1 0, 0)] }

/-- A lane job that has not read its inputs. -/
def rawLane : Job :=
  { job0 with cls := .lane, key := some key1, desc := { opcode := 0x20, alg := 0x40, flags := 0x400, inLen := 32, outCap := 64 } }

/-- Inputs of nothing. -/
def noInputs : Inputs := { inp := .ok [], aad := .ok [], par := .ok [], pub := .ok [] }

/-- A digest of 32 bytes. -/
def digest32 : Inputs := { noInputs with inp := .ok (zeros 32) }

/-- Jobs that wait for their class. -/
def cipherJob : Job := { job0 with cls := .cipher, desc := { opcode := 0x18, alg := 0x10, inLen := 8, outCap := 32 }, cost := 8 }
def randomJob : Job := { job0 with cls := .random, desc := { opcode := 0x40, inLen := 8, outCap := 8 }, cost := 8 }
def vaultJob : Job := { job0 with cls := .vault, desc := { opcode := 0x35, outCap := 64 }, cost := 1 }
def laneJob : Job := { rawLane with prefetched := true, key := none, desc := { rawLane.desc with opcode := 0x21, outCap := 0 }, cost := 1 }

/-- The vault job on a ring whose fence covers it. -/
def fenced : State := (withJob vaultJob).updRing .a q1 fun g => { g with fence := some 1 }

/-- A vault job whose slot is free. -/
def goneJob : Job := { vaultJob with key := some key1 }

/-- A plate with one lane in service, which runs a long job, and a job that has waited for it for 21 µs. -/
def longJob : Job :=
  { job0 with ring := .tenant 1 1, cls := .lane, stage := .started, unit := some 0, d1 := 5000, window := some 0,
              resumedAt := some 999900, startedAt := 999900 }
def waitingLane : Job := { laneJob with index := 9 }
def busy : State := base.updSl .a fun x => { x with jobs := [waitingLane, longJob], lanes := 1, selected := some (q1, 9, 999979) }

/-- A job marked for parking, and one parked at the head of the resume queue. -/
def toParkJob : Job := { job0 with cls := .lane, stage := .started, unit := some 0, toPark := true, d1 := 5000, window := some 0 }
def parkedJob : Job := { job0 with cls := .lane, stage := .parked, window := some 0, parks := 1, wasParked := true }
def parkedState : State := (withJob parkedJob).updSl .a fun x => { x with resume := [(q1, 0)] }

/-- A slug job that has its header, which passes against its slice record and ledger entry; the read of the material is next. -/
def readsMaterial : State := (withJob slugJob).updVlt .a fun v =>
  { v with recs := [(1, { st := .active })], ledger := [(7, { st := .active, slug := true, slice := 1, gen := 1 })] }

/-- A volatile GCM key with SEAL, whose handle needs a V. -/
def sealKey : Key := { key1 with alg := 0x02, src := .volatileKey }

/-- A seal under a volatile key whose entry is filled, and one under the key of slot 0 that retries its reservation. -/
def sealKey2 : Key := { key1 with alg := 0x04 }
def sealLine : Job := { lineJob with key := some sealKey2, desc := { opcode := 0x10, alg := 0x04, inLen := 8, outCap := 64 } }
def sealEntry : CacheEntry := { slice := 1, pos := 3, lines := 1, key := sealKey2, filled := true }
def sealFilled : State := (withJob sealLine).updVlt .a fun v => { v with cache := [sealEntry] }
def slotSeal : Key := { key1 with alg := 0x04 }
def reserveJob : Job := { sealLine with entry := none, reserving := true, key := some slotSeal }
/-! ## States of the witnesses: engines and lanes -/

/-- A job that runs on cipher engine 0. -/
def running (op alg : Nat) : Job :=
  { job0 with cls := .cipher, stage := .started, unit := some 0, key := some { key1 with alg := alg }, inv := some 5,
              desc := { opcode := BitVec.ofNat 8 op, alg := BitVec.ofNat 8 alg, inLen := 40, outCap := 64 } }

/-- Inputs of 40 bytes and a nonce. -/
def inputs40 : Inputs := { noInputs with inp := .ok (zeros 40), par := .ok (zeros 32) }

/-- A cipher job whose outcome stands, and the first pass of a long open. -/
def doneJob : Job := { running 0x18 0x10 with key := none, result := some { outLen := 32, writes := [(64, zeros 32)] } }
def firstPass (st : Status) : Job :=
  { running 0x11 0x04 with desc := { (running 0x11 0x04).desc with inLen := 70000 }, result := some { status := st } }

/-- A DERIVE with its new entry reserved. -/
def deriveJob : Job :=
  { running 0x26 0x0C with desc := { opcode := 0x26, alg := 0x0C, flags := 0x2000, inLen := 40, param := 0x2000 }, newPos := some 4 }
def newEntry : CacheEntry := { slice := 1, pos := 4, lines := 1 }
def withNew (j : Job) : State := (withJob j).updVlt .a fun v => { v with cache := [newEntry] }

/-- A job that a lane runs. -/
def onLane (op alg : Nat) : Job :=
  { job0 with cls := .lane, stage := .started, unit := some 0, key := some { key1 with alg := alg }, prefetched := true,
              resumedAt := some 0, d1 := 50, window := some 0,
              desc := { opcode := BitVec.ofNat 8 op, alg := BitVec.ofNat 8 alg, flags := 0x4400, inLen := 32 } }

/-- A lane job in message mode that waits for its message. -/
def msgJob : Job :=
  { onLane 0x20 0x42 with waitingMsg := true, resumedAt := none, desc := { opcode := 0x20, alg := 0x42, inLen := 32 } }

/-- A lane job at its target, and one that leaves a shared secret in the lines of position 4. -/
def doneLane (op : Nat) : Job := { onLane op 0x40 with rawDone := true, rawA := 1, result := some { outLen := 64 } }
def sharedJob : Job := { onLane 0x22 0x60 with rawDone := true, rawA := 1, newPos := some 4, result := some { outLen := 0 } }
/-! ## States of the witnesses: keys, random numbers -/

/-- A job that the vault controller has accepted. -/
def accepted (op : Nat) (ref : DWord) : Job :=
  { job0 with cls := .vault, stage := .accepted, desc := { opcode := BitVec.ofNat 8 op, keyRef := ref, outCap := 64 } }

/-- The job that loads the key of slot 0. -/
def loadJob : Job := { accepted 0x33 0 with key := some key1, newPos := some 4 }

/-- Key generation: the lane step, and an HMAC key that the vault controller draws. -/
def genLane : Job := { onLane 0x30 0x40 with key := none, desc := { opcode := 0x30, alg := 0x40 } }
def genSym : Job := { accepted 0x30 0 with desc := { opcode := 0x30, alg := 0x0A, flags := 0x2000, param := 0x0402 } }

/-- Key import, with a message of zeros and one that rotates the importer key. -/
def importJob : Job := { accepted 0x31 0 with desc := { opcode := 0x31, inLen := 0x500 } }
def rotateBytes : Bytes :=
  [1, 2] ++ leBytes 2 1 ++ [0x41, 0, 0, 0x41] ++ leBytes 8 9 ++ zeros 32 ++ zeros 6 ++ leBytes 2 97 ++ zeros (0x500 - 0x38 + 290)
def rotateJob : Job := { accepted 0x31 0 with desc := { opcode := 0x31, inLen := 1570 } }
def rotating : State := (withJob rotateJob).updVlt .a fun v => { v with recs := [(1, { st := .active, impAlg := 0x41 })] }

/-- An erase of slot 0, the slot ACTIVE or ERASING, and the same erase as it drains. -/
def eraseJob : Job := accepted 0x32 0
def withSlot (j : Job) (st : VState) : State :=
  (withJob j).updVlt .a fun v => { v with slots := [(32, { st := st, alg := 0x40, gen := 1, material := zeros 32 })] }
def drainJob : Job := { eraseJob with stage := .draining, result := some { info := 1 } }
/-- A lane job that still uses slot 0. -/
def userJob : Job := { job0 with index := 1, cls := .lane, stage := .started, unit := some 0, key := some key1 }

/-- A handle of slice 1 and its entry. -/
def handle1 : DWord := makeHandle .a 0 0 4
def handleEntry : CacheEntry := { slice := 1, pos := 4, lines := 1, key := key1, handle := some handle1 }
def eraseHandle : Job := { accepted 0x32 handle1 with entry := some 4 }
def withHandle (l : List Job) (e : CacheEntry) : State :=
  (base.updSl .a fun x => { x with jobs := l }).updVlt .a fun v => { v with cache := [e] }

/-- A RANDOM job that runs, with and without PR, and its slice's instance. -/
def rnd (pr : Bool) : Job :=
  { job0 with cls := .random, stage := .started, unit := some 0,
              desc := { opcode := 0x40, flags := if pr then 0x100 else 0, inLen := 16, outCap := 16 } }
def withInst (s : State) (k : Nat) (d : Drbg) : State := s.updRng .a fun x => { x with inst := [(k, d)] }
def seeded : Drbg := { live := true, made := true, seeded := 999999 }

/-- A plate whose random output is HALTED. -/
def halted : State := base.updRng .a fun x => { x with st := .halted, pool := [] }

/-- Raw bits that alternate. -/
def alternating : List (BitVec 256) :=
  [0x5555555555555555555555555555555555555555555555555555555555555555]

/-- Messages that write slot 3 and a slug with an ECDSA key. -/
def slotMessage : Bytes := [1, 1, 1, 0, 0x40, 0, 3, 0x40, 1]
def slugMessage : Bytes := [1, 1, 1, 0, 0x40, 1, 0, 0x40, 1]

/-- The erase of a slug whose ledger entry is 7, and the rewrite of slot 0 that waits for its old key. -/
def slugKey7 : Key := { key1 with src := .slug header1, ledger := some 7 }
def eraseSlug : Job := { accepted 0x32 0x4000000000001000 with key := some slugKey7 }
def rewriteDrains : Job := { accepted 0x31 0 with stage := .draining, key := some key1, result := some {} }

/-- Key generation into a slug, its ledger entry taken. -/
def genSlug : Job := { genSym with desc := { genSym.desc with flags := 0x2004 }, ledgerNew := some 5 }
/-! ## States of the witnesses: admin commands, the Margin -/

/-- An admin job that waits at the head of the admin queue. -/
def admJob (d : Desc) : Job := { ring := .admin, index := 3, stage := .queued, desc := d }
def ar : JobRef := { plate := .a, ring := .admin, index := 3 }
def withAdm (d : Desc) : State := (base.updSl .a fun x => { x with jobs := [admJob d] }).updMgt .a fun m => { m with queue := [3] }

/-- An open session for a command with this input, which asks for no approval. -/
def openFor (d : Desc) (b : Bytes) : Session := { number := 1, h := base.approvalDigest .a d b (zeros 32), nonce := zeros 32, expiry := 10000000 }
def withSession (s : State) (d : Desc) (b : Bytes) : State := s.updCus .a fun c => { c with sessions := [openFor d b] }

/-- An open session that no command matches. -/
def plain : Session := { number := 1, nonce := zeros 32, expiry := 10000000 }
def withPlain (s : State) : State := s.updCus .a fun c => { c with sessions := [plain] }

/-- Descriptors of admin commands. -/
def adm (op : Nat) : Desc := { opcode := BitVec.ofNat 8 op, inLen := 64, outCap := 4096, param := 1 }
def admFl (op fl : Nat) : Desc := { adm op with flags := BitVec.ofNat 16 fl }

/-- A record that creates slice 2, one that resizes and one that destroys slice 1. -/
def createRec : Bytes := leBytes 2 2 ++ [0, 2, 4, 0, 0, 0] ++ leBytes 4 64 ++ leBytes 2 4 ++ zeros 2 ++ leBytes 4 16 ++
  leBytes 4 (2 ^ 31 + 7) ++ leBytes 4 (2 ^ 31 + 8) ++ zeros 36
def resizeRec : Bytes := leBytes 2 1 ++ [0, 2, 8, 0, 0, 0] ++ leBytes 4 64 ++ leBytes 2 4 ++ zeros 2 ++ leBytes 4 16 ++ zeros 44
def destroyRec : Bytes := leBytes 2 1 ++ zeros 62

/-- An approval of custodian 0 for session 1. -/
def approval : Bytes := leBytes 4 1 ++ zeros 100

/-- A plate that waits for button 1. -/
def waitsButton (w : ButtonWait) : State := (withAdm (adm 0x8A)).updCus .a fun c => { c with button := some w, lcPage := some (LcPage.of 0x33) }
def lateWait : ButtonWait := { index := 3 }

/-- The lifecycle of Plate A set. -/
def inState (s : State) (code : Byte) : State := s.updCus .a fun c => { c with lcPage := some (LcPage.of code) }
def blank (s : State) : State := s.updCus .a fun c => { c with idf := 0 }
def later (s : State) : State := { s with clock := 100000000 }


/-- A session bound to a command passes for it, and is used up. -/
theorem quorum_open : (withSession base (adm 0x82) []).quorum .a (adm 0x82) [] =
    some ((withSession base (adm 0x82) []).endSession .a 1) := by
  have h : (withSession base (adm 0x82) []).session .a (BitVec.ofNat 32 (adm 0x82).param.toNat) =
      some (openFor (adm 0x82) []) := rfl
  have e : (withSession base (adm 0x82) []).enough .a (openFor (adm 0x82) []) = true := rfl
  have m : migrateCode (adm 0x82) = none := rfl
  have g : (withSession base (adm 0x82) []).approvalDigest .a (adm 0x82) [] (zeros 32) = (openFor (adm 0x82) []).h := rfl
  simp only [State.quorum, h, e, m]
  simp [openFor, g]

/-- LIFECYCLE_SET to this state, with an input of this length and this session. -/
def setTo (code inLen param : Nat) : Desc :=
  { opcode := 0x87, flags := BitVec.ofNat 16 (256 * code), inLen := BitVec.ofNat 32 inLen, param := BitVec.ofNat 64 param }
/-! ## States of the witnesses: the Margin's channel, readers, console, slot and inputs -/

/-- The base with field power, a configured Margin and both channels up. -/
def field : State := (base.updMrg .a fun m => { m with fieldUp := true }).updMargin fun g =>
  { g with powered := true, configured := true, polSeq := 5, loops := 0x0F, tDisc := [10, 10, 10, 10], allClear := true }

/-- Plate A owns readers 0 and 1, the slot and the console. -/
def owned : State := field.updMargin fun g => { g with owners := [(0, some .a), (1, some .a), (2, some .a), (3, some .a)] }

/-- A frame, and the states where it is the oldest at the Margin's end and at Plate A's end of channel 0. -/
def fr (type : Nat) (res : Byte) (b : Bytes) : Frame := { type := type, res := res, payload := b }
def atMargin (f : Frame) (s : State) : State := s.updLink .margin .a fun x => { x with inbox := [f] }
def atPlate (f : Frame) (s : State) : State := s.updLink .plate .a fun x => { x with inbox := [f] }

/-- One frame sent at time 0, retried this often. -/
def outst (e : End) (n : Nat) : State := field.updLink e .a fun x => { x with sent := [{ frame := fr 0x05 0 [], tries := n }] }

/-- Custodian 1 is ACTIVE, and session 1 is open. -/
def sess : Session := plain
def trying (a : LocalTry) (s : State) : State := s.updCus .a fun c =>
  { c with sessions := [sess], attempt := some a, page := { table := [(1, { active := true, key := [7] })] } }

/-- Reader 0 with this state; PIN entry for it; an operation of the slot; input 0. -/
def reader (x : Reader) (s : State) : State := s.updMargin fun g => { g with readers := [(0, x)] }
def pinning (x : PinTry) (s : State) : State := s.updMargin fun g => { g with pin := some x }
def card3 : SdInfo := { cardType := 3, wide := true, fast := true, capacity := 10000, csdProtect := false }
def sdOn (o : Option SdOp) (s : State) : State := s.updMargin fun g => { g with sdPresent := true, sdOp := o, sd := some card3 }
def input0 (x : Input) (s : State) : State := s.updMargin fun g => { g with inputs := [(0, x)] }

/-- The card has answered the signature that an enrolment asked for. -/
def signed : Frame := fr 0x13 0 ([1] ++ zeros 96 ++ [0x90, 0])
def signing : LocalTry := { step := .sign, enrol := some { index := 3 } }
def enrolSigns : State := atPlate signed ((withAdm (adm 0x88)).updCus .a fun c => { c with attempt := some signing })

/-- Plate A owns the slot with field power, and knows this of the spool. -/
def ownsCard (x : Spool) : State := owned.updMrg .a fun m => { m with own := 15, spool := x }
/-! ## States of the witnesses: faults and tamper -/

/-- The collector of Plate A, its tamper monitor, its NVM. -/
def withFlt (f : Faults → Faults) (s : State := base) : State := s.updFlt .a f
def withTmp (f : Tamper → Tamper) (s : State := base) : State := s.updTmp .a f

/-- Lane 3 withdrawn with its pin held. -/
def laneOut : State := (withFlt fun f => { f with pins := 1, units := 8, status := 1 }).updSl .a fun x => { x with lanes := 0xFFFFFFFFFFFFFFF7 }

/-- The grace of a word runs out. -/
def expires (w : DWord) : State := withFlt fun f => { f with status := w, graceAt := some 1000000, first := some 3 }

/-- A cause of Plate A's own, and one from its peer. -/
def cause1 : Cause := { code := 1, by_ := 0, index := 7 }
def knocked : State := withTmp fun t => { t with local_ := some cause1 }
/-! ## States of the witnesses: management, firmware, logs -/

/-- The management cluster, pair protocols and NVM of Plate A changed. -/
def withMgt (f : Mgmt → Mgmt) (s : State := base) : State := s.updMgt .a f
def withPr (f : Pair → Pair) (s : State := base) : State := s.updPr .a f
def withNvm (f : Nvm → Nvm) (s : State := base) : State := s.updNvm .a f

/-- Cores 0 and 1 run in S-mode; a secure entry is registered; core 1 is inside a call that began at time 0; the clock at `n`. -/
def cores : State := withMgt fun m => { m with harts := [(0, { prv := .s }), (1, { prv := .s })] }
def entered : State := withMgt (fun m => { m with entry := some 64 }) cores
def calling : State := withMgt (fun m => { m with calls := [{ core := 1 }], world := 3 }) entered

/-- Core 1 with its ECALL's registers: the extension in a7 and a function in a6. Core 0 at an ECALL in the management SRAM. -/
def asks (ext fn : DWord) : State := withMgt fun m => { m with harts := [(1, { prv := .s, x := [(16, fn), (17, ext)] })] }
def atEcall : State := withMgt fun m => { m with harts := [(0, { prv := .s, pc := 0x10000000 })], sram := [(0, 0x73)] }

/-- Line 0 of the stack with a tag that is not that of its content. -/
def badLine : State := withMgt fun m => { m with lpddr := [(0, some { ct := [], tag := ~~~ Config.lpddrTag [] 0 [] })] }

/-- A page for logical page 7, taken by a group of its own, with `n` cycles. -/
def group7 : Group := { kind := .wear, pages := [7], taken := [344064] }
def page7 (n : Nat) : State :=
  withNvm fun v => { v with groups := [group7], pages := [(344064, some { use_ := .taken, cycles := n })] }
def at_ (n : Nat) (s : State := base) : State := { s with clock := n }

/-- A makeready at step 5. -/
def mk5 : Makeready := { step := 5, index := 3 }

/-- A queued admin command that was in the admin queue. -/
def oneQueued : State := withAdm (adm 0x88)

/-- A record of profile 0. -/
def rec0 : Record := { trigger := 1 }

/-- Slice 1 homed on the other plate. -/
def peerHome (s : State) : State := s.updSl .a fun x => { x with impo := [(1, { slice1 with home := .b })] }

/-- Chunk 1 of 3 of a package, and the state in which its target expects it. -/
def chunk1 : Bytes :=
  [0x4B, 0x4C, 0x53, 0x54, 1, 5, 0, 0] ++ leBytes 4 64 ++ zeros 84 ++ leBytes 4 1 ++ leBytes 4 3 ++ zeros (56 + 96 + 3309)
def apply1 : Apply := { next := 1, total := 3, source := zeros 32 }
def chunkCmd : Desc := { adm 0x8C with inLen := 3565 }
def applying (s : State) : State := (s.updVlt .a fun v => { v with apply := some apply1 }).updSl .a fun x => { x with impo := [] }

theorem badLine_fails : (badLine.pl .a).mgt.readLine 0 = none := by
  have h : ¬ (~~~ Config.lpddrTag [] 0 [] == Config.lpddrTag [] 0 []) = true := by
    simp only [beq_iff_eq]
    intro h
    have := congrArg (fun x : DWord => x.getLsbD 0) h
    simp at this
  exact if_neg h

theorem page7_cycles (z : Nat) (h : z ≠ 344064) : ((page7 5).pl .a).nvm.page z = { use_ := if z < 344064 then .mapped z else .free } := by
  show (Tab.get [(344064, _)] none z).getD _ = _
  simp [Tab.get, h]

/-- `atEcall` with other caches and `k` more free values used. -/
def atEcallC (k : Nat) (l1 : List (Nat × Nat)) (l2 : Tab (Option Nat)) : State :=
  (atEcall.tick k).updMgt .a fun m => { m with l1 := l1, l2 := l2 }

theorem fetch_half (k : Nat) (l1 : List (Nat × Nat)) (l2 : Tab (Option Nat)) (i : Nat) (hi : i = 0 ∨ i = 2) : ∃ k' m1 m2,
    (atEcallC k l1 l2).coreAccess .a 0 .fetch (BitVec.ofNat 64 (0x10000000 + i)) 2 0 =
      (atEcallC k' m1 m2, .value (if i = 0 then 0x73 else 0)) := by
  obtain ⟨m1, m2, n, e⟩ := State.cacheAccess_eq (atEcallC k l1 l2) .a 0 true (0x10000000 + i)
  have e : (atEcallC k l1 l2).cacheAccess .a 0 true (0x10000000 + i) = atEcallC (k + n) m1 m2 := by
    rw [e]; simp only [atEcallC, State.tick, ← Nat.add_assoc]; rfl
  have ht : ((atEcallC k l1 l2).pl .a).mgt.translate (((atEcallC k l1 l2).pl .a).mgt.worldOf 0)
      (((atEcallC k l1 l2).pl .a).mgt.hart 0) .fetch (BitVec.ofNat 64 (0x10000000 + i)) = .ok (0x10000000 + i, none) := by
    rw [show ((atEcallC k l1 l2).pl .a).mgt.hart 0 = ((atEcall.pl .a).mgt.hart 0) from rfl]
    unfold Mgmt.translate
    dsimp only
    rw [if_pos (Or.inr (by decide))]
    rcases hi with rfl | rfl <;> rfl
  have ha : ((atEcallC k l1 l2).pl .a).mgt.admits (((atEcallC k l1 l2).pl .a).mgt.worldOf 0)
      ((((atEcallC k l1 l2).pl .a).mgt.hart 0).prv == .m) true false (0x10000000 + i) = true := by
    show (atEcall.pl .a).mgt.admits ((atEcall.pl .a).mgt.worldOf 0) _ true false _ = true
    rw [show ((atEcallC k l1 l2).pl .a).mgt.hart 0 = ((atEcall.pl .a).mgt.hart 0) from rfl]
    rcases hi with rfl | rfl <;> decide
  have hr : (inSram (0x10000000 + i) || inLpddr (0x10000000 + i)) = true := by rcases hi with rfl | rfl <;> rfl
  have hm : ((atEcallC (k + n) m1 m2).pl .a).mgt.readMem (0x10000000 + i) 2 = some [if i = 0 then 0x73 else 0, 0] := by
    rcases hi with rfl | rfl <;> rfl
  refine ⟨k + n, m1, m2, ?_⟩
  unfold State.coreAccess
  simp only [ht, State.physAccess, BEq.rfl, ha, hr, e, hm, Bool.not_true, Bool.false_eq_true, if_false, if_true, bne_self_eq_false, Bool.false_and, show (RvUse.fetch == RvUse.store) = false from rfl]
  rcases hi with rfl | rfl <;> rfl

/-- The fetch at the ECALL answers it, and core 0 still runs. -/
theorem fetch_ecall : ∃ t, atEcall.fetchRv .a 0 = (t, .ok (.ecall, 4)) ∧ t.coreRuns .a 0 = true := by
  obtain ⟨k, m1, m2, e⟩ := fetch_half 0 [] [] 0 (.inl rfl)
  obtain ⟨k', n1, n2, e'⟩ := fetch_half k m1 m2 2 (.inr rfl)
  refine ⟨atEcallC k' n1 n2, ?_, show atEcall.coreRuns .a 0 = true by decide⟩
  have p : ((atEcall.pl .a).mgt.hart 0).pc = 0x10000000 := rfl
  have b : atEcall = atEcallC 0 [] [] := rfl
  have q : (0x10000000 : DWord) + 2 = BitVec.ofNat 64 (0x10000000 + 2) := rfl
  unfold State.fetchRv
  simp only [p, q]
  rw [show (0x10000000 : DWord) = BitVec.ofNat 64 (0x10000000 + 0) from rfl, b, e]
  simp only [e']
  rfl
/-! ## States of the witnesses: power and registers -/

/-- The power state of Plate A changed; a plate in reset; the chase as measured. -/
def withPow (f : Power → Power) (s : State := base) : State := s.updPow .a f
def inReset : State := withPow fun w => { w with phase := .reset }
def chase0 : ChaseReading := { response := zeros 128 }
def rand0 : RandomStart := { kat := true, samples := [], blocks := [] }
def linked : State := withPow fun w => { w with linkUp := true, cfgReady := true }
def answering : State := base.updMgt .a fun m => { m with eid := 9 }

/-- A copy of SLC_RATE_PK of slice 1 on its way to Plate A, which does not home it. -/
def copyComes : State := { base.updSl .a fun x => { x with impo := [(1, { slice1 with home := .b })] } with
                           gutA := [.copy 0x100128 4 70000000] }
/-! ## States of the witnesses: the pair -/

/-- Messages on their way to Plate A. -/
def gets (l : List GMsg) (s : State := base) : State := { s with gutA := l }

/-- The relation of Plate B; both links of Plate A silent. -/
def peerPr (f : Pair → Pair) (s : State := base) : State := s.updPr .b f
def down (k : BitVec 2) : State := withPr fun r => { r with links := k, met := true }

/-- Plate B in reset. -/
def peerDown (s : State := base) : State := s.updPow .b fun w => { w with phase := .reset }

/-- The witness line enabled with atomics, its last read expected. -/
def wit : State := withPr fun r => { r with witCfg := 0x80000001, witAddr := 64, firstRead := false, epoch := 5 }
def witReads (s : State := wit) : State := s.updSl .a fun x => { x with reads := [(.witness, 999000)] }

/-- A change with one slot, held at home. -/
def change1 : Change := { id := 4, seq := 9, items := [.slot 32 { st := .active, alg := 0x40 }] }
def changing : State := base.updVlt .a fun v => { v with changes := [change1] }

/-- Plate A fences and takes over. -/
def taking (st : TakeSt) : State := withPr fun r => { r with fencing := true, takeover := some { st := st } }

/-- A hardware admin command. -/
def hw (d : Desc) (s : State := base) : State := s.updSl .a fun x => { x with jobs := [admJob d] }
def rebal : Desc := { opcode := 0x91, flags := 0x0010, param := 1 }
def moving1 (s : State := base) : State := s.updSl .a fun x => { x with impo := [(1, { slice1 with st := .moving })] }
def rejoining (serving : Mode) : State := peerPr (fun r => { r with mode := .resync, rejoin := true }) (withPr fun r => { r with mode := serving })

/-! ## Ill-formed commands are refused by Instr.wf -/

/-- A job of a slice that does not exist, and of a ring that does not exist. -/
def badSlice : JobRef := { plate := .a, ring := .tenant 4096 0, index := 0 }
def badRing : JobRef := { plate := .a, ring := .tenant 0 16, index := 0 }

theorem test_wf_good : (Instr.fence jr).wf ∧ (Instr.ringEnable .b 4095 15 0).wf ∧ (Instr.pinCollect ⟨.a, none⟩).wf := by decide
theorem test_wf_jobs : !(Instr.fence badSlice).wf ∧ !(Instr.sign badRing).wf ∧ !(Instr.park badRing).wf := by decide
theorem test_wf_lines : !(Instr.doorbellPoll .a 4096).wf ∧ !(Instr.doorbellReadDone .a 4096 .fault).wf ∧
    !(Instr.progressLineWrite .a 4096).wf ∧ !(Instr.meterLatch .a 4096 0).wf := by decide
theorem test_wf_nudge : !(Instr.nudge .a 4096 0 4 0).wf ∧ !(Instr.nudge .a 0 0 3 0).wf ∧ !(Instr.cancel .a 0 0 16 0).wf := by
  decide
theorem test_wf_reads : !(Instr.dmaReadTimeout .a (.doorbell 4096)).wf ∧ !(Instr.dmaReadTimeout .a (.slug (.tenant 0 16) 0)).wf :=
  by decide
theorem test_wf_rings : !(Instr.ringEnable .a 0 16 0).wf ∧ !(Instr.ringDisable .a 4096 0 0).wf ∧
    !(Instr.ringDrainEnd .a (.tenant 0 16)).wf ∧ !(Instr.ringFaultClear .a 0 16).wf ∧ !(Instr.irqCoalTimeout .a 0 16).wf := by
  decide
theorem test_wf_items : !(Instr.refcountZero .a (.slot 0 32)).wf ∧ !(Instr.refcountZero .a (.ledger 1048576)).wf ∧
    !(Instr.refcountZero .a (.handle 0 524288)).wf := by decide
theorem test_wf_access : !(Instr.registerWrite .a 2 0 4 0).wf ∧ !(Instr.registerWrite .a 0 0 3 0).wf ∧
    !(Instr.broadcastWrite .a 0 5 0).wf ∧ !(Instr.rngDataRead .a .secure 16).wf := by decide
theorem test_wf_cores : !(Instr.info .a 4).wf ∧ !(Instr.call .a 4 []).wf ∧ !(Instr.release .a 0 18).wf ∧
    !(Instr.wmGive .a 0 2 0).wf ∧ !(Instr.debugHalt .a 4 ⟨true, true, none⟩).wf := by decide
theorem test_wf_random : !(Instr.conditionerBlock .a [0, 0, 0, 0, 0, 0, 0, 0, 0]).wf ∧ !(Instr.healthTestFail .a 8 0).wf ∧
    !(Instr.healthTestFail .a 0 16).wf ∧ !(Instr.reseedDue .a 4104).wf := by decide
theorem test_wf_plates : !(Instr.gutterHeartbeatRecv .a 2).wf ∧ !(Instr.sublinkDown .a 2).wf ∧ !(Instr.handoverDrainDone .a 4096).wf ∧
    !(Instr.handoverStateRecv .a 4096 []).wf := by decide
theorem test_wf_faults : !(Instr.faultSourceAssert .a 64 .hash true).wf ∧ !(Instr.faultSourceAssert .a 0 (.lane 64) true).wf ∧
    !(Instr.unitResetDone .a (.engine 8) true).wf := by decide
theorem test_wf_tamper : !(Instr.envThreshold .a (.vsupLow ⟨3, 600, 10⟩) true).wf ∧ !(Instr.envThreshold .a (.light 16 1) true).wf ∧
    !(Instr.sensorSample .a 8 none).wf ∧ !(Instr.knockoutLineAssert .a (.margin 4) []).wf := by decide
theorem test_wf_power : !(Instr.powerUp .a ⟨{ response := [] }, rand0, ⟨8, 5⟩⟩ []).wf ∧ !(Instr.eventRecord .a 64 0 0).wf ∧
    !(Instr.perstRelease ⟨.a, ⟨16, 5⟩⟩).wf ∧ !(Instr.hotReset ⟨.b, ⟨8, 6⟩⟩).wf ∧ !(Instr.wearLevelRewrite .a 344064).wf := by decide
theorem test_wf_mailbox : !(MboxCmd.wf ⟨.a, some (0, List.replicate 65 0)⟩) ∧ MboxCmd.wf ⟨.a, some (3, zeros 64)⟩ := by decide
theorem test_wf_margin : !(Instr.loopDeglitch 4 0 .ok).wf ∧ !(Instr.loopDeglitch 0 2 .ok).wf ∧ !(Instr.discrepancyExpire 4).wf ∧
    !(Instr.discrepancyEnd 4).wf ∧ !(Instr.cardPresence 2 true).wf ∧ !(Instr.cardOvercurrent 2).wf ∧
    !(Instr.cardResponseTimeout .a 2).wf ∧ !(Instr.buttonPress 4 true).wf := by decide

/-! ## Worked examples of the spec

Every expected byte below is copied from a table of the spec, which the docstring names. -/

/-- The bytes of Table 2.14. -/
def table214 : Bytes :=
  [0x10, 0x02, 0x01, 0x00, 0xDC, 0x05, 0x00, 0x00, 0x47, 0x1C, 0x02, 0x00, 0x00, 0x00, 0x00, 0x80,
   0x00, 0x00, 0x88, 0x23, 0x01, 0x00, 0x00, 0x00, 0x00, 0x00, 0x89, 0x23, 0x01, 0x00, 0x00, 0x00,
   0x00, 0x06, 0x00, 0x00, 0x0D, 0x00, 0x00, 0x00, 0x00, 0xF0, 0x87, 0x23, 0x01, 0x00, 0x00, 0x00,
   0x40, 0xF0, 0x87, 0x23, 0x01, 0x00, 0x00, 0x00, 0x05, 0x01, 0x00, 0x00, 0xA1, 0x00, 0x00, 0x00]

/-- The seal of Table 2.14, field by field. -/
def seal214 : Desc where
  opcode  := 0x10
  alg     := 0x02
  flags   := 0x0001
  inLen   := 1500
  keyRef  := 0x8000000000021C47
  inAddr  := 0x123880000
  outAddr := 0x123890000
  outCap  := 1536
  aadLen  := 13
  aadAddr := 0x12387F000
  param   := 0x12387F040
  cookie  := 0x000000A100000105

/-- Table 2.14. -/
theorem test_desc_seal : decodeDesc table214 = seal214 := by decide +kernel
theorem test_desc_seal_encode : encodeDesc seal214 = table214 := by decide +kernel
theorem test_desc_seal_checks : checks13 q1 4 seal214 = none := by decide +kernel

/-- Ring 3 of slice 42 as Tables 2.13 to 2.16 set it up. -/
def ring42 : Ring := { sq := 0x123400000, cq := 0x123420000, cfg := 0x80000008, active := true }

/-- Entry 5 holds descriptor 261 and record 261, whose phase is 0; record 5 had phase 1 (02). -/
theorem test_ring_entries : ring42.sqEntry 261 = 0x123400140 ∧ ring42.cqEntry 261 = 0x1234200A0 ∧ ring42.phase 261 = 0 ∧
    ring42.phase 5 = 1 ∧ ring42.sqEntry 240 = 0x123403C00 ∧ ring42.cqEntry 273 = 0x123420220 := by decide +kernel

/-- Table 2.16. -/
theorem test_record_seal : recordCpl 0x000000A100000105 Status.ok.code 0 0 1516 0x00040012 261 0 (ring42.phase 261) =
    [0x05, 0x01, 0x00, 0x00, 0xA1, 0x00, 0x00, 0x00, 0x00, 0x00, 0x00, 0x00, 0xEC, 0x05, 0x00, 0x00,
     0x12, 0x00, 0x04, 0x00, 0x05, 0x01, 0x00, 0x00, 0x00, 0x00, 0x00, 0x00, 0x00, 0x00, 0x00, 0x00] := by decide +kernel

/-- Table 4.9. -/
theorem test_record_open_fails : recordCpl 0x000000A100000106 Status.authFail.code 0
    (cplFlags false false { status := .authFail, zeroed := true }) 0 1 262 0 (ring42.phase 262) =
    [0x06, 0x01, 0x00, 0x00, 0xA1, 0x00, 0x00, 0x00, 0x01, 0x00, 0x02, 0x00, 0x00, 0x00, 0x00, 0x00,
     0x01, 0x00, 0x00, 0x00, 0x06, 0x01, 0x00, 0x00, 0x00, 0x00, 0x00, 0x00, 0x00, 0x00, 0x00, 0x00] := by decide +kernel

/-- Table 6.23. -/
theorem test_record_load : recordCpl 0x000000A1000000F0 Status.ok.code 0 0 0 0x00021C47 240 0x80000000 (ring42.phase 240) =
    [0xF0, 0x00, 0x00, 0x00, 0xA1, 0x00, 0x00, 0x00, 0x00, 0x00, 0x00, 0x00, 0x00, 0x00, 0x00, 0x00,
     0x47, 0x1C, 0x02, 0x00, 0xF0, 0x00, 0x00, 0x00, 0x00, 0x00, 0x00, 0x80, 0x00, 0x00, 0x00, 0x01] := by decide +kernel

/-- Table 9.8. -/
theorem test_record_lost : recordCpl 0x000000A10000010E Status.plateLost.code 1 (cplFlags false true { status := .plateLost }) 0 0
    270 0 (ring42.phase 273) =
    [0x0E, 0x01, 0x00, 0x00, 0xA1, 0x00, 0x00, 0x00, 0x0B, 0x01, 0x04, 0x00, 0x00, 0x00, 0x00, 0x00,
     0x00, 0x00, 0x00, 0x00, 0x0E, 0x01, 0x00, 0x00, 0x00, 0x00, 0x00, 0x00, 0x00, 0x00, 0x00, 0x00] := by decide +kernel

/-- The meters of Table 3.12. -/
def bank42 : Bank where
  meter := { work := 48840760, sealed := 60520000, jobs := 1042009, done := 1042008, cancelled := 1 }
  slots := 6
  ledger := 2310
  seq := 0x5A1

/-- Table 3.12. -/
theorem test_bank_view0 : (List.range 8).map (fun k => leBytes 8 (bankField bank42 false k).toNat) =
    [[0x38, 0x40, 0xE9, 0x02, 0, 0, 0, 0], [0x40, 0x76, 0x9B, 0x03, 0, 0, 0, 0], zeros 8, zeros 8, zeros 8,
     [0x59, 0xE6, 0x0F, 0x00, 0, 0, 0, 0], [0x06, 0x00, 0x06, 0x09, 0, 0, 0, 0], [0xA1, 0x05, 0, 0, 0, 0, 0, 0]] := by
  decide +kernel
theorem test_bank_view1 : bankField bank42 true 0 = 1042008 ∧ bankField bank42 true 4 = 1 ∧ bankField bank42 true 2 = 0 := by
  decide +kernel

/-- Steps 1, 2 and 3 of Table 4.6: a first lease, half of it drawn, the next one granted, and a draw across the two. -/
theorem test_lease_first : (({} : Lease).grant 0 65536).draw.map Prod.fst = some 0 := by decide +kernel
theorem test_lease_half : { base := 0, next := 32767, stop := 65536 : Lease }.half = false ∧
    { base := 0, next := 32768, stop := 65536 : Lease }.half = true := by decide +kernel
theorem test_lease_next : (({ base := 0, next := 65536, stop := 65536 : Lease }.grant 65536 131072).draw).map Prod.fst =
    some 65536 := by decide +kernel
theorem test_lease_none : { base := 131072, next := 262144, stop := 262144 : Lease }.draw = none := by decide +kernel

/-- Table 4.10, and TLEN 15 and 65. -/
def kmac410 : Desc where
  opcode  := 0x15
  alg     := 0x0C
  flags   := 0x2001
  inLen   := 4096
  keyRef  := 7
  inAddr  := 0x1238B0000
  aadLen  := 10
  aadAddr := 0x12387F100
  param   := 0x12387F200
  cookie  := 0x000000A100000107

theorem test_desc_kmac : encodeDesc kmac410 =
    [0x15, 0x0C, 0x01, 0x20, 0x00, 0x10, 0x00, 0x00, 0x07, 0x00, 0x00, 0x00, 0x00, 0x00, 0x00, 0x00,
     0x00, 0x00, 0x8B, 0x23, 0x01, 0x00, 0x00, 0x00, 0x00, 0x00, 0x00, 0x00, 0x00, 0x00, 0x00, 0x00,
     0x00, 0x00, 0x00, 0x00, 0x0A, 0x00, 0x00, 0x00, 0x00, 0xF1, 0x87, 0x23, 0x01, 0x00, 0x00, 0x00,
     0x00, 0xF2, 0x87, 0x23, 0x01, 0x00, 0x00, 0x00, 0x07, 0x01, 0x00, 0x00, 0xA1, 0x00, 0x00, 0x00] := by decide +kernel
theorem test_desc_kmac_checks : checks13 q1 8 kmac410 = none ∧ checks13 q1 8 { kmac410 with flags := 0x0F01 } = some .range ∧
    checks13 q1 8 { kmac410 with flags := 0x4101 } = some .range := by decide +kernel
theorem test_desc_hmac_tlen : checks13 q1 8 { kmac410 with alg := 0x08, aadLen := 0, aadAddr := 0 } = some .range := by
  decide +kernel

/-- Tables 5.11 and 5.14. -/
def sign511 : Desc :=
  { opcode := 0x20, alg := 0x40, flags := 0x0501, inLen := 32, keyRef := 3, inAddr := 0x1238C0000, outAddr := 0x1238D0000,
    outCap := 64, cookie := 0x000000A100000108 }
def sign514 : Desc :=
  { opcode := 0x20, alg := 0x59, flags := 0x0001, inLen := 3000, keyRef := 0x8000000000021D03, inAddr := 0x1238F0000,
    outAddr := 0x123900000, outCap := 3309, aadLen := 8, aadAddr := 0x12387F300, cookie := 0x000000A100000109 }

theorem test_desc_sign : checks13 q1 4 sign511 = none ∧ checks13 q1 4 sign514 = none := by decide +kernel

/-- 05: 48 work units for a P-256 signature, and 2 + 40 at the start of an ML-DSA-65 signature of 3,000 bytes. -/
theorem test_lane_d1 : laneD1 0x20 0x40 = 48 ∧ laneD1 0x20 0x59 = 40 := by decide +kernel
theorem test_lane_m : laneAddOn sign514 = 2 := by decide +kernel

/-- The key of Table 6.19. -/
def key619 : Key where
  alg     := 2
  attr    := 0x306
  gen     := 1
  ledger  := some 0x3A41
  kit     := 0x5C3E91A4
  created := 141769232

/-- Table 6.19. -/
theorem test_slug_header : slugHeader key619 42 32 [0x3B, 0x9E, 0x07, 0xC2, 0x51, 0xD4, 0x8A, 0x16, 0xF0, 0x6D, 0x2E, 0x93] =
    [0x01, 0x02, 0x2A, 0x00, 0x06, 0x03, 0x00, 0x00, 0x01, 0x00, 0x00, 0x00, 0x41, 0x3A, 0x00, 0x00,
     0xA4, 0x91, 0x3E, 0x5C, 0x20, 0x00, 0x00, 0x00, 0x3B, 0x9E, 0x07, 0xC2, 0x51, 0xD4, 0x8A, 0x16,
     0xF0, 0x6D, 0x2E, 0x93, 0x10, 0x3A, 0x73, 0x08, 0x00, 0x00, 0x00, 0x00, 0x00, 0x00, 0x00, 0x00] := by decide +kernel

/-- Table 6.20. -/
def entry620 : Ledger where
  st      := .active
  limit2  := 32
  lease2  := 20
  slug    := true
  slice   := 42
  granted := 1048576
  gen     := 1
theorem test_ledger_entry : ledgerBytes entry620 =
    [0x0F, 0x20, 0x14, 0x01, 0x2A, 0x00, 0x00, 0x00, 0x10, 0x00, 0x00, 0x00, 0x01, 0x00, 0x00, 0x00] := by decide +kernel

/-- Table 6.21: the KREF of the slug, and the handle of Table 6.23 with ERA 0, SEQ 0 and POS 0x2_1C47. -/
theorem test_kref : parseKref 0x4000000123004000 = .slug 0x123004000 ∧ makeHandle .a 0 0 0x21C47 = 0x8000000000021C47 ∧
    parseKref 0x8000000000021C47 = .handle 0x8000000000021C47 ∧ parseKref 32 = .bad ∧ parseKref 0x4000000123004008 = .bad := by
  decide +kernel
theorem test_desc_load : checks13 q1 4 { opcode := 0x33, alg := 2, flags := 1, keyRef := 0x4000000123004000 } = none ∧
    checks13 q1 4 { opcode := 0x33, alg := 2, keyRef := 0xC000000000000000 } = some .range := by decide +kernel

/-- 06, 15: the pages of slot 3 of slice 42 and of its slice record. -/
theorem test_pages : itemLpn (.slot 42 3) = 2694 ∧ itemLpn (.record 42) = 327722 := by decide +kernel

/-- Table 8.8. -/
def random88 : Desc where
  opcode  := 0x40
  flags   := 0x0101
  inLen   := 48
  outAddr := 0x123910000
  outCap  := 64
  aadLen  := 16
  aadAddr := 0x12387F400
  cookie  := 0x000000A10000010D
theorem test_desc_random : checks13 q1 4 random88 = none := by decide +kernel

/-- Table 11.10: the discrepancy of 1,200 ms starts where the loop opened, 50 µs before its deglitch passes, and the timer of
10 ms, of an oscillator that runs true, decides tamper by cause 2. -/
def input2 : State := field.updMargin fun g => { g with polSeq := 1 }
def slacked (s : State) : State := s.updMargin fun g => { g with inputs := g.inputs.mod {} 2 fun x => { x with slack := 200 } }
def shorted : State := slacked { after (.loopDeglitch 2 1 .short) { input2 with clock := 1200050 } with clock := 1210000 }
theorem test_discrepancy : (shorted.margin.inputs.get {} 2).since = some 1200000 ∧ shorted.margin.koDecided = [] ∧
    (after (.discrepancyExpire 2) shorted).margin.koDecided = [(2, 2)] := by decide +kernel

/-- The same table: loop A open at 0, closed at 9.7 ms, counted at 9.75 ms, no tamper. -/
def closed2 : State :=
  { after (.loopDeglitch 2 0 .ok) { slacked (after (.loopDeglitch 2 0 .opened) { input2 with clock := 50 }) with clock := 9750 } with
    clock := 9750 }
theorem test_discrepancy_ends : ((after (.discrepancyEnd 2) closed2).margin.inputs.get {} 2).counted = 1 ∧
    (after (.discrepancyEnd 2) closed2).margin.koDecided = [] := by decide +kernel

/-- 12: TMP_CAUSE of a cut of segment 140 seen by Plate B. -/
theorem test_tmp_cause : tmpCause { cause := { code := 1, by_ := 1, index := 140 } } = 0x0001018C := by decide +kernel

/-- Table 13.4: engine 5's pin sets ENGINE, FLT_FIRST reads 0x8000_0001, the timer starts; a write of 1 while the pin is
asserted leaves the bit. -/
def engine5 : State := after (.faultSourceAssert .a 1 (.engine 5) true) base
theorem test_engine_fault : engine5.pa.flt.status = 2 ∧ fltFirst engine5.pa.flt = 0x80000001 ∧
    engine5.pa.flt.graceAt = some 1100000 ∧ (after (.faultClear .a 2) engine5).pa.flt.status = 2 := by decide +kernel
def engine5Resets : State := engine5.updFlt .a fun f => { f with resetting := [.engine 5], resetAt := 1000000 }
theorem test_engine_back : (after (.unitResetDone .a (.engine 5) true) engine5Resets).pa.flt.unitsCe = 0 ∧
    (after (.faultClear .a 2) (after (.unitResetDone .a (.engine 5) true) engine5Resets)).pa.flt.graceAt = none := by decide +kernel

/-- Table 17.7: RING_CFG of ring 3 of slice 42 and SLC_WEIGHT of slice 42, which lies in group 2; slice 1 does not. -/
def slice42 : State := base.updSl .a fun x =>
  { x with rings := [(675, ring42)], impo := [(1, slice1), (42, { slice1 with groups := 4 })], bcastSel := 0x80000002 }
def broadcast42 : State := after (.broadcastWrite .a 0x24 4 0x10101020) slice42
theorem test_addresses : bar0Word slice42 .a 0x405470 = 0x80000008 ∧ bar0Word broadcast42 .a 0x102A24 = 0x10101020 := by
  decide +kernel
theorem test_broadcast_group : bar0Word broadcast42 .a 0x100124 = bar0Word slice42 .a 0x100124 := by decide +kernel
/-! ## For every statement with hypotheses, values that meet them together -/

theorem test_wit_StepRunsTheFrontCommand_1 : ∃ (c : Instr) (q : List Instr) (s : State), s.pending = c :: q :=
  ⟨.loopStatusPeriod, [], { base with pending := [.loopStatusPeriod] }, by decide⟩

theorem test_wit_StepRunsTheFrontCommand_2 : ∃ (s : State), s.pending = [] :=
  ⟨base, by decide⟩

theorem test_wit_DoorbellReads_1 : ∃ (p : Plate) (i : Nat) (s : State), s.fetches p i = true ∧ s.anyRing p i = true ∧
    ((s.pl p).sl.poll.get { } i).reading = 0 ∧ s.past ((s.pl p).sl.poll.get { } i).lastRead (max ((s.pl p).sl.poll.get
    { } i).interval (s.pl p).sl.pollMin) = true :=
  ⟨.a, 1, base, by decide⟩

theorem test_wit_DoorbellReads_2 : ∃ (p : Plate) (i : Nat) (value : DWord) (s : State), BitVec.toNat value < 2 ^ 16 ∧
    s.up p = true ∧ (s.impo p i).home = p ∧ s.fetches p i = true ∧ s.anyRing p i = true :=
  ⟨.a, 1, 0, base, by decide⟩

theorem test_wit_DoorbellReads_3 : ∃ (p : Plate) (i : Nat) (value : DWord) (s : State), BitVec.toNat value < 2 ^ 16 ∧
    s.up p = true ∧ (s.impo p i).st ≠ SliceSt.free ∧ (s.impo p i).home = p.peer ∧ s.gutterUp p = true :=
  ⟨.b, 1, 0, base, by decide⟩

theorem test_wit_DoorbellReads_4 : ∃ (p : Plate) (i : Nat) (l : List GMsg) (s : State), s.gut p = GMsg.nudge i :: l ∧
    (s.impo p i).home = p ∧ s.fetches p i = true ∧ s.anyRing p i = true :=
  ⟨.a, 1, [], (base.setGut .a [.nudge 1]), by decide⟩

theorem test_wit_DoorbellReads_5 : ∃ (offset : Nat) (size : Nat) (value : DWord), offset ≠ 0 ∨ size ≠ 4 ∨ 2 ^ 16 ≤
    BitVec.toNat value :=
  ⟨1, 4, 0, by decide⟩

theorem test_wit_DoorbellLineTakesEffect : ∃ (p : Plate) (i : Nat) (r : Nat) (s : State), ((s.pl p).sl.poll.get { }
    i).reading ≠ 0 ∧ s.fetches p i = true ∧ r < 16 ∧ (s.ring p (RingRef.tenant i r)).takesP = true ∧ (s.ring p
    (RingRef.tenant i r)).faulted = false :=
  ⟨.a, 1, 0, reading, by decide⟩

theorem test_wit_CancelsAndFences_1 : ∃ (p : Plate) (i : Nat) (value : DWord) (s : State), BitVec.toNat value < 2 ^ 36
    ∧ (s.impo p i).st = SliceSt.active ∧ s.up p = true ∧ (s.impo p i).home = p ∧ s.movedSent p.peer i = false ∧
    Armable (s.ring p (RingRef.tenant i (BitVec.toNat value / 2 ^ 32 % 16))) (BitVec.ofNat 32 (BitVec.toNat value)) ∧
    NoneWaits s p (RingRef.tenant i (BitVec.toNat value / 2 ^ 32 % 16)) :=
  ⟨.a, 1, 2, three, by decide⟩

theorem test_wit_CancelsAndFences_2 : ∃ (p : Plate) (i : Nat) (value : DWord) (s : State), BitVec.toNat value < 2 ^ 36
    ∧ (s.impo p i).st = SliceSt.active ∧ s.up p = true ∧ (s.impo p i).home = p ∧ s.movedSent p.peer i = false ∧
    (s.ring p (RingRef.tenant i (BitVec.toNat value / 2 ^ 32 % 16))).size < Machine.dist (BitVec.ofNat 32
    (BitVec.toNat value)) (s.ring p (RingRef.tenant i (BitVec.toNat value / 2 ^ 32 % 16))).low :=
  ⟨.a, 1, 257, three, by decide⟩

theorem test_wit_CancelsAndFences_3 : ∃ (p : Plate) (i : Nat) (value : DWord) (s : State), BitVec.toNat value < 2 ^ 36
    ∧ (s.impo p i).st = SliceSt.moving ∧ s.up p = true ∧ (s.impo p i).home = p ∧ s.movedSent p.peer i = true ∧
    s.gutterUp p = true :=
  ⟨.a, 1, 2, { base with pa := { plate1 with sl := { plate1.sl with impo := [(1, { slice1 with st := .moving })] } }, gutB := [.moved [] { slice := 1 }] }, by decide⟩

theorem test_wit_CancelsAndFences_4 : ∃ (p : Plate) (i : Nat) (value : DWord) (s : State), BitVec.toNat value < 2 ^ 36
    ∧ (s.impo p i).st ≠ SliceSt.free ∧ s.up p = true ∧ (s.impo p i).home = p.peer ∧ s.gutterUp p = true :=
  ⟨.b, 1, 2, three, by decide⟩

theorem test_wit_CancelsAndFences_5 : ∃ (p : Plate) (i : Nat) (r : Nat) (f : Word) (l : List GMsg) (s : State), s.gut
    p = GMsg.cancel i r f :: l ∧ (s.impo p i).home = p ∧ s.movedSent p.peer i = false ∧ Armable (s.ring p
    (RingRef.tenant i r)) f ∧ NoneWaits s p (RingRef.tenant i r) :=
  ⟨.a, 1, 0, 2, [], (three.setGut .a [.cancel 1 0 2]), by decide⟩

theorem test_wit_CancelsAndFences_6 : ∃ (offset : Nat) (size : Nat) (value : DWord), offset ≠ 8 ∨ size ≠ 8 ∨ 2 ^ 36 ≤
    BitVec.toNat value :=
  ⟨0, 8, 2, by decide⟩

theorem test_wit_CancelsAndFences_7 : ∃ (p : Plate) (i : Nat) (value : DWord) (j : Job) (s : State), BitVec.toNat
    value < 2 ^ 36 ∧ (s.impo p i).st = SliceSt.active ∧ s.up p = true ∧ (s.impo p i).home = p ∧ s.movedSent p.peer i =
    false ∧ Armable (s.ring p (RingRef.tenant i (BitVec.toNat value / 2 ^ 32 % 16))) (BitVec.ofNat 32 (BitVec.toNat
    value)) ∧ List.filter (fun j => j.ring == RingRef.tenant i (BitVec.toNat value / 2 ^ 32 % 16) && (j.stage ==
    Stage.waitLease || j.stage == Stage.parked)) (s.pl p).sl.jobs = [j] ∧ Machine.dist j.index (s.ring p
    (RingRef.tenant i (BitVec.toNat value / 2 ^ 32 % 16))).low < Machine.dist (BitVec.ofNat 32 (BitVec.toNat value))
    (s.ring p (RingRef.tenant i (BitVec.toNat value / 2 ^ 32 % 16))).low :=
  ⟨.a, 1, 2, sealWaits, (three.updSl .a fun x => { x with jobs := [sealWaits] }), by decide⟩

theorem test_wit_CancelsAndFences_8 : ∃ (r : JobRef) (j : Job) (s : State), s.jobAt r = some j ∧ j.stage =
    Stage.queued ∧ j.desc.op = 81 ∧ (s.ring r.plate r.ring).low = r.index :=
  ⟨jr, fenceJob, (withJob fenceJob), by decide⟩

theorem test_wit_CancelsAndFences_9 : ∃ (r : JobRef) (s : State), (s.ring r.plate r.ring).low ≠ r.index :=
  ⟨{ jr with index := 1 }, (withJob fenceJob), by decide⟩

theorem test_wit_FetchedDescriptorIsChecked_1 : ∃ (p : Plate) (n : Nat) (r : Nat) (i : Word) (b : Bytes) (st : Status)
    (s : State), s.servesRing p (RingRef.tenant n r) = true ∧ (s.ring p (RingRef.tenant n r)).fetchOpen = true ∧
    (s.ring p (RingRef.tenant n r)).fetched = i ∧ (s.ring p (RingRef.tenant n r)).draining = false ∧ checks13
    (RingRef.tenant n r) (s.quotaNow p n).slots (decodeDesc (fit 64 b)) = some st :=
  ⟨.a, 1, 0, 0, [], .unsupported, submitted, by decide⟩

theorem test_wit_FetchedDescriptorIsChecked_2 : ∃ (p : Plate) (n : Nat) (r : Nat) (i : Word) (s : State), s.servesRing
    p (RingRef.tenant n r) = true ∧ (s.ring p (RingRef.tenant n r)).fetchOpen = true ∧ (s.ring p (RingRef.tenant n
    r)).fetched = i ∧ (s.ring p (RingRef.tenant n r)).draining = true :=
  ⟨.a, 1, 0, 0, (submitted.updRing .a q1 fun g => { g with draining := true }), by decide⟩

theorem test_wit_FetchedDescriptorIsChecked_3 : ∃ (p : Plate) (n : Nat) (r : Nat) (i : Word) (b : Bytes) (s : State),
    s.servesRing p (RingRef.tenant n r) = true ∧ (s.ring p (RingRef.tenant n r)).fetchOpen = true ∧ (s.ring p
    (RingRef.tenant n r)).fetched = i ∧ (s.ring p (RingRef.tenant n r)).draining = false ∧ s.job? p (RingRef.tenant n
    r) i = none ∧ (decodeDesc (fit 64 b)).op = 24 ∧ checks13 (RingRef.tenant n r) (s.quotaNow p n).slots (decodeDesc
    (fit 64 b)) = none ∧ check7 (decodeDesc (fit 64 b)) none = none :=
  ⟨.a, 1, 0, 0, digestBytes, submitted, by decide⟩

theorem test_wit_FetchedDescriptorIsChecked_4 : ∃ (p : Plate) (n : Nat) (r : Nat) (i : Word) (b : Bytes) (s : State),
    s.servesRing p (RingRef.tenant n r) = true ∧ (s.ring p (RingRef.tenant n r)).fetchOpen = true ∧ (s.ring p
    (RingRef.tenant n r)).fetched = i ∧ (s.ring p (RingRef.tenant n r)).draining = false ∧ s.job? p (RingRef.tenant n
    r) i = none ∧ (decodeDesc (fit 64 b)).op = 81 ∧ checks13 (RingRef.tenant n r) (s.quotaNow p n).slots (decodeDesc
    (fit 64 b)) = none :=
  ⟨.a, 1, 0, 0, fenceBytes, submitted, by decide⟩

theorem test_wit_ConsumerIndexAdvance_1 : ∃ (g : Machine.Ring) (i : Word) (n : Word) (k : Word), g.posted.length < 2 ^
    31 ∧ List.Pairwise (fun x y => x.1 ≠ y.1) (g.posted ++ [(i, n)]) ∧ Machine.dist k g.low < Machine.dist (g.posted1
    i n).low g.low :=
  ⟨ring1, 0, 0, 0, by decide⟩

theorem test_wit_ConsumerIndexAdvance_2 : ∃ (g : Machine.Ring) (i : Word) (n : Word) (x : Word × Word),
    g.posted.length < 2 ^ 31 ∧ List.Pairwise (fun x y => x.1 ≠ y.1) (g.posted ++ [(i, n)]) ∧ x ∈ g.posted ++ [(i, n)]
    :=
  ⟨ring1, 0, 0, (0, 0), by decide⟩

theorem test_wit_ConsumerIndexAdvance_3 : ∃ (g : Machine.Ring) (i : Word) (n : Word), g.posted.length < 2 ^ 31 ∧
    List.Pairwise (fun x y => x.1 ≠ y.1) (g.posted ++ [(i, n)]) :=
  ⟨ring1, 0, 0, by decide⟩

theorem test_wit_RingSetUp_1 : ∃ (p : Plate) (i : Nat) (r : Nat) (cfg : Word) (s : State), SetupAccepted s p i ∧
    BitVec.getLsbD cfg 31 = true ∧ (s.ring p (RingRef.tenant i r)).enabled = false ∧ (s.ring p (RingRef.tenant i
    r)).draining = false ∧ r < (s.quotaNow p i).rings ∧ 6 ≤ BitVec.toNat cfg % 32 ∧ BitVec.toNat cfg % 32 ≤ 16 ∧
    (s.impo p i).st ≠ SliceSt.draining ∧ (s.pl p).vlt.hold = none :=
  ⟨.a, 1, 1, cfgOn, base, by decide⟩

theorem test_wit_RingSetUp_2 : ∃ (p : Plate) (i : Nat) (r : Nat) (cfg : Word) (s : State), SetupAccepted s p i ∧
    BitVec.getLsbD cfg 31 = true ∧ (s.ring p (RingRef.tenant i r)).enabled = false ∧ ((s.quotaNow p i).rings ≤ r ∨
    BitVec.toNat cfg % 32 < 6 ∨ 16 < BitVec.toNat cfg % 32) :=
  ⟨.a, 1, 4, cfgOn, base, by decide⟩

theorem test_wit_RingSetUp_3 : ∃ (p : Plate) (i : Nat) (r : Nat) (cfg : Word) (s : State), SetupAccepted s p i ∧
    BitVec.getLsbD cfg 31 = false ∧ (s.ring p (RingRef.tenant i r)).enabled = true ∧ (s.ring p (RingRef.tenant i
    r)).draining = false ∧ ∀ j ∈ (s.pl p).sl.jobs, j.ring ≠ RingRef.tenant i r :=
  ⟨.a, 1, 0, 8, base, by decide⟩

theorem test_wit_RingSetUp_4 : ∃ (p : Plate) (i : Nat) (r : Nat) (s : State), SetupAccepted s p i ∧ (s.ring p
    (RingRef.tenant i r)).faulted = true ∧ (s.ring p (RingRef.tenant i r)).enabled = true :=
  ⟨.a, 1, 0, (withRing fun g => { g with faulted := true }), by decide⟩

theorem test_wit_RingSetUp_5 : ∃ (p : Plate) (i : Nat) (s : State), s.acceptsCopied p i = false :=
  ⟨.a, 1, State.reset, by decide⟩

theorem test_wit_RingSetUp_6 : ∃ (p : Plate) (q : RingRef) (s : State), (s.ring p q).draining = true ∧ (s.ring p
    q).fetched = (s.ring p q).prod ∧ (s.ring p q).low = (s.ring p q).prod ∧ s.pa.sl.ops = [] ∧ s.pb.sl.ops = [] :=
  ⟨.a, q1, (withRing fun g => { g with draining := true, count := 1 }), by decide⟩

theorem test_wit_RingSetUp_7 : ∃ (p : Plate) (cfg : Word) (s : State), s.up p = true ∧ (s.pl p).pow.ready = true ∧
    BitVec.getLsbD cfg 31 = true ∧ (s.pl p).sl.adm.enabled = false ∧ (s.pl p).sl.adm.draining = false ∧ 6 ≤
    BitVec.toNat cfg % 32 ∧ BitVec.toNat cfg % 32 ≤ 10 ∧ (s.pl p).vlt.hold = none :=
  ⟨.a, cfgOn, (base.updSl .a fun x => { x with adm := {} }), by decide⟩

theorem test_wit_RingSetUp_8 : ∃ (p : Plate) (v : Word) (s : State), s.up p = true ∧ (s.pl p).pow.ready = true ∧ (s.pl
    p).sl.adm.takesP = true ∧ (s.pl p).sl.adm.faulted = false ∧ AdminWithin s p v :=
  ⟨.a, 2, base, by decide⟩

theorem test_wit_RingSetUp_9 : ∃ (p : Plate) (cfg : Word) (s : State), s.up p = true ∧ (s.pl p).pow.ready = true ∧
    BitVec.getLsbD cfg 31 = false ∧ (s.pl p).sl.adm.enabled = true ∧ (s.pl p).sl.adm.draining = false ∧ ∀ j ∈ (s.pl
    p).sl.jobs, j.ring ≠ RingRef.admin :=
  ⟨.a, 0, base, by decide⟩

theorem test_wit_RingSetUp_10 : ∃ (p : Plate) (s : State), s.up p = true ∧ (s.pl p).pow.ready = true ∧ (s.pl
    p).sl.adm.faulted = true ∧ (s.pl p).sl.adm.takesP = true ∧ AdminWithin s p (s.pl p).sl.admPi :=
  ⟨.a, (base.updSl .a fun x => { x with adm := { ring1 with faulted := true } }), by decide⟩

theorem test_wit_ProgressAndInterrupts_1 : ∃ (p : Plate) (i : Nat) (v : BitVec 20) (s : State), (s.pl
    p).sl.progress.contains i = true ∧ s.pasid p i = some v ∧ s.mayWrite p = true :=
  ⟨.a, 1, 5, (base.updSl .a fun x => { x with progress := [1] }), by decide⟩

theorem test_wit_ProgressAndInterrupts_2 : ∃ (p : Plate) (i : Nat) (s : State), (s.pl p).sl.progress.contains i =
    false :=
  ⟨.a, 1, base, by decide⟩

theorem test_wit_ProgressAndInterrupts_3 : ∃ (p : Plate) (i : Nat) (r : Nat) (t0 : Nat) (s : State), (s.ring p
    (RingRef.tenant i r)).irqSince = some t0 ∧ (s.ring p (RingRef.tenant i r)).coalUs ≠ 0 ∧ s.past t0 (s.ring p
    (RingRef.tenant i r)).coalUs = true ∧ (s.ring p (RingRef.tenant i r)).irqCount ≠ 0 ∧ (s.pl p).sl.progress.contains
    i = false ∧ (s.msixEntry p (s.ring p (RingRef.tenant i r)).vector).2.2 = false ∧ (s.pl p).pow.fnMask = false :=
  ⟨.a, 1, 0, 0, coalesced, by decide⟩

theorem test_wit_ProgressAndInterrupts_4 : ∃ (p : Plate) (i : Nat) (r : Nat) (s : State), (s.ring p (RingRef.tenant i
    r)).irqSince = none :=
  ⟨.a, 1, 0, base, by decide⟩

theorem test_wit_KeyResolution_1 : ∃ (r : JobRef) (j : Job) (h : Dma) (m : Dma) (s : State), s.jobAt r = some j ∧
    j.stage = Stage.resolving ∧ (if j.slug.isSome = true then m else h) = Dma.fault :=
  ⟨jr, slugJob, .fault, .ok [], withJob slugJob, by decide⟩

theorem test_wit_KeyResolution_2 : ∃ (r : JobRef) (j : Job) (b : Bytes) (s : State), s.jobAt r = some j ∧ j.stage =
    Stage.resolving ∧ j.slug = none ∧ slugHeaderOk (fit 48 b) ((ringSlice j.ring).getD 0) = false ∧ ((s.pl
    r.plate).vlt.recs.get { } ((ringSlice j.ring).getD 0)).tagOk = true :=
  ⟨jr, slugJob, [], (withJob slugJob), by decide⟩

theorem test_wit_KeyResolution_3 : ∃ (r : JobRef) (i : Nat) (n : Nat) (j : Job) (b : Bytes) (v : BitVec 20) (s :
    State), r.ring = RingRef.tenant i n ∧ j.ring = r.ring ∧ s.jobAt r = some j ∧ j.stage = Stage.resolving ∧ j.slug =
    none ∧ j.desc.op ≠ 50 ∧ slugHeaderOk (fit 48 b) i = true ∧ ((s.pl r.plate).vlt.recs.get { } i).tagOk = true ∧
    s.checkLedger r.plate i (slugKey (fit 48 b)).ledger true (slugKey (fit 48 b)).gen = none ∧ s.hasTrk r.plate i =
    true ∧ s.cached r.plate i (slugKey (fit 48 b)) = none ∧ s.pasid r.plate i = some v :=
  ⟨jr, 1, 0, slugJob, header1, 5, readsMaterial, by decide +kernel⟩

theorem test_wit_KeyResolution_4 : ∃ (r : JobRef) (j : Job) (k : Key) (h : Bytes) (s : State), s.jobAt r = some j ∧
    j.stage = Stage.resolving ∧ j.slug = some k ∧ k.src = KeySrc.slug h :=
  ⟨jr, { slugJob with slug := some { key1 with src := .slug header1 } }, { key1 with src := .slug header1 }, header1,
    withJob { slugJob with slug := some { key1 with src := .slug header1 } }, by decide⟩

theorem test_wit_KeyResolution_5 : ∃ (r : JobRef) (i : Nat) (n : Nat) (j : Job) (b : Bytes) (k : Nat) (s : State),
    r.ring = RingRef.tenant i n ∧ j.ring = r.ring ∧ s.jobAt r = some j ∧ j.stage = Stage.resolving ∧ j.slug = none ∧
    slugHeaderOk (fit 48 b) i = true ∧ ((s.pl r.plate).vlt.recs.get { } i).tagOk = true ∧ (slugKey (fit 48 b)).ledger
    = some k ∧ s.ledgerBad r.plate k = false ∧ ledgerLive (s.ledgerAt r.plate k) i true (slugKey (fit 48 b)).gen =
    false :=
  ⟨jr, 1, 0, slugJob, header1, 7, (withJob slugJob), by decide⟩

theorem test_wit_KeyResolution_6 : ∃ (r : JobRef) (j : Job) (k : Key) (pos : Nat) (e : CacheEntry) (s : State),
    s.jobAt r = some j ∧ j.stage = Stage.waitLines ∧ usesCache j.desc = true ∧ j.key = some k ∧ j.entry = some pos ∧
    s.entryAt r.plate ((ringSlice j.ring).getD 0) pos = some e ∧ e.filled = false :=
  ⟨jr, lineJob, key1, 3, { slice := 1, pos := 3, lines := 1, key := key1, filled := false }, (withEntry lineJob false), by decide⟩

theorem test_wit_KeyResolution_7 : ∃ (r : JobRef) (j : Job) (k : Key) (pos : Nat) (e : CacheEntry) (s : State),
    s.jobAt r = some j ∧ j.stage = Stage.waitLines ∧ usesCache j.desc = true ∧ j.key = some k ∧ j.key2 = none ∧
    j.newPos = none ∧ j.entry = some pos ∧ s.entryAt r.plate ((ringSlice j.ring).getD 0) pos = some e ∧ e.filled =
    true ∧ s.exhaustedNow r.plate ((ringSlice j.ring).getD 0) j k = false ∧ NeedsNoMore j k :=
  ⟨jr, sealLine, sealKey2, 3, sealEntry, sealFilled, by decide⟩

theorem test_wit_KeyResolution_8 : ∃ (r : JobRef) (j : Job) (k : Key) (m : Nat) (pos : Nat) (s : State), s.jobAt r =
    some j ∧ j.stage = Stage.waitLines ∧ usesCache j.desc = true ∧ j.key = some k ∧ j.key2 = none ∧ j.newPos = none ∧
    j.entry = none ∧ j.reserving = true ∧ parseKref j.desc.keyRef = Kref.slot m ∧ k.vinst = none ∧ fillCost k.alg = 0
    ∧ NeedsNoMore j k ∧ s.cached r.plate ((ringSlice j.ring).getD 0) k = none ∧ s.linesUsed r.plate ((ringSlice
    j.ring).getD 0) + keyLines k.alg (List.length k.material) ≤ (s.quotaNow r.plate ((ringSlice j.ring).getD 0)).lines
    ∧ s.findPos r.plate ((ringSlice j.ring).getD 0) (s.quotaNow r.plate ((ringSlice j.ring).getD 0)).lines (s.quotaNow
    r.plate ((ringSlice j.ring).getD 0)).lines (Config.freeNat s.free) = some pos ∧ s.exhaustedNow r.plate ((ringSlice
    j.ring).getD 0) j k = false :=
  ⟨jr, reserveJob, slotSeal, 0, Config.freeNat 0 % 64, withJob reserveJob, by decide, by decide, by decide, by decide, by decide, by decide,
    by decide, by decide, by decide, by decide, by decide, by decide, by decide, by decide, rfl, by decide⟩

theorem test_wit_KeyResolution_9 : ∃ (r : JobRef) (j : Job) (k : Key) (pos : Nat) (e : CacheEntry) (s : State),
    s.jobAt r = some j ∧ j.stage = Stage.filling ∧ usesCache j.desc = true ∧ j.desc.op ≠ 51 ∧ isSeal j.desc.op = false
    ∧ j.key = some k ∧ j.key2 = none ∧ j.entry2 = none ∧ j.newPos = none ∧ j.entry = some pos ∧ s.past j.startedAt
    (fillCost k.alg) = true ∧ s.entryAt r.plate ((ringSlice j.ring).getD 0) pos = some e ∧ NeedsNoMore j k :=
  ⟨jr, fillJob, key1, 3, { slice := 1, pos := 3, lines := 1, key := key1, filled := false }, (withEntry fillJob false), by decide⟩

theorem test_wit_KeyResolution_10 : ∃ (p : Plate) (k : ReadKind) (s : State), s.readExpired p k = false :=
  ⟨.a, .witness, base, by decide⟩

theorem test_wit_KeyResolution_11 : ∃ (p : Plate) (q : RingRef) (i : Word) (j : Job) (s : State), s.job? p q i = some
    j ∧ j.stage = Stage.resolving ∧ s.readExpired p (ReadKind.slug q i) = true :=
  ⟨.a, q1, 0, slugJob, slugLate, by decide⟩

theorem test_wit_LaneInputsComeFirst_1 : ∃ (r : JobRef) (j : Job) (d : Inputs) (a : Bytes) (b : Bytes) (c : Bytes) (e
    : Bytes) (s : State), s.jobAt r = some j ∧ j.stage = Stage.ready ∧ j.cls = EngClass.lane ∧ j.prefetched = false ∧
    lanePrefetched j.desc d = some (a, b, c, e) :=
  ⟨jr, rawLane, digest32, (zeros 32), [], [], [], (withJob rawLane), by decide⟩

theorem test_wit_LaneInputsComeFirst_2 : ∃ (r : JobRef) (j : Job) (d : Inputs) (s : State), s.jobAt r = some j ∧
    j.stage = Stage.ready ∧ j.cls = EngClass.lane ∧ j.prefetched = false ∧ lanePrefetched j.desc d = none :=
  ⟨jr, rawLane, { noInputs with inp := .fault }, (withJob rawLane), by decide⟩

theorem test_wit_StartStep_1 : ∃ (p : Plate) (s : State) (j : Job) (u : Nat), s.up p = true ∧ s.cipherRestart p = none
    ∧ (s.choose p EngClass.cipher).2 = some j ∧ (s.choose p EngClass.cipher).1.job? p j.ring j.index = some j ∧ j.cls
    = EngClass.cipher ∧ (s.choose p EngClass.cipher).1.unitFor p j = some u ∧ FreeToStart (s.choose p
    EngClass.cipher).1 p j :=
  ⟨.a, (withJob cipherJob), cipherJob, 8, by decide⟩

theorem test_wit_StartStep_2 : ∃ (p : Plate) (s : State) (j : Job), s.up p = true ∧ (s.choose p EngClass.random).2 =
    some j ∧ (s.choose p EngClass.random).1.job? p j.ring j.index = some j ∧ j.cls = EngClass.random ∧ FreeToStart
    (s.choose p EngClass.random).1 p j :=
  ⟨.a, (withJob randomJob), randomJob, by decide⟩

theorem test_wit_StartStep_3 : ∃ (p : Plate) (s : State) (j : Job), s.up p = true ∧ (s.choose p EngClass.vault).2 =
    some j ∧ (s.choose p EngClass.vault).1.job? p j.ring j.index = some j ∧ j.cls = EngClass.vault ∧ FreeToStart
    (s.choose p EngClass.vault).1 p j :=
  ⟨.a, (withJob vaultJob), vaultJob, by decide⟩

theorem test_wit_StartStep_4 : ∃ (p : Plate) (s : State) (j : Job) (u : Nat), s.up p = true ∧ s.selectedJob p = none ∧
    ((s.updSl p fun x => { x with selected := none }).choose p EngClass.lane).2 = some j ∧ ((s.updSl p fun x => { x
    with selected := none }).choose p EngClass.lane).1.job? p j.ring j.index = some j ∧ j.cls = EngClass.lane ∧
    ((s.updSl p fun x => { x with selected := none }).choose p EngClass.lane).1.freeLane p = some u ∧ (((s.updSl p fun
    x => { x with selected := none }).choose p EngClass.lane).1.pl p).sl.resume = [] ∧ FreeToStart ((s.updSl p fun x
    => { x with selected := none }).choose p EngClass.lane).1 p j :=
  ⟨.a, (withJob laneJob), laneJob, 0, by decide⟩

theorem test_wit_StartStep_5 : ∃ (p : Plate) (s : State) (j : Job), s.up p = true ∧ (s.choose p EngClass.vault).2 =
    some j ∧ j.begun = false ∧ ((s.choose p EngClass.vault).1.ring p j.ring).covers j.index = true :=
  ⟨.a, fenced, vaultJob, by decide⟩

theorem test_wit_StartStep_6 : ∃ (p : Plate) (s : State) (j : Job) (st : Status), s.up p = true ∧ (s.choose p
    EngClass.vault).2 = some j ∧ j.begun = false ∧ ((s.choose p EngClass.vault).1.ring p j.ring).covers j.index =
    false ∧ ((s.choose p EngClass.vault).1.keyAtStart p j = some st ∨ (s.choose p EngClass.vault).1.keyAtStart p j =
    none ∧ (s.choose p EngClass.vault).1.entropyAtStart p j = some true ∧ st = Status.entropyHalt) :=
  ⟨.a, withJob goneJob, goneJob, .keyGone, by decide⟩

theorem test_wit_SchedulerChoosesAReadyJob_1 : ∃ (p : Plate) (c : EngClass) (s : State) (j : Job), (s.choose p c).2 =
    some j :=
  ⟨.a, .vault, (withJob vaultJob), vaultJob, by decide⟩

theorem test_wit_SchedulerChoosesAReadyJob_2 : ∃ (p : Plate) (c : EngClass) (s : State) (j : Job) (i : Nat) (n : Nat),
    (s.choose p c).2 = some j ∧ c = EngClass.lane ∧ j.ring ≠ RingRef.admin ∧ j.ring = RingRef.tenant i n :=
  ⟨.a, .lane, withJob laneJob, laneJob, 1, 0, by decide⟩

theorem test_wit_ParkingAndResuming_1 : ∃ (p : Plate) (w : Job) (j : Job) (q : RingRef) (i : Word) (t0 : Nat) (s :
    State), s.selectedJob p = some w ∧ (s.pl p).sl.selected = some (q, i, t0) ∧ s.freeLane p = none ∧ 20 < s.clock -
    t0 ∧ w.causedPark = false ∧ s.parkChoice p w = some j ∧ s.job? p j.ring j.index = some j ∧ s.job? p w.ring w.index
    = some w ∧ (j.ring, j.index) ≠ (w.ring, w.index) :=
  ⟨.a, waitingLane, longJob, q1, 9, 999979, busy, by decide⟩

theorem test_wit_ParkingAndResuming_2 : ∃ (p : Plate) (w : Job) (s : State), s.selectedJob p = some w ∧ w.causedPark =
    true :=
  ⟨.a, { waitingLane with causedPark := true }, (busy.updJob .a q1 9 fun j => { j with causedPark := true }), by decide⟩

theorem test_wit_ParkingAndResuming_3 : ∃ (r : JobRef) (j : Job) (s : State), s.jobAt r = some j ∧ j.stage =
    Stage.started ∧ j.toPark = true ∧ j.rawDone = false ∧ j.critical = false ∧ (s.ring r.plate r.ring).covers r.index
    = false ∧ s.selectedJob r.plate = none :=
  ⟨jr, toParkJob, (withJob toParkJob), by decide⟩

theorem test_wit_ParkingAndResuming_4 : ∃ (p : Plate) (q : RingRef) (i : Word) (l : List (RingRef × Word)) (n : Nat)
    (j : Job) (s : State), s.mayRun p q = true ∧ (s.pl p).sl.resume = (q, i) :: l ∧ s.freeLane p = some n ∧ s.job? p q
    i = some j ∧ j.stage = Stage.parked :=
  ⟨.a, q1, 0, [], 0, parkedJob, parkedState, by decide⟩

theorem test_wit_CipherJobs_1 : ∃ (r : JobRef) (j : Job) (k : Key) (d : Inputs) (n : Nat) (pt : Bytes) (aad : Bytes)
    (o : Bytes) (s : State), Working s r 16 j ∧ j.key = some k ∧ j.inv = some n ∧ cipherReads j.desc d 0 = some (pt,
    aad, o) :=
  ⟨jr, (running 0x10 4), { key1 with alg := 4 }, inputs40, 5, (zeros 40), [], [], (withJob (running 0x10 4)), by decide⟩

theorem test_wit_CipherJobs_2 : ∃ (r : JobRef) (j : Job) (k : Key) (d : Inputs) (n : Nat) (pt : Bytes) (aad : Bytes)
    (nonce : Bytes) (s : State), Working s r 18 j ∧ j.key = some k ∧ j.inv = some n ∧ cipherReads j.desc d 12 = some
    (pt, aad, nonce) ∧ BitVec.toNat j.desc.inLen ≤ 65536 :=
  ⟨jr, (running 0x12 4), { key1 with alg := 4 }, inputs40, 5, (zeros 40), [], (zeros 12), (withJob (running 0x12 4)), by decide⟩

theorem test_wit_CipherJobs_3 : ∃ (r : JobRef) (j : Job) (k : Key) (d : Inputs) (m : Bytes) (a : Bytes) (o : Bytes) (s
    : State), Working s r 22 j ∧ j.key = some k ∧ cipherReads j.desc d 0 = some (m, a, o) :=
  ⟨jr, (running 0x16 4), { key1 with alg := 4 }, inputs40, (zeros 40), [], [], (withJob (running 0x16 4)), by decide⟩

theorem test_wit_CipherJobs_4 : ∃ (r : JobRef) (j : Job) (d : Inputs) (m : Bytes) (a : Bytes) (o : Bytes) (s : State),
    Working s r 20 j ∧ cipherReads j.desc d 0 = some (m, a, o) :=
  ⟨jr, (running 0x14 8), inputs40, (zeros 40), [], [], (withJob (running 0x14 8)), by decide⟩

theorem test_wit_CipherJobs_5 : ∃ (r : JobRef) (j : Job) (d : Inputs) (m : Bytes) (a : Bytes) (o : Bytes) (s : State),
    Working s r 24 j ∧ cipherReads j.desc d 0 = some (m, a, o) :=
  ⟨jr, (running 0x18 0x10), inputs40, (zeros 40), [], [], (withJob (running 0x18 0x10)), by decide⟩

theorem test_wit_CipherJobs_6 : ∃ (r : JobRef) (j : Job) (d : Inputs) (s : State), Working s r 16 j ∧ cipherReads
    j.desc d 0 = none :=
  ⟨jr, (running 0x10 4), { inputs40 with inp := .fault }, (withJob (running 0x10 4)), by decide⟩

theorem test_wit_CipherJobs_7 : ∃ (r : JobRef) (j : Job) (k : Key) (d : Inputs) (ct : Bytes) (aad : Bytes) (iv :
    Bytes) (s : State), Working s r 17 j ∧ j.key = some k ∧ j.passes = 1 ∧ cipherReads j.desc d 12 = some (ct, aad,
    iv) :=
  ⟨jr, (running 0x11 4), { key1 with alg := 4 }, inputs40, (zeros 40), [], (zeros 12), (withJob (running 0x11 4)), by decide⟩

theorem test_wit_CipherJobs_8 : ∃ (r : JobRef) (j : Job) (k : Key) (d : Inputs) (ct : Bytes) (aad : Bytes) (o : Bytes)
    (s : State), Working s r 17 j ∧ j.key = some k ∧ j.passes = 2 ∧ cipherReads { j.desc with inLen := j.desc.inLen -
    16 } d 0 = some (ct, aad, o) :=
  ⟨jr, { running 0x11 0x04 with passes := 2, desc := { (running 0x11 0x04).desc with inLen := 56 } }, { key1 with alg := 0x04 }, inputs40, zeros 40, [], [],
    withJob { running 0x11 0x04 with passes := 2, desc := { (running 0x11 0x04).desc with inLen := 56 } }, by decide⟩

theorem test_wit_CipherJobs_9 : ∃ (r : JobRef) (j : Job) (k : Key) (d : Inputs) (ct : Bytes) (aad : Bytes) (iv :
    Bytes) (s : State), Working s r 19 j ∧ j.key = some k ∧ j.passes = 1 ∧ cipherReads j.desc d 12 = some (ct, aad,
    iv) :=
  ⟨jr, (running 0x13 4), { key1 with alg := 4 }, inputs40, (zeros 40), [], (zeros 12), (withJob (running 0x13 4)), by decide⟩

theorem test_wit_CipherJobs_10 : ∃ (r : JobRef) (j : Job) (k : Key) (d : Inputs) (ct : Bytes) (aad : Bytes) (o :
    Bytes) (s : State), Working s r 19 j ∧ j.key = some k ∧ j.passes = 2 ∧ cipherReads { j.desc with inLen :=
    j.desc.inLen - 16 } d 0 = some (ct, aad, o) :=
  ⟨jr, { running 0x13 0x06 with passes := 2, desc := { (running 0x13 0x06).desc with inLen := 56 } }, { key1 with alg := 0x06 }, inputs40, zeros 40, [], [],
    withJob { running 0x13 0x06 with passes := 2, desc := { (running 0x13 0x06).desc with inLen := 56 } }, by decide⟩

theorem test_wit_CipherJobs_11 : ∃ (r : JobRef) (j : Job) (k : Key) (d : Inputs) (m : Bytes) (a : Bytes) (o : Bytes)
    (s : State), Working s r 23 j ∧ j.key = some k ∧ cipherReads j.desc d 0 = some (m, a, o) :=
  ⟨jr, (running 0x17 4), { key1 with alg := 4 }, inputs40, (zeros 40), [], [], (withJob (running 0x17 4)), by decide⟩

theorem test_wit_CipherJobs_12 : ∃ (r : JobRef) (j : Job) (d : Inputs) (m : Bytes) (a : Bytes) (tag : Bytes) (s :
    State), Working s r 21 j ∧ cipherReads j.desc d (macLen j.desc.al (j.desc.fl 8 8)) = some (m, a, tag) :=
  ⟨jr, (running 0x15 8), inputs40, (zeros 40), [], (zeros 16), (withJob (running 0x15 8)), by decide⟩

theorem test_wit_EngineOutcomes_1 : ∃ (r : JobRef) (j : Job) (k : Key) (d : Inputs) (ctx : Bytes) (label : Bytes) (o :
    Bytes) (pos : Nat) (e : CacheEntry) (s : State), Working s r 38 j ∧ j.key = some k ∧ j.newPos = some pos ∧
    s.entryAt r.plate ((ringSlice j.ring).getD 0) pos = some e ∧ cipherReads j.desc d 0 = some (ctx, label, o) :=
  ⟨jr, deriveJob, { key1 with alg := 0x0C }, inputs40, (zeros 40), [], [], 4, newEntry, (withNew deriveJob), by decide⟩

theorem test_wit_EngineOutcomes_2 : ∃ (r : JobRef) (j : Job) (k : Key) (w : Key) (s : State), Working s r 54 j ∧ j.key
    = some k ∧ j.key2 = some w :=
  ⟨jr, { running 0x36 4 with key2 := some key1 }, { key1 with alg := 4 }, key1, (withJob { running 0x36 4 with key2 := some key1 }), by decide⟩

theorem test_wit_EngineOutcomes_3 : ∃ (r : JobRef) (j : Job) (x : Result) (s : State), s.jobAt r = some j ∧ j.stage =
    Stage.started ∧ (j.cls = EngClass.cipher ∨ j.cls = EngClass.random) ∧ j.result = some x ∧ j.engineEnds x = true ∧
    j.newPos = none :=
  ⟨jr, doneJob, { outLen := 32, writes := [(64, zeros 32)] }, (withJob doneJob), by decide⟩

theorem test_wit_EngineOutcomes_4 : ∃ (r : JobRef) (j : Job) (x : Result) (pos : Nat) (e : CacheEntry) (s : State),
    s.jobAt r = some j ∧ j.stage = Stage.started ∧ j.cls = EngClass.cipher ∧ j.result = some x ∧ x.status = Status.ok
    ∧ j.engineEnds x = true ∧ j.newPos = some pos ∧ s.entryAt r.plate ((ringSlice j.ring).getD 0) pos = some e ∧
    CanIssue s r.plate e.key :=
  ⟨jr, { deriveJob with result := some {} }, {}, 4, newEntry, (withNew { deriveJob with result := some {} }), by decide⟩

theorem test_wit_EngineOutcomes_5 : ∃ (r : JobRef) (j : Job) (x : Result) (pos : Nat) (e : CacheEntry) (s : State),
    s.jobAt r = some j ∧ j.stage = Stage.started ∧ j.cls = EngClass.cipher ∧ j.result = some x ∧ x.status = Status.ok
    ∧ j.engineEnds x = true ∧ j.newPos = some pos ∧ s.entryAt r.plate ((ringSlice j.ring).getD 0) pos = some e ∧
    ¬CanIssue s r.plate e.key ∧ (s.pl r.plate).nvm.state = 3 :=
  ⟨jr, { deriveJob with result := some {} }, {}, 4, { newEntry with key := sealKey },
    ((withJob { deriveJob with result := some {} }).updVlt .a fun v => { v with epochUp := false, cache := [{ newEntry with key := sealKey }] }).updNvm .a fun n => { n with state := 3 }, by decide⟩

theorem test_wit_EngineOutcomes_6 : ∃ (r : JobRef) (j : Job) (x : Result) (pos : Nat) (e : CacheEntry) (s : State),
    s.jobAt r = some j ∧ j.stage = Stage.started ∧ j.cls = EngClass.cipher ∧ j.result = some x ∧ x.status = Status.ok
    ∧ j.engineEnds x = true ∧ j.newPos = some pos ∧ s.entryAt r.plate ((ringSlice j.ring).getD 0) pos = some e ∧
    AwaitsEpoch s r.plate e.key :=
  ⟨jr, { deriveJob with result := some {} }, {}, 4, { newEntry with key := sealKey },
    (withJob { deriveJob with result := some {} }).updVlt .a fun v => { v with epochUp := false, cache := [{ newEntry with key := sealKey }] }, by decide⟩

theorem test_wit_EngineOutcomes_7 : ∃ (r : JobRef) (j : Job) (x : Result) (s : State), s.jobAt r = some j ∧ j.stage =
    Stage.started ∧ twoPass j.desc = true ∧ j.passes = 1 ∧ j.result = some x ∧ x.status = Status.ok :=
  ⟨jr, (firstPass .ok), {}, (withJob (firstPass .ok)), by decide⟩

theorem test_wit_EngineOutcomes_8 : ∃ (r : JobRef) (j : Job) (x : Result) (s : State), s.jobAt r = some j ∧ j.stage =
    Stage.started ∧ twoPass j.desc = true ∧ j.passes = 1 ∧ j.result = some x ∧ x.status ≠ Status.ok :=
  ⟨jr, (firstPass .authFail), { status := .authFail }, (withJob (firstPass .authFail)), by decide⟩

theorem test_wit_LaneOperations_1 : ∃ (r : JobRef) (j : Job) (k : Key) (s : State), LaneWorking s r 32 j ∧ j.key =
    some k ∧ (j.desc.fl 13 1 = 1 ∨ s.canDraw r.plate j.drbg 1 = true) :=
  ⟨jr, onLane 0x20 0x40, { key1 with alg := 0x40 }, withJob (onLane 0x20 0x40), by decide⟩

theorem test_wit_LaneOperations_2 : ∃ (r : JobRef) (j : Job) (s : State), s.jobAt r = some j ∧ j.stage = Stage.started
    ∧ j.cls = EngClass.lane ∧ j.unit.isSome = true ∧ j.desc.op = 32 ∧ j.result.isSome = true ∧ j.rawA < j.attempts :=
  ⟨jr, { onLane 0x20 0x58 with result := some {}, attempts := 3 }, withJob { onLane 0x20 0x58 with result := some {}, attempts := 3 }, by decide⟩

theorem test_wit_LaneOperations_3 : ∃ (r : JobRef) (j : Job) (k : Key) (s : State), LaneWorking s r 33 j ∧ j.key =
    some k :=
  ⟨jr, (onLane 0x21 0x40), { key1 with alg := 0x40 }, (withJob (onLane 0x21 0x40)), by decide⟩

theorem test_wit_LaneOperations_4 : ∃ (r : JobRef) (j : Job) (s : State), LaneWorking s r 33 j ∧ j.key = none :=
  ⟨jr, { onLane 0x21 0x40 with key := none }, (withJob { onLane 0x21 0x40 with key := none }), by decide⟩

theorem test_wit_LaneOperations_5 : ∃ (r : JobRef) (j : Job) (k : Key) (s : State), LaneWorking s r 34 j ∧ j.key =
    some k :=
  ⟨jr, (onLane 0x22 0x50), { key1 with alg := 0x50 }, (withJob (onLane 0x22 0x50)), by decide⟩

theorem test_wit_LaneOperations_6 : ∃ (r : JobRef) (j : Job) (s : State), LaneWorking s r 35 j ∧ s.canDraw r.plate
    j.drbg 1 = true :=
  ⟨jr, onLane 0x23 0x50, withJob (onLane 0x23 0x50), by decide⟩

theorem test_wit_LaneOperations_7 : ∃ (r : JobRef) (j : Job) (k : Key) (s : State), LaneWorking s r 36 j ∧ j.key =
    some k :=
  ⟨jr, (onLane 0x24 0x44), { key1 with alg := 0x44 }, (withJob (onLane 0x24 0x44)), by decide⟩

theorem test_wit_LaneOperations_8 : ∃ (r : JobRef) (j : Job) (k : Key) (s : State), LaneWorking s r 37 j ∧ j.key =
    some k :=
  ⟨jr, (onLane 0x25 0x48), { key1 with alg := 0x48 }, (withJob (onLane 0x25 0x48)), by decide⟩

theorem test_wit_StatementsAreSigned_1 : ∃ (r : JobRef) (j : Job) (s : State), LaneWorking s r 80 j ∧ s.canDraw
    r.plate j.drbg 2 = true :=
  ⟨jr, (onLane 0x50 0), (withJob (onLane 0x50 0)), by decide⟩

theorem test_wit_StatementsAreSigned_2 : ∃ (r : JobRef) (j : Job) (k : Key) (s : State), LaneWorking s r 52 j ∧ j.key
    = some k ∧ s.canDraw r.plate j.drbg 2 = true :=
  ⟨jr, (onLane 0x34 0x40), { key1 with alg := 0x40 }, (withJob (onLane 0x34 0x40)), by decide⟩

theorem test_wit_JustifiedTime_1 : ∃ (r : JobRef) (j : Job) (s : State), s.jobAt r = some j ∧ j.stage = Stage.started
    ∧ j.cls = EngClass.lane ∧ j.unit.isSome = true ∧ j.critical = false ∧ (j.result.isSome = true ∧ j.rawA =
    j.attempts ∨ j.forced.isSome = true) :=
  ⟨jr, { onLane 0x20 0x40 with result := some {}, rawA := 1 }, withJob { onLane 0x20 0x40 with result := some {}, rawA := 1 }, by decide⟩

theorem test_wit_JustifiedTime_2 : ∃ (r : JobRef) (j : Job) (s : State), s.jobAt r = some j ∧ (j.stage = Stage.started
    ∨ j.stage = Stage.parked) ∧ j.waitingMsg = true :=
  ⟨jr, msgJob, (withJob msgJob), by decide⟩

theorem test_wit_JustifiedTime_3 : ∃ (r : JobRef) (j : Job) (s : State), s.jobAt r = some j ∧ j.stage = Stage.started
    ∧ j.cls = EngClass.lane ∧ j.critical = false ∧ j.forced = none ∧ j.waitingMsg = false ∧ j.bound ≤ s.accrued j ∧
    j.boundary ≤ j.rawA ∧ j.boundary < j.attempts :=
  ⟨jr, { onLane 0x20 0x58 with result := some {}, rawA := 1, attempts := 3 }, withJob { onLane 0x20 0x58 with result := some {}, rawA := 1, attempts := 3 }, by decide⟩

theorem test_wit_JustifiedTime_4 : ∃ (r : JobRef) (j : Job) (s : State), s.jobAt r = some j ∧ j.stage = Stage.started
    ∧ j.cls = EngClass.lane ∧ j.critical = false ∧ j.forced = none ∧ j.waitingMsg = false ∧ j.bound ≤ s.accrued j ∧
    j.rawA < j.boundary :=
  ⟨jr, { onLane 0x20 0x58 with result := some {}, attempts := 3 }, (withJob { onLane 0x20 0x58 with result := some {}, attempts := 3 }), by decide⟩

theorem test_wit_JustifiedTime_5 : ∃ (r : JobRef) (j : Job) (s : State), s.jobAt r = some j ∧ s.accrued j < j.bound :=
  ⟨jr, { onLane 0x20 0x40 with resumedAt := some 1000000 }, (withJob { onLane 0x20 0x40 with resumedAt := some 1000000 }), by decide⟩

theorem test_wit_JustifiedTime_6 : ∃ (r : JobRef) (j : Job) (x : Result) (s : State), s.jobAt r = some j ∧ s.atTarget
    j = true ∧ j.forced = none ∧ j.result = some x ∧ j.rawDone = true ∧ j.desc.op ≠ 48 ∧ j.desc.op ≠ 49 ∧ j.newPos =
    none ∧ s.pa.sl.ops = [] ∧ s.pb.sl.ops = [] :=
  ⟨jr, { onLane 0x20 0x40 with rawDone := true, result := some { outLen := 64 } }, { outLen := 64 }, (withJob { onLane 0x20 0x40 with rawDone := true, result := some { outLen := 64 } }), by decide⟩

theorem test_wit_JustifiedTime_7 : ∃ (r : JobRef) (j : Job) (x : Result) (pos : Nat) (e : CacheEntry) (s : State),
    s.jobAt r = some j ∧ s.atTarget j = true ∧ j.forced = none ∧ j.result = some x ∧ j.rawDone = true ∧ x.status =
    Status.ok ∧ j.desc.op ≠ 48 ∧ j.desc.op ≠ 49 ∧ j.newPos = some pos ∧ s.entryAt r.plate ((ringSlice j.ring).getD 0)
    pos = some e ∧ CanIssue s r.plate e.key ∧ s.pa.sl.ops = [] ∧ s.pb.sl.ops = [] :=
  ⟨jr, sharedJob, { outLen := 0 }, 4, { newEntry with key := key1 },
    (withJob sharedJob).updVlt .a fun v => { v with cache := [{ newEntry with key := key1 }] }, by decide⟩

theorem test_wit_JustifiedTime_8 : ∃ (r : JobRef) (j : Job) (x : Result) (s : State), s.jobAt r = some j ∧ s.atTarget
    j = true ∧ j.forced = none ∧ j.result = some x ∧ j.rawDone = true ∧ x.status = Status.ok ∧ j.desc.op = 48 ∧
    s.pa.sl.ops = [] ∧ s.pb.sl.ops = [] :=
  ⟨jr, doneLane 0x30, { outLen := 64 }, withJob (doneLane 0x30), by decide⟩

theorem test_wit_JustifiedTime_9 : ∃ (r : JobRef) (j : Job) (st : Status) (s : State), s.jobAt r = some j ∧ s.atTarget
    j = true ∧ j.forced = some st ∧ s.pa.sl.ops = [] ∧ s.pb.sl.ops = [] :=
  ⟨jr, { onLane 0x20 0x40 with forced := some .dmaFault }, .dmaFault, (withJob { onLane 0x20 0x40 with forced := some .dmaFault }), by decide⟩

theorem test_wit_JustifiedTime_10 : ∃ (r : JobRef) (j : Job) (s : State), s.jobAt r = some j ∧ s.atTarget j = true ∧
    j.forced = none ∧ j.result = none ∧ s.pa.sl.ops = [] ∧ s.pb.sl.ops = [] :=
  ⟨jr, (onLane 0x20 0x40), (withJob (onLane 0x20 0x40)), by decide⟩

theorem test_wit_JustifiedTime_11 : ∃ (r : JobRef) (j : Job) (s : State), s.jobAt r = some j ∧ s.accrued j < j.target
    :=
  ⟨jr, { onLane 0x20 0x40 with resumedAt := some 1000000 }, (withJob { onLane 0x20 0x40 with resumedAt := some 1000000 }), by decide⟩

theorem test_wit_JustifiedTime_12 : ∃ (n : Nat), n ≤ 1024 :=
  ⟨0, by decide⟩

theorem test_wit_JustifiedTime_13 : ∃ (n : Nat), 1024 < n :=
  ⟨1025, by decide⟩

theorem test_wit_JustifiedTime_14 : ∃ (k : Nat), 39 ≤ k :=
  ⟨39, by decide⟩

theorem test_wit_VaultControllerAnswers_1 : ∃ (r : JobRef) (j : Job) (k : Key) (s : State), Accepted s r 53 j ∧ j.key
    = some k :=
  ⟨jr, { accepted 0x35 0 with key := some key1 }, key1, (withJob { accepted 0x35 0 with key := some key1 }), by decide⟩

theorem test_wit_VaultControllerAnswers_2 : ∃ (r : JobRef) (j : Job) (k : Key) (pos : Nat) (e : CacheEntry) (s :
    State), Accepted s r 51 j ∧ j.key = some k ∧ CanIssue s r.plate k ∧ j.newPos = some pos ∧ s.entryAt r.plate
    ((ringSlice j.ring).getD 0) pos = some e :=
  ⟨jr, loadJob, key1, 4, newEntry, (withNew loadJob), by decide⟩

theorem test_wit_VaultControllerAnswers_3 : ∃ (r : JobRef) (j : Job) (k : Key) (pos : Nat) (e : CacheEntry) (s :
    State), Accepted s r 51 j ∧ j.key = some k ∧ ¬CanIssue s r.plate k ∧ (s.pl r.plate).nvm.state = 3 ∧ j.newPos =
    some pos ∧ s.entryAt r.plate ((ringSlice j.ring).getD 0) pos = some e :=
  ⟨jr, { loadJob with key := some sealKey }, sealKey, 4, newEntry,
    ((withNew { loadJob with key := some sealKey }).updVlt .a fun v => { v with epochUp := false }).updNvm .a fun n => { n with state := 3 }, by decide⟩

theorem test_wit_VaultControllerAnswers_4 : ∃ (r : JobRef) (j : Job) (k : Key) (pos : Nat) (s : State), Accepted s r
    51 j ∧ j.key = some k ∧ AwaitsEpoch s r.plate k ∧ j.newPos = some pos :=
  ⟨jr, { loadJob with key := some sealKey }, sealKey, 4,
    (withNew { loadJob with key := some sealKey }).updVlt .a fun v => { v with epochUp := false }, by decide⟩

theorem test_wit_VaultControllerAnswers_5 : ∃ (r : JobRef) (j : Job) (x : Result) (s : State), s.jobAt r = some j ∧
    j.stage = Stage.accepted ∧ j.result = some x :=
  ⟨jr, { accepted 0x35 0 with result := some {} }, {}, (withJob { accepted 0x35 0 with result := some {} }), by decide⟩

theorem test_wit_KeysAreMade_1 : ∃ (r : JobRef) (j : Job) (s : State), LaneWorking s r 48 j ∧ s.canDraw r.plate j.drbg
    1 = true :=
  ⟨jr, genLane, (withJob genLane), by decide⟩

theorem test_wit_KeysAreMade_2 : ∃ (r : JobRef) (j : Job) (i : Nat) (n : Nat) (m : Nat) (s : State), Accepted s r 48 j
    ∧ r.ring = RingRef.tenant i m ∧ j.desc.toSlug = false ∧ parseKref j.desc.keyRef = Kref.slot n ∧ s.refuses r.plate
    false = none ∧ s.canDraw r.plate vaultInst 3 = true :=
  ⟨jr, genSym, 1, 0, 0, (withJob genSym), by decide⟩

theorem test_wit_KeysAreMade_3 : ∃ (r : JobRef) (j : Job) (i : Nat) (m : Nat) (e : Nat) (s : State), Accepted s r 48 j
    ∧ r.ring = RingRef.tenant i m ∧ j.desc.toSlug = true ∧ j.ledgerNew = some e ∧ s.refuses r.plate true = none ∧
    s.canDraw r.plate vaultInst 3 = true :=
  ⟨jr, genSlug, 1, 0, 5, withJob genSlug, by decide⟩

theorem test_wit_KeysAreMade_4 : ∃ (r : JobRef) (j : Job) (st : Status) (s : State), Accepted s r 48 j ∧ s.canDraw
    r.plate vaultInst 3 = true ∧ s.refuses r.plate j.desc.toSlug = some st :=
  ⟨jr, genSym, .vaultRo, ((withJob genSym).updNvm .a fun n => { n with state := 2 }), by decide⟩

theorem test_wit_KeysAreMade_5 : ∃ (r : JobRef) (j : Job) (s : State), Accepted s r 49 j ∧ (s.pl r.plate).mgt.sec ≠
    Live.running :=
  ⟨jr, importJob, ((withJob importJob).updMgt .a fun m => { m with sec := .stalled }), by decide⟩

theorem test_wit_KeysAreMade_6 : ∃ (r : JobRef) (j : Job) (s : State), Accepted s r 49 j ∧ (s.pl r.plate).mgt.sec =
    Live.running ∧ j.phase ≠ 8 :=
  ⟨jr, importJob, (withJob importJob), by decide⟩

theorem test_wit_KeysAreMade_7 : ∃ (r : JobRef) (j : Job) (s : State), Working s r 49 j ∧ j.cls = EngClass.lane :=
  ⟨jr, { onLane 0x31 0x40 with key := none }, withJob { onLane 0x31 0x40 with key := none }, by decide⟩

theorem test_wit_KeysAreMade_8 : ∃ (r : JobRef) (j : Job) (x : Result) (s : State), s.jobAt r = some j ∧ s.atTarget j
    = true ∧ j.forced = none ∧ j.result = some x ∧ j.rawDone = true ∧ j.desc.op = 49 ∧ s.pa.sl.ops = [] ∧ s.pb.sl.ops
    = [] :=
  ⟨jr, doneLane 0x31, { outLen := 64 }, withJob (doneLane 0x31), by decide⟩

theorem test_wit_KeysAreMade_9 : ∃ (r : JobRef) (j : Job) (i : Nat) (m : Nat) (s : State), Accepted s r 49 j ∧ r.ring
    = RingRef.tenant i m ∧ (s.pl r.plate).mgt.sec = Live.running ∧ j.phase = 8 ∧ s.refuses r.plate false = none ∧
    (s.recAhead r.plate i).imp < (parseUpdate j.inp).counter ∧ (parseUpdate j.inp).type = 2 :=
  ⟨jr, { importJob with phase := 8, inp := [1, 2, 0, 0, 0, 0, 0, 0, 1] }, 1, 0, withJob { importJob with phase := 8, inp := [1, 2, 0, 0, 0, 0, 0, 0, 1] }, by decide⟩

theorem test_wit_KeysAreMade_10 : ∃ (r : JobRef) (j : Job) (i : Nat) (m : Nat) (s : State), Accepted s r 49 j ∧ r.ring
    = RingRef.tenant i m ∧ (s.pl r.plate).mgt.sec = Live.running ∧ j.phase = 8 ∧ (parseUpdate j.inp).type = 2 ∧
    (parseUpdate j.inp).counter ≤ (s.recAhead r.plate i).imp :=
  ⟨jr, { importJob with phase := 8, inp := [1, 2] }, 1, 0, withJob { importJob with phase := 8, inp := [1, 2] }, by decide⟩

theorem test_wit_KeysAreMade_11 : ∃ (r : JobRef) (j : Job) (i : Nat) (m : Nat) (s : State), Accepted s r 49 j ∧ r.ring
    = RingRef.tenant i m ∧ (s.pl r.plate).mgt.sec = Live.running ∧ j.phase = 8 ∧ s.refuses r.plate false = none ∧
    s.canDraw r.plate vaultInst 2 = true ∧ (s.recAhead r.plate i).imp < (parseUpdate j.inp).counter ∧ (parseUpdate
    j.inp).type = 1 ∧ (parseUpdate j.inp).target = 0 ∧ hasLedger (parseUpdate j.inp).alg = false ∧ (parseUpdate
    j.inp).alg ≠ 74 ∧ (parseUpdate j.inp).slot < (s.quotaNow r.plate i).slots ∧ s.slotErasing r.plate i (parseUpdate
    j.inp).slot = false ∧ (s.slotAt r.plate i (parseUpdate j.inp).slot).tagOk = true ∧ ((s.slotAhead r.plate (slotKey
    i (parseUpdate j.inp).slot)).st = VState.free ∨ (s.slotAhead r.plate (slotKey i (parseUpdate j.inp).slot)).st =
    VState.active) ∧ (s.slotAhead r.plate (slotKey i (parseUpdate j.inp).slot)).alg ≠ 74 ∧ (s.slotAhead r.plate
    (slotKey i (parseUpdate j.inp).slot)).ledger = none ∧ ∀ k ∈ (s.pl r.plate).sl.jobs, generatesInto k i (parseUpdate
    j.inp).slot = false :=
  ⟨jr, { importJob with phase := 8, inp := slotMessage }, 1, 0, withJob { importJob with phase := 8, inp := slotMessage }, by decide⟩

theorem test_wit_KeysAreMade_12 : ∃ (r : JobRef) (j : Job) (i : Nat) (m : Nat) (e : Nat) (s : State), Accepted s r 49
    j ∧ r.ring = RingRef.tenant i m ∧ (s.pl r.plate).mgt.sec = Live.running ∧ j.phase = 8 ∧ s.refuses r.plate false =
    none ∧ s.takeLedger r.plate i = some e ∧ s.canDraw r.plate vaultInst 2 = true ∧ (s.recAhead r.plate i).imp <
    (parseUpdate j.inp).counter ∧ (parseUpdate j.inp).type = 1 ∧ (parseUpdate j.inp).target = 1 :=
  ⟨jr, { importJob with phase := 8, inp := slugMessage }, 1, 0, 0, withJob { importJob with phase := 8, inp := slugMessage }, by decide +kernel⟩

theorem test_wit_KeysAreErased_1 : ∃ (r : JobRef) (j : Job) (i : Nat) (n : Nat) (m : Nat) (s : State), Accepted s r 50
    j ∧ r.ring = RingRef.tenant i m ∧ parseKref j.desc.keyRef = Kref.slot n ∧ s.alreadyErasing r.plate j = false ∧
    s.refuses r.plate false = none ∧ ((s.pl r.plate).pr.mode ≠ Mode.paired ∨ s.gutterUp r.plate = true) ∧ (s.slotAhead
    r.plate (slotKey i n)).tagOk = true ∧ (s.slotAhead r.plate (slotKey i n)).st = VState.active :=
  ⟨jr, eraseJob, 1, 0, 0, (withSlot eraseJob .active), by decide⟩

theorem test_wit_KeysAreErased_2 : ∃ (r : JobRef) (j : Job) (i : Nat) (n : Nat) (m : Nat) (s : State), Accepted s r 50
    j ∧ r.ring = RingRef.tenant i m ∧ parseKref j.desc.keyRef = Kref.slot n ∧ (s.slotAhead r.plate (slotKey i
    n)).tagOk = true ∧ (s.slotAhead r.plate (slotKey i n)).st ≠ VState.active :=
  ⟨jr, eraseJob, 1, 0, 0, (withSlot eraseJob .erasing), by decide⟩

theorem test_wit_KeysAreErased_3 : ∃ (r : JobRef) (j : Job) (a : Nat) (k : Key) (e : Nat) (s : State), Accepted s r 50
    j ∧ parseKref j.desc.keyRef = Kref.slug a ∧ j.key = some k ∧ k.ledger = some e ∧ s.alreadyErasing r.plate j =
    false ∧ s.refuses r.plate true = none ∧ ((s.pl r.plate).pr.mode ≠ Mode.paired ∨ s.gutterUp r.plate = true) ∧
    (s.ledgerAhead r.plate e).st = VState.active ∧ (s.ledgerAhead r.plate e).gen = k.gen :=
  ⟨jr, eraseSlug, 0x1000, slugKey7, 7,
    (withJob eraseSlug).updVlt .a fun v => { v with ledger := [(7, { st := .active, slug := true, slice := 1, gen := 1 })] }, by decide⟩

theorem test_wit_KeysAreErased_4 : ∃ (r : JobRef) (j : Job) (a : Nat) (k : Key) (e : Nat) (s : State), Accepted s r 50
    j ∧ parseKref j.desc.keyRef = Kref.slug a ∧ j.key = some k ∧ k.ledger = some e ∧ ((s.ledgerAhead r.plate e).st ≠
    VState.active ∨ (s.ledgerAhead r.plate e).gen ≠ k.gen) :=
  ⟨jr, eraseSlug, 0x1000, slugKey7, 7, withJob eraseSlug, by decide⟩

theorem test_wit_KeysAreErased_5 : ∃ (r : JobRef) (j : Job) (i : Nat) (n : Nat) (m : Nat) (s : State), Accepted s r 50
    j ∧ r.ring = RingRef.tenant i m ∧ parseKref j.desc.keyRef = Kref.slot n ∧ s.alreadyErasing r.plate j = false ∧
    (s.slotAhead r.plate (slotKey i n)).tagOk = true ∧ (s.slotAhead r.plate (slotKey i n)).st = VState.active ∧ (s.pl
    r.plate).pr.mode = Mode.paired ∧ s.gutterUp r.plate = false :=
  ⟨jr, eraseJob, 1, 0, 0, (withSlot eraseJob .active).updPr .a fun r => { r with links := 0 }, by decide⟩

theorem test_wit_KeysAreErased_6 : ∃ (r : JobRef) (j : Job) (h : DWord) (pos : Nat) (e : CacheEntry) (s : State),
    Accepted s r 50 j ∧ parseKref j.desc.keyRef = Kref.handle h ∧ j.entry = some pos ∧ s.entryAt r.plate ((ringSlice
    j.ring).getD 0) pos = some e ∧ e.ended = false ∧ e.handle = some h :=
  ⟨jr, eraseHandle, handle1, 4, handleEntry, (withHandle [eraseHandle] handleEntry), by decide⟩

theorem test_wit_KeysAreErased_7 : ∃ (r : JobRef) (j : Job) (h : DWord) (pos : Nat) (s : State), Accepted s r 50 j ∧
    parseKref j.desc.keyRef = Kref.handle h ∧ j.entry = some pos ∧ s.handleStands r.plate ((ringSlice j.ring).getD 0)
    pos j.desc.keyRef = false :=
  ⟨jr, eraseHandle, handle1, 4, withJob eraseHandle, by decide⟩

theorem test_wit_KeysAreErased_8 : ∃ (p : Plate) (i : Nat) (n : Nat) (j : Job) (x : Result) (s : State), List.filter
    (fun j => j.stage == Stage.draining && drainsItem j (ItemRef.slot i n)) (s.pl p).sl.jobs = [j] ∧ j.desc.op = 50 ∧
    j.result = some x ∧ s.job? p j.ring j.index = some j ∧ eraseItem j = some (ItemRef.slot i n) ∧ s.refcount p
    (ItemRef.slot i n) = 0 ∧ s.refuses p true = none :=
  ⟨.a, 1, 0, drainJob, { info := 1 }, (withSlot drainJob .erasing), by decide⟩

theorem test_wit_KeysAreErased_9 : ∃ (p : Plate) (e : Nat) (j : Job) (x : Result) (s : State), List.filter (fun j =>
    j.stage == Stage.draining && drainsItem j (ItemRef.ledger e)) (s.pl p).sl.jobs = [j] ∧ j.desc.op = 50 ∧ j.result =
    some x ∧ s.job? p j.ring j.index = some j ∧ eraseItem j = some (ItemRef.ledger e) ∧ s.refcount p (ItemRef.ledger
    e) = 0 ∧ s.refuses p true = none :=
  ⟨.a, 7, { eraseSlug with stage := .draining, result := some {} }, {}, withJob { eraseSlug with stage := .draining, result := some {} }, by decide⟩

theorem test_wit_KeysAreErased_10 : ∃ (p : Plate) (i : Nat) (n : Nat) (j : Job) (s : State), List.filter (fun j =>
    j.stage == Stage.draining && drainsItem j (ItemRef.slot i n)) (s.pl p).sl.jobs = [j] ∧ j.desc.op = 50 ∧ eraseItem
    j = some (ItemRef.slot i n) ∧ s.refcount p (ItemRef.slot i n) = 0 ∧ s.wear p = 3 :=
  ⟨.a, 1, 0, drainJob, (withJob drainJob).updNvm .a fun n => { n with state := 3 }, by decide⟩

theorem test_wit_KeysAreErased_11 : ∃ (p : Plate) (i : Nat) (n : Nat) (j : Job) (s : State), List.filter (fun j =>
    j.stage == Stage.draining && drainsItem j (ItemRef.slot i n)) (s.pl p).sl.jobs = [j] ∧ j.desc.op = 50 ∧ eraseItem
    j = some (ItemRef.slot i n) ∧ s.refcount p (ItemRef.slot i n) ≠ 0 :=
  ⟨.a, 1, 0, drainJob, (base.updSl .a fun x => { x with jobs := [drainJob, userJob] }), by decide⟩

theorem test_wit_KeysAreErased_12 : ∃ (p : Plate) (i : Nat) (n : Nat) (j : Job) (x : Result) (s : State), List.filter
    (fun j => j.stage == Stage.draining && drainsItem j (ItemRef.slot i n)) (s.pl p).sl.jobs = [j] ∧ j.desc.op ≠ 50 ∧
    j.result = some x ∧ s.job? p j.ring j.index = some j ∧ s.drained p j = true :=
  ⟨.a, 1, 0, rewriteDrains, {}, withJob rewriteDrains, by decide⟩

theorem test_wit_KeysAreErased_13 : ∃ (p : Plate) (i : Nat) (pos : Nat) (e : CacheEntry) (s : State), s.entryAt p i
    pos = some e ∧ e.ended = true ∧ s.refcount p (ItemRef.handle i pos) = 0 ∧ ∀ j ∈ (s.pl p).sl.jobs, j.stage ≠
    Stage.draining :=
  ⟨.a, 1, 4, { handleEntry with ended := true }, (withHandle [] { handleEntry with ended := true }), by decide⟩

theorem test_wit_RandomJobs_1 : ∃ (r : JobRef) (j : Job) (i : Nat) (n : Nat) (d : Inputs) (o : Bytes) (s : State),
    Working s r 64 j ∧ r.ring = RingRef.tenant i n ∧ j.desc.fl 8 1 = 0 ∧ s.gives r.plate = true ∧ s.due r.plate i =
    false ∧ takeRead d.aad (j.desc.aadLen != 0) (BitVec.toNat j.desc.aadLen) = some o :=
  ⟨jr, (rnd false), 1, 0, noInputs, [], (withInst (withJob (rnd false)) 1 seeded), by decide⟩

theorem test_wit_RandomJobs_2 : ∃ (r : JobRef) (j : Job) (i : Nat) (n : Nat) (d : Inputs) (o : Bytes) (b : Bytes) (l :
    List Bytes) (s : State), Working s r 64 j ∧ r.ring = RingRef.tenant i n ∧ j.desc.fl 8 1 = 1 ∧ s.gives r.plate =
    true ∧ (s.inst r.plate i).made = true ∧ (s.pl r.plate).rng.pool = b :: l ∧ (s.dueCount r.plate - if s.due r.plate
    i = true then 1 else 0) ≤ l.length ∧ takeRead d.aad (j.desc.aadLen != 0) (BitVec.toNat j.desc.aadLen) = some o :=
  ⟨jr, rnd true, 1, 0, noInputs, [], zeros 32, List.replicate 7 (zeros 32), withInst (withJob (rnd true)) 1 seeded, by decide +kernel⟩

theorem test_wit_RandomJobs_3 : ∃ (r : JobRef) (j : Job) (i : Nat) (n : Nat) (d : Inputs) (s : State), Working s r 64
    j ∧ r.ring = RingRef.tenant i n ∧ s.gives r.plate = true ∧ s.randomWaits r.plate i (j.desc.fl 8 1 == 1) = false ∧
    takeRead d.aad (j.desc.aadLen != 0) (BitVec.toNat j.desc.aadLen) = none :=
  ⟨jr, { rnd false with desc := { (rnd false).desc with aadLen := 4 } }, 1, 0, { noInputs with aad := .fault },
    withInst (withJob { rnd false with desc := { (rnd false).desc with aadLen := 4 } }) 1 seeded, by decide +kernel⟩

theorem test_wit_RandomJobs_4 : ∃ (r : JobRef) (j : Job) (s : State), Working s r 64 j ∧ (s.gives r.plate = false ∨
    (j.desc.fl 8 1 = 1 ∧ (s.inst r.plate ((ringSlice j.ring).getD 0)).made = true ∧ (s.pl r.plate).rng.pool.length ≤
    s.dueCount r.plate - if s.due r.plate ((ringSlice j.ring).getD 0) = true then 1 else 0) ∨ (j.desc.fl 8 1 = 0 ∨
    (s.inst r.plate ((ringSlice j.ring).getD 0)).made = false) ∧ s.due r.plate ((ringSlice j.ring).getD 0) = true) :=
  ⟨jr, rnd true, (withJob (rnd true)).updRng .a fun x => { x with pool := [] }, by decide⟩

theorem test_wit_RandomJobs_5 : ∃ (p : Plate) (n : Nat) (s : State), s.up p = true ∧ (n = 32 ∨ n = 64) ∧ (s.pl
    p).rng.st ≠ RngSt.halted :=
  ⟨.a, 32, base, by decide⟩

theorem test_wit_RandomJobs_6 : ∃ (p : Plate) (n : Nat) (s : State), s.up p = true ∧ (n = 32 ∨ n = 64) ∧ (s.pl
    p).rng.st = RngSt.halted :=
  ⟨.a, 64, halted, by decide⟩

theorem test_wit_RandomJobs_7 : ∃ (p : Plate) (w : World) (n : Nat) (rest : List (World × Nat)) (s : State), takeStall
    w (s.pl p).rng.stalls = some (n, rest) ∧ s.canDraw p (worldInst w) 1 = true :=
  ⟨.a, .secure, 32, [], base.updRng .a fun x => { x with stalls := [(.secure, 32)] }, by decide⟩

theorem test_wit_RandomJobs_8 : ∃ (p : Plate) (w : World) (s : State), takeStall w (s.pl p).rng.stalls = none ∨
    s.canDraw p (worldInst w) 1 = false :=
  ⟨.a, .secure, base, by decide⟩

theorem test_wit_EntropyHealth_1 : ∃ (p : Plate) (raw : List (BitVec 256)) (h : Tab Cell) (apt : Nat) (rct : Nat) (s :
    State), s.gives p = true ∧ s.up p = true ∧ testAll (s.pl p).rng.health (s.pl p).rng.aptMax (s.pl p).rng.rctMax 0
    (List.take 8 raw) = (h, none, apt, rct) :=
  ⟨.a, alternating, (testAll [] 0 0 0 alternating).1, (testAll [] 0 0 0 alternating).2.2.1, (testAll [] 0 0 0 alternating).2.2.2, base, by decide +kernel⟩

theorem test_wit_EntropyHealth_2 : ∃ (p : Plate) (raw : List (BitVec 256)) (h : Tab Cell) (apt : Nat) (rct : Nat)
    (cell : Nat) (cause : Nat) (s : State), s.gives p = true ∧ s.up p = true ∧ testAll (s.pl p).rng.health (s.pl
    p).rng.aptMax (s.pl p).rng.rctMax 0 (List.take 8 raw) = (h, some (cell, cause), apt, rct) :=
  ⟨.a, [0], (testAll [] 0 0 0 [0]).1, (testAll [] 0 0 0 [0]).2.2.1, (testAll [] 0 0 0 [0]).2.2.2, 0, 3, base, by decide +kernel⟩

theorem test_wit_EntropyHealth_3 : ∃ (p : Plate) (cell : Nat) (cause : Nat) (s : State), s.up p = true ∧ cell < 8 ∧ 1
    ≤ cause ∧ cause ≤ 5 ∧ (s.pl p).rng.st ≠ RngSt.halted :=
  ⟨.a, 7, 4, base, by decide⟩

theorem test_wit_EntropyHealth_4 : ∃ (p : Plate) (k : Nat) (b : Bytes) (l : List Bytes) (s : State), s.gives p = true
    ∧ (s.inst p k).live = true ∧ s.due p k = true ∧ (s.inst p k).made = true ∧ (s.pl p).rng.pool = b :: l :=
  ⟨.a, 1, zeros 32, List.replicate 7 (zeros 32), withInst base 1 { seeded with must := true }, by decide +kernel⟩

theorem test_wit_EntropyHealth_5 : ∃ (p : Plate) (k : Nat) (b : Bytes) (c : Bytes) (l : List Bytes) (s : State),
    s.gives p = true ∧ (s.inst p k).live = true ∧ (s.inst p k).made = false ∧ (s.pl p).rng.pool = b :: c :: l :=
  ⟨.a, 1, zeros 32, zeros 32, List.replicate 6 (zeros 32), withInst base 1 { live := true }, by decide +kernel⟩

theorem test_wit_EntropyHealth_6 : ∃ (p : Plate) (k : Nat) (s : State), s.due p k = false :=
  ⟨.a, 1, (withInst base 1 seeded), by decide⟩

theorem test_wit_HealthTestCutoffs_1 : ∃ (c : Cell) (b : Bool), c.run ≠ 0 ∧ c.last = b :=
  ⟨{ run := 3, last := true }, true, by decide⟩

theorem test_wit_HealthTestCutoffs_2 : ∃ (c : Cell) (b : Bool), c.last ≠ b :=
  ⟨{ run := 3, last := true }, false, by decide⟩

theorem test_wit_HealthTestCutoffs_3 : ∃ (c : Cell) (l : List Bool) (k : Nat), c.run < 61 ∧ c.seen < 812 ∧ (c.feedAll
    l none 0 0).2.1 = none ∧ k ≤ l.length :=
  ⟨{}, [], 0, by decide⟩

theorem test_wit_SliceCommands_1 : ∃ (r : JobRef) (j : Job) (s : State), Taken s r 128 j ∧ s.impoBusy = false ∧
    s.drawWaits r.plate vaultInst 1 = false :=
  ⟨ar, admJob (adm 0x80), withAdm (adm 0x80), by decide⟩

theorem test_wit_SliceCommands_2 : ∃ (r : JobRef) (j : Job) (b : Bytes) (s : State), Taken s r 129 j ∧ (s.inPartition
    r.plate = true ∨ s.sliceWaits r.plate (Dma.ok b) = false) ∧ (∀ e ∈ (s.pl r.plate).sl.ops, Option.map SliceOp.index
    e.2 ≠ some r.index) ∧ ∀ (x : Plate), s.linesUsed x (recSlice (fit 64 b)) ≤ (recQuota (fit 64 b)).lines ∧
    s.linesUsed x (recSlice (fit 64 b)) ≤ (s.impo x (recSlice (fit 64 b))).quota.lines :=
  ⟨ar, admJob (adm 0x81), resizeRec, withAdm (adm 0x81), by decide, by decide, by decide, fun x => by cases x <;> decide⟩

theorem test_wit_SliceCommands_3 : ∃ (r : JobRef) (j : Job) (b : Bytes) (s : State), Taken s r 130 j ∧ (s.inPartition
    r.plate = true ∨ s.sliceWaits r.plate (Dma.ok b) = false) ∧ ∀ e ∈ (s.pl r.plate).sl.ops, Option.map SliceOp.index
    e.2 ≠ some r.index :=
  ⟨ar, admJob (adm 0x82), destroyRec, withAdm (adm 0x82), by decide⟩

theorem test_wit_QuorumSessions_1 : ∃ (r : JobRef) (j : Job) (b : Bytes) (input : Dma) (ib : Bytes) (s : State), Taken
    s r 132 j ∧ 96 ≤ BitVec.toNat j.desc.outCap ∧ (classA (decodeDesc (fit 64 b)).op = true ∨ classB (decodeDesc (fit
    64 b)).op = true) ∧ checks13 RingRef.admin 0 (decodeDesc (fit 64 b)) = none ∧ s.canDraw r.plate vaultInst 1 = true
    ∧ (s.liveSessions r.plate).length < 16 ∧ (if (decodeDesc (fit 64 b)).inLen = 0 then Dma.ok [] else input) = Dma.ok
    ib :=
  ⟨ar, admJob (adm 0x84), (encodeDesc { opcode := 0x82, inLen := 64, param := 1 }), .ok destroyRec, destroyRec, withAdm (adm 0x84), by decide⟩

theorem test_wit_QuorumSessions_2 : ∃ (r : JobRef) (j : Job) (b : Bytes) (x : Session) (s : State), Taken s r 133 j ∧
    allZero (cut (fit 104 b) 5 3) = true ∧ leAt (fit 104 b) 4 1 ≤ 7 ∧ s.session r.plate (BitVec.ofNat 32 (leAt (fit
    104 b) 0 4)) = some x ∧ ∀ a ∈ x.approvals, a.cust ≠ leAt (fit 104 b) 4 1 :=
  ⟨ar, admJob (adm 0x85), approval, plain, withPlain (withAdm (adm 0x85)), by decide⟩

theorem test_wit_QuorumSessions_3 : ∃ (p : Plate) (n : Word) (x : Session) (s : State), List.find? (fun x => x.number
    == n) (s.pl p).cus.sessions = some x ∧ x.expiry ≤ s.optime p :=
  ⟨.a, 1, plain, { withPlain base with clock := 10000000000 }, by decide⟩

theorem test_wit_QuorumSessions_4 : ∃ (p : Plate) (n : Word) (x : Session) (s : State), List.find? (fun x => x.number
    == n) (s.pl p).cus.sessions = some x ∧ s.optime p < x.expiry :=
  ⟨.a, 1, plain, withPlain base, by decide⟩

theorem test_wit_QuorumSessions_5 : ∃ (p : Plate) (a : LocalTry) (s : State), (s.pl p).cus.attempt = some a ∧ s.past
    a.lastKey 60000000 = true :=
  ⟨.a, {}, later (base.updCus .a fun c => { c with attempt := some {} }), by decide⟩

theorem test_wit_SessionIsUsedOnce : ∃ (s : State) (u : State) (p : Plate) (d : Desc) (input : Bytes), s.quorum p d
    input = some u :=
  ⟨withSession base (adm 0x82) [], (withSession base (adm 0x82) []).endSession .a 1, .a, adm 0x82, [], quorum_open⟩

theorem test_wit_CustodyChanges_1 : ∃ (r : JobRef) (j : Job) (s : State), Taken s r 134 j ∧ j.desc.fl 2 2 = 0 ∧ (s.pl
    r.plate).cus.attempt = none ∧ s.up r.plate = true ∧ s.lifecycle r.plate ≠ 51 :=
  ⟨ar, admJob (adm 0x86), withAdm (adm 0x86), by decide⟩

theorem test_wit_CustodyChanges_2 : ∃ (p : Plate) (f : Frame) (l : List Frame) (a : LocalTry) (e : EnrolTry) (j : Job)
    (s : State), Heads s End.plate p f l ∧ f.type = 19 ∧ (s.pl p).cus.attempt = some a ∧ a.reader = BitVec.toNat f.res
    ∧ a.step = CardStep.sign ∧ a.enrol = some e ∧ s.job? p RingRef.admin e.index = some j ∧ f.at_ 0 % 2 = 1 ∧
    List.length (a.segs ++ List.drop 1 f.payload) = 98 ∧ cut (a.segs ++ List.drop 1 f.payload) 96 2 = [144, 0] :=
  ⟨.a, signed, [], signing, { index := 3 }, admJob (adm 0x88), enrolSigns, by decide +kernel⟩

theorem test_wit_CustodyChanges_3 : ∃ (r : JobRef) (j : Job) (s : State), Taken s r 134 j ∧ j.desc.fl 2 2 = 1 ∧
    s.lifecycle r.plate ≠ 51 :=
  ⟨ar, admJob (admFl 0x86 4), withAdm (admFl 0x86 4), by decide⟩

theorem test_wit_CustodyChanges_4 : ∃ (r : JobRef) (j : Job) (s : State), Taken s r 138 j ∧ s.lifecycle r.plate ≠ 51
    :=
  ⟨ar, admJob (adm 0x8A), withAdm (adm 0x8A), by decide⟩

theorem test_wit_CustodyChanges_5 : ∃ (r : JobRef) (j : Job) (s : State), Taken s r 138 j ∧ s.lifecycle r.plate = 51 ∧
    (s.pl r.plate).cus.button = none :=
  ⟨ar, admJob (adm 0x8A), inState (withAdm (adm 0x8A)) 0x33, by decide⟩

theorem test_wit_CustodyChanges_6 : ∃ (r : JobRef) (j : Job) (s : State), Taken s r 134 j ∧ j.desc.fl 2 2 = 0 ∧
    s.lifecycle r.plate = 51 ∧ (s.pl r.plate).cus.button = none ∧ (s.pl r.plate).cus.attempt = none ∧ s.canDraw
    r.plate vaultInst 1 = true ∧ ((s.custody r.plate).table.get { } (custodianIndex j.desc)).active = false ∧
    s.reachesCard r.plate (j.desc.fl 8 1) = true ∧ s.up r.plate = true :=
  ⟨ar, admJob (adm 0x86), (inState (withAdm (adm 0x86)) 0x33).updMrg .a fun m => { m with fieldUp := true, own := 15 }, by decide⟩

theorem test_wit_CustodyChanges_7 : ∃ (r : JobRef) (j : Job) (s : State), Taken s r 134 j ∧ j.desc.fl 2 2 = 1 ∧
    s.lifecycle r.plate = 51 ∧ (s.pl r.plate).cus.button = none :=
  ⟨ar, admJob (admFl 0x86 4), inState (withAdm (admFl 0x86 4)) 0x33, by decide⟩

theorem test_wit_CustodyChanges_8 : ∃ (p : Plate) (w : ButtonWait) (j : Job) (s : State), (s.pl p).cus.button = some w
    ∧ s.past w.since 60000000 = true ∧ s.job? p RingRef.admin w.index = some j :=
  ⟨.a, lateWait, admJob (adm 0x8A), later (waitsButton lateWait), by decide⟩

theorem test_wit_CustodyChanges_9 : ∃ (r : JobRef) (j : Job) (s : State), Taken s r 131 j :=
  ⟨ar, admJob (adm 0x83), withAdm (adm 0x83), by decide⟩

theorem test_wit_LifecycleCommands_1 : ∃ (r : JobRef) (j : Job) (s : State), Taken s r 135 j ∧ (s.pl
    r.plate).cus.button = none ∧ (s.lifecycleDraws r.plate j = true → s.canDeal r.plate = true) ∧ transition
    (BitVec.toNat (s.lifecycle r.plate)) (j.desc.fl 8 8) = none :=
  ⟨ar, admJob (admFl 0x87 0x0F00), withAdm (admFl 0x87 0x0F00), by decide⟩

theorem test_wit_LifecycleCommands_2 : ∃ (r : JobRef) (j : Job) (s : State), Taken s r 135 j ∧ (s.pl
    r.plate).cus.button = none ∧ s.canDeal r.plate = true ∧ s.lifecycle r.plate = 0 ∧ j.desc.fl 8 8 = 15 ∧
    j.desc.inLen = 0 ∧ noParam j.desc = true :=
  ⟨ar, admJob (setTo 0x0F 0 0), blank (withAdm (setTo 0x0F 0 0)), by decide⟩

theorem test_wit_LifecycleCommands_3 : ∃ (r : JobRef) (j : Job) (s : State), Taken s r 135 j ∧ (s.pl
    r.plate).cus.button = none ∧ s.lifecycle r.plate = 15 ∧ j.desc.fl 8 8 = 15 ∧ noParam j.desc = true ∧ noOut j.desc
    = true :=
  ⟨ar, admJob (setTo 0x0F 0 0), inState (withAdm (setTo 0x0F 0 0)) 0x0F, by decide⟩

theorem test_wit_LifecycleCommands_4 : ∃ (r : JobRef) (j : Job) (s : State), Taken s r 135 j ∧ (s.pl
    r.plate).cus.button = none ∧ s.lifecycle r.plate = 15 ∧ j.desc.fl 8 8 = 51 ∧ j.desc.inLen = 0 ∧ noParam j.desc =
    true ∧ noOut j.desc = true :=
  ⟨ar, admJob (setTo 0x33 0 0), inState (withAdm (setTo 0x33 0 0)) 0x0F, by decide⟩

theorem test_wit_LifecycleCommands_5 : ∃ (r : JobRef) (j : Job) (s : State), Taken s r 135 j ∧ (s.pl
    r.plate).cus.button = none ∧ s.canDeal r.plate = true ∧ s.lifecycle r.plate = 51 ∧ j.desc.fl 8 8 = 60 ∧
    j.desc.inLen = 0 ∧ noOut j.desc = true :=
  ⟨ar, admJob (setTo 0x3C 0 1), inState (withAdm (setTo 0x3C 0 1)) 0x33, by decide⟩

theorem test_wit_LifecycleCommands_6 : ∃ (r : JobRef) (j : Job) (s : State), Taken s r 135 j ∧ (s.pl
    r.plate).cus.button = none ∧ s.canDeal r.plate = true ∧ s.lifecycle r.plate = 51 ∧ j.desc.fl 8 8 = 90 ∧
    BitVec.toNat j.desc.inLen = 3509 ∧ noParam j.desc = true ∧ noOut j.desc = true :=
  ⟨ar, admJob (setTo 0x5A 3509 0), inState (withAdm (setTo 0x5A 3509 0)) 0x33, by decide⟩

theorem test_wit_LifecycleCommands_7 : ∃ (p : Plate) (f : Frame) (l : List Frame) (w : ButtonWait) (j : Job) (s :
    State), Heads s End.plate p f l ∧ f.type = 49 ∧ f.at_ 1 = 1 ∧ f.at_ 0 = 1 ∧ (s.pl p).cus.attempt = none ∧ (s.pl
    p).cus.button = some w ∧ s.job? p RingRef.admin w.index = some j ∧ s.canDeal p = true ∧ s.up p = true ∧ (j.desc.fl
    8 8 = 90 ∨ j.desc.op ≠ 135) ∧ (j.desc.op = 138 ∨ j.desc.op = 135 ∨ j.desc.op = 134) :=
  ⟨.a, fr 0x31 3 [1, 1], [], lateWait, admJob (adm 0x8A), atPlate (fr 0x31 3 [1, 1]) (waitsButton lateWait), by decide⟩

theorem test_wit_LifecycleCommands_8 : ∃ (r : JobRef) (j : Job) (s : State), Taken s r 143 j ∧ s.lifecycle r.plate ≠
    60 ∧ s.lifecycle r.plate ≠ 90 :=
  ⟨ar, admJob (adm 0x8F), inState (withAdm (adm 0x8F)) 0x33, by decide⟩

theorem test_wit_LifecycleCommands_9 : ∃ (r : JobRef) (j : Job) (s : State), Taken s r 143 j ∧ (s.lifecycle r.plate =
    60 ∨ s.lifecycle r.plate = 90) ∧ (s.pl r.plate).tmp.ko = false ∧ s.up r.plate = true :=
  ⟨ar, admJob (adm 0x8F), withAdm (adm 0x8F), by decide⟩

theorem test_wit_BripaLinks_1 : ∃ (e : End) (p : Plate) (bytes : Bytes) (idle : Bool) (f : Frame) (s : State), s.endUp
    e p = true ∧ parseFrame bytes idle = some f ∧ f.bare = false ∧ frameOk e f = true ∧ (e = End.margin →
    hardwareFrame f.type = true ∨ (s.pl p).mrg.fieldUp = true) :=
  ⟨.margin, .a, frameBytes (fr 0x05 0 []), true, fr 0x05 0 [], owned, by decide +kernel⟩

theorem test_wit_BripaLinks_2 : ∃ (e : End) (p : Plate) (bytes : Bytes) (idle : Bool) (f : Frame) (s : State), s.endUp
    e p = true ∧ parseFrame bytes idle = some f ∧ f.bare = false ∧ frameOk e f = false ∧ (e = End.margin → toMargin
    f.type = false ∨ hardwareFrame f.type = true ∨ (s.pl p).mrg.fieldUp = true) :=
  ⟨.margin, .a, frameBytes (fr 0x55 0 []), true, fr 0x55 0 [], owned, by decide +kernel⟩

theorem test_wit_BripaLinks_3 : ∃ (p : Plate) (bytes : Bytes) (idle : Bool) (s : State), s.up p = true ∧ parseFrame
    bytes idle = none :=
  ⟨.a, [1,2,3], true, owned, by decide⟩

theorem test_wit_BripaLinks_4 : ∃ (e : End) (p : Plate) (f : Frame) (l : List Frame) (s : State), takeFrame (fun f =>
    f.type == 3) (s.link e p).inbox = some (f, l) ∧ ((s.link e p).waiting = [] ∨ (s.link e p).resetting = true) :=
  ⟨.margin, .a, fr 0x03 0xFF [], [], (atMargin (fr 0x03 0xFF []) field).updLink .margin .a fun x => { x with resetting := true }, by decide⟩

theorem test_wit_BripaLinks_5 : ∃ (e : End) (p : Plate) (o : Outstanding) (l : List Outstanding) (s : State), (s.link
    e p).sent = o :: l ∧ s.endUp e p = true ∧ s.past o.sent 1000 = true ∧ o.tries < 3 :=
  ⟨.margin, .a, { frame := fr 0x05 0 [], tries := 1 }, [], outst .margin 1, by decide⟩

theorem test_wit_BripaLinks_6 : ∃ (p : Plate) (o : Outstanding) (l : List Outstanding) (s : State), (s.link End.plate
    p).sent = o :: l ∧ s.up p = true ∧ s.past o.sent 1000 = true ∧ 3 ≤ o.tries :=
  ⟨.a, { frame := fr 0x05 0 [], tries := 3 }, [], outst .plate 3, by decide⟩

theorem test_wit_BripaLinks_7 : ∃ (e : End) (p : Plate) (f : Frame) (l : List Frame) (s : State), takeFrame (fun f =>
    f.type == 4) (s.link e p).inbox = some (f, l) ∧ (s.link e p).resetting = true ∧ (s.link e p).waiting = [] :=
  ⟨.margin, .a, fr 0x04 0xFF [], [], (atMargin (fr 0x04 0xFF []) field).updLink .margin .a fun x => { x with resetting := true }, by decide⟩

theorem test_wit_BripaLinks_8 : ∃ (p : Plate) (f : Frame) (l : List Frame) (s : State), takeFrame (fun f => f.type ==
    4) (s.link End.plate p).inbox = some (f, l) ∧ (s.link End.plate p).resetting = false ∧ s.up p = true ∧ (s.link
    End.plate p).waiting = [] :=
  ⟨.a, fr 0x04 0xFF [], [], atPlate (fr 0x04 0xFF []) (outst .plate 1), by decide⟩

theorem test_wit_BripaLinks_9 : ∃ (p : Plate) (f : Frame) (l : List Frame) (s : State), takeFrame (fun f => f.type ==
    4) (s.link End.margin p).inbox = some (f, l) ∧ (s.link End.margin p).resetting = false ∧ (s.link End.margin
    p).waiting = [] ∧ ∀ r < 4, s.margin.owners.get none r = none ∨ s.owner r = some p.peer :=
  ⟨.a, fr 0x04 0xFF [], [], atMargin (fr 0x04 0xFF []) field, by decide⟩

theorem test_wit_MarginOwnership_1 : ∃ (p : Plate) (s : State), s.up p = true ∧ (s.pl p).mrg.fieldUp = true :=
  ⟨.a, field, by decide⟩

theorem test_wit_MarginOwnership_2 : ∃ (p : Plate) (s : State), s.up p = true ∧ (s.pl p).mrg.fieldUp = true ∧ (s.pl
    p).cus.attempt = none :=
  ⟨.a, field, by decide⟩

theorem test_wit_MarginOwnership_3 : ∃ (p : Plate) (f : Frame) (l : List Frame) (s : State), Heads s End.margin p f l
    ∧ f.type = 5 ∧ BitVec.toNat f.res < 4 ∧ s.margin.powered = true ∧ s.owner (BitVec.toNat f.res) = none ∧
    s.claimFirst p f = true :=
  ⟨.a, fr 0x05 2 [], [], atMargin (fr 0x05 2 []) field, by decide⟩

theorem test_wit_MarginOwnership_4 : ∃ (p : Plate) (q : Plate) (f : Frame) (l : List Frame) (s : State), Heads s
    End.margin p f l ∧ f.type = 5 ∧ BitVec.toNat f.res < 4 ∧ s.margin.powered = true ∧ s.owner (BitVec.toNat f.res) =
    some q ∧ s.claimFirst p f = true :=
  ⟨.a, .a, fr 0x05 2 [], [], atMargin (fr 0x05 2 []) owned, by decide⟩

theorem test_wit_MarginOwnership_5 : ∃ (p : Plate) (f : Frame) (x : Frame) (l : List Frame) (s : State), Heads s
    End.margin p f l ∧ f.type = 5 ∧ x ∈ (s.link End.margin p.peer).inbox ∧ x.type = 5 ∧ x.res = f.res ∧ (x.came <
    f.came ∨ x.came = f.came ∧ p = Plate.b) :=
  ⟨.a, { fr 0x05 0 [] with came := 9 }, fr 0x05 0 [], [],
    (atMargin { fr 0x05 0 [] with came := 9 } field).updLink .margin .b fun x => { x with inbox := [fr 0x05 0 []] }, by decide⟩

theorem test_wit_MarginOwnership_6 : ∃ (p : Plate) (f : Frame) (l : List Frame) (s : State), Heads s End.plate p f l ∧
    f.type = 6 ∧ BitVec.toNat f.res < 4 :=
  ⟨.a, fr 0x06 3 [0], [], atPlate (fr 0x06 3 [0]) owned, by decide⟩

theorem test_wit_MarginOwnership_7 : ∃ (p : Plate) (f : Frame) (l : List Frame) (r : Nat) (s : State), OwnerAsks s p f
    l 7 r :=
  ⟨.a, fr 0x07 3 [], [], 3, (atMargin (fr 0x07 3 []) owned).updMrg .a fun m => { m with own := 15 }, by decide⟩

theorem test_wit_MarginOwnership_8 : ∃ (p : Plate) (f : Frame) (l : List Frame) (s : State), Heads s End.margin p f l
    ∧ f.type = 7 ∧ s.margin.powered = true ∧ (4 ≤ BitVec.toNat f.res ∨ s.owner (BitVec.toNat f.res) ≠ some p) :=
  ⟨.a, fr 0x07 0xFF [], [], atMargin (fr 0x07 0xFF []) owned, by decide⟩

theorem test_wit_MarginOwnership_9 : ∃ (p : Plate) (f : Frame) (l : List Frame) (s : State), Heads s End.plate p f l ∧
    f.type = 1 ∧ s.up p = true :=
  ⟨.a, fr 0x01 0xFF [1, 6, 2, 0], [], (atPlate (fr 0x01 0xFF [1, 6, 2, 0]) owned).updMrg .a fun m => { m with own := 15, configured := true }, by decide⟩

theorem test_wit_MarginOwnership_10 : ∃ (p : Plate) (f : Frame) (l : List Frame) (s : State), Heads s End.margin p f l
    ∧ f.type = 2 :=
  ⟨.a, fr 0x02 0xFF (leBytes 8 4 ++ zeros 8), [], atMargin (fr 0x02 0xFF (leBytes 8 4 ++ zeros 8)) owned, by decide⟩

theorem test_wit_CardReaders_1 : ∃ (p : Plate) (f : Frame) (l : List Frame) (r : Nat) (atr : CardAtr) (b : Bytes)
    (classA : Bool) (v : Byte) (s : State), OwnerAsks s p f l 16 r ∧ r < 2 ∧ f.at_ 0 = 1 ∧ (s.margin.readers.get { }
    r).present = true ∧ activation atr.classB atr.classA = some (b, classA) ∧ ppsSpeed b atr.pps = some v ∧
    s.margin.powered = true :=
  ⟨.a, fr 0x10 0 [1], [], 0, ⟨some [0x3B, 0x81, 0x01, 1, 0], none, none⟩, [0x3B, 0x81, 0x01, 1, 0], false, 0x11,
    reader { present := true } (atMargin (fr 0x10 0 [1]) owned), by decide⟩

theorem test_wit_CardReaders_2 : ∃ (p : Plate) (f : Frame) (l : List Frame) (r : Nat) (atr : CardAtr) (s : State),
    OwnerAsks s p f l 16 r ∧ r < 2 ∧ f.at_ 0 = 1 ∧ s.margin.activates r atr = none ∧ s.margin.powered = true :=
  ⟨.a, fr 0x10 0 [1], [], 0, ⟨none, none, none⟩, atMargin (fr 0x10 0 [1]) owned, by decide⟩

theorem test_wit_CardReaders_3 : ∃ (p : Plate) (f : Frame) (l : List Frame) (r : Nat) (s : State), OwnerAsks s p f l
    16 r ∧ r < 2 ∧ f.at_ 0 = 2 :=
  ⟨.a, fr 0x10 0 [2], [], 0, atMargin (fr 0x10 0 [2]) owned, by decide⟩

theorem test_wit_CardReaders_4 : ∃ (p : Plate) (f : Frame) (l : List Frame) (s : State), Heads s End.plate p f l ∧
    f.type = 17 ∧ BitVec.toNat f.res < 2 :=
  ⟨.a, fr 0x11 0 [2], [], trying { session := 1 } (atPlate (fr 0x11 0 [2]) owned), by decide⟩

theorem test_wit_CardReaders_5 : ∃ (p : Plate) (f : Frame) (l : List Frame) (r : Nat) (s : State), OwnerAsks s p f l
    18 r ∧ r < 2 ∧ (s.margin.readers.get { } r).active = true :=
  ⟨.a, fr 0x12 0 [0, 5], [], 0, reader { present := true, active := true } (atMargin (fr 0x12 0 [0, 5]) owned), by decide⟩

theorem test_wit_CardReaders_6 : ∃ (p : Plate) (r : Nat) (s : State), (s.margin.readers.get { } r).apdu = true ∧
    s.owner r = some p ∧ s.margin.powered = true :=
  ⟨.a, 0, reader { apdu := true } owned, by decide⟩

theorem test_wit_CardReaders_7 : ∃ (p : Plate) (f : Frame) (l : List Frame) (a : LocalTry) (s : State), Heads s
    End.plate p f l ∧ f.type = 19 ∧ (s.pl p).cus.attempt = some a ∧ a.reader = BitVec.toNat f.res ∧ a.waits = true ∧
    f.at_ 0 % 2 = 1 ∧ (a.step = CardStep.sign → a.enrol = none) ∧ s.up p = true ∧ (s.pl p).mrg.fieldUp = true :=
  ⟨.a, fr 0x13 0 [1], [], { session := 1 }, trying { session := 1 } (atPlate (fr 0x13 0 [1]) owned), by decide⟩

theorem test_wit_CardReaders_8 : ∃ (r : Nat) (present : Bool) (s : State), r < 2 ∧ (s.margin.readers.get { }
    r).present = !present ∧ s.margin.powered = true :=
  ⟨0, true, field, by decide⟩

theorem test_wit_CardReaders_9 : ∃ (r : Nat) (s : State), s.margin.powered = true ∧ (s.margin.readers.get { }
    r).active = true ∧ r < 2 :=
  ⟨0, reader { present := true, active := true } owned, by decide⟩

theorem test_wit_CardReaders_10 : ∃ (p : Plate) (r : Nat) (s : State), (s.margin.readers.get { } r).apdu = true ∧
    s.past (s.margin.readers.get { } r).sentAt 2000000 = true ∧ s.owner r = some p :=
  ⟨.a, 0, { (trying { session := 1 } (reader { present := true, active := true, apdu := true } owned)) with clock := 3000000 }, by decide⟩

theorem test_wit_ConsoleAndPin_1 : ∃ (p : Plate) (r : Nat) (n : Word) (x : Session) (s : State), s.session p n = some
    x ∧ (s.pl p).cus.attempt = none ∧ s.reachesCard p r = true ∧ s.up p = true :=
  ⟨.a, 0, 1, sess, (owned.updMrg .a fun m => { m with own := 15 }).updCus .a fun c => { c with sessions := [sess] }, by decide⟩

theorem test_wit_ConsoleAndPin_2 : ∃ (p : Plate) (f : Frame) (l : List Frame) (r : Nat) (s : State), OwnerAsks s p f l
    20 r ∧ r < 2 ∧ s.owner 3 = some p ∧ s.margin.pin = none :=
  ⟨.a, fr 0x14 0 [], [], 0, atMargin (fr 0x14 0 []) owned, by decide⟩

theorem test_wit_ConsoleAndPin_3 : ∃ (p : Plate) (f : Frame) (l : List Frame) (r : Nat) (s : State), OwnerAsks s p f l
    20 r ∧ s.owner 3 ≠ some p ∧ s.margin.powered = true :=
  ⟨.a, fr 0x14 0 [], [], 0, atMargin (fr 0x14 0 []) (field.updMargin fun g => { g with owners := [(0, some .a)] }), by decide⟩

theorem test_wit_ConsoleAndPin_4 : ∃ (p : Plate) (f : Frame) (l : List Frame) (a : LocalTry) (s : State), Heads s
    End.plate p f l ∧ f.type = 21 ∧ (s.pl p).cus.attempt = some a ∧ a.reader = BitVec.toNat f.res ∧ a.step =
    CardStep.pin ∧ s.up p = true ∧ (s.pl p).mrg.fieldUp = true :=
  ⟨.a, fr 0x15 0 [0, 4, 0, 0x90], [], { session := 1, step := .pin },
    trying { session := 1, step := .pin } (atPlate (fr 0x15 0 [0, 4, 0, 0x90]) owned), by decide⟩

theorem test_wit_ConsoleAndPin_5 : ∃ (ch : Byte) (y : PinTry) (p : Plate) (s : State), s.margin.powered = true ∧
    isDigit ch = true ∧ s.margin.pin = some y ∧ s.owner 3 = some p :=
  ⟨0x35, { max := 1 }, .a, pinning { max := 1 } owned, by decide⟩

theorem test_wit_ConsoleAndPin_6 : ∃ (ch : Byte) (p : Plate) (s : State), s.margin.powered = true ∧ isKey ch = true ∧
    s.margin.pin = none ∧ s.owner 3 = some p :=
  ⟨0x31, .a, owned, by decide⟩

theorem test_wit_ConsoleAndPin_7 : ∃ (y : PinTry) (s : State), s.margin.powered = true ∧ s.margin.pin = some y :=
  ⟨{}, pinning {} owned, by decide⟩

theorem test_wit_ConsoleAndPin_8 : ∃ (y : PinTry) (s : State), s.margin.powered = true ∧ s.margin.pin = some y ∧ y.min
    ≤ List.length y.digits :=
  ⟨{ min := 1, digits := [0x31] }, pinning { min := 1, digits := [0x31] } owned, by decide⟩

theorem test_wit_ConsoleAndPin_9 : ∃ (n : Nat) (p : Plate) (s : State), s.margin.powered = true ∧ (n = 1 ∨ n = 2) ∧
    s.owner 3 = some p :=
  ⟨1, .a, owned, by decide⟩

theorem test_wit_ConsoleAndPin_10 : ∃ (p : Plate) (f : Frame) (l : List Frame) (s : State), Heads s End.plate p f l ∧
    f.type = 48 :=
  ⟨.a, fr 0x30 3 [0xFF], [], trying { session := 1 } (atPlate (fr 0x30 3 [0xFF]) owned), by decide⟩

theorem test_wit_ConsoleAndPin_11 : ∃ (p : Plate) (f : Frame) (l : List Frame) (s : State), Heads s End.plate p f l ∧
    f.type = 49 ∧ f.at_ 1 = 1 ∧ f.at_ 0 = 2 :=
  ⟨.a, fr 0x31 3 [2, 1], [], trying { session := 1 } (atPlate (fr 0x31 3 [2, 1]) owned), by decide⟩

theorem test_wit_ConsoleAndPin_12 : ∃ (p : Plate) (f : Frame) (l : List Frame) (a : LocalTry) (x : Session) (s :
    State), Heads s End.plate p f l ∧ f.type = 49 ∧ f.at_ 1 = 1 ∧ f.at_ 0 = 1 ∧ (s.pl p).cus.attempt = some a ∧ a.step
    = CardStep.button ∧ s.session p a.session = some x ∧ s.up p = true ∧ (s.pl p).mrg.fieldUp = true :=
  ⟨.a, fr 0x31 3 [1, 1], [], { session := 1, step := .button }, sess,
    trying { session := 1, step := .button } (atPlate (fr 0x31 3 [1, 1]) owned), by decide⟩

theorem test_wit_ConsoleAndPin_13 : ∃ (p : Plate) (f : Frame) (l : List Frame) (s : State), OwnerAsks s p f l 50 3 ∧
    f.at_ 0 < 4 :=
  ⟨.a, fr 0x32 3 (1 :: zeros 20), [], atMargin (fr 0x32 3 (1 :: zeros 20)) owned, by decide⟩

theorem test_wit_ConsoleAndPin_14 : ∃ (p : Plate) (f : Frame) (l : List Frame) (s : State), OwnerAsks s p f l 51 3 ∧
    f.at_ 0 < 3 ∧ f.at_ 1 < 3 :=
  ⟨.a, fr 0x33 3 [1, 2], [], atMargin (fr 0x33 3 [1, 2]) owned, by decide⟩

theorem test_wit_SdSlot_1 : ∃ (p : Plate) (f : Frame) (l : List Frame) (s : State), OwnerAsks s p f l 32 2 ∧
    s.margin.sdOp = none ∧ (f.at_ 0 = 1 ∨ f.at_ 0 = 2) ∧ 1 ≤ leAt f.payload 2 2 ∧ leAt f.payload 2 2 ≤ 128 ∧
    s.margin.powered = true ∧ s.margin.sdPresent = true :=
  ⟨.a, fr 0x20 2 ([1, 0] ++ leBytes 2 128 ++ leBytes 8 100), [], sdOn none (atMargin (fr 0x20 2 ([1, 0] ++ leBytes 2 128 ++ leBytes 8 100)) owned), by decide⟩

theorem test_wit_SdSlot_2 : ∃ (p : Plate) (f : Frame) (l : List Frame) (s : State), OwnerAsks s p f l 32 2 ∧
    s.margin.sdOp = none ∧ f.at_ 0 = 3 ∧ s.margin.sdPresent = true ∧ s.margin.powered = true :=
  ⟨.a, fr 0x20 2 [3], [], sdOn none (atMargin (fr 0x20 2 [3]) owned), by decide⟩

theorem test_wit_SdSlot_3 : ∃ (p : Plate) (s : State), s.ownsSd p = true ∧ (s.pl p).mrg.spool.job = none :=
  ⟨.a, ownsCard {}, by decide⟩

theorem test_wit_SdSlot_4 : ∃ (p : Plate) (id : DWord) (s : State), s.ownsSd p = true ∧ (s.pl p).mrg.spool.job = none
    ∧ (s.pl p).mrg.spool.id = some id :=
  ⟨.a, 7, ownsCard { id := some 7 }, by decide⟩

theorem test_wit_SdSlot_5 : ∃ (p : Plate) (f : Frame) (l : List Frame) (d : SdEnd) (j : SpoolJob) (x : Nat × Bytes)
    (rest : List (Nat × Bytes)) (s : State), Heads s End.plate p f l ∧ f.type = 34 ∧ (s.pl p).mrg.spool.job = some j ∧
    j.todo = x :: rest ∧ d.at_ = End.plate ∧ d.plate = p ∧ s.up p = true ∧ (s.pl p).mrg.fieldUp = true ∧ (f.at_ 0 ≠ 0
    ∨ leAt f.payload 4 4 = payloadBlocks (List.length x.2)) ∧ 0 < List.length x.2 :=
  ⟨.a, fr 0x22 2 [1], [], ⟨.plate, .a, false, [], false⟩, { todo := [(5, [1])] }, (5, [1]), [], atPlate (fr 0x22 2 [1]) (ownsCard { job := some { todo := [(5, [1])] } }), by decide⟩

theorem test_wit_SdSlot_6 : ∃ (p : Plate) (f : Frame) (l : List Frame) (o : SdOp) (x : SdBlock) (s : State), OwnerAsks
    s p f l 33 2 ∧ s.margin.sdOp = some o ∧ o.op = 2 ∧ o.plate = p ∧ x.plate = p ∧ o.bytes < 512 * o.blocks :=
  ⟨.a, fr 0x21 2 [], [], { op := 2, blocks := 1 }, ⟨.a, [], true⟩, sdOn (some { op := 2, blocks := 1 }) (atMargin (fr 0x21 2 []) owned), by decide⟩

theorem test_wit_SdSlot_7 : ∃ (p : Plate) (o : SdOp) (s : State), s.margin.sdOp = some o ∧ o.op = 1 ∧ o.plate = p ∧
    o.bytes < 512 * o.blocks ∧ s.margin.powered = true :=
  ⟨.a, { op := 1, blocks := 1 }, sdOn (some { op := 1, blocks := 1 }) owned, by decide⟩

theorem test_wit_SdSlot_8 : ∃ (p : Plate) (f : Frame) (l : List Frame) (s : State), Heads s End.plate p f l ∧ f.type =
    33 :=
  ⟨.a, fr 0x21 2 (zeros 64), [], atPlate (fr 0x21 2 (zeros 64)) owned, by decide⟩

theorem test_wit_SdSlot_9 : ∃ (p : Plate) (o : SdOp) (d : SdEnd) (s : State), s.margin.sdOp = some o ∧ o.plate = p ∧
    s.margin.powered = true ∧ d.at_ = End.margin ∧ d.plate = p ∧ ((d.error = true ∨ o.unacknowledged = true) ∨ o.bytes
    = 512 * o.blocks ∧ (o.op = 2 → sdReady d.dat0 d.polls = true)) :=
  ⟨.a, { op := 1, blocks := 1 }, ⟨.margin, .a, true, [], false⟩, sdOn (some { op := 1, blocks := 1 }) owned, by decide⟩

theorem test_wit_SdSlot_10 : ∃ (p : Plate) (o : SdOp) (d : SdEnd) (s : State), s.margin.sdOp = some o ∧ o.plate = p ∧
    s.margin.powered = true ∧ d.at_ = End.margin ∧ d.plate = p ∧ d.error = false ∧ o.unacknowledged = false ∧ o.bytes
    = 512 * o.blocks ∧ o.op = 2 ∧ sdReady d.dat0 d.polls = false :=
  ⟨.a, { op := 2, blocks := 1, bytes := 512, done := 1 }, ⟨.margin, .a, false, [], false⟩, sdOn (some { op := 2, blocks := 1, bytes := 512, done := 1 }) owned, by decide⟩

theorem test_wit_SdSlot_11 : ∃ (p : Plate) (f : Frame) (l : List Frame) (d : SdEnd) (s : State), Heads s End.plate p f
    l ∧ f.type = 34 ∧ (s.pl p).mrg.spool.job = none ∧ d.at_ = End.plate ∧ d.plate = p :=
  ⟨.a, fr 0x22 2 [], [], ⟨.plate, .a, false, [], false⟩, atPlate (fr 0x22 2 []) (ownsCard {}), by decide⟩

theorem test_wit_SdSlot_12 : ∃ (p : Plate) (f : Frame) (l : List Frame) (s : State), Heads s End.plate p f l ∧ f.type
    = 35 :=
  ⟨.a, fr 0x23 2 [5], [], atPlate (fr 0x23 2 [5]) owned, by decide⟩

theorem test_wit_SdSlot_13 : ∃ (o : SdOp) (t0 : Nat) (s : State), s.margin.sdOp = some o ∧ o.busy = some t0 ∧
    s.margin.powered = true ∧ s.past t0 (if Option.map SdInfo.cardType s.margin.sd = some 3 then 500000 else 250000) =
    true :=
  ⟨{ op := 2, blocks := 2, done := 1, busy := some 0 }, 0, sdOn (some { op := 2, blocks := 2, done := 1, busy := some 0 }) owned, by decide⟩

theorem test_wit_SdSlot_14 : ∃ (s : State), s.margin.sdPresent = true ∧ s.margin.powered = true :=
  ⟨sdOn none owned, by decide⟩

theorem test_wit_SdSlot_15 : ∃ (s : State), s.margin.sdPresent = false ∧ s.margin.powered = true :=
  ⟨owned, by decide⟩

theorem test_wit_TamperInputsAndField_1 : ∃ (i : Nat) (loop : Nat) (st : LoopState) (s : State), i < 4 ∧ loop < 2 ∧
    s.margin.senses i = true ∧ st ≠ LoopState.ok ∧ (if loop = 0 then (s.margin.inputs.get { } i).loopB else
    (s.margin.inputs.get { } i).loopA) = LoopState.ok ∧ (s.margin.inputs.get { } i).since = none :=
  ⟨0, 0, .opened, owned, by decide⟩

theorem test_wit_TamperInputsAndField_2 : ∃ (i : Nat) (loop : Nat) (st : LoopState) (s : State), i < 4 ∧ loop < 2 ∧
    s.margin.senses i = true ∧ st ≠ LoopState.ok ∧ (if loop = 0 then (s.margin.inputs.get { } i).loopB else
    (s.margin.inputs.get { } i).loopA) ≠ LoopState.ok :=
  ⟨0, 1, .cross, input0 { loopA := .short, since := some 999000 } owned, by decide⟩

theorem test_wit_TamperInputsAndField_3 : ∃ (i : Nat) (t0 : Nat) (s : State), s.margin.expiry i = some t0 ∧
    s.margin.senses i = true ∧ t0 ≤ s.clock ∧ (s.margin.inputs.get { } i).okFrom = none :=
  ⟨0, 5, input0 { loopA := .short, since := some 5 } { owned with margin := { owned.margin with tDisc := [0, 0, 0, 0] } }, by decide⟩

theorem test_wit_TamperInputsAndField_4 : ∃ (i : Nat) (a : Nat) (b : Nat) (s : State), (s.margin.inputs.get { }
    i).since = some a ∧ (s.margin.inputs.get { } i).okFrom = some b ∧ (s.margin.inputs.get { } i).slack ≤ 40 *
    s.margin.tDisc.getD i 0 ∧ s.past b 50 = true ∧ s.margin.senses i = true :=
  ⟨0, 5000, 6000, input0 { since := some 5000, okFrom := some 6000 } owned, by decide⟩

theorem test_wit_TamperInputsAndField_5 : ∃ (i : Nat) (c : Nat) (l : List (Nat × Nat)) (s : State), s.margin.koDecided
    = (i, c) :: l ∧ s.margin.powered = true :=
  ⟨2, 1, [(3, 2)], owned.updMargin fun g => { g with koDecided := [(2, 1), (3, 2)] }, by decide⟩

theorem test_wit_TamperInputsAndField_6 : ∃ (p : Plate) (f : Frame) (l : List Frame) (s : State), Heads s End.plate p
    f l ∧ f.type = 64 :=
  ⟨.a, fr 0x40 0xFF [2, 1, 0, 0], [], atPlate (fr 0x40 0xFF [2, 1, 0, 0]) owned, by decide⟩

theorem test_wit_TamperInputsAndField_7 : ∃ (s : State), s.margin.powered = true ∧ s.past s.margin.periodAt 1000000 =
    true ∧ ∃ i < 4, (s.margin.inputs.get { } i).counted ≠ 0 :=
  ⟨input0 { counted := 300 } owned, by decide⟩

theorem test_wit_TamperInputsAndField_8 : ∃ (p : Plate) (f : Frame) (l : List Frame) (s : State), Heads s End.plate p
    f l ∧ f.type = 65 ∧ f.at_ 0 ≠ 0 :=
  ⟨.a, fr 0x41 0xFF [3, 0, 0, 0, 0, 0, 0, 0], [], atPlate (fr 0x41 0xFF [3, 0, 0, 0, 0, 0, 0, 0]) owned, by decide⟩

theorem test_wit_TamperInputsAndField_9 : ∃ (s : State), s.margin.powered = false :=
  ⟨base, by decide⟩

theorem test_wit_TamperInputsAndField_10 : ∃ (p : Plate) (s : State), s.up p = true ∧ s.margin.allClear = true ∧
    s.past (max s.margin.clearAt (s.pl p).mrg.lostAt) 1000 = true :=
  ⟨.a, owned, by decide⟩

theorem test_wit_TamperInputsAndField_11 : ∃ (n : Nat), 180 ≤ n ∧ n ≤ 220 :=
  ⟨200, by decide⟩

theorem test_wit_TamperInputsAndField_12 : ∃ (p : Plate) (x : ClearLoss) (s : State), (s.pl p).mrg.fieldUp = true ∧
    s.up p = true ∧ ClearLost s x :=
  ⟨.a, .count 100, field, by unfold ClearLost; decide⟩

theorem test_wit_FaultSources_1 : ∃ (p : Plate) (k : Nat) (s : State), s.up p = true ∧ (3 ≤ k ∧ k ≤ 16 ∨ 24 ≤ k ∧ k ≤
    30 ∧ k ≠ 28) :=
  ⟨.a, 3, base, by decide⟩

theorem test_wit_FaultSources_2 : ∃ (p : Plate) (k : Nat) (s : State), s.up p = true ∧ (32 ≤ k ∧ k ≤ 37 ∨ k = 40 ∨ k =
    41) ∧ s.armedFor p k = true :=
  ⟨.a, 32, withTmp fun t => { t with armed := true }, by decide⟩

theorem test_wit_FaultSources_3 : ∃ (p : Plate) (n : Nat) (s : State), s.up p = true ∧ s.isWithdrawn p (UnitRef.lane
    n) = false :=
  ⟨.a, 63, withJob { onLane 0x20 0x41 with unit := some 63 }, by decide⟩

theorem test_wit_FaultSources_4 : ∃ (p : Plate) (n : Nat) (s : State), s.up p = true ∧ s.isWithdrawn p (UnitRef.lane
    n) = true ∧ UnitRef.lane n ∈ (s.pl p).flt.resetting ∧ s.clock ≤ (s.pl p).flt.resetAt + 1000 ∧ ∀ j ∈ (s.pl
    p).sl.jobs, j.runsOn (UnitRef.lane n) = true → j.critical = false :=
  ⟨.a, 3, laneOut.updFlt .a fun f => { f with resetting := [.lane 3], resetAt := 1000000 }, by decide⟩

theorem test_wit_FaultSources_5 : ∃ (p : Plate) (u : UnitRef) (pass : Bool) (s : State), s.up p = true ∧ u ∈ (s.pl
    p).flt.resetting ∧ (pass = false ∨ (s.pl p).flt.resetAt + 1000 < s.clock) :=
  ⟨.a, .lane 3, false, laneOut.updFlt .a fun f => { f with resetting := [.lane 3], resetAt := 1000000 }, by decide⟩

theorem test_wit_FaultSources_6 : ∃ (p : Plate) (n : Nat) (s : State), s.up p = true ∧ s.isWithdrawn p (UnitRef.lane
    n) = true :=
  ⟨.a, 3, laneOut, by decide⟩

theorem test_wit_FaultSources_7 : ∃ (p : Plate) (k : Nat) (s : State), (s.pl p).pow.phase = Phase.reset ∧ (32 ≤ k ∧ k
    ≤ 37 ∨ k = 40 ∨ k = 41) ∧ s.armedFor p k = true :=
  ⟨.a, 36, inReset, by decide⟩

theorem test_wit_FaultSources_8 : ∃ (p : Plate) (k : Nat) (on : Bool) (s : State), s.up p = false ∧ (isClassT k =
    false ∨ k = 38 ∨ k = 39 ∨ on = false) :=
  ⟨.a, 0, true, inReset, by decide⟩

theorem test_wit_FaultWordAndDrill_1 : ∃ (p : Plate) (s : State), s.up p = true ∧ Option.all (fun t0 => decide
    (s.clock < t0)) (s.pl p).flt.graceAt = true :=
  ⟨.a, withFlt fun f => { f with status := 0x1F, graceAt := some 1000001 }, by decide⟩

theorem test_wit_FaultWordAndDrill_2 : ∃ (p : Plate) (s : State) (u : State), s.up p = true ∧ exec (Instr.graceExpire
    p) s = Host.Outcome.next u :=
  ⟨.a, base, base, rfl, rfl⟩

theorem test_wit_FaultWordAndDrill_3 : ∃ (p : Plate) (s : State), s.up p = true ∧ (s.pl p).tmp.drill = false :=
  ⟨.a, base, by decide⟩

theorem test_wit_FaultWordAndDrill_4 : ∃ (p : Plate) (s : State), s.up p = false :=
  ⟨.a, State.reset, by decide⟩

theorem test_wit_FaultWordAndDrill_5 : ∃ (p : Plate) (s : State), s.up p = true ∧ (s.pl p).tmp.drill = true :=
  ⟨.a, { (withFlt fun f => { f with force := 0xFFFFFFFFFF }).updTmp .a fun t => { t with drill := true, drillAt := 5, alarms := [(1, true), (2, false)] } with clock := 60000005 }, by decide⟩

theorem test_wit_GraceExpiry_1 : ∃ (p : Plate) (t0 : Nat) (s : State), (s.pl p).flt.graceAt = some t0 ∧ s.up p = true
    ∧ t0 ≤ s.clock ∧ (s.pl p).flt.react = React.none ∧ (s.pl p).flt.status &&& maskC = 0 :=
  ⟨.a, 1000000, expires 0x18, by decide⟩

theorem test_wit_GraceExpiry_2 : ∃ (p : Plate) (t0 : Nat) (s : State), (s.pl p).flt.graceAt = some t0 ∧ s.up p = true
    ∧ t0 ≤ s.clock ∧ (s.pl p).flt.react = React.none ∧ (s.pl p).flt.status &&& maskC ≠ 0 ∧ (s.pl p).tmp.ko = false ∧
    (s.pl p).pr.token = false :=
  ⟨.a, 1000000, expires 0x1000001, by decide⟩

theorem test_wit_GraceExpiry_3 : ∃ (p : Plate) (t0 : Nat) (s : State), (s.pl p).flt.graceAt = some t0 ∧ s.clock < t0
    :=
  ⟨.a, 2000000, withFlt fun f => { f with graceAt := some 2000000 }, by decide⟩

theorem test_wit_GraceExpiry_4 : ∃ (p : Plate) (s : State), (s.pl p).flt.react = React.isolated ∧ s.up p = true ∧
    s.past (s.pl p).flt.isoAt 1000000 = true ∧ (s.pl p.peer).pow.phase ≠ Phase.reset :=
  ⟨.a, { (withFlt fun f => { f with react := .isolated, isoAt := 0, status := 0x1000000 }) with clock := 1000000 }, by decide⟩

theorem test_wit_TamperMonitor_1 : ∃ (p : Plate) (m : BitVec 256) (s : State), (s.pl p).pow.phase ≠ Phase.off ∧ m &&&
    (s.pl p).tmp.lastMism = 0 ∧ (s.pl p).tmp.mismatch ≤ 65535 ∧ (s.inst p chaseInst).live = true :=
  ⟨.a, 5, withInst (withTmp fun t => { t with lastMism := 2, mismatch := 65534 }) chaseInst seeded, by decide⟩

theorem test_wit_TamperMonitor_2 : ∃ (p : Plate) (m : BitVec 256) (k : Nat) (s : State), s.up p = true ∧ (s.pl
    p).tmp.armed = true ∧ (segments (m &&& (s.pl p).tmp.lastMism)).head? = some k :=
  ⟨.a, 5, 2, withTmp fun t => { t with lastMism := 4, armed := true }, by decide⟩

theorem test_wit_TamperMonitor_3 : ∃ (p : Plate) (c : EnvCond) (k : Nat) (r : RailReading) (s : State), s.up p = true
    ∧ (c, k) ∈ [(EnvCond.vsupWarn r, 11), (EnvCond.vsupHigh r, 25), (EnvCond.thermWarn, 12), (EnvCond.thermCrit, 26)]
    :=
  ⟨.a, .thermWarn, 12, ⟨0, 0, 0⟩, base, by decide⟩

theorem test_wit_TamperMonitor_4 : ∃ (p : Plate) (r : RailReading) (s : State), s.up p = true ∧ (s.pl p).tmp.armed =
    true ∧ r.mv < (railLimits r.rail).2.2.2 ∧ 2 ≤ r.us :=
  ⟨.a, ⟨0, 500, 5⟩, withTmp fun t => { t with armed := true }, by decide⟩

theorem test_wit_TamperMonitor_5 : ∃ (p : Plate) (s : State), s.up p = true ∧ (s.pl p).tmp.alarmOn = false :=
  ⟨.a, base, by decide⟩

theorem test_wit_TamperMonitor_6 : ∃ (p : Plate) (s : State), (s.pl p).tmp.alarmOn = true :=
  ⟨.a, withTmp fun t => { t with alarmOn := true }, by decide⟩

theorem test_wit_TamperMonitor_7 : ∃ (p : Plate) (k : Nat) (v : ℤ) (s : State), s.up p = true ∧ ((s.pl
    p).tmp.sensors.get { } k).valid = true ∧ ((s.pl p).tmp.sensors.get { } k).fails (some v) (sensorTemps (s.pl
    p).tmp.sensors (some k)) (median (sensorTemps (s.pl p).tmp.sensors (some k)) (Config.freeNat (s.free + 1)))
    s.clock = false :=
  ⟨.a, 0, 40, base, rfl, rfl, by simp [Sensor.fails, sensorTemps, base, State.pl, plate1, Tab.get]⟩

theorem test_wit_TamperMonitor_8 : ∃ (p : Plate) (k : Nat) (s : State), s.up p = true ∧ ((s.pl p).tmp.sensors.get { }
    k).valid = true ∧ ((s.pl p).tmp.sensors.get { } k).atUs + 1000 ≤ s.clock ∧ (s.pl p).pr.leftReset + 1000 ≤ s.clock
    ∧ (s.pl p).pow.resetAt + 1000 ≤ s.clock :=
  ⟨.a, 0, base, by decide⟩

theorem test_wit_KnockoutDestroysKeys_1 : ∃ (p : Plate) (c : Cause) (s : State), (s.pl p).pow.phase ≠ Phase.off ∧
    (s.pl p).tmp.ko = false ∧ (s.pl p).tmp.local_ = some c :=
  ⟨.a, cause1, knocked, by decide⟩

theorem test_wit_KnockoutDestroysKeys_2 : ∃ (p : Plate) (by_ : KoTrigger) (s : State), (s.pl p).tmp.ko = true ∨
    s.koAsserts p by_ = false :=
  ⟨.a, .peerWire, base, by decide⟩

theorem test_wit_KnockoutDestroysKeys_3 : ∃ (p : Plate) (code : Nat) (by_ : Nat) (index : Nat) (l : List GMsg) (s :
    State), s.gut p = GMsg.cause code by_ index :: l ∧ (s.pl p).tmp.ko = false :=
  ⟨.a, 1, 0, 7, [], { base with gutA := [.cause 1 0 7] }, by decide⟩

theorem test_wit_WorldLiveness_1 : ∃ (p : Plate) (v : Word) (s : State), s.up p = true ∧ BitVec.getLsbD v 0 = true ∧
    (s.pl p).mgt.runs World.secure = true :=
  ⟨.a, 1, base, by decide⟩

theorem test_wit_WorldLiveness_2 : ∃ (p : Plate) (v : Word) (s : State), s.up p = true ∧ BitVec.getLsbD v 0 = true ∧
    (s.pl p).mgt.runs World.normal = true :=
  ⟨.a, 1, base, by decide⟩

theorem test_wit_WorldLiveness_3 : ∃ (p : Plate) (s : State), s.up p = true ∧ (s.pl p).mgt.sec ≠ Live.noImage :=
  ⟨.a, withPr fun r => { r with seqSt := .wait }, by decide⟩

theorem test_wit_WorldLiveness_4 : ∃ (p : Plate) (s : State), s.up p = true ∧ (s.pl p).mgt.nrm ≠ Live.noImage :=
  ⟨.a, base, by decide⟩

theorem test_wit_WorldLiveness_5 : ∃ (p : Plate) (s : State), s.up p = true ∧ (s.pl p).mgt.sec = Live.running ∧ 50000
    ≤ elapsed (s.pl p).mgt.secAt (s.pl p).mgt.secPause s.clock :=
  ⟨.a, oneQueued, by decide⟩

theorem test_wit_WorldLiveness_6 : ∃ (p : Plate) (s : State), s.up p = true ∧ (s.pl p).mgt.sec ≠ Live.noImage ∧
    1000000 ≤ elapsed (s.pl p).mgt.secAt (s.pl p).mgt.secPause s.clock :=
  ⟨.a, oneQueued, by decide⟩

theorem test_wit_WorldLiveness_7 : ∃ (p : Plate) (s : State), s.up p = true ∧ (s.pl p).mgt.nrm ≠ Live.noImage ∧
    1000000 ≤ elapsed (s.pl p).mgt.nrmAt (s.pl p).mgt.nrmPause s.clock :=
  ⟨.a, calling, by decide⟩

theorem test_wit_WorldLiveness_8 : ∃ (p : Plate) (s : State), s.up p = true ∧ (s.pl p).pr.seqSt = SeqSt.idle ∧ (s.pl
    p).pr.wdPause = none ∧ s.past (s.pl p).pr.wdFed 2000000 = true :=
  ⟨.a, at_ 2000000 calling, by decide⟩

theorem test_wit_WorldLiveness_9 : ∃ (p : Plate) (s : State), s.up p = true ∧ ((s.pl p).pr.seqSt = SeqSt.wait ∨ (s.pl
    p).pr.seqSt = SeqSt.clusterReset) ∧ s.past (s.pl p).pr.seqAt 5000000 = true ∧ (s.pl p).pr.token = false :=
  ⟨.a, at_ 6000000 (withPr fun r => { r with seqSt := .wait }), by decide⟩

theorem test_wit_WorldLiveness_10 : ∃ (p : Plate) (s : State), s.up p = true ∧ ((s.pl p).pr.seqSt = SeqSt.wait ∨ (s.pl
    p).pr.seqSt = SeqSt.clusterReset) ∧ s.past (s.pl p).pr.seqAt 5000000 = false :=
  ⟨.a, at_ 6000000 (withPr fun r => { r with seqSt := .wait, seqAt := 5000000 }), by decide⟩

theorem test_wit_MonitorCalls_1 : ∃ (p : Plate) (core : Nat) (s : State), s.coreRuns p core = true :=
  ⟨.a, 0, entered, by decide⟩

theorem test_wit_MonitorCalls_2 : ∃ (p : Plate) (core : Nat) (s : State), s.coreRuns p core = true ∧ ((s.pl
    p).mgt.worldOf core = World.secure ∨ core ≠ 1 ∧ core ≠ 2) :=
  ⟨.a, 0, cores, by decide⟩

theorem test_wit_MonitorCalls_3 : ∃ (p : Plate) (core : Nat) (s : State), s.coreRuns p core = true ∧ ¬(s.pl
    p).mgt.worldOf core = World.secure ∧ (core = 1 ∨ core = 2) ∧ (s.pl p).mgt.sec ≠ Live.running :=
  ⟨.a, 1, withMgt (fun m => { m with sec := .stalled }) cores, by decide⟩

theorem test_wit_MonitorCalls_4 : ∃ (p : Plate) (core : Nat) (s : State) (a : DWord), s.coreRuns p core = true ∧
    ¬(s.pl p).mgt.worldOf core = World.secure ∧ (core = 1 ∨ core = 2) ∧ (s.pl p).mgt.sec = Live.running ∧ (s.pl
    p).mgt.entry = some a :=
  ⟨.a, 1, entered, 64, by decide⟩

theorem test_wit_MonitorCalls_5 : ∃ (p : Plate) (core : Nat) (s : State), s.coreRuns p core = true ∧ ¬(s.pl
    p).mgt.worldOf core = World.secure ∧ (core = 1 ∨ core = 2) ∧ (s.pl p).mgt.sec = Live.running ∧ (s.pl p).mgt.entry
    = none :=
  ⟨.a, 1, cores, by decide⟩

theorem test_wit_MonitorCalls_6 : ∃ (p : Plate) (core : Nat) (s : State), s.coreRuns p core = true ∧ ∃ c ∈ (s.pl
    p).mgt.calls, c.core = core :=
  ⟨.a, 1, calling, by decide⟩

theorem test_wit_MonitorCalls_7 : ∃ (p : Plate) (core : Nat) (s : State), s.coreRuns p core = true ∧ ∀ c ∈ (s.pl
    p).mgt.calls, c.core ≠ core :=
  ⟨.a, 1, cores, by decide⟩

theorem test_wit_MonitorCalls_8 : ∃ (p : Plate) (core : Nat) (s : State), s.coreRuns p core = true ∧ (s.pl
    p).mgt.worldOf core = World.secure ∧ (s.pl p).mgt.entry = none :=
  ⟨.a, 0, cores, by decide⟩

theorem test_wit_MonitorCalls_9 : ∃ (p : Plate) (core : Nat) (s : State), s.coreRuns p core = true ∧ (¬(s.pl
    p).mgt.worldOf core = World.secure ∨ (s.pl p).mgt.entry.isSome = true) :=
  ⟨.a, 1, cores, by decide⟩

theorem test_wit_MonitorCalls_10 : ∃ (p : Plate) (core : Nat) (s : State) (mem : Nat) (new : Nat), s.coreRuns p core =
    true ∧ watermarkOk mem new = true ∧ (if (s.pl p).mgt.worldOf core = World.secure then new < (s.pl p).mgt.watermark
    mem else (s.pl p).mgt.watermark mem < new) ∧ (s.pl p).mgt.move = none :=
  ⟨.a, 0, cores, 0, 0x70, by decide⟩

theorem test_wit_MonitorCalls_11 : ∃ (p : Plate) (core : Nat) (s : State) (mem : Nat) (new : Nat), s.coreRuns p core =
    true ∧ watermarkOk mem new = true ∧ (if (s.pl p).mgt.worldOf core = World.secure then new < (s.pl p).mgt.watermark
    mem else (s.pl p).mgt.watermark mem < new) ∧ (s.pl p).mgt.move ≠ none :=
  ⟨.a, 0, withMgt (fun m => { m with move := some {} }) cores, 0, 0x70, by decide⟩

theorem test_wit_MonitorCalls_12 : ∃ (p : Plate) (core : Nat) (s : State) (mem : Nat) (new : Nat), s.coreRuns p core =
    true ∧ (watermarkOk mem new = false ∨ ¬if (s.pl p).mgt.worldOf core = World.secure then new < (s.pl
    p).mgt.watermark mem else (s.pl p).mgt.watermark mem < new) :=
  ⟨.a, 0, cores, 0, 0x90, by decide⟩

theorem test_wit_MonitorCalls_13 : ∃ (p : Plate) (core : Nat) (s : State) (b : Nat), s.coreRuns p core = true ∧ b < 18
    ∧ (s.pl p).mgt.owner b ≠ (s.pl p).mgt.worldOf core :=
  ⟨.a, 1, cores, 0, by decide⟩

theorem test_wit_MonitorCalls_14 : ∃ (p : Plate) (core : Nat) (s : State) (b : Nat), s.coreRuns p core = true ∧ 18 ≤ b
    :=
  ⟨.a, 1, cores, 18, by decide⟩

theorem test_wit_MonitorCalls_15 : ∃ (p : Plate) (core : Nat) (s : State) (b : Nat), s.coreRuns p core = true ∧ b < 18
    ∧ (s.pl p).mgt.owner b = (s.pl p).mgt.worldOf core ∧ (s.pl p).mgt.move ≠ none :=
  ⟨.a, 0, withMgt (fun m => { m with move := some {} }) cores, 0, by decide⟩

theorem test_wit_MonitorCalls_16 : ∃ (p : Plate) (core : Nat) (s : State) (b : Nat), s.coreRuns p core = true ∧ b < 18
    ∧ (s.pl p).mgt.owner b = (s.pl p).mgt.worldOf core ∧ (s.pl p).mgt.move = none :=
  ⟨.a, 0, cores, 0, by decide⟩

theorem test_wit_MonitorCalls_17 : ∃ (p : Plate) (core : Nat) (s : State), s.coreRuns p core = true ∧ (((s.pl
    p).mgt.hart core).get 17 ≠ 5721156 ∨ 6 ≤ BitVec.toNat (((s.pl p).mgt.hart core).get 16)) :=
  ⟨.a, 1, cores, by decide⟩

theorem test_wit_MonitorCalls_18 : ∃ (p : Plate) (core : Nat) (s : State), s.coreRuns p core = true ∧ ((s.pl
    p).mgt.hart core).get 17 = 5721156 ∧ ((s.pl p).mgt.hart core).get 16 = 0 :=
  ⟨.a, 1, asks 0x574C44 0, by decide⟩

theorem test_wit_MonitorCalls_19 : ∃ (p : Plate) (core : Nat) (s : State), s.coreRuns p core = true ∧ ((s.pl
    p).mgt.hart core).get 17 = 5721156 ∧ ((s.pl p).mgt.hart core).get 16 = 3 :=
  ⟨.a, 1, asks 0x574C44 3, by decide⟩

theorem test_wit_MonitorCalls_20 : ∃ (p : Plate) (core : Nat) (s : State), s.coreRuns p core = true ∧ ((s.pl
    p).mgt.hart core).get 17 = 5721156 ∧ ((s.pl p).mgt.hart core).get 16 = 4 :=
  ⟨.a, 1, asks 0x574C44 4, by decide⟩

theorem test_wit_MonitorCalls_21 : ∃ (p : Plate) (core : Nat) (s : State), s.coreRuns p core = true ∧ ((s.pl
    p).mgt.hart core).get 17 = 5721156 ∧ ((s.pl p).mgt.hart core).get 16 = 5 :=
  ⟨.a, 1, asks 0x574C44 5, by decide⟩

theorem test_wit_MonitorCalls_22 : ∃ (p : Plate) (core : Nat) (s : State), s.coreRuns p core = true ∧ ((s.pl
    p).mgt.hart core).get 17 = 5721156 ∧ ((s.pl p).mgt.hart core).get 16 = 1 :=
  ⟨.a, 1, asks 0x574C44 1, by decide⟩

theorem test_wit_MonitorCalls_23 : ∃ (p : Plate) (core : Nat) (s : State), s.coreRuns p core = true ∧ ((s.pl
    p).mgt.hart core).get 17 = 5721156 ∧ ((s.pl p).mgt.hart core).get 16 = 2 :=
  ⟨.a, 1, asks 0x574C44 2, by decide⟩

theorem test_wit_MonitorCalls_24 : ∃ (p : Plate) (core : Nat) (n : Nat) (s : State) (t : State), s.coreRuns p core =
    true ∧ (s.pl p).mgt.interruptDue core = none ∧ (s.pl p).mgt.trigger core RvUse.fetch ((s.pl p).mgt.hart core).pc =
    none ∧ s.fetchRv p core = (t, Except.ok (Rv.ecall, n)) ∧ t.coreRuns p core = true :=
  let ⟨t, e, r⟩ := fetch_ecall; ⟨.a, 0, 4, atEcall, t, by decide, by decide, by decide, e, r⟩

theorem test_wit_MonitorCalls_25 : ∃ (p : Plate) (c : Nat) (k : RvUse) (va : DWord) (n : Nat) (s : State), Plain s p c
    k va n ∧ Admitted s p c k (BitVec.toNat va) = false :=
  ⟨.a, 1, .load, 0x10000000, 8, cores, by unfold Plain; decide, by decide⟩

theorem test_wit_MonitorCalls_26 : ∃ (m : Mgmt) (a : Nat), IsMemory a ∧ m.move = none :=
  ⟨{}, 0x10000000, by unfold IsMemory; decide, by decide⟩

theorem test_wit_MonitorCalls_27 : ∃ (p : Plate) (c : Nat) (va : DWord) (n : Nat) (s : State), Plain s p c RvUse.store
    va n ∧ Admitted s p c RvUse.store (BitVec.toNat va) = true ∧ IsMemory (BitVec.toNat va) ∧ (n = 1 ∨ n = 2 ∨ n = 4 ∨
    n = 8) ∧ (4294967296 ≤ BitVec.toNat va → (s.pl p).mgt.readLine ((BitVec.toNat va - 4294967296) / 64) ≠ none) :=
  ⟨.a, 0, 0x100000008, 8, cores, by unfold Plain; decide, by decide, by unfold IsMemory; decide, by decide, by decide⟩

theorem test_wit_MonitorCalls_28 : ∃ (p : Plate) (c : Nat) (k : RvUse) (va : DWord) (n : Nat) (s : State), Plain s p c
    k va n ∧ Admitted s p c k (BitVec.toNat va) = true ∧ s.up p = true ∧ 4294967296 ≤ BitVec.toNat va ∧ BitVec.toNat
    va < 8589934592 ∧ (s.pl p).mgt.readLine ((BitVec.toNat va - 4294967296) / 64) = none :=
  ⟨.a, 0, .load, 0x100000000, 8, badLine, by unfold Plain; decide, by decide, by decide, by decide, by decide, badLine_fails⟩

theorem test_wit_MonitorCalls_29 : ∃ (p : Plate) (core : Nat) (s : State), s.up p = true ∧ ∃ c ∈ (s.pl p).mgt.calls,
    c.core = core ∧ s.past c.since 50000 = true :=
  ⟨.a, 1, at_ 2000000 calling, by decide⟩

theorem test_wit_MonitorCalls_30 : ∃ (p : Plate) (v : WmMove) (s : State), (s.pl p).mgt.move = some v ∧ s.up p = true
    :=
  ⟨.a, { lpddr := true, new := 9000 }, withMgt fun m => { m with move := some { lpddr := true, new := 9000 } }, by decide⟩

theorem test_wit_MonitorCalls_31 : ∃ (p : Plate) (core : Nat) (on : Bool) (mmode : Bool) (s : State), s.up p = true ∧
    core < 4 ∧ (if (s.pl p).mgt.worldOf core = World.secure ∨ (if on = true then mmode else (s.pl
    p).mgt.haltedM.getLsbD core) = true then (s.debugEnables p).getLsbD 3 else (s.debugEnables p).getLsbD 1) = true :=
  ⟨.a, 1, true, false, inState base 0x5A, by decide⟩

theorem test_wit_MonitorCalls_32 : ∃ (p : Plate) (core : Nat) (on : Bool) (mmode : Bool) (s : State), s.up p = true ∧
    core < 4 ∧ (if (s.pl p).mgt.worldOf core = World.secure ∨ (if on = true then mmode else (s.pl
    p).mgt.haltedM.getLsbD core) = true then (s.debugEnables p).getLsbD 3 else (s.debugEnables p).getLsbD 1) = false
    :=
  ⟨.a, 0, true, false, base, by decide⟩

theorem test_wit_MonitorCalls_33 : ∃ (p : Plate) (core : Nat) (s : State) (n : Nat), s.up p = true ∧ core < 4 ∧ 0 < n
    ∧ n < 32 ∧ (if (s.pl p).mgt.worldOf core = World.secure ∨ (s.pl p).mgt.haltedM.getLsbD core = true then
    (s.debugEnables p).getLsbD 3 else (s.debugEnables p).getLsbD 1) = true ∧ (s.pl p).mgt.halted.getLsbD core = true
    :=
  ⟨.a, 1, withMgt (fun m => { m with halted := 2 }) (inState base 0x5A), 5, by decide⟩

theorem test_wit_MonitorCalls_34 : ∃ (p : Plate) (core : Nat) (s : State) (op : DbgOp), s.up p = true ∧ core < 4 ∧ (∀
    (n : Nat), op ≠ DbgOp.counter n) ∧ ((if (s.pl p).mgt.worldOf core = World.secure ∨ (s.pl p).mgt.haltedM.getLsbD
    core = true then (s.debugEnables p).getLsbD 3 else (s.debugEnables p).getLsbD 1) = false ∨ (s.pl
    p).mgt.halted.getLsbD core = false) :=
  ⟨.a, 1, base, .readReg 0x1005, rfl, by decide, by simp, by decide⟩

theorem test_wit_MonitorCalls_35 : ∃ (p : Plate) (s : State), s.up p = true :=
  ⟨.a, oneQueued, by decide⟩

theorem test_wit_FirmwareMakeready_1 : ∃ (r : JobRef) (j : Job) (s : State), Taken s r 136 j ∧ s.impoBusy = false ∧
    s.homesAll r.plate = false ∧ s.wear r.plate ≠ 3 :=
  ⟨ar, admJob (adm 0x88), peerHome (withAdm (adm 0x88)), by decide⟩

theorem test_wit_FirmwareMakeready_2 : ∃ (r : JobRef) (j : Job) (s : State), Taken s r 137 j ∧ s.impoBusy = false ∧
    s.homesAll r.plate = false ∧ s.wear r.plate ≠ 3 :=
  ⟨ar, admJob (adm 0x89), (withAdm (adm 0x89)).each [.a, .b] fun s p => s.updSl p fun x => { x with impo := [(1, { slice1 with home := .b })] }, by decide⟩

theorem test_wit_FirmwareMakeready_3 : ∃ (p : Plate) (k : Makeready) (s : State), (s.pl p).pr.makeready = some k ∧
    k.step = 5 ∧ k.fell = false ∧ s.past k.since 5000000 = true ∧ s.up p.peer = false :=
  ⟨.a, mk5, at_ 5000000 ((withPr fun r => { r with makeready := some mk5 }).updPow .b fun x => { x with phase := .reset }), by decide⟩

theorem test_wit_FirmwareMakeready_4 : ∃ (p : Plate) (k : Makeready) (s : State), (s.pl p).pr.makeready = some k ∧
    k.step = 5 ∧ k.fell = false ∧ s.past k.since 5000000 = true ∧ s.up p.peer = true ∧ ((s.pl p.peer).pr.mode ≠
    Mode.resync ∨ (s.pl p.peer).mgt.slotS = true ∨ (s.pl p.peer).mgt.slotN = true) :=
  ⟨.a, mk5, at_ 5000000 (withPr fun r => { r with makeready := some mk5 }), by decide⟩

theorem test_wit_FirmwareMakeready_5 : ∃ (p : Plate) (t0 : Nat) (s : State), s.up p = true ∧ (s.pl p).pr.mixed = false
    ∧ s.sameImages = false ∧ (s.pl p).pr.mixedFrom = some t0 ∧ s.past t0 86400000000 = true :=
  ⟨.a, 0, at_ 86400000000 (withPr (fun r => { r with mixedFrom := some 0 }) (withMgt fun m => { m with imgS := { version := 7 } })), by decide⟩

theorem test_wit_Migration_1 : ∃ (r : JobRef) (j : Job) (h : Hold) (s : State), Taken s r 139 j ∧ j.desc.fl 2 2 = 0 ∧
    s.impoBusy = false ∧ s.drawWaits r.plate vaultInst packageDraws = false ∧ (s.pl r.plate).vlt.hold = some h :=
  ⟨ar, admJob (adm 0x8B), {}, (withAdm (adm 0x8B)).updVlt .a fun v => { v with hold := some {} }, by decide⟩

theorem test_wit_Migration_2 : ∃ (r : JobRef) (j : Job) (s : State), Taken s r 139 j ∧ j.desc.fl 2 2 = 0 ∧ s.impoBusy
    = false ∧ s.drawWaits r.plate vaultInst packageDraws = false ∧ (s.pl r.plate).vlt.hold = none ∧ (∀ e ∈ (s.pl
    r.plate).sl.impo, e.2.st = SliceSt.free) ∧ ∀ q ∈ s.holders r.plate, (s.pl q).vlt.changes = [] :=
  ⟨ar, admJob (adm 0x8B), (withAdm (adm 0x8B)).updSl .a fun x => { x with impo := [] }, by decide⟩

theorem test_wit_Migration_3 : ∃ (r : JobRef) (j : Job) (s : State), Taken s r 139 j ∧ j.desc.fl 2 2 = 1 :=
  ⟨ar, admJob (admFl 0x8B 4), withAdm (admFl 0x8B 4), by decide⟩

theorem test_wit_Migration_4 : ∃ (r : JobRef) (j : Job) (a : Apply) (s : State), Taken s r 140 j ∧ j.desc.fl 2 2 = 0 ∧
    s.impoBusy = false ∧ (s.pl r.plate).vlt.apply = some a ∧ s.canDeal r.plate = true ∧ s.refuses r.plate false = none
    ∧ s.targetEmpty r.plate = true :=
  ⟨ar, admJob chunkCmd, apply1, applying (withAdm chunkCmd), by decide +kernel⟩

theorem test_wit_Migration_5 : ∃ (r : JobRef) (j : Job) (s : State), Taken s r 140 j ∧ j.desc.fl 2 2 = 1 ∧ receiptLen
    ≤ BitVec.toNat j.desc.outCap ∧ s.canDraw r.plate vaultInst 2 = true ∧ s.refuses r.plate false = none :=
  ⟨ar, admJob { admFl 0x8C 4 with outCap := 10000 }, (withAdm { admFl 0x8C 4 with outCap := 10000 }), by decide⟩

theorem test_wit_RecorderAndLog_1 : ∃ (p : Plate) (profile : Nat) (trigger : BitVec 16) (s : State), triggerProfile
    trigger.toNat profile = true ∧ (s.pl p).pow.phase ≠ Phase.off ∧ (s.pl p).nvm.coalesce = false :=
  ⟨.a, 0, 1, base, by decide⟩

theorem test_wit_RecorderAndLog_2 : ∃ (profile : Nat) (trigger : BitVec 16), triggerProfile trigger.toNat profile =
    false :=
  ⟨4, 1, by decide⟩

theorem test_wit_RecorderAndLog_3 : ∃ (p : Plate) (k : Nat) (r : Record) (l : List Record) (s : State), (s.pl
    p).nvm.priority = r :: l ∧ s.optime p / 1000 ≤ (s.pl p).nvm.winStart ∧ (s.pl p).nvm.full = false ∧ (s.pl
    p).nvm.stopFull = false ∧ LogPageLasts s p k :=
  ⟨.a, 8, rec0, [], withNvm fun n => { n with priority := [rec0], winStart := 1 }, by unfold LogPageLasts; decide⟩

theorem test_wit_RecorderAndLog_4 : ∃ (p : Plate) (k : Nat) (r : Record) (l : List Record) (s : State), (s.pl
    p).nvm.priority = r :: l ∧ s.optime p / 1000 ≤ (s.pl p).nvm.winStart ∧ (s.pl p).nvm.full = false ∧ (s.pl
    p).nvm.stopFull = false ∧ (s.pl p).nvm.inWindow < 999 ∧ ¬LogPageLasts s p k ∧ (s.pl p).nvm.spares ≠ 0 :=
  ⟨.a, 9, rec0, [], withNvm fun n => { n with priority := [rec0], winStart := 1 }, by unfold LogPageLasts; decide⟩

theorem test_wit_RecorderAndLog_5 : ∃ (p : Plate) (k : Nat) (r : Record) (t0 : Nat) (l : List (Record × Nat)) (s :
    State), (s.pl p).nvm.staged = (r, t0) :: l ∧ (s.pl p).nvm.priority = [] ∧ s.optime p / 1000 ≤ (s.pl
    p).nvm.winStart ∧ (s.pl p).nvm.full = false ∧ (s.pl p).nvm.stopFull = false ∧ (s.pl p).nvm.inWindow < 990 ∧
    LogPageLasts s p k ∧ (s.pl p).nvm.coalesce = false ∧ r.merged = 0 :=
  ⟨.a, 8, rec0, 0, [], withNvm fun n => { n with staged := [(rec0, 0)], winStart := 1 }, by unfold LogPageLasts; decide⟩

theorem test_wit_RecorderAndLog_6 : ∃ (p : Plate) (k : Nat) (r : Record) (t0 : Nat) (l : List (Record × Nat)) (s :
    State), (s.pl p).nvm.staged = (r, t0) :: l ∧ (s.pl p).nvm.priority = [] ∧ s.optime p / 1000 ≤ (s.pl
    p).nvm.winStart ∧ (s.pl p).nvm.full = false ∧ (s.pl p).nvm.stopFull = false ∧ (s.pl p).nvm.inWindow < 990 ∧
    LogPageLasts s p k ∧ s.past t0 1000000 = true :=
  ⟨.a, 8, rec0, 0, [], withNvm fun n => { n with staged := [(rec0, 0)], winStart := 1 }, by unfold LogPageLasts; decide⟩

theorem test_wit_RecorderAndLog_7 : ∃ (p : Plate) (k : Nat) (r : Record) (t0 : Nat) (l : List (Record × Nat)) (s :
    State), (s.pl p).nvm.staged = (r, t0) :: l ∧ (s.pl p).nvm.priority = [] ∧ s.optime p / 1000 ≤ (s.pl
    p).nvm.winStart ∧ (s.pl p).nvm.full = false ∧ (s.pl p).nvm.stopFull = false ∧ (s.pl p).nvm.inWindow < 990 ∧
    LogPageLasts s p k ∧ s.past t0 1000000 = false :=
  ⟨.a, 8, rec0, 1000000, [], withNvm fun n => { n with staged := [(rec0, 1000000)], winStart := 1 }, by unfold LogPageLasts; decide⟩

theorem test_wit_RecorderAndLog_8 : ∃ (p : Plate) (s : State), (s.pl p).nvm.winStart < s.optime p / 1000 ∧ (s.pl
    p).nvm.full = false ∧ ((s.pl p).nvm.stopFull = false ∨ (s.pl p).nvm.dropWin = 0) :=
  ⟨.a, withNvm fun n => { n with optime := 5000 }, by decide⟩

theorem test_wit_RecorderAndLog_9 : ∃ (r : JobRef) (j : Job) (s : State), Taken s r 142 j :=
  ⟨ar, admJob (adm 0x8E), withAdm (adm 0x8E), by decide⟩

theorem test_wit_RecorderAndLog_10 : ∃ (r : JobRef) (j : Job) (s : State), Taken s r 141 j ∧ s.drawWaits r.plate
    vaultInst 2 = false :=
  ⟨ar, admJob (adm 0x8D), withAdm (adm 0x8D), by decide⟩

theorem test_wit_NvmCommits_1 : ∃ (p : Plate) (g : Machine.Group) (l : List Machine.Group) (lpn : Nat) (x : Nat) (s :
    State), (s.pl p).nvm.groups = g :: l ∧ s.up p = true ∧ g.items = [] ∧ g.journal = none ∧ (g.kind = GroupKind.page
    ∨ g.kind = GroupKind.wear ∨ g.kind = GroupKind.badPage) ∧ (s.pl p).nvm.waiting = [] ∧ g.pages = [lpn] ∧ g.taken =
    [x] ∧ PagesLast s p g ∧ ((s.pl p).nvm.page x).use_ = PageUse.taken :=
  ⟨.a, group7, [], 7, 344064, page7 5, by unfold PagesLast; decide⟩

theorem test_wit_NvmCommits_2 : ∃ (p : Plate) (g : Machine.Group) (l : List Machine.Group) (id : Nat) (k : Nat) (v :
    Slot) (s : State), (s.pl p).nvm.groups = g :: l ∧ s.up p = true ∧ g.kind = GroupKind.mirror id ∧ g.items =
    [VItem.slot k v] ∧ (s.pl p).nvm.waiting = [] ∧ PagesLast s p g :=
  ⟨.a, { kind := .mirror 0, items := [.slot 32 {}] }, [], 0, 32, {},
    withNvm fun n => { n with groups := [{ kind := .mirror 0, items := [.slot 32 {}] }] }, by unfold PagesLast; decide⟩

theorem test_wit_NvmCommits_3 : ∃ (p : Plate) (g : Machine.Group) (l : List Machine.Group) (id : Nat) (k : Nat) (v :
    SliceRec) (c : Change) (i : Word) (r : Result) (j : Job) (s : State), (s.pl p).nvm.groups = g :: l ∧ s.up p = true
    ∧ g.kind = GroupKind.own id ∧ g.items = [VItem.record k v] ∧ (s.pl p).nvm.waiting = [] ∧ PagesLast s p g ∧
    s.change? p id = some c ∧ c.after = After.finish RingRef.admin i r ∧ s.job? p RingRef.admin i = some j :=
  ⟨.a, { kind := .own 4, items := [.record 1 {}] }, [], 4, 1, {}, { id := 4, after := .finish .admin 3 {} }, 3, {}, admJob (adm 0x88),
    (withNvm (fun n => { n with groups := [{ kind := .own 4, items := [.record 1 {}] }] }) oneQueued).updVlt .a fun v =>
    { v with changes := [{ id := 4, after := .finish .admin 3 {} }] }, by unfold PagesLast; decide⟩

theorem test_wit_NvmCommits_4 : ∃ (p : Plate) (g : Machine.Group) (l : List Machine.Group) (s : State), (s.pl
    p).nvm.groups = g :: l ∧ s.up p = true ∧ g.items = [] ∧ g.journal = none ∧ g.kind = GroupKind.epoch ∧ (s.pl
    p).nvm.waiting = [] ∧ PagesLast s p g :=
  ⟨.a, { kind := .epoch }, [], withNvm fun n => { n with groups := [{ kind := .epoch }] }, by unfold PagesLast; decide⟩

theorem test_wit_NvmCommits_5 : ∃ (p : Plate) (g : Machine.Group) (l : List Machine.Group) (id : Nat) (drk : Bytes)
    (salt : Bytes) (test : Bool) (s : State), (s.pl p).nvm.groups = g :: l ∧ s.up p = true ∧ g.kind = GroupKind.mirror
    id ∧ g.items = [VItem.root drk salt test] ∧ (s.pl p).nvm.waiting = [] ∧ PagesLast s p g :=
  ⟨.a, { kind := .mirror 0, items := [.root [1] [2] false] }, [], 0, [1], [2], false,
    withNvm fun n => { n with groups := [{ kind := .mirror 0, items := [.root [1] [2] false] }] }, by unfold PagesLast; decide⟩

theorem test_wit_NvmCommits_6 : ∃ (p : Plate) (g : Machine.Group) (l : List Machine.Group) (k : Nat) (x : Nat) (s :
    State), (s.pl p).nvm.groups = g :: l ∧ s.up p = true ∧ g.items = [] ∧ g.journal = none ∧ g.kind = GroupKind.wear ∧
    g.taken = [x] ∧ (8 < k ∨ 1000000 ≤ ((s.pl p).nvm.page x).cycles) ∧ (∀ (z : Nat), z ≠ x → ((s.pl p).nvm.page
    z).cycles < 1000000) ∧ (s.pl p).nvm.retVault < 65535 :=
  ⟨.a, group7, [], 9, 344064, page7 5, rfl, rfl, rfl, rfl, rfl, rfl, by decide, fun z hz => (congrArg (·.cycles) (page7_cycles z hz)).trans_lt (Nat.zero_lt_succ _), by decide⟩

theorem test_wit_NvmCommits_7 : ∃ (p : Plate) (s : State), s.up p = true ∧ (s.pl p).nvm.noWrite = false ∧ (s.pl
    p).nvm.stored + 60000 ≤ s.optime p :=
  ⟨.a, withNvm fun n => { n with optime := 60000 }, by decide⟩

theorem test_wit_NvmCommits_8 : ∃ (p : Plate) (lpn : Nat) (s : State), s.up p = true ∧ lpn < 344064 ∧ (s.pl
    p).nvm.noWrite = false ∧ ((s.pl p).nvm.page ((s.pl p).nvm.pageOf lpn)).cycles + 20000 < (s.pl p).nvm.mostWorn :=
  ⟨.a, 7, withNvm fun v => { v with pages := [(344064, some { cycles := 30000 })] }, by decide⟩

theorem test_wit_NvmCommits_9 : ∃ (p : Plate) (lpn : Nat) (s : State), (s.pl p).nvm.mostWorn ≤ ((s.pl p).nvm.page
    ((s.pl p).nvm.pageOf lpn)).cycles + 20000 ∨ (s.pl p).nvm.noWrite = true :=
  ⟨.a, 7, base, by decide⟩

theorem test_wit_NvmCommits_10 : ∃ (p : Plate) (s : State), s.up p = true ∧ s.past (s.pl p).vlt.maskAt 64000 = true :=
  ⟨.a, base, by decide⟩

theorem test_wit_NvmCommits_11 : ∃ (p : Plate) (v : Nat) (l : List GMsg) (s : State), s.gut p = GMsg.wear v :: l :=
  ⟨.a, 2, [], { base with gutA := [.wear 2] }, by decide⟩

theorem test_wit_NvmCommits_12 : ∃ (p : Plate) (v : Nat) (l : List GMsg) (s : State), s.gut p = GMsg.epoch v :: l :=
  ⟨.a, 2, [], { base with gutA := [.epoch 2] }, by decide⟩

theorem test_wit_PowerUpAndDown_1 : ∃ (p : Plate) (s : State), (s.pl p).pow.phase = Phase.off ∧ (s.pl p).pow.perst =
    true :=
  ⟨.a, State.reset, by decide⟩

theorem test_wit_PowerUpAndDown_2 : ∃ (p : Plate) (s : State), (s.pl p).pow.phase = Phase.reset ∧ s.mayStart p = true
    :=
  ⟨.a, inReset, by decide⟩

theorem test_wit_PowerUpAndDown_3 : ∃ (p : Plate) (s : State), (s.pl p).pow.phase ≠ Phase.off ∧ s.mayStart p = false
    :=
  ⟨.a, base, by decide⟩

theorem test_wit_PowerUpAndDown_4 : ∃ (p : Plate) (s : State), (s.pl p).pow.phase ≠ Phase.off ∧ s.pwrgood = true ∧
    s.needsToken p.peer = false :=
  ⟨.a, withJob job0, by decide⟩

theorem test_wit_PowerUpAndDown_5 : ∃ (p : Plate) (s : State), (s.pl p).pow.phase = Phase.off :=
  ⟨.a, State.reset, by decide⟩

theorem test_wit_PcieIsland_1 : ∃ (p : Plate) (s : State), (s.pl p).pow.perst = false ∧ s.up p = true ∧ (s.pl
    p).tmp.ko = false ∧ (s.pl p).flt.react = React.none ∧ (s.pl p).pr.token = false :=
  ⟨.a, linked, by decide⟩

theorem test_wit_PcieIsland_2 : ∃ (p : Plate) (s : State), (s.pl p).pow.perst = true ∧ s.up p = true ∧ (s.pl
    p).pow.ready = true :=
  ⟨.a, withPow fun w => { w with perst := true }, by decide⟩

theorem test_wit_PcieIsland_3 : ∃ (p : Plate) (s : State), (s.pl p).pow.perst = true ∧ s.up p = true ∧ (s.pl
    p).pow.ready = false :=
  ⟨.a, withPow fun w => { w with perst := true, ready := false }, by decide⟩

theorem test_wit_PcieIsland_4 : ∃ (p : Plate) (s : State), (s.pl p).pow.perst = true ∧ s.up p = false :=
  ⟨.a, State.reset, by decide⟩

theorem test_wit_PcieIsland_5 : ∃ (p : Plate) (s : State), s.up p = true :=
  ⟨.a, withPow fun w => { w with fnMask := true, pba := [3] }, by decide⟩

theorem test_wit_PcieIsland_6 : ∃ (p : Plate) (s : State), ((s.pl p).pow.linkUp = true ∨ s.mayStart p = true) ∧ (s.pl
    p).pow.cfgReady = false :=
  ⟨.a, withPow fun w => { w with linkUp := true }, by decide⟩

theorem test_wit_PcieIsland_7 : ∃ (p : Plate) (s : State), (s.pl p).pow.linkUp = false ∧ s.mayStart p = false :=
  ⟨.a, base, by decide⟩

theorem test_wit_PcieIsland_8 : ∃ (p : Plate) (s : State), (s.pl p).pow.linkUp = true ∧ (s.pl p).pow.cfgReady = true
    :=
  ⟨.a, linked, by decide⟩

theorem test_wit_PcieIsland_9 : ∃ (p : Plate) (s : State), (s.pl p).pow.linkUp = true :=
  ⟨.a, linked, by decide⟩

theorem test_wit_PcieIsland_10 : ∃ (p : Plate) (v : Nat) (s : State), (s.pl p).pow.cfgReady = true ∧ v < 2048 ∧ (s.pl
    p).pow.pba = [v] ∧ (s.pl p).pow.fnMask = false :=
  ⟨.a, 3, withPow (fun w => { w with pba := [3] }) linked, by decide⟩

theorem test_wit_ClockSupplyAndLinks_1 : ∃ (p : Plate) (s : State), s.up p = true ∧ s.past (s.pl p).pow.tmbAt 1000 =
    true :=
  ⟨.a, at_ 1000, by decide⟩

theorem test_wit_ClockSupplyAndLinks_2 : ∃ (p : Plate) (s : State), s.past (s.pl p).pow.tmbAt 1000 = false :=
  ⟨.a, at_ 999, by decide⟩

theorem test_wit_ClockSupplyAndLinks_3 : ∃ (p : Plate) (s : State), s.up p = true :=
  ⟨.a, base, by decide⟩

theorem test_wit_ClockSupplyAndLinks_4 : ∃ (p : Plate) (s : State), s.barReady p = true :=
  ⟨.a, base, by decide⟩

theorem test_wit_ClockSupplyAndLinks_5 : ∃ (p : Plate) (mv : Nat) (s : State), s.up p = true ∧ (s.pl p).pow.avsErr =
    false ∧ 670 ≤ mv ∧ mv ≤ 830 ∧ mv % 10 = 0 ∧ ∀ (t : Nat), (s.pl p).pow.targetAt = some t → t + 10 ≤ s.clock :=
  ⟨.a, 830, base, by decide⟩

theorem test_wit_ClockSupplyAndLinks_6 : ∃ (p : Plate) (mv : Nat) (s : State), mv < 670 ∨ 830 < mv ∨ mv % 10 ≠ 0 ∨
    (s.pl p).pow.avsErr = true ∨ ∃ t, (s.pl p).pow.targetAt = some t ∧ s.clock < t + 10 :=
  ⟨.a, 835, base, by decide⟩

theorem test_wit_ClockSupplyAndLinks_7 : ∃ (p : Plate) (s : State), s.mctpAnswers p = true :=
  ⟨.a, base, by decide⟩

theorem test_wit_ClockSupplyAndLinks_8 : ∃ (p : Plate) (s : State), s.mctpAnswers p = false :=
  ⟨.a, State.reset, by decide⟩

theorem test_wit_RegisterAccesses_1 : ∃ (p : Plate) (i : Nat) (v : Word) (s : State), s.acceptsCopied p i = true ∧
    (s.impo p i).st ≠ SliceSt.free ∧ i < 4096 ∧ s.gutterUp p = true ∧ v ≠ 0 :=
  ⟨.a, 1, 64000001, base, by decide⟩

theorem test_wit_RegisterAccesses_2 : ∃ (o : Nat) (size : Nat), ¬(size = 4 ∧ o % 4 = 0) ∧ ¬(size = 8 ∧ o % 8 = 0) :=
  ⟨0x100128, 2, by decide⟩

theorem test_wit_RegisterAccesses_3 : ∃ (o : Nat), o % 8 = 0 ∧ ((copiedSlice o).isSome && wideCopied o) = false :=
  ⟨0x10, by decide⟩

theorem test_wit_RegisterAccesses_4 : ∃ (p : Plate) (s : State), s.barReady p = true :=
  ⟨.a, base, by decide⟩

theorem test_wit_RegisterAccesses_5 : ∃ (p : Plate) (k : Nat) (v : Word) (s : State), (s.pl p).pow.cfgReady = true ∧ k
    < 2048 ∧ (s.pl p).pow.pba = [] ∧ v ≠ 0 :=
  ⟨.a, 2047, 7, linked, by decide⟩

theorem test_wit_RegisterAccesses_6 : ∃ (p : Plate) (s : State), s.up p = true :=
  ⟨.a, base, by decide⟩

theorem test_wit_RegisterAccesses_7 : ∃ (p : Plate) (i : Nat) (v : Word) (l : List GMsg) (s : State), s.gut p =
    GMsg.copy (1048576 + 256 * i + 40) 4 (BitVec.setWidth 64 v) :: l ∧ s.up p = true ∧ i < 4096 ∧ (s.impo p i).st ≠
    SliceSt.free ∧ (s.impo p i).home = p.peer ∧ v ≠ 0 :=
  ⟨.a, 1, 70000000, [], copyComes, by decide⟩

theorem test_wit_RegisterAccesses_8 : ∃ (p : Plate) (v : DWord) (s : State), s.barReady p = true ∧ BitVec.getLsbD v 0
    = true :=
  ⟨.a, 1, base, by decide⟩

theorem test_wit_RegisterAccesses_9 : ∃ (p : Plate) (i : Nat) (v : Word) (s : State), s.barReady p = true ∧
    BitVec.getLsbD v 0 = true ∧ (s.impo p i).st ≠ SliceSt.free :=
  ⟨.a, 1, 1, base, by decide⟩

theorem test_wit_RegisterAccesses_10 : ∃ (p : Plate) (i : Nat) (s : State), (s.impo p i).st = SliceSt.free :=
  ⟨.a, 2, base, by decide⟩

theorem test_wit_GutterLinks_1 : ∃ (p : Plate) (s : State), s.up p = true ∧ s.past (s.pl p).pr.hbSent 100 = true :=
  ⟨.a, base, by decide⟩

theorem test_wit_GutterLinks_2 : ∃ (p : Plate) (k : Nat) (l : List GMsg) (s : State), s.gut p = GMsg.beat k :: l ∧ k <
    2 ∧ s.up p = true ∧ (s.pl p).pr.linkUp k = true :=
  ⟨.a, 1, [.token], gets [.beat 1, .token], by decide⟩

theorem test_wit_GutterLinks_3 : ∃ (p : Plate) (k : Nat) (l : List GMsg) (s : State), s.gut p = GMsg.beat k :: l ∧ k <
    2 ∧ s.up p = true ∧ (s.pl p).pr.linkUp k = false ∧ (s.pl p).pr.lost = false ∧ s.clock < (s.pl p).pr.hbAt k + 200 ∧
    9 ≤ (s.pl p).pr.hbRun k ∧ 10 ≤ (s.pl p.peer).pr.hbRun k :=
  ⟨.a, 0, [], gets [.beat 0] (peerPr (fun r => { r with hbRun0 := 10 }) (withPr fun r => { r with hbAt0 := 999900, hbRun0 := 9, links := 2 })), by decide⟩

theorem test_wit_GutterLinks_4 : ∃ (p : Plate) (k : Nat) (l : List GMsg) (s : State), s.gut p = GMsg.beat k :: l ∧ k <
    2 ∧ s.up p = true ∧ (s.pl p).pr.linkUp k = false ∧ ((s.pl p).pr.hbAt k + 200 ≤ s.clock ∨ (s.pl p).pr.hbRun k < 9 ∨
    (s.pl p.peer).pr.hbRun k < 10) :=
  ⟨.a, 0, [], gets [.beat 0] (withPr fun r => { r with hbAt0 := 999900, hbRun0 := 8, links := 2 }), by decide⟩

theorem test_wit_GutterLinks_5 : ∃ (p : Plate) (k : Nat) (s : State), s.up p = true ∧ s.silent p k = true ∧ (s.pl
    p).pr.linkUp k = true ∧ k < 2 :=
  ⟨.a, 0, base, by decide⟩

theorem test_wit_GutterLinks_6 : ∃ (p : Plate) (k : Nat) (s : State), s.silent p k = false :=
  ⟨.a, 0, withPr fun r => { r with hbAt0 := 999001 }, by decide⟩

theorem test_wit_GutterLinks_7 : ∃ (p : Plate) (s : State), s.up p = true ∧ (s.pl p).pr.lost = false ∧ s.silent p 0 =
    true ∧ s.silent p 1 = true ∧ (s.pl p).pr.mode = Mode.paired ∧ (s.pl p).pr.met = true ∧ (s.pl p).pr.stale = false ∧
    (s.pl p).pr.takeover = none ∧ (s.pl p).vlt.changes = [] ∧ GMsg.token ∉ s.gut p ∧ s.needsToken p.peer = false :=
  ⟨.a, down 3, by decide⟩

theorem test_wit_MirrorsAndToken_1 : ∃ (p : Plate) (key : Bytes) (c : Change) (l : List GMsg) (s : State), s.gut p =
    GMsg.mirror key c :: l ∧ s.opens p key = true ∧ (∀ (e : Nat) (v : Ledger), VItem.ledger e v ∈ c.items →
    s.ledgerBad p e = false) ∧ (∀ (k : Nat) (v : List Ledger), VItem.ledgerPage k v ∉ c.items) ∧ itemDraws c.items =
    [] :=
  ⟨.a, [], { items := [.slot 32 {}] }, [], gets [.mirror [] { items := [.slot 32 {}] }], by simp [gets, State.gut, State.opens, itemDraws, VItem.draws]⟩

theorem test_wit_MirrorsAndToken_2 : ∃ (p : Plate) (key : Bytes) (c : Change) (l : List GMsg) (s : State), s.gut p =
    GMsg.mirror key c :: l ∧ s.opens p key = true ∧ itemDraws c.items ≠ [] ∧ s.canDraw p vaultInst (itemDraws
    c.items).length = false :=
  ⟨.a, [], { items := [.root [] [] false] }, [], gets [.mirror [] { items := [.root [] [] false] }] halted, by decide⟩

theorem test_wit_MirrorsAndToken_3 : ∃ (p : Plate) (key : Bytes) (c : Change) (drk : Bytes) (salt : Bytes) (test :
    Bool) (l : List GMsg) (s : State), s.gut p = GMsg.mirror key c :: l ∧ s.opens p key = true ∧ c.items = [VItem.root
    drk salt test] ∧ s.canDraw p vaultInst 2 = true :=
  ⟨.a, [], { items := [.root [] [] false] }, [], [], false, [], gets [.mirror [] { items := [.root [] [] false] }], by decide⟩

theorem test_wit_MirrorsAndToken_4 : ∃ (p : Plate) (key : Bytes) (c : Change) (e : Nat) (v : Ledger) (l : List GMsg)
    (s : State), s.gut p = GMsg.mirror key c :: l ∧ s.opens p key = true ∧ (∀ x ∈ (s.pl p.peer).vlt.changes, c.id ≤
    x.id) ∧ c.items = [VItem.ledger e v] ∧ s.ledgerBad p e = true :=
  ⟨.a, [], { items := [.ledger 5 {}] }, 5, {}, [],
    gets [.mirror [] { items := [.ledger 5 {}] }] (base.updVlt .a fun v => { v with badPages := [0] }), by decide⟩

theorem test_wit_MirrorsAndToken_5 : ∃ (p : Plate) (c : Change) (id : Nat) (l : List GMsg) (s : State), s.gut p =
    GMsg.ack id :: l ∧ s.change? p id = some c ∧ c.acked = false :=
  ⟨.a, change1, 4, [], gets [.ack 4] changing, by decide⟩

theorem test_wit_MirrorsAndToken_6 : ∃ (p : Plate) (s : State), s.up p = true ∧ s.gutterUp p = true ∧ s.up p.peer =
    true ∧ (s.pl p.peer).pr.lost = false :=
  ⟨.a, withJob job0, by decide⟩

theorem test_wit_MirrorsAndToken_7 : ∃ (s : State), s.joined = true ∧ s.pa.pr.mode = Mode.paired ∧ s.pb.pr.mode =
    Mode.paired ∧ s.pa.vlt.mounted = true ∧ s.pb.vlt.mounted = true ∧ s.past s.pa.pr.scrubAt 86400000000 = true :=
  ⟨at_ 90000000000 ((base.updVlt .b fun v => { v with mounted := true })), by decide⟩

theorem test_wit_MirrorsAndToken_8 : ∃ (p : Plate) (off : Nat) (s : State), s.up p = true ∧ s.gutterUp p = true ∧
    (s.pl p).pow.source ≠ 0 ∧ 500 < off ∧ (s.pl p).pr.tbAt = none :=
  ⟨.a, 501, withPow fun w => { w with source := 1 }, by decide⟩

theorem test_wit_MirrorsAndToken_9 : ∃ (p : Plate) (dt : Nat) (s : State), s.joined = true ∧ 40 < dt ∧ s.pa.pr.skewAt
    = none ∧ s.pb.pr.skewAt = none ∧ Option.any (fun t0 => s.past t0 100000) (s.pl p).pr.skewFrom = true :=
  ⟨.a, 50, withPr fun r => { r with skewFrom := some 0 }, by decide⟩

theorem test_wit_MirrorsAndToken_10 : ∃ (p : Plate) (s : State), s.joined = true ∧ (s.pl p).pr.skewFrom = none :=
  ⟨.a, base, by decide⟩

theorem test_wit_MirrorsAndToken_11 : ∃ (p : Plate) (l : List GMsg) (s : State), s.gut p = GMsg.askToken :: l ∧ (s.pl
    p).pr.token = true ∧ s.needsToken p = false ∧ (s.pl p).pr.resetHeld = false ∧ s.gutterUp p = true :=
  ⟨.a, [], gets [.askToken] (withPr fun r => { r with token := true }), by decide⟩

theorem test_wit_MirrorsAndToken_12 : ∃ (p : Plate) (l : List GMsg) (s : State), s.gut p = GMsg.askToken :: l ∧ ((s.pl
    p).pr.token = false ∨ s.needsToken p = true ∨ (s.pl p).pr.resetHeld = true) :=
  ⟨.a, [], gets [.askToken], by decide⟩

theorem test_wit_MirrorsAndToken_13 : ∃ (p : Plate) (l : List GMsg) (s : State), s.gut p = GMsg.token :: l ∧
    s.needsToken p = false :=
  ⟨.a, [], gets [.token] (withPr fun r => { r with asking := true }), by decide⟩

theorem test_wit_MirrorsAndToken_14 : ∃ (p : Plate) (l : List GMsg) (s : State), s.gut p = GMsg.token :: l ∧ (s.pl
    p).pr.seqSt = SeqSt.plateReset ∧ s.gutterUp p = true ∧ s.up p = true ∧ (s.pl p.peer).pow.phase ≠ Phase.reset :=
  ⟨.a, [], gets [.token] ((withJob job0).updPr .a fun r => { r with asking := true, seqSt := .plateReset }), by decide⟩

theorem test_wit_MirrorsAndToken_15 : ∃ (p : Plate) (l : List GMsg) (s : State), s.gut p = GMsg.token :: l ∧ (s.pl
    p.peer).pow.phase = Phase.reset :=
  ⟨.a, [], gets [.token] (peerDown), by decide⟩

theorem test_wit_MirrorsAndToken_16 : ∃ (p : Plate) (s : State), s.tokenDue p = true ∧ s.gutterUp p = true :=
  ⟨.a, at_ 60000000 (withPr fun r => { r with token := true, resetHeld := true, leftReset := 0 }), by decide⟩

theorem test_wit_MirrorsAndToken_17 : ∃ (p : Plate) (s : State), s.tokenDue p = false :=
  ⟨.a, base, by decide⟩

theorem test_wit_WitnessLine_1 : ∃ (p : Plate) (cfg : Word) (s : State), s.up p = true ∧ (s.pl p).pow.ready = true ∧
    BitVec.getLsbD cfg 31 = true ∧ (s.pl p).pr.witOn = false :=
  ⟨.a, 0xFFFFFFFF, base, by decide⟩

theorem test_wit_WitnessLine_2 : ∃ (p : Plate) (s : State), s.up p = true ∧ (s.pl p).pr.witOn = true ∧ (s.pl
    p).pr.mode ≠ Mode.leaving ∧ s.past (s.pl p).pr.beatAt 1000 = true :=
  ⟨.a, wit, by decide⟩

theorem test_wit_WitnessLine_3 : ∃ (p : Plate) (s : State), s.up p = true ∧ (s.pl p).pr.witOn = true ∧ (s.pl
    p).pr.mode = Mode.leaving ∧ s.past (s.pl p).pr.beatAt 1000 = true :=
  ⟨.a, witReads (wit.updPr .a fun r => { r with mode := .leaving }), by decide⟩

theorem test_wit_WitnessLine_4 : ∃ (p : Plate) (s : State), (∃ e ∈ (s.pl p).sl.reads, e.1 = ReadKind.witness) ∧ (s.pl
    p).pr.firstRead = false ∧ (s.pl p).pr.witErr = false ∧ (s.pl p).pr.mode ≠ Mode.leaving :=
  ⟨.a, witReads, by decide⟩

theorem test_wit_WitnessLine_5 : ∃ (p : Plate) (s : State), ∃ e ∈ (s.pl p).sl.reads, e.1 = ReadKind.witness :=
  ⟨.a, witReads, by decide⟩

theorem test_wit_WitnessLine_6 : ∃ (p : Plate) (s : State), s.up p = true ∧ (s.pl p).pr.witOn = true ∧ 3 ≤ (s.pl
    p).pr.fails ∧ (s.pl p).pr.witErr = false :=
  ⟨.a, wit.updPr .a fun r => { r with fails := 3, stale := true }, by decide⟩

theorem test_wit_WitnessLine_7 : ∃ (p : Plate) (s : State), s.up p = true ∧ (s.pl p).pr.witOn = true ∧ (s.pl
    p).pr.firstRead = false ∧ (s.pl p).pr.witErr = false ∧ (s.pl p).pr.stale = false ∧ (s.pl p).pr.peerAt + 20000 <
    (s.pl p).pr.readAt ∧ (s.pl p).pr.atomic = false :=
  ⟨.a, wit.updPr .a fun r => { r with witCfg := 0x80000000, fresh := true, readAt := 999000 }, by decide⟩

theorem test_wit_WitnessLine_8 : ∃ (p : Plate) (s : State), (s.pl p).pr.readAt ≤ (s.pl p).pr.peerAt + 20000 :=
  ⟨.a, wit.updPr .a fun r => { r with peerAt := 980000 }, by decide⟩

theorem test_wit_TakeoverSequence_1 : ∃ (p : Plate) (l : List GMsg) (s : State), s.gut p = GMsg.leave :: l ∧ (s.pl
    p).pr.mode = Mode.paired ∧ s.up p = true ∧ (s.pl p).tmp.ko = false ∧ (s.pl p).pr.takeover = none ∧ (s.pl p).pr.cas
    = true :=
  ⟨.a, [], gets [.leave] wit, by decide⟩

theorem test_wit_TakeoverSequence_2 : ∃ (r : JobRef) (j : Job) (s : State), s.hwAdmin r 144 = some j ∧ s.gutterUp
    r.plate = true ∧ s.up r.plate.peer = true ∧ (s.pl r.plate.peer).pr.mode = Mode.paired :=
  ⟨ar, admJob { opcode := 0x90 }, hw { opcode := 0x90 }, by decide⟩

theorem test_wit_TakeoverSequence_3 : ∃ (r : JobRef) (j : Job) (s : State), s.hwAdmin r 144 = some j ∧ s.gutterUp
    r.plate = false ∧ s.up r.plate = true ∧ (s.pl r.plate).tmp.ko = false ∧ (s.pl r.plate).pr.mode = Mode.paired ∧
    (s.pl r.plate).pr.takeover = none ∧ (s.pl r.plate).pr.cas = false ∧ s.homesAll r.plate = false :=
  ⟨ar, admJob { opcode := 0x90 }, peerHome ((hw { opcode := 0x90 }).updPr .a fun r => { r with links := 0 }), by decide⟩

theorem test_wit_TakeoverSequence_4 : ∃ (r : JobRef) (j : Job) (s : State), s.hwAdmin r 144 = some j ∧ s.gutterUp
    r.plate = false ∧ s.homesAll r.plate = true ∧ s.peerInService r.plate = false :=
  ⟨ar, admJob { opcode := 0x90 },
    peerDown ((hw { opcode := 0x90 }).updPr .a fun r => { r with links := 0 }), by decide⟩

theorem test_wit_TakeoverSequence_5 : ∃ (p : Plate) (k : Takeover) (s : State), (s.pl p).pr.takeover = some k ∧ k.st =
    TakeSt.cas ∧ s.up p = true ∧ (s.pl p).tmp.ko = false :=
  ⟨.a, { st := .cas }, taking .cas, by decide⟩

theorem test_wit_TakeoverSequence_6 : ∃ (p : Plate) (k : Takeover) (s : State), (s.pl p).pr.takeover = some k ∧ k.st =
    TakeSt.quiet ∧ s.past k.since 10000 = true ∧ (s.pl p).tmp.ko = false ∧ s.up p = true ∧ s.up p.peer = false :=
  ⟨.a, { st := .quiet }, peerDown (taking .quiet), by decide⟩

theorem test_wit_TakeoverSequence_7 : ∃ (p : Plate) (k : Takeover) (s : State), (s.pl p).pr.takeover = some k ∧ k.st =
    TakeSt.hold ∧ s.past k.since 10000 = true :=
  ⟨.a, { st := .hold }, taking .hold, by decide⟩

theorem test_wit_FenceWires_1 : ∃ (p : Plate) (s : State), (s.pl p.peer).pr.fencing = true ∧ (s.pl p).pow.phase =
    Phase.running ∧ (s.pl p).pow.fenced = false ∧ (p = Plate.a → (s.pl p).pr.fencing = false) :=
  ⟨.a, peerPr (fun r => { r with fencing := true }) (withJob job0), by decide⟩

theorem test_wit_FenceWires_2 : ∃ (p : Plate) (s : State), (s.pl p.peer).pr.fencing = true ∧ (s.pl p).pow.phase =
    Phase.reset ∧ (s.pl p).pow.fenced = true :=
  ⟨.a, (peerPr (fun r => { r with fencing := true }) inReset).updPow .a fun w => { w with fenced := true }, by decide⟩

theorem test_wit_FenceWires_3 : ∃ (s : State), (s.pl Plate.a).pr.fencing = true :=
  ⟨peerPr (fun r => { r with fencing := true }) (taking .hold), by decide⟩

theorem test_wit_FenceWires_4 : ∃ (p : Plate) (s : State), (s.pl p).pow.fenced = true ∧ (s.pl p.peer).pr.fencing =
    false :=
  ⟨.a, withPow (fun w => { w with fenced := true }) inReset, by decide⟩

theorem test_wit_HandoverAndRejoin_1 : ∃ (r : JobRef) (j : Job) (s : State), s.hwAdmin r 145 = some j ∧ s.gutterUp
    r.plate = true ∧ s.impoBusy = false :=
  ⟨ar, admJob rebal, hw rebal, by decide⟩

theorem test_wit_HandoverAndRejoin_2 : ∃ (r : JobRef) (j : Job) (s : State), s.hwAdmin r 145 = some j ∧ s.gutterUp
    r.plate = false :=
  ⟨ar, admJob rebal, hw rebal (withPr fun r => { r with lost := true, links := 0 }), by decide⟩

theorem test_wit_HandoverAndRejoin_3 : ∃ (o : Plate) (i : Nat) (s : State), (s.impo o i).st = SliceSt.moving ∧ (s.impo
    o i).home = o ∧ s.up o = true ∧ (s.pl o).tmp.ko = false ∧ s.gutterUp o = true ∧ s.movedSent o.peer i = false ∧ ∀ j
    ∈ (s.pl o).sl.jobs, ringSlice j.ring ≠ some i :=
  ⟨.a, 1, moving1, by decide⟩

theorem test_wit_HandoverAndRejoin_4 : ∃ (o : Plate) (i : Nat) (s : State), (s.impo o i).st = SliceSt.moving ∧ (s.impo
    o i).home = o ∧ s.up o = true ∧ (s.pl o).tmp.ko = false ∧ s.gutterUp o = true ∧ s.movedSent o.peer i = false ∧ ∀ j
    ∈ (s.pl o).sl.jobs, ringSlice j.ring = some i → s.movable j = true ∧ (s.ring o j.ring).covers j.index = false :=
  ⟨.a, 1, moving1, by decide⟩

theorem test_wit_HandoverAndRejoin_5 : ∃ (n : Plate) (key : Bytes) (m : Moved) (l : List GMsg) (s : State), s.gut n =
    GMsg.moved key m :: l ∧ s.opens n key = true :=
  ⟨.a, [], { slice := 1 }, [], gets [.moved [] { slice := 1 }], by decide⟩

theorem test_wit_HandoverAndRejoin_6 : ∃ (p : Plate) (s : State), s.joined = true ∧ (s.pl p).pr.mode = Mode.sole ∧
    (s.pl p.peer).pr.mode = Mode.resync ∧ (s.pl p.peer).pr.rejoin = true :=
  ⟨.a, rejoining .sole, by decide⟩

theorem test_wit_HandoverAndRejoin_7 : ∃ (p : Plate) (s : State), s.joined = true ∧ (s.pl p).pr.mode = Mode.resync ∧
    (s.pl p).pr.rejoin = false ∧ (s.pl p.peer).pr.mode = Mode.resync ∧ (s.pl p.peer).pr.rejoin = true ∧ (s.pl
    p).vlt.changes = [] ∧ (s.pl p).pr.cas = false ∧ (s.pl p).pr.makeready = none ∧ s.needsToken p = false ∧
    s.needsToken p.peer = false ∧ (s.pl p.peer).pr.makeready = none ∧ (s.pl p).cus.page.tagOk = true ∧ s.rootWaits =
    false :=
  ⟨.a, rejoining .resync, by decide⟩

theorem test_wit_HandoverAndRejoin_8 : ∃ (p : Plate) (old : Option DWord) (s : State), s.joined = true ∧ (s.pl
    p).pr.mode = Mode.resync ∧ (s.pl p).pr.rejoin = false ∧ (s.pl p.peer).pr.mode = Mode.resync ∧ (s.pl
    p.peer).pr.rejoin = true ∧ (s.pl p).vlt.changes = [] ∧ (s.pl p).pr.cas = true ∧ s.rootWaits = false ∧ old ≠ some
    (witnessWord (s.pl p).pr.epoch (BitVec.toNat (s.pl p).pr.holder)) :=
  ⟨.a, none, (rejoining .resync).updPr .a fun r => { r with witCfg := 0x80000001, firstRead := false }, by decide⟩

theorem test_wit_HandoverAndRejoin_9 : ∃ (p : Plate) (s : State), s.joined = true ∧ (s.pl p).pr.reconciling = true ∧
    s.bothHome = true ∧ (s.pl Plate.a).vlt.changes = [] ∧ (s.pl Plate.b).vlt.changes = [] ∧ (s.pl Plate.a).sl.jobs =
    [] ∧ (s.pl Plate.b).sl.jobs = [] ∧ (s.pl Plate.a).sl.ops = [] ∧ (s.pl Plate.b).sl.ops = [] ∧ (s.pa.cus.page.tagOk
    = true ∨ s.pb.cus.page.tagOk = true) ∧ s.rootWaits = false :=
  ⟨.a, peerPr (fun r => { r with mode := .partition }) (withPr fun r => { r with mode := .partition, reconciling := true }), by decide⟩

theorem test_wit_LegalStatesStayLegal : ∃ (s : State) (t : State), LegalState s ∧ step s = Host.Outcome.next t :=
  ⟨State.reset, { State.reset with clock := 1 }, fun p => by cases p <;> decide, rfl⟩

theorem test_wit_HaltedUntilReset_1 : ∃ (s : State) (t : State) (p : Plate), step s = Host.Outcome.next t ∧ s.up p =
    true ∧ (s.pl p).rng.st = RngSt.halted ∧ t.up p = true :=
  ⟨{ halted with pending := [.hotReset ⟨.a, ⟨8, 5⟩⟩] }, halted, .a, rfl, by decide⟩

theorem test_wit_HaltedUntilReset_2 : ∃ (s : State) (p : Plate) (n : Nat), s.up p = true ∧ (n = 32 ∨ n = 64) ∧ (s.pl
    p).rng.st = RngSt.halted :=
  ⟨halted, .a, 64, by decide⟩

theorem test_wit_HaltedUntilReset_3 : ∃ (s : State) (p : Plate), (s.pl p).rng.st ≠ RngSt.halted :=
  ⟨base.updRng .a fun x => { x with stalls := [(.secure, 32)] }, .a, by decide⟩

end Sys2Proof.Tests
end

/-! PROOFS. The cluster's monitor calls, worlds, watermarks and blocks, the accesses of a core and the debug module (O42). -/

namespace Sys2Proof.Machine

/-! ## The rows of this family (Table 14.2, R315, R321, R325, R337) -/

theorem exec_info (p : Plate) (c : Nat) (s : State) : exec (.info p c) s = .next (s.info p c) := rfl
theorem exec_call (p : Plate) (c : Nat) (l : List DWord) (s : State) : exec (.call p c l) s = .next (s.call p c l) := rfl
theorem exec_ret (p : Plate) (c : Nat) (l : List DWord) (s : State) : exec (.ret p c l) s = .next (s.ret p c l) := rfl
theorem exec_setEntry (p : Plate) (c : Nat) (a : DWord) (s : State) :
    exec (.setEntry p c a) s = .next (s.setEntry p c a) := rfl
theorem exec_wmGive (p : Plate) (c mem new : Nat) (s : State) :
    exec (.wmGive p c mem new) s = .next (s.wmGive p c mem new) := rfl
theorem exec_release (p : Plate) (c b : Nat) (s : State) : exec (.release p c b) s = .next (s.releaseBlock p c b) := rfl

/-! ## Tables, and lists written in order -/

/-- Writing a list in order, its last element is written last. -/
theorem foldl_indexed_concat {α β : Type} (f : β → Nat × α → β) (z : β) (l : List α) (a : α) :
    ((List.range (l ++ [a]).length).zip (l ++ [a])).foldl f z =
      f (((List.range l.length).zip l).foldl f z) (l.length, a) := by
  rw [List.length_append, List.length_singleton, List.range_succ, List.zip_append (by simp), List.foldl_append]
  rfl

theorem Hart.get_set (h : Hart) (n : Nat) (v : DWord) (hn : n ≠ 0) : (h.set n v).get n = v := by
  simp [Hart.set, Hart.get, hn]

theorem Hart.get_set_ne (h : Hart) (n k : Nat) (v : DWord) (hk : k ≠ n) : (h.set n v).get k = h.get k := by
  unfold Hart.set Hart.get
  by_cases hn : n = 0
  · simp only [if_pos hn]
  · simp only [if_neg hn, Tab.get_set_ne _ _ _ _ _ hk]

/-- A list written to the registers from x10 on is read back from them. -/
theorem Hart.get_setList (h : Hart) (l : List DWord) (k : Nat) (v : DWord) (hv : l[k]? = some v) :
    (((List.range l.length).zip l).foldl (fun (h : Hart) e => h.set (10 + e.1) e.2) h).get (10 + k) = v := by
  induction l using List.reverseRecOn with
  | nil => simp at hv
  | append_singleton l a ih =>
    rw [foldl_indexed_concat]
    by_cases hk : k = l.length
    · subst hk
      rw [List.getElem?_concat_length, Option.some.injEq] at hv
      rw [Hart.get_set _ _ _ (by omega), hv]
    · have hlt : k < l.length := by
        have := (List.getElem?_eq_some_iff.mp hv).1
        simp only [List.length_append, List.length_singleton] at this
        omega
      rw [Hart.get_set_ne _ _ _ _ (by simp [hk]), ih (by rwa [List.getElem?_append_left hlt] at hv)]

/-- A list of bytes written to a table from key `o` on is what its keys there hold, and no other key changes. -/
theorem Tab.get_setList (t : Tab Byte) (o : Nat) (l : Bytes) (k : Nat) :
    (((List.range l.length).zip l).foldl (fun (t : Tab Byte) e => t.set 0 (o + e.1) e.2) t).get 0 k =
      if o ≤ k then l.getD (k - o) (t.get 0 k) else t.get 0 k := by
  induction l using List.reverseRecOn with
  | nil => simp
  | append_singleton l a ih =>
    rw [foldl_indexed_concat]
    by_cases hk : k = o + l.length
    · subst hk
      simp
    · rw [Tab.get_set_ne _ _ _ _ _ hk, ih]
      split
      · next ho =>
        rcases Nat.lt_or_ge (k - o) l.length with h | h
        · simp [List.getD_eq_getElem?_getD, List.getElem?_append_left h]
        · rw [List.getD_eq_default _ _ h, List.getD_eq_default _ _ (by simp; omega)]
      · rfl

/-- An entry that a table reads is one of its entries, or the default. -/
theorem Tab.mem_of_get {α : Type} (t : Tab α) (d : α) (k : Nat) (v : α) (h : t.get d k = v) (hv : v ≠ d) : (k, v) ∈ t := by
  induction t with
  | nil => exact absurd h.symm hv
  | cons e t ih =>
    obtain ⟨j, w⟩ := e
    simp only [Tab.get] at h
    split at h
    · next hk => simp [hk, h]
    · exact List.mem_cons_of_mem _ (ih h)

/-- Leaving out the keys that `f` picks, they read as the default and every other key as before. -/
theorem Tab.get_filter_key {α : Type} (t : Tab α) (d : α) (f : Nat → Bool) (k : Nat) :
    Tab.get (t.filter fun e => !f e.1) d k = if f k = true then d else t.get d k := by
  induction t with
  | nil => simp [Tab.get]
  | cons e t ih =>
    obtain ⟨j, w⟩ := e
    rw [List.filter_cons]
    by_cases hk : k = j
    · subst hk
      by_cases hf : f k = true <;> simp [hf, Tab.get, ih]
    · by_cases hf : f j = true <;> simp [hf, Tab.get, hk, ih]

/-! ## The registers of a core -/

@[simp] theorem Mgmt.hart_updHart (m : Mgmt) (c : Nat) (f : Hart → Hart) : (m.updHart c f).hart c = f (m.hart c) :=
  Tab.get_mod m.harts {} c f

theorem Mgmt.hart_updHart_ne (m : Mgmt) (c k : Nat) (f : Hart → Hart) (h : k ≠ c) : (m.updHart c f).hart k = m.hart k :=
  Tab.get_mod_ne m.harts {} c k f h

/-- The cluster after the monitor's answer to a core. -/
theorem State.answer_mgt (s : State) (p : Plate) (c : Nat) (e : Int) (l : List DWord) :
    ((s.answer p c e l).pl p).mgt =
      Mgmt.updHart { (s.pl p).mgt with replies := (s.pl p).mgt.replies ++ [(c, e, l)] } c fun h => h.answered e l :=
  State.updMgt_self s p _

theorem State.answer_frame (s : State) (p : Plate) (c : Nat) (e : Int) (l : List DWord) :
    SameBut [.mgt p] s (s.answer p c e l) := State.updMgt_frame s p _

/-! ## A switch of worlds and the end of a call (R315) -/

theorem Mgmt.worldOf_normal {m : Mgmt} {c : Nat} (h : m.worldOf c ≠ .secure) : m.worldOf c = .normal := by
  cases e : m.worldOf c
  · exact absurd e h
  · rfl

/-- What a switch to the secure world leaves: the normal world's registers saved, the secure world's in place, both L1 caches of the
core empty, and nothing else changed. -/
theorem Mgmt.switch_secure (m : Mgmt) (c : Nat) (h : m.worldOf c ≠ .secure) :
    m.switch c .secure =
      Mgmt.updHart { m with
        saved := m.saved.set {} (2 * c) { m.hart c with resv := none }
        l1 := m.l1.filter fun e => e.1 / 2 != c
        world := m.world ||| BitVec.ofNat 4 (2 ^ c) } c fun _ => m.saved.get {} (2 * c + 1) := by
  simp [Mgmt.switch, Mgmt.flushL1, Mgmt.worldOf_normal h, worldNum, Tab.get_set_ne]

/-- What a switch to the normal world leaves. -/
theorem Mgmt.switch_normal (m : Mgmt) (c : Nat) :
    m.switch c .normal =
      Mgmt.updHart { m with
        saved := m.saved.set {} (2 * c + worldNum (m.worldOf c)) { m.hart c with resv := none }
        l1 := m.l1.filter fun e => e.1 / 2 != c
        world := m.world &&& ~~~ BitVec.ofNat 4 (2 ^ c) } c
        fun _ => (m.saved.set {} (2 * c + worldNum (m.worldOf c)) { m.hart c with resv := none }).get {} (2 * c) := rfl

/-- A change of the pauses changes the two watchdogs of the worlds and nothing else (R322). -/
theorem Mgmt.pauses_eq (m : Mgmt) (now : Nat) :
    ∃ a b c d, m.pauses now = { m with secAt := a, secPause := b, nrmAt := c, nrmPause := d } := by
  unfold Mgmt.pauses
  split <;> dsimp only <;> split <;> exact ⟨_, _, _, _, rfl⟩

/-- A call that ends, and the answer to the core that made it (R315). -/
theorem State.endCall_answer (s : State) (p : Plate) (c : Nat) (e : Int) (l : List DWord) :
    CallEnded s ((s.endCall p c).answer p c e l) p c e l := by
  obtain ⟨a1, a2, a3, a4, hp⟩ := Mgmt.pauses_eq
    { (s.pl p).mgt.switch c .normal with calls := (s.pl p).mgt.calls.filter fun x => x.core != c } s.clock
  have hm : ((s.endCall p c).pl p).mgt = _ := (State.updMgt_self s p _).trans hp
  refine ⟨?_, ?_, ?_, ?_, fun hw => ⟨?_, ?_⟩, ?_,
    (State.updMgt_frame s p _).trans (State.answer_frame _ p c e l)⟩
  all_goals rw [State.answer_mgt, hm, Mgmt.switch_normal]
  · rfl
  · rfl
  · rfl
  · rfl
  · rw [Mgmt.hart_updHart]
    simp [Mgmt.hart, Mgmt.updHart, hw, worldNum, Tab.get_set_ne]
  · simp [Mgmt.updHart, hw, worldNum]
  · rfl

/-! ## Monitor calls (Table 14.2) -/

section
variable {s : State} {p : Plate} {core : Nat}

/-- INFO answers the world, the core and the monitor's version. -/
theorem info_answers (h : s.coreRuns p core = true) :
    exec (.info p core) s = .next (s.answer p core 0
      [if (s.pl p).mgt.worldOf core = .secure then 1 else 0, BitVec.ofNat 64 core, Config.monitorVersion]) := by
  simp [exec_info, State.info, h]

/-- A call of the secure world, or of a core other than 1 and 2, has no right. -/
theorem call_wrongCaller (h : s.coreRuns p core = true) (args : List DWord)
    (hw : (s.pl p).mgt.worldOf core = .secure ∨ (core ≠ 1 ∧ core ≠ 2)) :
    exec (.call p core args) s = .next (s.answer p core (-4) []) := by
  have : ((s.pl p).mgt.worldOf core == .secure || !(core == 1 || core == 2)) = true := by simpa using hw
  simp only [exec_call, State.call, h, Bool.not_true, Bool.false_eq_true, if_false, this, if_true]

/-- The normal world of core 1 or 2 has the right to call. -/
theorem caller_admitted (hw : ¬(s.pl p).mgt.worldOf core = .secure) (hc : core = 1 ∨ core = 2) :
    ((s.pl p).mgt.worldOf core == .secure || !(core == 1 || core == 2)) = false := by
  simp only [Bool.or_eq_false_iff, beq_eq_false_iff_ne, Bool.not_eq_false', Bool.or_eq_true, beq_iff_eq]
  exact ⟨hw, hc⟩

theorem call_notRunning (h : s.coreRuns p core = true) (args : List DWord) (hw : ¬(s.pl p).mgt.worldOf core = .secure)
    (hc : core = 1 ∨ core = 2) (hr : (s.pl p).mgt.sec ≠ .running) :
    exec (.call p core args) s = .next (s.answer p core (-5) []) := by
  simp only [exec_call, State.call, h, caller_admitted hw hc, bne_iff_ne.mpr hr, Bool.not_true, Bool.false_eq_true,
    if_false, if_true]

theorem call_noEntry (h : s.coreRuns p core = true) (args : List DWord) (hw : ¬(s.pl p).mgt.worldOf core = .secure)
    (hc : core = 1 ∨ core = 2) (hr : (s.pl p).mgt.sec = .running) (he : (s.pl p).mgt.entry = none) :
    exec (.call p core args) s = .next ((s.tick 1).answer p core s.openError []) := by
  simp only [exec_call, State.call, h, caller_admitted hw hc, hr, he, bne_self_eq_false, Bool.not_true,
    Bool.false_eq_true, if_false]

/-- A core at the secure world's entry: S-mode there, with the arguments from a0 on. -/
theorem Hart.called_entry (h : Hart) (a : DWord) (l : List DWord) :
    (h.called a l).pc = a ∧ (h.called a l).prv = .s ∧ ∀ k v, l[k]? = some v → (h.called a l).get (10 + k) = v :=
  ⟨rfl, rfl, fun k v hv => Hart.get_setList h l k v hv⟩

/-- A CALL saves the registers of the normal world and starts the secure one at its entry, with both L1 caches of the core empty. -/
theorem call_enters (h : s.coreRuns p core = true) (args : List DWord) (a : DWord)
    (hw : ¬(s.pl p).mgt.worldOf core = .secure) (hc : core = 1 ∨ core = 2) (hr : (s.pl p).mgt.sec = .running)
    (he : (s.pl p).mgt.entry = some a) :
    ∃ t, exec (.call p core args) s = .next t ∧
      (t.pl p).mgt.world = (s.pl p).mgt.world ||| BitVec.ofNat 4 (2 ^ core) ∧
      (t.pl p).mgt.calls = (s.pl p).mgt.calls ++ [{ core := core, since := s.clock, args := args.take 6 }] ∧
      (t.pl p).mgt.replies = (s.pl p).mgt.replies ∧ (t.pl p).mgt.l2 = (s.pl p).mgt.l2 ∧
      (∀ x ∈ (t.pl p).mgt.l1, x.1 / 2 ≠ core) ∧
      (t.pl p).mgt.saved.get {} (2 * core) = { (s.pl p).mgt.hart core with resv := none } ∧
      ((t.pl p).mgt.hart core).pc = a ∧ ((t.pl p).mgt.hart core).prv = .s ∧
      (∀ k v, (args.take 6)[k]? = some v → ((t.pl p).mgt.hart core).get (10 + k) = v) ∧ SameBut [.mgt p] s t := by
  refine ⟨s.updMgt p fun m =>
    { (m.switch core .secure).updHart core (fun h => h.called a (args.take 6)) with
      calls := m.calls ++ [{ core := core, since := s.clock, args := args.take 6 }] }, ?_, ?_⟩
  · simp only [exec_call, State.call, h, caller_admitted hw hc, hr, he, bne_self_eq_false, Bool.not_true,
      Bool.false_eq_true, if_false]
  rw [State.updMgt_self, Mgmt.switch_secure _ _ hw]
  obtain ⟨hpc, hprv, hget⟩ := Hart.called_entry ((s.pl p).mgt.saved.get {} (2 * core + 1)) a (args.take 6)
  have hh (m : Mgmt) (x : Hart) :
      ((m.updHart core fun _ => x).updHart core fun h => h.called a (args.take 6)).hart core = x.called a (args.take 6) := by
    rw [Mgmt.hart_updHart, Mgmt.hart_updHart]
  refine ⟨rfl, rfl, rfl, rfl, fun x hx => ?_, Tab.get_set _ _ _ _, (congrArg Hart.pc (hh _ _)).trans hpc,
    (congrArg Hart.prv (hh _ _)).trans hprv,
    fun k v hv => (congrArg (Hart.get · (10 + k)) (hh _ _)).trans (hget k v hv), State.updMgt_frame s p _⟩
  simpa using (List.mem_filter.mp hx).2

/-- RETURN inside a call ends it with the results. -/
theorem ret_ends (h : s.coreRuns p core = true) (l : List DWord) (hc : ∃ c ∈ (s.pl p).mgt.calls, c.core = core) :
    ∃ t, exec (.ret p core l) s = .next t ∧ CallEnded s t p core 0 (l.take 6) := by
  have : ((s.pl p).mgt.calls.any fun c => c.core == core) = true := by simpa using hc
  exact ⟨_, by simp only [exec_ret, State.ret, h, this, if_true]; rfl, State.endCall_answer s p core 0 (l.take 6)⟩

/-- RETURN outside a call is refused. -/
theorem ret_outside (h : s.coreRuns p core = true) (l : List DWord) (hc : ∀ c ∈ (s.pl p).mgt.calls, c.core ≠ core) :
    exec (.ret p core l) s = .next (s.answer p core (-4) []) := by
  have : ((s.pl p).mgt.calls.any fun c => c.core == core) = false := by simpa using hc
  simp [exec_ret, State.ret, h, this]

/-- CALL_TIMEOUT ends a call that has lasted 50 ms. -/
theorem callTimeout_ends (hu : s.up p = true) (hc : ∃ c ∈ (s.pl p).mgt.calls, c.core = core ∧ s.past c.since 50000 = true) :
    ∃ t, exec (.callTimeout p core) s = .next t ∧ CallEnded s t p core (-5) [] := by
  have hd : (s.up p && (s.pl p).mgt.calls.any fun c => c.core == core && s.past c.since 50000) = true := by
    simpa [hu] using hc
  exact ⟨_, congrArg Host.Outcome.next (if_pos hd), State.endCall_answer s p core (-5) []⟩

theorem setEntry_registers (h : s.coreRuns p core = true) (a : DWord) (hw : (s.pl p).mgt.worldOf core = .secure)
    (he : (s.pl p).mgt.entry = none) :
    exec (.setEntry p core a) s = .next ((s.updMgt p fun m => { m with entry := some a }).answer p core 0 []) := by
  simp [exec_setEntry, State.setEntry, h, hw, he]

/-- SET_ENTRY of the normal world, or after an entry is set, is refused. -/
theorem setEntry_refused (h : s.coreRuns p core = true) (a : DWord)
    (hw : ¬(s.pl p).mgt.worldOf core = .secure ∨ (s.pl p).mgt.entry.isSome = true) :
    exec (.setEntry p core a) s = .next (s.answer p core (-4) []) := by
  have : ((s.pl p).mgt.worldOf core == .normal || (s.pl p).mgt.entry.isSome) = true := by
    rcases hw with hw | he
    · simp [Mgmt.worldOf_normal hw]
    · simp [he]
  simp only [exec_setEntry, State.setEntry, h, this, Bool.not_true, Bool.false_eq_true, if_false, if_true]

end

section
variable {s : State} {p : Plate} {core : Nat}

/-! ## Watermarks (R317, R318) -/

/-- No cached copy of what a move takes is left, in no L1 and not in the L2 (Table 14.3 step 2). -/
theorem Mgmt.flushMoving_l1 (m : Mgmt) (x : Nat × Nat) (h : x ∈ m.flushMoving.l1) : m.moving (x.2 * Config.l2Line) = false := by
  simpa using (List.mem_filter.mp h).2

theorem Mgmt.flushMoving_l2 (m : Mgmt) (k line : Nat) (h : m.flushMoving.l2.get none k = some line) :
    m.moving (line * Config.l2Line) = false := by
  have hm : (k, some line) ∈ m.flushMoving.l2 := Tab.mem_of_get _ none k _ h (by simp)
  simpa using (List.mem_filter.mp hm).2

/-- The right to move a watermark, as WM_GIVE asks for it: down for the secure world, up for the normal one. -/
theorem wmGive_right (m : Mgmt) (core mem new : Nat) :
    (if m.worldOf core == .normal then decide (m.watermark mem < new) else decide (new < m.watermark mem)) =
      decide (if m.worldOf core = .secure then new < m.watermark mem else m.watermark mem < new) := by
  cases e : m.worldOf core <;> simp

/-- What the begin of a move does: the cached copies of what it takes are flushed, and the monitor holds the core. -/
def Mgmt.beginMove (m : Mgmt) (v : WmMove) : Mgmt :=
  (Mgmt.flushMoving { m with move := some v }).updHart v.core fun h => { h with prv := .m }

/-- WM_GIVE of a running core: out of range or in the wrong direction −3, during another move −5, else the move begins. -/
theorem State.wmGive_eq (h : s.coreRuns p core = true) (mem new : Nat) :
    s.wmGive p core mem new =
      if watermarkOk mem new = false ∨ ¬(if (s.pl p).mgt.worldOf core = .secure then new < (s.pl p).mgt.watermark mem
          else (s.pl p).mgt.watermark mem < new) then s.answer p core (-3) []
      else if (s.pl p).mgt.move ≠ none then s.answer p core (-5) []
      else s.updMgt p fun m => m.beginMove { lpddr := mem == 1, new := new, core := core, world := m.worldOf core } := by
  unfold State.wmGive
  dsimp only
  rw [wmGive_right]
  simp only [h, Bool.not_true, Bool.false_eq_true, if_false, Bool.or_eq_true, Bool.not_eq_true', decide_eq_false_iff_not,
    Option.isSome_iff_ne_none, Mgmt.beginMove]

theorem wmGive_refused (h : s.coreRuns p core = true) (mem new : Nat)
    (hr : watermarkOk mem new = false ∨ ¬(if (s.pl p).mgt.worldOf core = .secure then new < (s.pl p).mgt.watermark mem
      else (s.pl p).mgt.watermark mem < new)) :
    exec (.wmGive p core mem new) s = .next (s.answer p core (-3) []) := by
  rw [exec_wmGive, State.wmGive_eq h, if_pos hr]

theorem wmGive_busy (h : s.coreRuns p core = true) (mem new : Nat) (hok : watermarkOk mem new = true)
    (hr : if (s.pl p).mgt.worldOf core = .secure then new < (s.pl p).mgt.watermark mem else (s.pl p).mgt.watermark mem < new)
    (hm : (s.pl p).mgt.move ≠ none) : exec (.wmGive p core mem new) s = .next (s.answer p core (-5) []) := by
  rw [exec_wmGive, State.wmGive_eq h, if_neg (by simp only [hok, hr]; simp), if_pos hm]

/-- A move that begins holds the core in the monitor, keeps the memories, and leaves no cached copy of what it takes. -/
theorem wmGive_begins (h : s.coreRuns p core = true) (mem new : Nat) (hok : watermarkOk mem new = true)
    (hr : if (s.pl p).mgt.worldOf core = .secure then new < (s.pl p).mgt.watermark mem else (s.pl p).mgt.watermark mem < new)
    (hm : (s.pl p).mgt.move = none) :
    ∃ t, exec (.wmGive p core mem new) s = .next t ∧
      (t.pl p).mgt.move = some { lpddr := mem == 1, new := new, core := core, world := (s.pl p).mgt.worldOf core } ∧
      ((t.pl p).mgt.hart core).prv = .m ∧ (t.pl p).mgt.sram = (s.pl p).mgt.sram ∧
      (t.pl p).mgt.lpddr = (s.pl p).mgt.lpddr ∧
      (∀ x ∈ (t.pl p).mgt.l1, (t.pl p).mgt.moving (x.2 * Config.l2Line) = false) ∧
      (∀ k line, (t.pl p).mgt.l2.get none k = some line → (t.pl p).mgt.moving (line * Config.l2Line) = false) ∧
      SameBut [.mgt p] s t := by
  refine ⟨_, by rw [exec_wmGive, State.wmGive_eq h, if_neg (by simp only [hok, hr]; simp), if_neg (by simp [hm])], ?_⟩
  rw [State.updMgt_self]
  exact ⟨rfl, congrArg Hart.prv (Mgmt.hart_updHart _ core _), rfl, rfl,
    fun x hx => Mgmt.flushMoving_l1 { (s.pl p).mgt with move := some _ } x hx,
    fun k line hk => Mgmt.flushMoving_l2 { (s.pl p).mgt with move := some _ } k line hk, State.updMgt_frame s p _⟩

/-! ## Hand-over of a block (R319, R320, Table 14.5) -/

theorem State.stopBlock_frame (s : State) (p : Plate) (b : Nat) : SameBut [.mrg p, .out] s (s.stopBlock p b) :=
  SameBut.ite (State.sendFrame_frame s .plate p _ _ _) (SameBut.refl _ s)

theorem State.resetBlock_frame (s : State) (p : Plate) (b : Nat) : SameBut [.mgt p, .mrg p] s (s.resetBlock p b) :=
  (State.updMgt_frame s p _).step (by simp)
    (SameBut.ite (SameBut.refl _ _) ((State.updMrg_frame _ p _).mono (by simp)))

/-- A block's reset discards its pending interrupts, and clears the EID and TID with the MCTP endpoint. -/
theorem State.resetBlock_mgt (s : State) (p : Plate) (b : Nat) :
    ((s.resetBlock p b).pl p).mgt = { (s.pl p).mgt with
      intS := (s.pl p).mgt.intS.filter fun n => n != b && n != 32 + b
      intN := (s.pl p).mgt.intN.filter fun n => n != b && n != 32 + b
      eid := if b = 13 then 0 else (s.pl p).mgt.eid
      tid := if b = 13 then 0 else (s.pl p).mgt.tid } := by
  unfold State.resetBlock
  dsimp only
  split
  · exact State.updMgt_self s p _
  · rw [State.updMrg_mgt, State.updMgt_self]

/-- What a RELEASE that is granted does: the block stops, is reset, changes its owner, and the new owner's anchor core is
interrupted (Table 14.5). -/
def State.handOver (s : State) (p : Plate) (core b : Nat) (w : World) : State :=
  ((((s.stopBlock p b).resetBlock p b).updMgt p fun m => { m with own := m.own ^^^ BitVec.ofNat 18 (2 ^ b) }).interrupt p
    w.other b).answer p core 0 []

/-- A RELEASE by the owner is busy where a move uses the block, and hands over else. -/
theorem State.releaseBlock_owner (h : s.coreRuns p core = true) (b : Nat) (hb : b < 18)
    (ho : (s.pl p).mgt.owner b = (s.pl p).mgt.worldOf core) :
    s.releaseBlock p core b =
      if s.moveUses p then (s.tick 1).answer p core (-5) []
      else (if (s.pl p).mgt.move.isSome then s.tick 1 else s).handOver p core b ((s.pl p).mgt.worldOf core) := by
  simp only [State.releaseBlock, h, ho, Bool.not_true, Bool.false_eq_true, if_false, Nat.not_le.mpr hb, bne_self_eq_false]
  rfl

theorem State.interrupt_frame (s : State) (p : Plate) (w : World) (n : Nat) : SameBut [.mgt p] s (s.interrupt p w n) :=
  State.updMgt_frame s p _

/-- The cluster after a hand-over: the owner changes, the monitor answers 0, the block's pending interrupts are gone, and the new
owner's anchor is interrupted. -/
theorem State.handOver_mgt (s : State) (p : Plate) (core b : Nat) (w : World) :
    ((s.handOver p core b w).pl p).mgt = Mgmt.updHart { (s.pl p).mgt with
      own := (s.pl p).mgt.own ^^^ BitVec.ofNat 18 (2 ^ b)
      replies := (s.pl p).mgt.replies ++ [(core, 0, [])]
      intS := (s.pl p).mgt.intS.filter (fun n => n != b && n != 32 + b) ++ if w = .secure then [] else [b]
      intN := (s.pl p).mgt.intN.filter (fun n => n != b && n != 32 + b) ++ if w = .secure then [b] else []
      eid := if b = 13 then 0 else (s.pl p).mgt.eid
      tid := if b = 13 then 0 else (s.pl p).mgt.tid } core fun h => h.answered 0 [] := by
  have hm : ((s.stopBlock p b).pl p).mgt = (s.pl p).mgt := State.stopBlock_frame s p b (.mgt p) (by simp)
  rw [State.handOver, State.answer_mgt, State.interrupt, State.updMgt_self, State.updMgt_self, State.resetBlock_mgt, hm]
  cases w <;> simp [World.other]

theorem State.handOver_frame (s : State) (p : Plate) (core b : Nat) (w : World) :
    SameBut [.mgt p, .mrg p, .out] s (s.handOver p core b w) :=
  (State.stopBlock_frame s p b).step (by simp) ((State.resetBlock_frame _ p b).step (by simp)
    ((State.updMgt_frame _ p _).step (by simp) ((State.interrupt_frame _ p _ b).step (by simp)
      ((State.answer_frame _ p core 0 []).mono (by simp)))))

theorem release_notOwner (h : s.coreRuns p core = true) (b : Nat) (hb : b < 18)
    (ho : (s.pl p).mgt.owner b ≠ (s.pl p).mgt.worldOf core) :
    exec (.release p core b) s = .next (s.answer p core (-4) []) := by
  simp [exec_release, State.releaseBlock, h, ho, hb]

theorem release_noBlock (h : s.coreRuns p core = true) (b : Nat) (hb : 18 ≤ b) :
    exec (.release p core b) s = .next (s.answer p core (-3) []) := by
  simp [exec_release, State.releaseBlock, h, hb]

/-- During a move a RELEASE by the owner answers busy or hands over. -/
theorem release_busyOrHandsOver (h : s.coreRuns p core = true) (b : Nat) (hb : b < 18)
    (ho : (s.pl p).mgt.owner b = (s.pl p).mgt.worldOf core) (hm : (s.pl p).mgt.move ≠ none) :
    exec (.release p core b) s = .next ((s.tick 1).answer p core (-5) []) ∨
    ∃ t, exec (.release p core b) s = .next t ∧ (t.pl p).mgt.own = (s.pl p).mgt.own ^^^ BitVec.ofNat 18 (2 ^ b) ∧
      (t.pl p).mgt.replies = (s.pl p).mgt.replies ++ [(core, 0, [])] ∧ SameBut [.mgt p, .mrg p, .out, .free] s t := by
  rw [exec_release, State.releaseBlock_owner h b hb ho, if_pos (Option.isSome_iff_ne_none.mpr hm)]
  split
  · exact .inl rfl
  · refine .inr ⟨_, rfl, ?_, ?_, ?_⟩
    · rw [State.handOver_mgt, State.tick_pl]; rfl
    · rw [State.handOver_mgt, State.tick_pl]; rfl
    · exact (State.tick_frame s 1).step (by simp) ((State.handOver_frame _ p core b _).mono (by simp))

/-- Without a move a RELEASE by the owner hands over and interrupts the other world. -/
theorem release_interruptsOther (h : s.coreRuns p core = true) (b : Nat) (hb : b < 18)
    (ho : (s.pl p).mgt.owner b = (s.pl p).mgt.worldOf core) (hm : (s.pl p).mgt.move = none) :
    ∃ t, exec (.release p core b) s = .next t ∧ (t.pl p).mgt.own = (s.pl p).mgt.own ^^^ BitVec.ofNat 18 (2 ^ b) ∧
      (t.pl p).mgt.replies = (s.pl p).mgt.replies ++ [(core, 0, [])] ∧
      ((s.pl p).mgt.worldOf core = .secure →
        (t.pl p).mgt.intN = (s.pl p).mgt.intN.filter (fun n => n != b && n != 32 + b) ++ [b]) ∧
      (¬(s.pl p).mgt.worldOf core = .secure →
        (t.pl p).mgt.intS = (s.pl p).mgt.intS.filter (fun n => n != b && n != 32 + b) ++ [b]) ∧
      SameBut [.mgt p, .mrg p, .out] s t := by
  refine ⟨s.handOver p core b ((s.pl p).mgt.worldOf core),
    by simp [exec_release, State.releaseBlock_owner h b hb ho, State.moveUses, hm], ?_, ?_,
    fun hw => ?_, fun hw => ?_, State.handOver_frame s p core b _⟩
  all_goals rw [State.handOver_mgt]
  · rfl
  · rfl
  · exact congrArg _ (if_pos hw)
  · exact congrArg _ (if_neg hw)

/-! ## ECALL (R314) -/

/-- An ECALL that asks for no function of the monitor is answered −2. -/
theorem State.monitor_unknown (hu : ((s.pl p).mgt.hart core).get 17 ≠ 0x00574C44 ∨ 6 ≤ (((s.pl p).mgt.hart core).get 16).toNat) :
    s.monitor p core = s.answer p core (-2) [] := by
  unfold State.monitor
  dsimp only
  split
  · rfl
  · next h17 =>
    obtain ⟨k, hk⟩ := Nat.exists_eq_add_of_le' (hu.resolve_left h17)
    rw [hk]
    rfl

/-- The monitor does what the row of the function that an ECALL asks for does. -/
theorem exec_of_monitor (h17 : ((s.pl p).mgt.hart core).get 17 = 0x00574C44) :
    (((s.pl p).mgt.hart core).get 16 = 0 → exec (.info p core) s = .next (s.monitor p core)) ∧
    (((s.pl p).mgt.hart core).get 16 = 3 →
      exec (.release p core (((s.pl p).mgt.hart core).get 10).toNat) s = .next (s.monitor p core)) ∧
    (((s.pl p).mgt.hart core).get 16 = 4 → exec (.wmGive p core (((s.pl p).mgt.hart core).get 10).toNat
      (((s.pl p).mgt.hart core).get 11).toNat) s = .next (s.monitor p core)) ∧
    (((s.pl p).mgt.hart core).get 16 = 5 →
      exec (.setEntry p core (((s.pl p).mgt.hart core).get 10)) s = .next (s.monitor p core)) ∧
    (((s.pl p).mgt.hart core).get 16 = 1 →
      exec (.call p core ((List.range 6).map fun k => ((s.pl p).mgt.hart core).get (10 + k))) s = .next (s.monitor p core)) ∧
    (((s.pl p).mgt.hart core).get 16 = 2 →
      exec (.ret p core ((List.range 6).map fun k => ((s.pl p).mgt.hart core).get (10 + k))) s = .next (s.monitor p core)) := by
  refine ⟨?_, ?_, ?_, ?_, ?_, ?_⟩
  all_goals
    intro h16
    simp only [exec_info, exec_call, exec_ret, exec_setEntry, exec_wmGive, exec_release, State.monitor, h17, h16, ne_eq,
      not_true_eq_false, if_false]
    rfl

/-- A running core executes the ECALL at its pc: the monitor answers it. -/
theorem State.runCore_ecall (n : Nat) (t : State) (h : s.coreRuns p core = true) (hi : (s.pl p).mgt.interruptDue core = none)
    (ht : (s.pl p).mgt.trigger core .fetch ((s.pl p).mgt.hart core).pc = none)
    (hf : s.fetchRv p core = (t, .ok (.ecall, n))) (hr : t.coreRuns p core = true) : s.runCore p core = t.monitor p core := by
  have hs : ∀ u : State, u.coreRuns p core = true →
      u.up p = true ∧ (u.pl p).mgt.halted.getLsbD core = false ∧ ((u.pl p).mgt.hart core).prv = .s := fun u hu => by
    simp only [State.coreRuns, Bool.and_eq_true, Bool.not_eq_true', decide_eq_true_eq, beq_iff_eq] at hu
    exact ⟨hu.1.1.1, hu.1.2, hu.2⟩
  obtain ⟨hup, hhalt, hprv⟩ := hs s h
  obtain ⟨-, -, hprv'⟩ := hs t hr
  have hgo : (!s.up p || (s.pl p).mgt.halted.getLsbD core || ((s.pl p).mgt.hart core).prv == .m) = false := by
    simp [hup, hhalt, hprv]
  simp [State.runCore, hgo, hi, ht, hf, Rv.access, State.runRv, hprv']

end

/-! ## The address space (Table 14.1, R317) -/

theorem inRegion_of_lt {base n a : Nat} (h : a < base) : inRegion base n a = false := by
  simp only [inRegion, decide_eq_false_iff_not]; omega

theorem inRegion_of_le {base n a : Nat} (h : base + n ≤ a) : inRegion base n a = false := by
  simp only [inRegion, decide_eq_false_iff_not]; omega

theorem inSram_iff (a : Nat) : inSram a = true ↔ 0x10000000 ≤ a ∧ a < 0x11000000 := by
  simp [inSram, inRegion]

theorem inLpddr_iff (a : Nat) : inLpddr a = true ↔ 0x100000000 ≤ a ∧ a < 0x200000000 := by
  simp [inLpddr, inRegion]

theorem isMemory_iff (a : Nat) : IsMemory a ↔ inSram a = true ∨ inLpddr a = true := by
  rw [inSram_iff, inLpddr_iff, IsMemory]

/-- An address below the stack is not in it. -/
theorem inLpddr_of_lt {a : Nat} (h : a < 0x100000000) : inLpddr a = false := inRegion_of_lt h

/-- To memory a world is admitted whatever the access is for: not in what a move takes, and the normal world not below a watermark. -/
theorem Mgmt.admits_memory (m : Mgmt) (w : World) (mmode fetch write : Bool) (a : Nat) (h : IsMemory a) :
    m.admits w mmode fetch write a = (!m.moving a && (w == .secure || !m.belowMark a)) := by
  rcases (isMemory_iff a).mp h with hs | hl
  · have hb := (inSram_iff a).mp hs
    simp only [Mgmt.admits, inRegion_of_le (show 0 + 0x10000 ≤ a by omega), hs, Mgmt.belowMark,
      inLpddr_of_lt (show a < 0x100000000 by omega), Bool.false_eq_true, if_false, if_true, ← Nat.not_lt, decide_not]
  · have hb := (inLpddr_iff a).mp hl
    simp (disch := omega) only [Mgmt.admits, inSram, inRegion_of_le, hl, Mgmt.belowMark, Bool.false_eq_true, if_false,
      if_true, ← Nat.not_lt, decide_not]

/-- A memory's watermark parts it: the secure world reaches all of it, the normal world what is not below the watermark. -/
theorem Mgmt.admits_watermark (m : Mgmt) (mmode fetch write : Bool) (a : Nat) (h : IsMemory a) (hm : m.move = none) :
    m.admits .secure mmode fetch write a = true ∧
    (m.admits .normal mmode fetch write a = true ↔
      (if a < 0x100000000 then 0x10000000 + 65536 * m.wmSram else 0x100000000 + 65536 * m.wmLpddr) ≤ a) := by
  have hv : m.moving a = false := by simp [Mgmt.moving, hm]
  rw [Mgmt.admits_memory m _ _ _ _ a h, Mgmt.admits_memory m _ _ _ _ a h, hv]
  refine ⟨rfl, ?_⟩
  have hl : inLpddr a = !decide (a < 0x100000000) := by
    rw [Bool.eq_iff_iff, inLpddr_iff]
    simp only [IsMemory] at h
    simp only [Bool.not_eq_true', decide_eq_false_iff_not]
    omega
  by_cases ha : a < 0x100000000 <;> simp [Mgmt.belowMark, hl, ha]

/-! ## Bytes -/

theorem leBytes_length (n v : Nat) : (leBytes n v).length = n := by
  induction n generalizing v with
  | zero => rfl
  | succ n ih => simp [leBytes, ih]

/-- The bytes of a number spell its low bytes. -/
theorem leNat_leBytes (n v : Nat) : leNat (leBytes n v) = v % 2 ^ (8 * n) := by
  induction n generalizing v with
  | zero => simp [leBytes, leNat, Nat.mod_one]
  | succ n ih =>
    rw [leBytes, leNat, ih, BitVec.toNat_ofNat, Nat.mul_succ, Nat.pow_add, Nat.mul_comm (2 ^ (8 * n)), Nat.mod_mul]

theorem overlay_length (b d : Bytes) (o : Nat) (h : o + d.length ≤ b.length) : (overlay b o d).length = b.length := by
  simp only [overlay, List.length_append, List.length_take, List.length_drop]
  omega

theorem overlay_getElem? (b d : Bytes) (o k : Nat) (h : o + d.length ≤ b.length) :
    (overlay b o d)[k]? = if o ≤ k ∧ k < o + d.length then d[k - o]? else b[k]? := by
  have ho : (b.take o).length = o := by simp only [List.length_take]; omega
  have hod : (b.take o ++ d).length = o + d.length := by rw [List.length_append, ho]
  rw [overlay]
  rcases Nat.lt_or_ge k (o + d.length) with hk | hk
  · rw [List.getElem?_append_left (by omega)]
    rcases Nat.lt_or_ge k o with hlo | hlo
    · rw [List.getElem?_append_left (by omega), List.getElem?_take_of_lt hlo, if_neg (by omega)]
    · rw [List.getElem?_append_right (by omega), ho, if_pos ⟨hlo, hk⟩]
  · rw [List.getElem?_append_right (by omega), hod, List.getElem?_drop, Nat.add_sub_cancel' hk, if_neg (by omega)]

theorem cut_getElem? (b : Bytes) (o n k : Nat) : (cut b o n)[k]? = if k < n then b[o + k]? else none := by
  simp only [cut, List.getElem?_take, List.getElem?_drop]

/-- What is laid over a string is read back from it. -/
theorem cut_overlay (b d : Bytes) (o : Nat) (h : o + d.length ≤ b.length) : cut (overlay b o d) o d.length = d := by
  apply List.ext_getElem?
  intro k
  rw [cut_getElem?, overlay_getElem? b d o _ h]
  split
  · rw [if_pos (by omega), Nat.add_sub_cancel_left]
  · rw [List.getElem?_eq_none (by omega)]

/-- A byte beside what is laid over a string is what it was. -/
theorem cut_overlay_beside (b d : Bytes) (o k : Nat) (h : o + d.length ≤ b.length) (hk : k < o ∨ o + d.length ≤ k) :
    cut (overlay b o d) k 1 = cut b k 1 := by
  apply List.ext_getElem?
  intro j
  rw [cut_getElem?, cut_getElem?, overlay_getElem? b d o _ h]
  split
  · rw [if_neg (by omega)]
  · rfl

/-! ## Memory (R15) -/

/-- A line holds 64 bytes. -/
theorem Mgmt.readLine_length (m : Mgmt) (k : Nat) (b : Bytes) (h : m.readLine k = some b) : b.length = 64 := by
  unfold Mgmt.readLine at h
  split at h
  · cases h; rfl
  · split at h
    · cases h
      simp [xorBytes, fit_length]
    · cases h

/-- The SRAM holds `d` from byte `o` on. -/
def Mgmt.putSram (m : Mgmt) (o : Nat) (d : Bytes) : Mgmt :=
  { m with sram := ((List.range d.length).zip d).foldl (fun t e => t.set 0 (o + e.1) e.2) m.sram }

/-- Line `k` of the stack holds `b`, under the memory key. -/
def Mgmt.putLine (m : Mgmt) (k : Nat) (b : Bytes) : Mgmt :=
  { m with lpddr := m.lpddr.set none k (some (sealLine m.memKey k b)) }

theorem Mgmt.putSram_get (m : Mgmt) (o k : Nat) (d : Bytes) :
    (m.putSram o d).sram.get 0 k = if o ≤ k then d.getD (k - o) (m.sram.get 0 k) else m.sram.get 0 k :=
  Tab.get_setList m.sram o d k

theorem Mgmt.readLine_putLine (m : Mgmt) (k : Nat) (b : Bytes) (h : b.length = 64) : (m.putLine k b).readLine k = some b :=
  Mgmt.readLine_sealed (m.putLine k b) k b h (Tab.get_set m.lpddr none k (some (sealLine m.memKey k b)))

theorem Mgmt.readLine_putLine_ne (m : Mgmt) (k j : Nat) (b : Bytes) (h : j ≠ k) : (m.putLine k b).readLine j = m.readLine j := by
  have e : (m.putLine k b).lpddr.get none j = m.lpddr.get none j := Tab.get_set_ne m.lpddr none k j
    (some (sealLine m.memKey k b)) h
  unfold Mgmt.readLine
  rw [e]
  rfl

theorem Mgmt.readLine_putSram (m : Mgmt) (o k : Nat) (d : Bytes) : (m.putSram o d).readLine k = m.readLine k := rfl

theorem Mgmt.sram_putLine (m : Mgmt) (k : Nat) (b : Bytes) : (m.putLine k b).sram = m.sram := rfl

theorem Mgmt.readMem_sram (m : Mgmt) (a n : Nat) (h : inLpddr a = false) :
    m.readMem a n = some ((List.range n).map fun k => m.sram.get 0 (a - 0x10000000 + k)) := by
  rw [Mgmt.readMem, if_neg (by simp [h])]

theorem Mgmt.readMem_lpddr (m : Mgmt) (a n : Nat) (h : inLpddr a = true) :
    m.readMem a n = (m.readLine ((a - 0x100000000) / 64)).map fun b => cut b (a % 64) n := by
  rw [Mgmt.readMem, if_pos h]

theorem Mgmt.writeMem_sram (m : Mgmt) (a : Nat) (d : Bytes) (h : inLpddr a = false) :
    m.writeMem a d = some (m.putSram (a - 0x10000000) d) := by
  rw [Mgmt.writeMem, if_neg (by simp [h])]
  rfl

theorem Mgmt.writeMem_lpddr (m : Mgmt) (a : Nat) (d : Bytes) (h : inLpddr a = true) :
    m.writeMem a d = (m.readLine ((a - 0x100000000) / 64)).map fun b =>
      m.putLine ((a - 0x100000000) / 64) (overlay b (a % 64) d) := by
  rw [Mgmt.writeMem, if_pos h]
  rfl

/-- A write to memory changes bytes of the SRAM, or one line of the stack, and nothing else. -/
theorem Mgmt.writeMem_cases (m m' : Mgmt) (a : Nat) (d : Bytes) (h : m.writeMem a d = some m') :
    (inLpddr a = false ∧ m' = m.putSram (a - 0x10000000) d) ∨
    (inLpddr a = true ∧ ∃ b, m.readLine ((a - 0x100000000) / 64) = some b ∧
      m' = m.putLine ((a - 0x100000000) / 64) (overlay b (a % 64) d)) := by
  by_cases hl : inLpddr a = true
  · rw [Mgmt.writeMem_lpddr m a d hl] at h
    obtain ⟨b, hb, rfl⟩ := Option.map_eq_some_iff.mp h
    exact .inr ⟨hl, b, hb, rfl⟩
  · have hl := Bool.eq_false_iff.mpr hl
    rw [Mgmt.writeMem_sram m a d hl] at h
    exact .inl ⟨hl, (Option.some.inj h).symm⟩

/-- A write succeeds in the SRAM, and in a line of the stack whose tag holds. -/
theorem Mgmt.writeMem_succeeds (m : Mgmt) (a : Nat) (d : Bytes)
    (h : inLpddr a = true → m.readLine ((a - 0x100000000) / 64) ≠ none) : ∃ m', m.writeMem a d = some m' := by
  by_cases hl : inLpddr a = true
  · obtain ⟨b, hb⟩ := Option.ne_none_iff_exists'.mp (h hl)
    exact ⟨_, by rw [Mgmt.writeMem_lpddr m a d hl, hb]; rfl⟩
  · exact ⟨_, Mgmt.writeMem_sram m a d (Bool.eq_false_iff.mpr hl)⟩

/-- What is written within a line is read back. -/
theorem Mgmt.readMem_written (m m' : Mgmt) (a : Nat) (d : Bytes) (h : m.writeMem a d = some m')
    (hd : a % 64 + d.length ≤ 64) : m'.readMem a d.length = some d := by
  rcases Mgmt.writeMem_cases m m' a d h with ⟨hl, rfl⟩ | ⟨hl, b, hb, rfl⟩
  · rw [Mgmt.readMem_sram _ _ _ hl, Option.some.injEq]
    apply List.ext_getElem (by simp)
    intro k h1 h2
    simp only [List.getElem_map, List.getElem_range, Mgmt.putSram_get, Nat.le_add_right, if_true, Nat.add_sub_cancel_left]
    exact List.getD_eq_getElem _ _ h2
  · have hlen := Mgmt.readLine_length m _ b hb
    rw [Mgmt.readMem_lpddr _ _ _ hl, Mgmt.readLine_putLine _ _ _ (by rw [overlay_length _ _ _ (by omega), hlen]),
      Option.map_some, cut_overlay _ _ _ (by omega)]

/-- A write within a line leaves every other byte of memory as it was. -/
theorem Mgmt.readMem_beside (m m' : Mgmt) (a x : Nat) (d : Bytes) (h : m.writeMem a d = some m') (ha : IsMemory a)
    (hx : IsMemory x) (hd : a % 64 + d.length ≤ 64) (hs : x < a ∨ a + d.length ≤ x) : m'.readMem x 1 = m.readMem x 1 := by
  rcases Mgmt.writeMem_cases m m' a d h with ⟨hl, rfl⟩ | ⟨hl, b, hb, rfl⟩
  · by_cases hlx : inLpddr x = true
    · rw [Mgmt.readMem_lpddr _ _ _ hlx, Mgmt.readMem_lpddr _ _ _ hlx, Mgmt.readLine_putSram]
    · have hxs := (inSram_iff x).mp (((isMemory_iff x).mp hx).resolve_right hlx)
      have has := (inSram_iff a).mp (((isMemory_iff a).mp ha).resolve_right (by simp [hl]))
      have hlx := Bool.eq_false_iff.mpr hlx
      rw [Mgmt.readMem_sram _ _ _ hlx, Mgmt.readMem_sram _ _ _ hlx]
      refine congrArg some (List.map_congr_left fun k hk => ?_)
      rw [List.mem_range] at hk
      rw [Mgmt.putSram_get]
      split
      · exact List.getD_eq_default _ _ (by omega)
      · rfl
  · by_cases hlx : inLpddr x = true
    · have hxl := (inLpddr_iff x).mp hlx
      have hal := (inLpddr_iff a).mp hl
      have hlen := Mgmt.readLine_length m _ b hb
      rw [Mgmt.readMem_lpddr _ _ _ hlx, Mgmt.readMem_lpddr _ _ _ hlx]
      by_cases hk : (x - 0x100000000) / 64 = (a - 0x100000000) / 64
      · rw [hk, Mgmt.readLine_putLine _ _ _ (by rw [overlay_length _ _ _ (by omega), hlen]), hb, Option.map_some,
          Option.map_some, cut_overlay_beside _ _ _ _ (by omega) (by omega)]
      · rw [Mgmt.readLine_putLine_ne _ _ _ _ hk]
    · have hlx := Bool.eq_false_iff.mpr hlx
      rw [Mgmt.readMem_sram _ _ _ hlx, Mgmt.readMem_sram _ _ _ hlx, Mgmt.sram_putLine]

/-! ## An access of a core (R312, R317, R15) -/

section
variable {s : State} {p : Plate} {c : Nat} {k : RvUse} {va : DWord} {n : Nat}

/-- An access that is not translated is one at its own address; a line that fails its tag is the source MEM_TAG and a bus error. -/
theorem State.coreAccess_plain (h : Plain s p c k va n) (d : DWord) :
    s.coreAccess p c k va n d =
      if (s.physAccess p c k va va.toNat n d).2 = .tag then
        ((s.physAccess p c k va va.toNat n d).1.raise p 3, .trap k.accessFault va)
      else s.physAccess p c k va va.toNat n d := by
  obtain ⟨hmode, halign⟩ := h
  have ha : (k != .fetch && va.toNat % n != 0) = false := by
    rcases halign with hf | hz
    · simp [hf]
    · simp [hz]
  have ht : (s.pl p).mgt.translate ((s.pl p).mgt.worldOf c) ((s.pl p).mgt.hart c) k va = .ok (va.toNat, none) := by
    rw [Mgmt.translate, if_pos hmode]
  simp only [State.coreAccess, ha, ht, Bool.false_eq_true, if_false]
  obtain ⟨t, e⟩ := s.physAccess p c k va va.toNat n d
  cases e <;> rfl

/-- An access that Table 14.1 refuses is an access fault, with no other effect. -/
theorem coreAccess_refused (h : Plain s p c k va n) (ha : Admitted s p c k va.toNat = false) (d : DWord) :
    s.coreAccess p c k va n d = (s, .trap k.accessFault va) := by
  have hp : s.physAccess p c k va va.toNat n d = (s, .trap k.accessFault va) := by
    unfold State.physAccess
    exact if_pos (by rw [Bool.not_eq_true']; exact ha)
  rw [State.coreAccess_plain h, hp, if_neg (by simp)]

/-- The cluster with the content of its caches changed. -/
def Mgmt.withCaches (m : Mgmt) (l1 : List (Nat × Nat)) (l2 : Tab (Option Nat)) : Mgmt := { m with l1 := l1, l2 := l2 }

/-- An access through the caches changes the caches, and no memory. -/
theorem State.cacheAccess_mgt (s : State) (p : Plate) (c : Nat) (fetch : Bool) (a : Nat) :
    (∃ l1 l2, ((s.cacheAccess p c fetch a).pl p).mgt = (s.pl p).mgt.withCaches l1 l2) ∧
    SameBut [.mgt p, .free] s (s.cacheAccess p c fetch a) := by
  obtain ⟨l1, l2, j, e⟩ := State.cacheAccess_eq s p c fetch a
  rw [e]
  exact ⟨⟨l1, l2, (State.updMgt_self _ p _).trans (by rw [State.tick_pl]; rfl)⟩,
    (State.tick_frame s j).step (by simp) ((State.updMgt_frame _ p _).mono (by simp))⟩

theorem not_refused_of_admitted {a : Nat} (h : Admitted s p c k a = true) :
    (!(s.pl p).mgt.admits ((s.pl p).mgt.worldOf c) (((s.pl p).mgt.hart c).prv == .m) (k == .fetch) (k == .store) a) = false :=
  (Bool.not_eq_false' _).mpr h

theorem inMemory_of_isMemory {a : Nat} (h : IsMemory a) : (inSram a || inLpddr a) = true :=
  Bool.or_eq_true_iff.mpr ((isMemory_iff a).mp h)

/-- An admitted access to memory goes through the caches: a store writes and ends reservations, any other access reads. -/
theorem State.physAccess_store (ha : Admitted s p c .store va.toNat = true) (hm : IsMemory va.toNat) (d : DWord) (m : Mgmt)
    (hw : ((s.cacheAccess p c false va.toNat).pl p).mgt.writeMem va.toNat (leBytes n d.toNat) = some m) :
    s.physAccess p c .store va va.toNat n d =
      ((s.cacheAccess p c false va.toNat).updMgt p fun _ => m.breakReservations c va.toNat, .value 0) := by
  have hf : (RvUse.store == .fetch) = false := rfl
  have ha' := not_refused_of_admitted ha
  rw [hf] at ha'
  simp only [State.physAccess, hf, ha', inMemory_of_isMemory hm, Bool.false_eq_true, if_false, if_true, hw]

theorem State.physAccess_load (ha : Admitted s p c .load va.toNat = true) (hm : IsMemory va.toNat) (d : DWord) (b : Bytes)
    (hr : ((s.cacheAccess p c false va.toNat).pl p).mgt.readMem va.toNat n = some b) :
    s.physAccess p c .load va va.toNat n d = (s.cacheAccess p c false va.toNat, .value (BitVec.ofNat 64 (leNat b))) := by
  have hf : (RvUse.load == .fetch) = false := rfl
  have ha' := not_refused_of_admitted ha
  rw [hf] at ha'
  simp only [State.physAccess, hf, ha', inMemory_of_isMemory hm, Bool.false_eq_true, if_false, if_true, hr]

/-- An admitted access to a line that fails its tag is never data. -/
theorem State.physAccess_badLine (ha : Admitted s p c k va.toNat = true) (hl : inLpddr va.toNat = true) (d : DWord)
    (hb : (s.pl p).mgt.readLine ((va.toNat - 0x100000000) / 64) = none) :
    s.physAccess p c k va va.toNat n d = (s.cacheAccess p c (k == .fetch) va.toNat, .tag) := by
  have ha' := not_refused_of_admitted ha
  have hm : (inSram va.toNat || inLpddr va.toNat) = true := by simp [hl]
  obtain ⟨⟨l1, l2, e⟩, -⟩ := State.cacheAccess_mgt s p c (k == .fetch) va.toNat
  have hb' : ((s.pl p).mgt.withCaches l1 l2).readLine ((va.toNat - 0x100000000) / 64) = none := hb
  have hr : ((s.pl p).mgt.withCaches l1 l2).readMem va.toNat n = none := by
    rw [Mgmt.readMem_lpddr _ _ _ hl, hb', Option.map_none]
  have hw : ((s.pl p).mgt.withCaches l1 l2).writeMem va.toNat (leBytes n d.toNat) = none := by
    rw [Mgmt.writeMem_lpddr _ _ _ hl, hb', Option.map_none]
  cases k
  all_goals
    unfold State.physAccess
    dsimp only
    rw [ha', hm, e]
    simp [hr, hw]

/-! ## Stores (R15, R317) -/

/-- A store ends no reservation of its own core, and changes nothing but the registers of the others. -/
theorem Mgmt.breakReservations_eq (m : Mgmt) (c a : Nat) :
    (∃ hs, m.breakReservations c a = { m with harts := hs }) ∧ (m.breakReservations c a).hart c = m.hart c := by
  unfold Mgmt.breakReservations
  generalize List.range 4 = l
  induction l generalizing m with
  | nil => exact ⟨⟨m.harts, rfl⟩, rfl⟩
  | cons k l ih =>
    rw [List.foldl_cons]
    split
    · next hk =>
      rw [Bool.and_eq_true, bne_iff_ne] at hk
      obtain ⟨⟨hs, e⟩, hc⟩ := ih (m.updHart k fun h => { h with resv := none })
      exact ⟨⟨hs, e⟩, hc.trans (Mgmt.hart_updHart_ne m k c _ hk.1.symm)⟩
    · exact ih m

/-- The cluster `m` with the caches, the memories and the registers of `m'`: all that a store can change. -/
def Mgmt.storedAs (m m' : Mgmt) : Mgmt :=
  { m with l1 := m'.l1, l2 := m'.l2, sram := m'.sram, lpddr := m'.lpddr, harts := m'.harts }

theorem Mgmt.writeMem_storedAs (m m' : Mgmt) (a : Nat) (d : Bytes) (h : m.writeMem a d = some m') :
    m' = m.storedAs m' ∧ m'.harts = m.harts := by
  rcases Mgmt.writeMem_cases m m' a d h with ⟨-, rfl⟩ | ⟨-, b, -, rfl⟩ <;> exact ⟨rfl, rfl⟩

/-- What a store can change admits no one to memory, and shuts no one out. -/
theorem Mgmt.admits_storedAs (m m' : Mgmt) (w : World) (mm mm' f f' wr wr' : Bool) (a : Nat) (h : IsMemory a) :
    (m.storedAs m').admits w mm f wr a = m.admits w mm' f' wr' a := by
  rw [Mgmt.admits_memory _ _ _ _ _ a h, Mgmt.admits_memory m _ _ _ _ a h]
  rfl

theorem Mgmt.readMem_withCaches (m : Mgmt) (l1 : List (Nat × Nat)) (l2 : Tab (Option Nat)) (a n : Nat) :
    (m.withCaches l1 l2).readMem a n = m.readMem a n := rfl

theorem Mgmt.readMem_breakReservations (m : Mgmt) (c b a n : Nat) :
    (m.breakReservations c b).readMem a n = m.readMem a n := by
  obtain ⟨⟨hs, e⟩, -⟩ := Mgmt.breakReservations_eq m c b
  rw [e]
  rfl

/-- A naturally aligned access lies in one line. -/
theorem aligned_in_line {a n : Nat} (ha : a % n = 0) (hn : n = 1 ∨ n = 2 ∨ n = 4 ∨ n = 8) : a % 64 + n ≤ 64 := by
  rcases hn with rfl | rfl | rfl | rfl <;> omega

/-- An admitted load of memory answers the bytes that memory holds. -/
theorem coreAccess_load (h : Plain s p c .load va n) (ha : Admitted s p c .load va.toNat = true) (hm : IsMemory va.toNat)
    (b : Bytes) (hr : (s.pl p).mgt.readMem va.toNat n = some b) (d : DWord) :
    (s.coreAccess p c .load va n d).2 = .value (BitVec.ofNat 64 (leNat b)) := by
  obtain ⟨⟨l1, l2, e⟩, -⟩ := State.cacheAccess_mgt s p c false va.toNat
  rw [State.coreAccess_plain h, State.physAccess_load ha hm d b (by rw [e, Mgmt.readMem_withCaches, hr]), if_neg (by simp)]

/-- What an admitted store of memory does: the write succeeds, and beside it the caches and reservations of other cores change. -/
theorem coreAccess_store (h : Plain s p c .store va n) (ha : Admitted s p c .store va.toNat = true) (hm : IsMemory va.toNat)
    (hl : 0x100000000 ≤ va.toNat → (s.pl p).mgt.readLine ((va.toNat - 0x100000000) / 64) ≠ none) (d : DWord) :
    ∃ t l1 l2 m, s.coreAccess p c .store va n d = (t, .value 0) ∧
      ((s.pl p).mgt.withCaches l1 l2).writeMem va.toNat (leBytes n d.toNat) = some m ∧
      (t.pl p).mgt = m.breakReservations c va.toNat ∧ SameBut [.mgt p, .free] s t := by
  obtain ⟨⟨l1, l2, e⟩, hfr⟩ := State.cacheAccess_mgt s p c false va.toNat
  obtain ⟨m, hw⟩ := Mgmt.writeMem_succeeds ((s.pl p).mgt.withCaches l1 l2) va.toNat (leBytes n d.toNat)
    fun hlp => hl ((inLpddr_iff _).mp hlp).1
  refine ⟨(s.cacheAccess p c false va.toNat).updMgt p fun _ => m.breakReservations c va.toNat, l1, l2, m, ?_, hw,
    State.updMgt_self _ p _, hfr.trans ((State.updMgt_frame _ p _).mono (by simp))⟩
  rw [State.coreAccess_plain h, State.physAccess_store ha hm d m (by rw [e, hw]), if_neg (by simp)]

/-- What an admitted store writes is read back by its core, no other byte of memory changes, and neither do the core's registers. -/
theorem store_readBack (h : Plain s p c .store va n) (ha : Admitted s p c .store va.toNat = true) (hm : IsMemory va.toNat)
    (hn : n = 1 ∨ n = 2 ∨ n = 4 ∨ n = 8)
    (hl : 0x100000000 ≤ va.toNat → (s.pl p).mgt.readLine ((va.toNat - 0x100000000) / 64) ≠ none) (d : DWord) :
    ∃ t, s.coreAccess p c .store va n d = (t, .value 0) ∧
      (t.coreAccess p c .load va n 0).2 = .value (BitVec.ofNat 64 (d.toNat % 2 ^ (8 * n))) ∧
      (∀ x, IsMemory x → x < va.toNat ∨ va.toNat + n ≤ x → (t.pl p).mgt.readMem x 1 = (s.pl p).mgt.readMem x 1) ∧
      (t.pl p).mgt.hart c = (s.pl p).mgt.hart c ∧ SameBut [.mgt p, .free] s t := by
  obtain ⟨t, l1, l2, m, hs, hw, ht, hfr⟩ := coreAccess_store h ha hm hl d
  have halign : va.toNat % n = 0 := h.2.resolve_left (by simp)
  have hin : va.toNat % 64 + (leBytes n d.toNat).length ≤ 64 := by
    rw [leBytes_length]; exact aligned_in_line halign hn
  obtain ⟨hstored, hharts⟩ := Mgmt.writeMem_storedAs _ m _ _ hw
  obtain ⟨⟨hs', hbreak⟩, hown⟩ := Mgmt.breakReservations_eq m c va.toNat
  have hhart : (t.pl p).mgt.hart c = (s.pl p).mgt.hart c := by
    rw [ht, hown, Mgmt.hart, hharts]; rfl
  have hsame : (t.pl p).mgt = (s.pl p).mgt.storedAs (t.pl p).mgt := by
    rw [ht, hbreak, hstored]; rfl
  have hread : (t.pl p).mgt.readMem va.toNat n = some (leBytes n d.toNat) := by
    rw [ht, Mgmt.readMem_breakReservations]
    simpa only [leBytes_length] using Mgmt.readMem_written _ m _ _ hw hin
  have hplain : Plain t p c .load va n := ⟨by rw [hhart]; exact h.1, .inr halign⟩
  have hadm : Admitted t p c .load va.toNat = true := by
    unfold Admitted
    rw [hsame]
    exact (Mgmt.admits_storedAs _ _ _ _ _ _ _ _ _ _ hm).trans ha
  refine ⟨t, hs, ?_, fun x hx hbeside => ?_, hhart, hfr⟩
  · rw [coreAccess_load hplain hadm hm _ hread, leNat_leBytes]
  · rw [ht, Mgmt.readMem_breakReservations, Mgmt.readMem_beside _ m _ x _ hw hm hx hin (by rwa [leBytes_length]),
      Mgmt.readMem_withCaches]

/-! ## A line that fails its tag (R15) -/

/-- A plate that runs latches a raised source: its bit is set, and no other. -/
theorem State.raise_latched (s : State) (p : Plate) (j : Nat) (hu : s.up p = true)
    (hj : (isClassS j || isClassC j || isClassT j) = true) : Latched s (s.raise p j) p j := by
  have hpin : ((s.setPin p j true).pl p).flt.status = (s.pl p).flt.status := by
    unfold State.setPin
    split
    · rw [State.updFlt_self]
    · rfl
  unfold Latched
  rw [State.raise, if_pos hu, State.latch_status, if_pos hj, hpin]

/-- An admitted access to a line that fails its tag is a bus error and the source MEM_TAG. -/
theorem coreAccess_badLine (h : Plain s p c k va n) (ha : Admitted s p c k va.toNat = true) (hu : s.up p = true)
    (hlo : 0x100000000 ≤ va.toNat) (hhi : va.toNat < 0x200000000)
    (hb : (s.pl p).mgt.readLine ((va.toNat - 0x100000000) / 64) = none) (d : DWord) :
    ∃ t, s.coreAccess p c k va n d = (t, .trap k.accessFault va) ∧ Latched s t p 3 ∧
      (t.pl p).mgt.lpddr = (s.pl p).mgt.lpddr ∧ (t.pl p).mgt.harts = (s.pl p).mgt.harts ∧
      SameBut (.mgt p :: .free :: latching p) s t := by
  obtain ⟨⟨l1, l2, e⟩, hfr⟩ := State.cacheAccess_mgt s p c (k == .fetch) va.toNat
  have hraise := State.raise_frame (s.cacheAccess p c (k == .fetch) va.toNat) p 3
  have hmgt : (((s.cacheAccess p c (k == .fetch) va.toNat).raise p 3).pl p).mgt = (s.pl p).mgt.withCaches l1 l2 :=
    Eq.trans (hraise (.mgt p) (by simp)) e
  have hup : (s.cacheAccess p c (k == .fetch) va.toNat).up p = true := by
    rw [State.up, hfr (.pow p) (by simp)]; exact hu
  have hlatch := State.raise_latched _ p 3 hup (by decide)
  refine ⟨_, ?_, ?_, ?_, ?_, (hfr.mono (by simp)).trans (hraise.mono (by simp [latching]))⟩
  · rw [State.coreAccess_plain h, State.physAccess_badLine ha ((inLpddr_iff _).mpr ⟨hlo, hhi⟩) d hb, if_pos rfl]
  · rwa [Latched, flt_of_frame hfr (by simp)] at hlatch
  · rw [hmgt]; rfl
  · rw [hmgt]; rfl

end

/-! ## The end of a watermark move (R318) -/

/-- The memories, the watermarks and the answer at the end of a move (Table 14.3 steps 3 to 5). -/
def Mgmt.endMove (m : Mgmt) (v : WmMove) : Mgmt :=
  { m.zeroFill m.moving with
    wmLpddr := if v.lpddr then v.new else m.wmLpddr
    wmSram := if v.lpddr then m.wmSram else v.new
    move := none
    replies := m.replies ++ [(v.core, 0, [])] }

/-- A move ends for the world that gave the range: on its core where the core runs it, in its saved registers else. -/
theorem Mgmt.moved_eq (m : Mgmt) (v : WmMove) :
    m.moved v = if m.worldOf v.core = v.world then (m.endMove v).updHart v.core Hart.released
      else { m.endMove v with saved := m.saved.mod {} (2 * v.core + worldNum v.world) Hart.released } := by
  cases hl : v.lpddr
  all_goals
    simp only [Mgmt.moved, Mgmt.endMove, hl, Bool.false_eq_true, if_false, if_true]
    exact if_congr beq_iff_eq rfl rfl

theorem Mgmt.moved_frame (m : Mgmt) (v : WmMove) : ∃ hs sv, m.moved v = { m.endMove v with harts := hs, saved := sv } := by
  rw [Mgmt.moved_eq]
  split <;> exact ⟨_, _, rfl⟩

/-- A core that the monitor held for the world that it still runs goes on there with the answer 0. -/
theorem Mgmt.moved_hart (m : Mgmt) (v : WmMove) (hw : m.worldOf v.core = v.world) (hp : (m.hart v.core).prv = .m) :
    (m.moved v).hart v.core = { (m.hart v.core).answered 0 [] with prv := .s } := by
  rw [Mgmt.moved_eq, if_pos hw, Mgmt.hart_updHart]
  exact if_pos hp

theorem wmScrubDone_ends {s : State} {p : Plate} (v : WmMove) (hv : (s.pl p).mgt.move = some v) (hu : s.up p = true) :
    ∃ t, exec (.wmScrubDone p) s = .next t ∧
      (t.pl p).mgt.wmLpddr = (if v.lpddr then v.new else (s.pl p).mgt.wmLpddr) ∧
      (t.pl p).mgt.wmSram = (if v.lpddr then (s.pl p).mgt.wmSram else v.new) ∧ (t.pl p).mgt.move = none ∧
      (t.pl p).mgt.replies = (s.pl p).mgt.replies ++ [(v.core, 0, [])] ∧
      (∀ k, (t.pl p).mgt.sram.get 0 k =
        if (s.pl p).mgt.moving (0x10000000 + k) = true then 0 else (s.pl p).mgt.sram.get 0 k) ∧
      (∀ k, (t.pl p).mgt.lpddr.get none k =
        if (s.pl p).mgt.moving (0x100000000 + 64 * k) = true then none else (s.pl p).mgt.lpddr.get none k) ∧
      ((s.pl p).mgt.worldOf v.core = v.world → ((s.pl p).mgt.hart v.core).prv = .m →
        (t.pl p).mgt.hart v.core = { ((s.pl p).mgt.hart v.core).answered 0 [] with prv := .s }) ∧ SameBut [.mgt p] s t := by
  have he : exec (.wmScrubDone p) s = .next (s.updMgt p fun m => m.moved v) := by
    change execWmScrubDone p s = _
    simp only [execWmScrubDone, hv, hu, if_true]
  refine ⟨_, he, ?_⟩
  rw [State.updMgt_self]
  have hhart := Mgmt.moved_hart (s.pl p).mgt v
  obtain ⟨hs, sv, e⟩ := Mgmt.moved_frame (s.pl p).mgt v
  refine ⟨?_, ?_, ?_, ?_, fun k => ?_, fun k => ?_, hhart, State.updMgt_frame s p _⟩
  all_goals rw [e]
  · rfl
  · rfl
  · rfl
  · rfl
  · exact Tab.get_filter_key _ 0 (fun j => (s.pl p).mgt.moving (0x10000000 + j)) k
  · exact Tab.get_filter_key _ none (fun j => (s.pl p).mgt.moving (0x100000000 + 64 * j)) k

/-! ## The debug module (R321, R322) -/

section
variable {s : State} {p : Plate} {core : Nat}

/-- Debug reaches a core by the invasive enable of its world, or the secure world's for M-mode (Table 14.6). -/
theorem State.debugReaches_eq (hc : core < 4) (inM : Bool) :
    s.debugReaches p core inM = if (s.pl p).mgt.worldOf core = .secure ∨ inM = true then (s.debugEnables p).getLsbD 3
      else (s.debugEnables p).getLsbD 1 := by
  simp only [State.debugReaches, hc, decide_true, Bool.true_and, Bool.or_eq_true, beq_iff_eq]

/-- A halt or a release of a core that debug does not reach changes nothing. -/
theorem exec_debugHalt (hu : s.up p = true) (on mmode : Bool) :
    exec (.debugHalt p core ⟨on, mmode, none⟩) s =
      .next (if s.debugReaches p core (if on then mmode else (s.pl p).mgt.haltedM.getLsbD core) then s.setHalt p core on mmode
        else s) := by
  change execDebugHalt p core ⟨on, mmode, none⟩ s = _
  simp only [execDebugHalt, hu, Bool.not_true, Bool.false_eq_true, if_false]

/-- An operation other than a read of a counter acts where debug reaches a core that is halted. -/
theorem exec_debugOp (hu : s.up p = true) (on mmode : Bool) (op : DbgOp) (hop : ∀ n, op ≠ .counter n) :
    exec (.debugHalt p core ⟨on, mmode, some op⟩) s =
      .next (if s.debugReaches p core ((s.pl p).mgt.haltedM.getLsbD core) && (s.pl p).mgt.halted.getLsbD core then
        s.debugOp p core op else s) := by
  change execDebugHalt p core ⟨on, mmode, some op⟩ s = _
  cases op with
  | counter n => exact absurd rfl (hop n)
  | _ => simp only [execDebugHalt, hu, Bool.not_true, Bool.false_eq_true, if_false]

/-- A halt or a release changes the halted cores and the pauses of the watchdogs. -/
theorem State.setHalt_spec (s : State) (p : Plate) (core : Nat) (on mmode : Bool) :
    (∃ a b c d, ((s.setHalt p core on mmode).pl p).mgt =
      { (s.pl p).mgt.setHalt core on mmode with secAt := a, secPause := b, nrmAt := c, nrmPause := d }) ∧
    ((s.setHalt p core on mmode).pl p).pr.wdPause =
      (if ((s.setHalt p core on mmode).pl p).mgt.haltedM = 0 then none else some ((s.pl p).pr.wdPause.getD s.clock)) ∧
    SameBut [.mgt p, .pr p] s (s.setHalt p core on mmode) := by
  have hm : ((s.setHalt p core on mmode).pl p).mgt = ((s.pl p).mgt.setHalt core on mmode).pauses s.clock := by
    rw [State.setHalt, State.updPr_mgt, State.updMgt_self]
  obtain ⟨a, b, c, d, e⟩ := Mgmt.pauses_eq ((s.pl p).mgt.setHalt core on mmode) s.clock
  refine ⟨⟨a, b, c, d, hm.trans e⟩, ?_, (State.updMgt_frame s p _).step (by simp) ((State.updPr_frame _ p _).mono (by simp))⟩
  rw [hm, State.setHalt, State.updPr_self, State.updMgt_self, State.updMgt_pr, State.updMgt_clock, Pair.pauseWatchdog]
  by_cases h0 : (((s.pl p).mgt.setHalt core on mmode).pauses s.clock).haltedM = 0
  · rw [if_neg (by simpa using h0), if_pos h0]
  · rw [if_pos (by simpa using h0), if_neg h0]

theorem debugHalt_reached (hu : s.up p = true) (on mmode : Bool)
    (hr : s.debugReaches p core (if on then mmode else (s.pl p).mgt.haltedM.getLsbD core) = true) :
    ∃ t, exec (.debugHalt p core ⟨on, mmode, none⟩) s = .next t ∧
      (t.pl p).mgt.halted = (if on then (s.pl p).mgt.halted ||| BitVec.ofNat 4 (2 ^ core)
        else (s.pl p).mgt.halted &&& ~~~ BitVec.ofNat 4 (2 ^ core)) ∧
      (t.pl p).mgt.haltedM = (if on ∧ mmode then (s.pl p).mgt.haltedM ||| BitVec.ofNat 4 (2 ^ core)
        else (s.pl p).mgt.haltedM &&& ~~~ BitVec.ofNat 4 (2 ^ core)) ∧
      (t.pl p).pr.wdPause = (if (t.pl p).mgt.haltedM = 0 then none else some ((s.pl p).pr.wdPause.getD s.clock)) ∧
      (t.pl p).mgt.sec = (s.pl p).mgt.sec ∧ (t.pl p).mgt.nrm = (s.pl p).mgt.nrm ∧
      (t.pl p).mgt.world = (s.pl p).mgt.world ∧ SameBut [.mgt p, .pr p] s t := by
  obtain ⟨⟨a, b, c, d, e⟩, hwd, hfr⟩ := State.setHalt_spec s p core on mmode
  refine ⟨s.setHalt p core on mmode, by rw [exec_debugHalt hu, if_pos hr], ?_, ?_, hwd, ?_, ?_, ?_, hfr⟩
  all_goals rw [e]
  · rfl
  · exact if_congr (by simp) rfl rfl
  · rfl
  · rfl
  · rfl

theorem debugHalt_notReached (hu : s.up p = true) (on mmode : Bool)
    (hr : s.debugReaches p core (if on then mmode else (s.pl p).mgt.haltedM.getLsbD core) = false) :
    exec (.debugHalt p core ⟨on, mmode, none⟩) s = .next s := by
  rw [exec_debugHalt hu, hr]
  rfl

theorem debugOp_notReached (hu : s.up p = true) (on mmode : Bool) (op : DbgOp) (hop : ∀ n, op ≠ .counter n)
    (hr : s.debugReaches p core ((s.pl p).mgt.haltedM.getLsbD core) = false ∨ (s.pl p).mgt.halted.getLsbD core = false) :
    exec (.debugHalt p core ⟨on, mmode, some op⟩) s = .next s := by
  rw [exec_debugOp hu on mmode op hop, if_neg (by rcases hr with h | h <;> simp [h])]

/-- The debug module numbers register x `n` 0x1000 + `n`. -/
theorem State.debugReg_x (s : State) (p : Plate) (c n : Nat) (hn : n < 32) :
    s.debugReg p c (0x1000 + n) = some (((s.pl p).mgt.hart c).get n) := by
  rw [State.debugReg, if_pos (by omega), if_pos (by omega), Nat.add_sub_cancel_left]

theorem Hart.debugWrite_x (h : Hart) (n : Nat) (v : DWord) (hn : n < 32) : h.debugWrite (0x1000 + n) v = h.set n v := by
  rw [Hart.debugWrite, if_pos (by omega), if_pos (by omega), Nat.add_sub_cancel_left]

theorem Hart.pc_set (h : Hart) (n : Nat) (v : DWord) : (h.set n v).pc = h.pc := by
  unfold Hart.set
  split <;> rfl

theorem debugOp_readReg (hu : s.up p = true) (on mmode : Bool) (n : Nat) (hn : n < 32)
    (hr : s.debugReaches p core ((s.pl p).mgt.haltedM.getLsbD core) = true) (hh : (s.pl p).mgt.halted.getLsbD core = true) :
    exec (.debugHalt p core ⟨on, mmode, some (.readReg (0x1000 + n))⟩) s =
      .next ((s.emit (.reply p (some (((s.pl p).mgt.hart core).get n)))).tick 1) := by
  rw [exec_debugOp hu on mmode _ (by simp), if_pos (by simp [hr, hh]), State.debugOp, State.debugReg_x s p core n hn]

theorem debugOp_writeReg (hu : s.up p = true) (on mmode : Bool) (n : Nat) (h0 : 0 < n) (hn : n < 32)
    (hr : s.debugReaches p core ((s.pl p).mgt.haltedM.getLsbD core) = true) (hh : (s.pl p).mgt.halted.getLsbD core = true)
    (v : DWord) :
    ∃ t, exec (.debugHalt p core ⟨on, mmode, some (.writeReg (0x1000 + n) v)⟩) s = .next t ∧
      ((t.pl p).mgt.hart core).get n = v ∧
      (∀ k, k ≠ n → ((t.pl p).mgt.hart core).get k = ((s.pl p).mgt.hart core).get k) ∧
      ((t.pl p).mgt.hart core).pc = ((s.pl p).mgt.hart core).pc ∧ SameBut [.mgt p] s t := by
  have hhart : (((s.updHart p core fun h => h.debugWrite (0x1000 + n) v).pl p).mgt.hart core) =
      ((s.pl p).mgt.hart core).set n v := by
    rw [State.updHart, State.updMgt_self, Mgmt.hart_updHart, Hart.debugWrite_x _ n v hn]
  refine ⟨s.updHart p core fun h => h.debugWrite (0x1000 + n) v, ?_, ?_, fun k hk => ?_, ?_, State.updMgt_frame s p _⟩
  · rw [exec_debugOp hu on mmode _ (by simp), if_pos (by simp [hr, hh])]
    rfl
  · rw [hhart, Hart.get_set _ n v (by omega)]
  · rw [hhart, Hart.get_set_ne _ n k v hk]
  · rw [hhart, Hart.pc_set]

/-! ## Shedding and the raw page window (R325, R337) -/

theorem Mgmt.shedDue_eq (m : Mgmt) (now : Nat) :
    m.shedDue now = if m.deep2.any (fun t => t + 10000 ≤ now) = true then 2
      else if m.deep1.any (fun t => t + 10000 ≤ now) = true then max 1 m.shed
      else if m.shallow.any (fun t => t + 100000 ≤ now) = true then m.shed - 1
      else m.shed := by
  have held (t : Option Nat) (us : Nat) : (t.map fun t => decide (t + us ≤ now)).getD false = t.any fun t => t + us ≤ now := by
    cases t <;> rfl
  simp only [Mgmt.shedDue, held]

theorem shedLevelChange_due (hu : s.up p = true) :
    ∃ t, exec (.shedLevelChange p) s = .next t ∧ (t.pl p).mgt.shed = (s.pl p).mgt.shedDue s.clock ∧
      (t.pl p).nvm.coalesce = ((s.pl p).mgt.shedDue s.clock == 2) ∧ (t.pl p).mgt.queue = (s.pl p).mgt.queue ∧
      SameBut [.mgt p, .nvm p] s t := by
  refine ⟨_, congrArg Host.Outcome.next (if_pos hu), ?_, ?_, ?_,
    (State.updMgt_frame s p _).step (by simp) ((State.updNvm_frame _ p _).mono (by simp))⟩
  · rw [State.updNvm_mgt, State.updMgt_self]
  · rw [State.updNvm_self]
  · rw [State.updNvm_mgt, State.updMgt_self]

/-- The secure world alone selects the page of the raw window. -/
theorem nvmRawSelect_selects (hu : s.up p = true) (page : Word) :
    exec (.nvmRawSelect p .secure page) s = .next (s.updNvm p fun n => { n with raw := page }) ∧
    exec (.nvmRawSelect p .normal page) s = .next s :=
  ⟨congrArg Host.Outcome.next (if_pos hu), rfl⟩

end

/-- Settles O42: the monitor's functions one by one, the ECALL that asks for them, the accesses of a core, the end of a call and of
a move, the debug module, shedding and the raw page window. -/
theorem monitorCalls : Obligations.MonitorCalls := by
  refine ⟨fun p core s h => ?calls, fun p core n s t h hi ht hf hr => State.runCore_ecall n t h hi ht hf hr,
    fun p c k va d n s hp ha => coreAccess_refused hp ha d,
    fun m mm f w a ha hm => Mgmt.admits_watermark m mm f w a ha hm,
    fun p c va d n s hp ha hm hn hl => store_readBack hp ha hm hn hl d,
    fun p c k va d n s hp ha hu hlo hhi hb => coreAccess_badLine hp ha hu hlo hhi hb d,
    fun p core s hu hc => callTimeout_ends hu hc, fun p v s hv hu => wmScrubDone_ends v hv hu,
    fun p core on mmode s hu hc => ?debug, fun p s hu => ?shed, fun p page s hu => nvmRawSelect_selects hu page⟩
  case calls =>
    exact ⟨info_answers h, call_wrongCaller h, call_notRunning h, call_enters h, call_noEntry h, ret_ends h, ret_outside h,
      setEntry_registers h, setEntry_refused h, wmGive_begins h, wmGive_busy h, wmGive_refused h, release_notOwner h,
      release_noBlock h, release_busyOrHandsOver h, release_interruptsOther h, State.monitor_unknown, exec_of_monitor⟩
  case debug =>
    intro m b inM enabled
    have henabled : s.debugReaches p core inM = enabled := State.debugReaches_eq hc inM
    refine ⟨fun he => debugHalt_reached hu on mmode (henabled.trans he),
      fun he => debugHalt_notReached hu on mmode (henabled.trans he), ?_⟩
    intro reach
    have hreach : s.debugReaches p core (m.haltedM.getLsbD core) = reach := State.debugReaches_eq hc _
    exact ⟨fun n h0 hn hr hh => ⟨debugOp_readReg hu on mmode n hn (hreach.trans hr) hh,
        debugOp_writeReg hu on mmode n h0 hn (hreach.trans hr) hh⟩,
      fun op hop hr => debugOp_notReached hu on mmode op hop (hr.imp_left hreach.trans)⟩
  case shed =>
    intro m n
    have hn : m.shedDue s.clock = n := Mgmt.shedDue_eq m s.clock
    rw [← hn]
    exact shedLevelChange_due hu

end Sys2Proof.Machine

/-! PROOFS. The consumer index (O6). -/

namespace Sys2Proof.Machine

/-! ## Distances between indices (Table 2.4) -/

theorem dist_self (a : Word) : dist a a = 0 := by simp [dist]

theorem dist_ofNat_add (a : Word) (n : Nat) (h : n < 2 ^ 32) : dist (a + BitVec.ofNat 32 n) a = n := by
  simp only [dist]
  bv_omega

theorem eq_add_dist (k a : Word) : k = a + BitVec.ofNat 32 (dist k a) := by
  simp only [dist, BitVec.ofNat_toNat, BitVec.setWidth_eq]
  bv_omega

/-- The distance above an index other than the base is one more than that above the next one. -/
theorem dist_succ (k a : Word) (h : k ≠ a) : dist k a = dist k (a + 1) + 1 := by
  simp only [dist]
  bv_omega

/-! ## The advance of L (R31) -/

/-- With a step of fuel for each record, L moves over the consecutive records from it on and no further, and the records that it has
not passed are left. -/
theorem advanceLow_spec (fuel : Nat) (l : Word) (ps : List (Word × Word)) (hf : ps.length ≤ fuel) (hs : fuel < 2 ^ 32) :
    ∃ n ≤ fuel, advanceLow fuel l ps = (l + BitVec.ofNat 32 n, ps.filter fun x => decide (n ≤ dist x.1 l)) ∧
      (∀ k < n, ∃ x ∈ ps, x.1 = l + BitVec.ofNat 32 k) ∧ ∀ x ∈ ps, x.1 ≠ l + BitVec.ofNat 32 n := by
  induction fuel generalizing l ps with
  | zero =>
    obtain rfl : ps = [] := List.length_eq_zero_iff.mp (by omega)
    exact ⟨0, le_refl _, by simp [advanceLow], by simp, by simp⟩
  | succ fuel ih =>
    unfold advanceLow
    by_cases hl : (ps.any fun e => e.1 == l) = true
    · obtain ⟨x, hx, hxl⟩ := List.any_eq_true.mp hl
      have hlt : (ps.filter fun e => e.1 != l).length < ps.length :=
        List.length_filter_lt_length_iff_exists.mpr ⟨x, hx, by simpa using hxl⟩
      obtain ⟨n, hn, he, hbelow, hstop⟩ := ih (l + 1) (ps.filter fun e => e.1 != l) (by omega) (by omega)
      have next (k : Nat) : l + 1 + BitVec.ofNat 32 k = l + BitVec.ofNat 32 (k + 1) := by
        rw [BitVec.ofNat_add, BitVec.add_assoc, BitVec.add_comm 1]; rfl
      refine ⟨n + 1, by omega, ?_, ?_, ?_⟩
      · rw [if_pos hl, he, next, List.filter_filter]
        congr 1
        refine List.filter_congr fun y _ => ?_
        by_cases hy : y.1 = l
        · simp [hy, dist_self]
        · simp [hy, dist_succ y.1 l hy]
      · rintro (_ | k) hk
        · exact ⟨x, hx, by simpa using hxl⟩
        · obtain ⟨y, hy, e⟩ := hbelow k (by omega)
          exact ⟨y, (List.mem_filter.mp hy).1, e.trans (next k)⟩
      · intro y hy e
        refine hstop y (List.mem_filter.mpr ⟨hy, ?_⟩) (e.trans (next n).symm)
        have : dist y.1 l = n + 1 := by rw [e, dist_ofNat_add l _ (by omega)]
        simp only [bne_iff_ne, ne_eq]
        rintro rfl
        simp [dist_self] at this
    · refine ⟨0, by omega, ?_, by simp, ?_⟩
      · simp [hl]
      · intro y hy e
        exact hl (List.any_eq_true.mpr ⟨y, hy, by simpa using e⟩)

/-- Settles O6, from what the advance of L does to a list of records (`advanceLow_spec`). -/
theorem consumerIndexAdvance : Obligations.ConsumerIndexAdvance := by
  intro g i n hlen _
  obtain ⟨m, hm, he, hbelow, hstop⟩ :=
    advanceLow_spec (g.posted.length + 1) g.low (g.posted ++ [(i, n)]) (by simp) (by omega)
  have hd : dist (g.posted1 i n).low g.low = m := by
    simp only [Ring.posted1, he]
    exact dist_ofNat_add _ _ (by omega)
  refine ⟨fun k hk => ?_, fun x hx => ?_, ?_, ?_⟩
  · obtain ⟨x, hx, e⟩ := hbelow _ (hd ▸ hk)
    exact ⟨x, hx, e.trans (eq_add_dist k g.low).symm⟩
  · simpa only [Ring.posted1, he] using hstop x hx
  · rw [hd]
    simp only [Ring.posted1, he]
  · rw [hd]
    cases hf : g.fence <;> simp [Ring.posted1, he, hf, dist_ofNat_add _ m (by omega)]

end Sys2Proof.Machine

/-! PROOFS. The ring engine's shared operations: what they read and write of a ring, and that posting records and issuing reads
only adds outputs and leaves the slices' set-up and the link as they are. -/

namespace Sys2Proof.Machine

variable {s t u : State} {p : Plate} {q : RingRef}

/-! ## One ring -/

@[simp] theorem State.ring_updRing (s : State) (p : Plate) (q : RingRef) (f : Ring → Ring) :
    (s.updRing p q f).ring p q = f (s.ring p q) := by
  cases q <;> simp [State.updRing, State.ring]

theorem OnlyRing.of_rings (hr : (t.pl p).sl.rings = (s.pl p).sl.rings) (ha : (t.pl p).sl.adm = (s.pl p).sl.adm) :
    OnlyRing s t p q := by
  cases q
  · exact ⟨ha, fun k _ => by rw [hr]⟩
  · exact hr

theorem OnlyRing.of_sl (h : (t.pl p).sl = (s.pl p).sl) : OnlyRing s t p q := .of_rings (by rw [h]) (by rw [h])

theorem OnlyRing.refl (s : State) (p : Plate) (q : RingRef) : OnlyRing s s p q := .of_sl rfl

theorem OnlyRing.trans (h : OnlyRing s t p q) (k : OnlyRing t u p q) : OnlyRing s u p q := by
  cases q
  · exact ⟨k.1.trans h.1, fun n hn => (k.2 n hn).trans (h.2 n hn)⟩
  · exact Eq.trans k h

theorem OnlyRing.tenant_ne {i r k : Nat} (h : OnlyRing s t p (.tenant i r)) (hk : k ≠ r) :
    t.ring p (.tenant i k) = s.ring p (.tenant i k) :=
  h.2 _ (by simp only [ringKey]; omega)

theorem State.updRing_onlyRing (s : State) (p : Plate) (q : RingRef) (f : Ring → Ring) :
    OnlyRing s (s.updRing p q f) p q := by
  cases q
  · exact ⟨by simp [State.updRing], fun k hk => by simp [State.updRing, Tab.get_mod_ne _ _ _ _ _ hk]⟩
  · simp [OnlyRing, State.updRing]

theorem State.updSl_onlyRing (s : State) (p : Plate) (q : RingRef) (f : Slices → Slices) (hr : ∀ x, (f x).rings = x.rings)
    (ha : ∀ x, (f x).adm = x.adm) : OnlyRing s (s.updSl p f) p q := .of_rings (by simp [hr]) (by simp [ha])

theorem State.ring_updSl (s : State) (p : Plate) (q : RingRef) (f : Slices → Slices) (hr : ∀ x, (f x).rings = x.rings)
    (ha : ∀ x, (f x).adm = x.adm) : (s.updSl p f).ring p q = s.ring p q := by cases q <;> simp [State.ring, hr, ha]

/-- A fold over the rings of a slice, whose step for a ring touches that ring alone, leaves every ring that it does not name. -/
theorem State.each_ring_other {i k : Nat} (l : List Nat) (f : State → Nat → State)
    (h : ∀ s r, OnlyRing s (f s r) p (.tenant i r)) (hk : k ∉ l) (s : State) :
    (s.each l f).ring p (.tenant i k) = s.ring p (.tenant i k) := by
  induction l generalizing s with
  | nil => rfl
  | cons a l ih =>
    simp only [List.mem_cons, not_or] at hk
    exact (ih hk.2 (f s a)).trans ((h s a).tenant_ne hk.1)

/-- … and a ring that it names once is changed by its own step, which finds that ring as it was. -/
theorem State.each_ring_self {i k : Nat} (l : List Nat) (f : State → Nat → State)
    (h : ∀ s r, OnlyRing s (f s r) p (.tenant i r)) (hl : l.Nodup) (hk : k ∈ l) (s : State) :
    ∃ u, u.ring p (.tenant i k) = s.ring p (.tenant i k) ∧
      (s.each l f).ring p (.tenant i k) = (f u k).ring p (.tenant i k) := by
  induction l generalizing s with
  | nil => simp at hk
  | cons a l ih =>
    rw [List.nodup_cons] at hl
    by_cases e : k = a
    · subst e
      exact ⟨s, rfl, State.each_ring_other l f h hl.1 (f s k)⟩
    · obtain ⟨u, hu, hr⟩ := ih hl.2 (List.mem_of_ne_of_mem e hk) (f s a)
      exact ⟨u, hu.trans ((h s a).tenant_ne e), hr⟩

/-! ## Traffic: records, messages and reads -/

/-- The slices part `y` is `x` but for rings, progress lines owed, live meters, jobs, reads under way and kept CANCELs. -/
def Slices.SetUpKept (x y : Slices) : Prop :=
  ∃ rings adm progress live jobs reads resume cancels, y = { x with
    rings := rings, adm := adm, progress := progress, live := live, jobs := jobs, reads := reads, resume := resume
    cancels := cancels }

theorem Slices.SetUpKept.refl (x : Slices) : x.SetUpKept x := ⟨_, _, _, _, _, _, _, _, rfl⟩

theorem Slices.SetUpKept.trans {x y z : Slices} (h : x.SetUpKept y) (k : y.SetUpKept z) : x.SetUpKept z := by
  obtain ⟨_, _, _, _, _, _, _, _, rfl⟩ := h
  obtain ⟨_, _, _, _, _, _, _, _, rfl⟩ := k
  exact ⟨_, _, _, _, _, _, _, _, rfl⟩

theorem Slices.SetUpKept.impo {x y : Slices} (h : x.SetUpKept y) : y.impo = x.impo := by
  obtain ⟨_, _, _, _, _, _, _, _, rfl⟩ := h; rfl

theorem Slices.SetUpKept.poll {x y : Slices} (h : x.SetUpKept y) : y.poll = x.poll := by
  obtain ⟨_, _, _, _, _, _, _, _, rfl⟩ := h; rfl

/-- Between `s` and `t` plate `p` only added outputs, held translations and pending vectors, and changed what `SetUpKept` names. -/
structure Traffic (s t : State) (p : Plate) : Prop where
  out : s.out <+: t.out
  pow : ∃ atc pba, (t.pl p).pow = { (s.pl p).pow with atc := atc, pba := pba }
  sl : (s.pl p).sl.SetUpKept (t.pl p).sl

theorem Traffic.refl (s : State) (p : Plate) : Traffic s s p := ⟨List.prefix_refl _, ⟨_, _, rfl⟩, .refl _⟩

theorem Traffic.trans (h : Traffic s t p) (k : Traffic t u p) : Traffic s u p := by
  obtain ⟨a, b, e⟩ := h.pow
  obtain ⟨c, d, f⟩ := k.pow
  exact ⟨h.out.trans k.out, ⟨c, d, by rw [f, e]⟩, h.sl.trans k.sl⟩

theorem Traffic.ite {c : Prop} [Decidable c] (h : Traffic s t p) (k : Traffic s u p) : Traffic s (if c then t else u) p := by
  split
  · exact h
  · exact k

theorem Traffic.each {α : Type} (l : List α) (f : State → α → State) (h : ∀ s a, Traffic s (f s a) p) (s : State) :
    Traffic s (s.each l f) p := by
  induction l generalizing s with
  | nil => exact .refl s p
  | cons a l ih => exact (h s a).trans (ih (f s a))

theorem State.updSl_traffic (s : State) (p : Plate) (f : Slices → Slices) (h : ∀ x : Slices, x.SetUpKept (f x)) :
    Traffic s (s.updSl p f) p :=
  ⟨by simp, ⟨_, _, by simp; rfl⟩, by simpa using h _⟩

/-- A change that leaves a plate's link, slices and outputs alone is no traffic of it. -/
theorem Traffic.of_frame {l : List Part} (h : SameBut l s t) (ho : Part.out ∉ l) (hp : Part.pow p ∉ l) (hs : Part.sl p ∉ l) :
    Traffic s t p := by
  have eo : t.out = s.out := h _ ho
  have ep : (t.pl p).pow = (s.pl p).pow := h _ hp
  have es : (t.pl p).sl = (s.pl p).sl := h _ hs
  exact ⟨by rw [eo], ⟨_, _, ep⟩, by rw [es]; exact .refl _⟩

theorem State.emit_traffic (s : State) (p : Plate) (x : Out) : Traffic s (s.emit x) p :=
  ⟨by simp, ⟨_, _, by simp; rfl⟩, by simpa using Slices.SetUpKept.refl _⟩

theorem State.updPow_traffic (s : State) (p : Plate) (f : Power → Power)
    (h : ∀ w, ∃ atc pba, f w = { w with atc := atc, pba := pba }) : Traffic s (s.updPow p f) p :=
  ⟨by simp, by simpa using h _, by simpa using Slices.SetUpKept.refl _⟩

theorem State.updRing_traffic (s : State) (p : Plate) (q : RingRef) (f : Ring → Ring) : Traffic s (s.updRing p q f) p := by
  cases q <;> exact State.updSl_traffic s p _ fun x => ⟨_, _, _, _, _, _, _, _, rfl⟩

theorem State.updJob_traffic (s : State) (p : Plate) (q : RingRef) (i : Word) (f : Job → Job) :
    Traffic s (s.updJob p q i f) p := State.updSl_traffic s p _ fun _ => ⟨_, _, _, _, _, _, _, _, rfl⟩

theorem State.retireRead_traffic (s : State) (p : Plate) (k : ReadKind) : Traffic s (s.retireRead p k) p :=
  State.updSl_traffic s p _ fun _ => ⟨_, _, _, _, _, _, _, _, rfl⟩

theorem State.meter_traffic (s : State) (p : Plate) (q : RingRef) (f : Meter → Meter) : Traffic s (s.meter p q f) p := by
  cases q
  · exact State.updSl_traffic s p _ fun _ => ⟨_, _, _, _, _, _, _, _, rfl⟩
  · exact .refl s p

theorem State.translate_traffic (s : State) (p : Plate) (v : Option (BitVec 20)) (a : DWord) : Traffic s (s.translate p v a) p := by
  unfold State.translate
  exact Traffic.ite ((State.updPow_traffic s p _ fun _ => ⟨_, _, rfl⟩).trans (State.emit_traffic _ p _)) (.refl s p)

theorem State.sliceWrite_traffic (s : State) (p : Plate) (i : Nat) (a : DWord) (d : Bytes) (x : Bool) :
    Traffic s (s.sliceWrite p i a d x) p := by
  unfold State.sliceWrite
  split
  · exact Traffic.ite ((State.translate_traffic s p _ a).trans (State.emit_traffic _ p _)) (.refl s p)
  · exact .refl s p

theorem State.ringWrite_traffic (s : State) (p : Plate) (q : RingRef) (a : DWord) (d : Bytes) (x : Bool) :
    Traffic s (s.ringWrite p q a d x) p := by
  cases q
  · exact State.sliceWrite_traffic s p _ a d x
  · exact Traffic.ite ((State.translate_traffic s p _ a).trans (State.emit_traffic _ p _)) (.refl s p)

theorem State.readUnder_traffic (s : State) (p : Plate) (q : RingRef) (a : DWord) (n : Nat) : Traffic s (s.readUnder p q a n) p :=
  Traffic.ite ((State.translate_traffic s p _ a).trans (State.emit_traffic _ p _)) (.refl s p)

theorem State.issueRead_traffic (s : State) (p : Plate) (q : RingRef) (k : ReadKind) (a : DWord) (n : Nat) :
    Traffic s (s.issueRead p q k a n) p :=
  Traffic.ite ((State.readUnder_traffic s p q a n).trans
    (State.updSl_traffic _ p _ fun _ => ⟨_, _, _, _, _, _, _, _, rfl⟩)) (.refl s p)

theorem State.sendMsix_traffic (s : State) (p : Plate) (v : Nat) : Traffic s (s.sendMsix p v) p := by
  unfold State.sendMsix
  exact Traffic.ite (State.updPow_traffic s p _ fun _ => ⟨_, _, rfl⟩) (State.emit_traffic s p _)

theorem State.sendMsixN_traffic (s : State) (p : Plate) (v k : Nat) : Traffic s (s.sendMsixN p v k) p := by
  induction k generalizing s with
  | zero => exact .refl s p
  | succ k ih => exact (State.sendMsix_traffic s p v).trans (ih _)

theorem State.flushRing_traffic (s : State) (p : Plate) (q : RingRef) : Traffic s (s.flushRing p q) p := by
  unfold State.flushRing
  exact Traffic.ite (.refl s p) ((State.updRing_traffic s p q _).trans (State.sendMsixN_traffic _ p _ _))

theorem State.writeProgress_traffic (s : State) (p : Plate) (i : Nat) : Traffic s (s.writeProgress p i) p := by
  unfold State.writeProgress
  exact (State.sliceWrite_traffic s p i _ _ _).trans ((State.updSl_traffic _ p _ fun _ => ⟨_, _, _, _, _, _, _, _, rfl⟩).trans
    (Traffic.each _ _ (fun s r => State.flushRing_traffic s p _) _))

theorem State.afterRecord_traffic (s : State) (p : Plate) (q : RingRef) (a b : Bool) : Traffic s (s.afterRecord p q a b) p := by
  cases q with
  | admin => exact State.flushRing_traffic s p _
  | tenant i r =>
    exact Traffic.ite (State.updSl_traffic s p _ fun _ => ⟨_, _, _, _, _, _, _, _, rfl⟩)
      (Traffic.ite (State.writeProgress_traffic s p i) (Traffic.ite (.refl s p) (State.flushRing_traffic s p _)))

theorem State.postAs_traffic (s : State) (p : Plate) (q : RingRef) (i : Word) (d : Option Desc) (r : Result) (a b c : Bool) :
    Traffic s (s.postAs p q i d r a b c) p := by
  unfold State.postAs
  refine Traffic.trans (t := if r.status = .ok then s.each r.writes fun s w => s.ringWrite p q w.1 w.2 true else s)
    (Traffic.ite (Traffic.each _ _ (fun s w => State.ringWrite_traffic s p q _ _ _) s) (.refl s p)) ?_
  generalize (if r.status = .ok then s.each r.writes fun s w => s.ringWrite p q w.1 w.2 true else s) = s1
  dsimp only
  refine Traffic.trans (t := match d with
    | some d => if cplZeroed r && d.outCap != 0 then s1.ringWrite p q d.outAddr (zeros d.outCap.toNat) true else s1
    | none => s1) ?_ ?_
  · cases d with
    | none => exact .refl s1 p
    | some d => exact Traffic.ite (State.ringWrite_traffic s1 p q _ _ _) (.refl s1 p)
  · exact (State.ringWrite_traffic _ p q _ _ _).trans ((State.meter_traffic _ p q _).trans
      ((State.updRing_traffic _ p q _).trans (State.afterRecord_traffic _ p q _ _)))

theorem State.post_traffic (s : State) (p : Plate) (q : RingRef) (i : Word) (d : Option Desc) (r : Result) (a b c : Bool) :
    Traffic s (s.post p q i d r a b c) p := State.postAs_traffic s p q i d _ a b c

theorem State.dropJob_traffic (s : State) (p : Plate) (q : RingRef) (i : Word) : Traffic s (s.dropJob p q i) p :=
  (Traffic.of_frame (State.updVlt_frame s p _) (by simp) (by simp) (by simp)).trans
    (State.updSl_traffic _ p _ fun _ => ⟨_, _, _, _, _, _, _, _, rfl⟩)

theorem State.finish_traffic (s : State) (p : Plate) (j : Job) (r : Result) : Traffic s (s.finish p j r) p :=
  Traffic.ite ((State.post_traffic s p _ _ _ _ _ _ _).trans (State.dropJob_traffic _ p _ _)) (.refl s p)

theorem State.finishBatch_traffic (s : State) (p : Plate) (j : Job) (r : Result) : Traffic s (s.finishBatch p j r) p :=
  Traffic.ite ((State.post_traffic s p _ _ _ _ _ _ _).trans (State.dropJob_traffic _ p _ _)) (.refl s p)

theorem State.ringFault_traffic (s : State) (p : Plate) (q : RingRef) (k : Nat) (v : Word) : Traffic s (s.ringFault p q k v) p :=
  (State.ringWrite_traffic s p q _ _ _).trans ((State.meter_traffic _ p q _).trans ((State.updRing_traffic _ p q _).trans
    ((State.updSl_traffic _ p _ fun _ => ⟨_, _, _, _, _, _, _, _, rfl⟩).trans (State.afterRecord_traffic _ p q _ _))))

theorem Traffic.impo (h : Traffic s t p) (i : Nat) : t.impo p i = s.impo p i := by simp only [State.impo, h.sl.impo]

end Sys2Proof.Machine

/-! PROOFS. Doorbells and nudges (O2). -/

namespace Sys2Proof.Machine

variable {s t : State} {p : Plate} {i : Nat}

/-! ## The rows of this family (R34 to R38) -/

theorem exec_doorbellPoll (p : Plate) (i : Nat) (s : State) : exec (.doorbellPoll p i) s = .next
    (if !s.pollDue p i then s
      else if s.pollFits p i then s.readDoorbell p i true
      else s.updSl p fun x => { x with poll := x.poll.mod {} i fun q => { q with interval := 2 * max q.interval x.pollMax } }) :=
  rfl

theorem exec_nudge (p : Plate) (i offset size : Nat) (v : DWord) (s : State) : exec (.nudge p i offset size v) s = .next
    (if offset != 0 || size != 4 || decide (2 ^ 16 ≤ v.toNat) || (s.impo p i).st = .free || !s.up p then s
      else if (s.impo p i).home = p then s.nudgeHome p i
      else s.send p (.nudge i)) := rfl

/-! ## What was sent -/

theorem State.sent_congr (h : t.out = s.out) : t.sent = s.sent := by rw [State.sent, State.sent, h]

theorem State.translate_sent (s : State) (p : Plate) (v : Option (BitVec 20)) (a : DWord) : (s.translate p v a).sent = s.sent := by
  unfold State.translate
  dsimp only
  split
  · simp [State.sent]
  · rfl

/-- A read under a ring's tag is sent, beside the translation requests that ATS puts before it (R24, Table 2.1). -/
theorem State.issueRead_sent (k : ReadKind) (a : DWord) (n : Nat) {q : RingRef} {v : Option (BitVec 20)}
    (h : s.ringTag p q = some v) : (s.issueRead p q k a n).sent = s.sent ++ [.read p v a n false] := by
  have read : ((s.translate p v a).emit (.read p v a n false)).sent = s.sent ++ [.read p v a n false] := by
    rw [← State.translate_sent s p v a]
    simp [State.sent]
  simp only [State.issueRead, State.readUnder, State.reaches_of_tag h, if_true]
  rw [State.sent_congr (State.updSl_out _ _ _), ← read]
  cases q with
  | admin =>
    obtain rfl : none = v := by simpa [State.ringTag] using h
    rfl
  | tenant i r =>
    obtain ⟨w, hw, rfl⟩ := Option.map_eq_some_iff.mp h
    simp only [hw]

theorem State.issueRead_frame (s : State) (p : Plate) (q : RingRef) (k : ReadKind) (a : DWord) (n : Nat) :
    SameBut [.sl p, .pow p, .out] s (s.issueRead p q k a n) :=
  SameBut.ite (((SameBut.ite ((State.translate_frame s p _ a).step (by simp) ((State.emit_frame _ _).mono (by simp)))
    (SameBut.refl _ s) : SameBut [.pow p, .out] s (s.readUnder p q a n))).step (by simp)
      ((State.updSl_frame _ p _).mono (by simp))) (SameBut.refl _ s)

theorem State.readUnder_sl (s : State) (p : Plate) (q : RingRef) (a : DWord) (n : Nat) :
    ((s.readUnder p q a n).pl p).sl = (s.pl p).sl :=
  (SameBut.ite ((State.translate_frame s p _ a).step (by simp) ((State.emit_frame _ _).mono (by simp)))
    (SameBut.refl _ s) : SameBut [.pow p, .out] s (s.readUnder p q a n)) (.sl p) (by simp)

/-- A read adds to the reads under way, and to nothing else of the slices. -/
theorem State.issueRead_sl (s : State) (p : Plate) (q : RingRef) (k : ReadKind) (a : DWord) (n : Nat) :
    ∃ l, ((s.issueRead p q k a n).pl p).sl = { (s.pl p).sl with reads := l } := by
  unfold State.issueRead
  split
  · exact ⟨_, by rw [State.updSl_self, State.readUnder_sl]⟩
  · exact ⟨_, rfl⟩

/-! ## A doorbell read (R34, R35, R38) -/

theorem State.impo_updSl (s : State) (p : Plate) (f : Slices → Slices) (i : Nat) (h : ∀ x, (f x).impo = x.impo) :
    (s.updSl p f).impo p i = s.impo p i := by simp [State.impo, h]

/-- Whether a plate fetches for a slice does not rest on its polling state, its rings or its jobs. -/
theorem State.fetches_updSl (s : State) (p : Plate) (f : Slices → Slices) (i : Nat) (h : ∀ x, (f x).impo = x.impo) :
    (s.updSl p f).fetches p i = s.fetches p i := by
  simp [State.fetches, State.homes, State.serves, State.pasid, State.impo_updSl s p f i h]

theorem State.anyRing_updSl (s : State) (p : Plate) (f : Slices → Slices) (i : Nat) (h : ∀ x, (f x).rings = x.rings) :
    (s.updSl p f).anyRing p i = s.anyRing p i := by
  simp [State.anyRing, State.ring, h]

theorem State.fetches_tag (h : s.fetches p i = true) (r : Nat) : s.ringTag p (.tenant i r) = some (s.pasid p i) := by
  simp only [State.fetches, Bool.and_eq_true, Option.isSome_iff_exists] at h
  obtain ⟨-, v, hv⟩ := h
  simp [State.ringTag, hv]

theorem State.fetches_notFree (h : s.fetches p i = true) : (s.impo p i).st ≠ .free := by
  simp only [State.fetches, State.homes, Bool.and_eq_true, bne_iff_ne] at h
  exact h.1.1.1.2

theorem State.readDoorbell_sl (s : State) (p : Plate) (i : Nat) (timer : Bool) :
    ∃ l log, ((s.readDoorbell p i timer).pl p).sl = { (s.pl p).sl with
      poll := (s.pl p).sl.poll.mod {} i fun q => { q with reading := q.reading + 1, lastRead := s.clock }
      dbpLog := log, reads := l } := by
  unfold State.readDoorbell
  obtain ⟨l, hl⟩ := State.issueRead_sl (s.updSl p fun x => { x with
    poll := x.poll.mod {} i fun q => { q with reading := q.reading + 1, lastRead := s.clock }
    dbpLog := recentPolls s p ++ [(s.clock, timer)] }) p (.tenant i 0) (.doorbell i) ((s.pl p).sl.regs.get {} i).db 64
  exact ⟨l, _, by rw [hl, State.updSl_self]⟩

/-- A doorbell read of a slice that the plate fetches for (R34). -/
theorem State.readDoorbell_reads (h : s.fetches p i = true) (timer : Bool) : DoorbellRead s (s.readDoorbell p i timer) p i := by
  obtain ⟨l, log, hl⟩ := State.readDoorbell_sl s p i timer
  refine ⟨by rw [hl, Tab.get_mod], by rw [hl, Tab.get_mod], ?_, by rw [hl], by rw [hl], by rw [hl], ?_⟩
  · unfold State.readDoorbell
    rw [State.issueRead_sent (v := s.pasid p i), State.sent_congr (State.updSl_out s p _)]
    rw [← State.fetches_tag h 0]
    simp [State.ringTag, State.pasid, State.impo]
  · exact (State.updSl_frame s p _).step (by simp) (State.issueRead_frame _ p _ _ _ _)

/-- The same read, where only the slice's interval was changed before it. -/
theorem doorbellRead_after_interval {f : Slices → Poll → Nat}
    (h : DoorbellRead (s.updSl p fun x => { x with poll := x.poll.mod {} i fun q => { q with interval := f x q } }) t p i) :
    DoorbellRead s t p i := by
  obtain ⟨hr, hl, hs, hrings, hjobs, hregs, hf⟩ := h
  rw [State.updSl_self] at hr hrings hjobs hregs hs
  refine ⟨by rwa [Tab.get_mod] at hr, by rw [hl, State.updSl_clock], ?_, hrings, hjobs, hregs,
    (State.updSl_frame s p _).step (by simp) hf⟩
  rw [hs, State.sent_congr (State.updSl_out s p _)]
  simp only [State.pasid, State.impo, State.updSl_self]

/-- A NUDGE at the home plate reads the doorbell line at once (R38). -/
theorem State.nudgeHome_reads (h : s.fetches p i = true) (ha : s.anyRing p i = true) : DoorbellRead s (s.nudgeHome p i) p i := by
  have hf := (State.fetches_updSl s p (fun x => { x with
    poll := x.poll.mod {} i fun q => { q with interval := x.pollMin } }) i fun _ => rfl).trans h
  have hr := (State.anyRing_updSl s p (fun x => { x with
    poll := x.poll.mod {} i fun q => { q with interval := x.pollMin } }) i fun _ => rfl).trans ha
  unfold State.nudgeHome
  dsimp only
  rw [hf, hr, Bool.and_self, if_pos rfl]
  exact doorbellRead_after_interval (f := fun x _ => x.pollMin) (State.readDoorbell_reads hf false)

/-! ## The gutter -/

theorem State.send_gut (m : GMsg) (h : s.gutterUp p = true) : (s.send p m).gut p.peer = s.gut p.peer ++ [m] := by
  simp [State.send, h]

theorem exec_nudgeForwardArrive {l : List GMsg} (h : s.gut p = .nudge i :: l) : exec (.nudgeForwardArrive p) s = .next
    (if ((s.setGut p l).impo p i).home = p then (s.setGut p l).nudgeHome p i else s.setGut p l) := by
  show execNudgeForwardArrive p s = _
  simp only [execNudgeForwardArrive, State.receive, h, takeMsg]

/-- Settles O2: each of its rows is a doorbell read (`readDoorbell_reads`, `nudgeHome_reads`), a lengthened interval, a message on
the gutter, or nothing. -/
theorem doorbellReads : Obligations.DoorbellReads := by
  refine ⟨fun p i s hf ha hr hp => ?poll, fun p i v s hv hu hh hf ha => ?nudge, fun p i v s hv hu hs hh hg => ?forwarded,
    fun p i l s hg hh hf ha => ?arrives, fun p i o n v s h => ?malformed⟩
  case poll =>
    have due : s.pollDue p i = true := by simp [State.pollDue, hf, ha, hr, hp]
    rw [exec_doorbellPoll]
    simp only [due, Bool.not_true, Bool.false_eq_true, if_false]
    split
    · exact ⟨_, rfl, State.readDoorbell_reads hf true⟩
    · refine ⟨_, rfl, ?_, ?_, State.updSl_frame s p _⟩
      · rw [State.updSl_self, Tab.get_mod]
        dsimp only
        omega
      · rw [State.updSl_self, Tab.get_mod]
  case nudge =>
    refine ⟨_, ?_, State.nudgeHome_reads hf ha⟩
    have hv : ¬65536 ≤ v.toNat := Nat.not_le.mpr hv
    simp [exec_nudge, hv, State.fetches_notFree hf, hu, hh]
  case forwarded =>
    refine ⟨_, ?_, State.send_gut (.nudge i) hg, State.send_frame s p _⟩
    have hv : ¬65536 ≤ v.toNat := Nat.not_le.mpr hv
    simp [exec_nudge, hv, hs, hu, hh]
  case arrives =>
    have home : ((s.setGut p l).impo p i).home = p := by simpa [State.impo] using hh
    have fetch : (s.setGut p l).fetches p i = true := by
      simpa [State.fetches, State.homes, State.serves, State.pasid, State.impo] using hf
    have ring : (s.setGut p l).anyRing p i = true := by simpa [State.anyRing, State.ring] using ha
    have read := State.nudgeHome_reads fetch ring
    refine ⟨_, ?_, ?_, read⟩
    · rw [exec_nudgeForwardArrive hg, if_pos home]
    · obtain ⟨-, -, -, -, -, -, frame⟩ := read
      simpa [Same] using frame (.gut p) (by simp)
  case malformed =>
    have : (o != 0 || n != 4 || decide (2 ^ 16 ≤ v.toNat)) = true := by
      simpa [or_assoc] using h
    rw [exec_nudge, this]
    rfl

end Sys2Proof.Machine

/-! PROOFS. What a doorbell line does to the rings of its slice (O3). -/

namespace Sys2Proof.Machine

variable {s t : State} {p : Plate} {i : Nat}

/-! ## Messages and RING_FAULT records of one ring (R45, R48) -/

theorem State.sendMsixN_sl (s : State) (p : Plate) (v k : Nat) : ((s.sendMsixN p v k).pl p).sl = (s.pl p).sl :=
  State.sendMsixN_frame s p v k (.sl p) (by simp)

theorem State.flushRing_onlyRing (s : State) (p : Plate) (q : RingRef) : OnlyRing s (s.flushRing p q) p q := by
  unfold State.flushRing
  dsimp only
  split
  · exact .refl s p q
  · exact (State.updRing_onlyRing s p q _).trans (.of_sl (State.sendMsixN_sl _ p _ _))

/-- The messages that a ring owes are sent: only its count of records without one changes. -/
theorem State.flushRing_ring (s : State) (p : Plate) (q : RingRef) : (s.flushRing p q).ring p q =
    if (s.ring p q).due = 0 then s.ring p q else { s.ring p q with irqCount := 0, irqSince := none } := by
  unfold State.flushRing
  dsimp only
  split
  · rfl
  · rw [State.ring_congr q (State.sendMsixN_sl _ p _ _), State.ring_updRing]

/-- A record that L has not passed is followed by the messages of its ring alone, where any (R43). -/
theorem State.afterRecord_still (s : State) (p : Plate) (q : RingRef) :
    s.afterRecord p q false false = s ∨ s.afterRecord p q false false = s.flushRing p q := by
  cases q with
  | admin => exact .inr rfl
  | tenant i r =>
    simp only [State.afterRecord, Bool.false_and, Bool.false_eq_true, if_false]
    split
    · exact .inl rfl
    · exact .inr rfl

theorem State.afterRecord_still_onlyRing (s : State) (p : Plate) (q : RingRef) :
    OnlyRing s (s.afterRecord p q false false) p q := by
  rcases State.afterRecord_still s p q with h | h <;> rw [h]
  · exact .refl s p q
  · exact State.flushRing_onlyRing s p q

theorem State.afterRecord_still_ring (s : State) (p : Plate) (q : RingRef) :
    ∃ c t, (s.afterRecord p q false false).ring p q = { s.ring p q with irqCount := c, irqSince := t } := by
  rcases State.afterRecord_still s p q with h | h <;> rw [h]
  · exact ⟨_, _, rfl⟩
  · rw [State.flushRing_ring]
    split
    · exact ⟨_, _, rfl⟩
    · exact ⟨_, _, rfl⟩

theorem State.meter_ring (s : State) (p : Plate) (q g : RingRef) (f : Meter → Meter) : (s.meter p q f).ring p g = s.ring p g := by
  cases q <;> cases g <;> simp [State.meter, State.ring]

theorem State.meter_onlyRing (s : State) (p : Plate) (q g : RingRef) (f : Meter → Meter) : OnlyRing s (s.meter p q f) p g := by
  cases q
  · exact .of_rings (by simp [State.meter]) (by simp [State.meter])
  · exact .refl s p g

/-- The ring once a RING_FAULT record of it is noted. -/
def Ring.faultNoted (g : Ring) (q : RingRef) (k now : Nat) : Ring :=
  { g.countIrq (wantsIrq q g true) now with count := g.count + 1, faulted := true, reason := BitVec.ofNat 4 k }

/-- A RING_FAULT record written, counted and noted (R48), before the messages that follow a record. -/
def State.noteFault (s : State) (p : Plate) (q : RingRef) (k : Nat) (v : Word) : State :=
  let g := s.ring p q
  let u := (s.ringWrite p q (g.cqEntry g.count) (recordCpl 0 Status.ringFault.code p.num 0 0 (BitVec.ofNat 32 k) v 0
    (g.phase g.count)) false).meter p q fun m => { m with ringFaults := m.ringFaults + 1 }
  (u.updRing p q fun g => g.faultNoted q k u.clock).updSl p fun x => { x with
    reads := x.reads.filter fun e => !descriptorRead q e.1 }

theorem State.ringFault_eq (s : State) (p : Plate) (q : RingRef) (k : Nat) (v : Word) :
    s.ringFault p q k v = (s.noteFault p q k v).afterRecord p q false false := rfl

theorem State.noteFault_onlyRing (s : State) (p : Plate) (q : RingRef) (k : Nat) (v : Word) :
    OnlyRing s (s.noteFault p q k v) p q :=
  (OnlyRing.of_sl (State.ringWrite_sl s p p q _ _ false)).trans ((State.meter_onlyRing _ p q q _).trans
    ((State.updRing_onlyRing _ p q _).trans (State.updSl_onlyRing _ p q _ (fun _ => by rfl) fun _ => by rfl)))

theorem State.noteFault_ring (s : State) (p : Plate) (q : RingRef) (k : Nat) (v : Word) :
    ∃ n, (s.noteFault p q k v).ring p q = (s.ring p q).faultNoted q k n := by
  unfold State.noteFault
  dsimp only
  exact ⟨_, (State.ring_updSl _ p q _ (fun _ => by rfl) fun _ => by rfl).trans ((State.ring_updRing _ p q _).trans
    (congrArg (fun g => Ring.faultNoted g q k _)
      ((State.meter_ring _ p q q _).trans (State.ring_congr q (State.ringWrite_sl s p p q _ _ false)))))⟩

theorem State.ringFault_onlyRing (s : State) (p : Plate) (q : RingRef) (k : Nat) (v : Word) :
    OnlyRing s (s.ringFault p q k v) p q :=
  (State.noteFault_onlyRing s p q k v).trans (State.afterRecord_still_onlyRing _ p q)

/-- A ring fault stops fetching with its reason, and takes no producer index (R48). -/
theorem State.ringFault_ring (s : State) (p : Plate) (q : RingRef) (k : Nat) (v : Word) :
    ((s.ringFault p q k v).ring p q).faulted = true ∧ ((s.ringFault p q k v).ring p q).reason = BitVec.ofNat 4 k ∧
      ((s.ringFault p q k v).ring p q).prod = (s.ring p q).prod := by
  obtain ⟨n, hn⟩ := State.noteFault_ring s p q k v
  obtain ⟨c, t, h⟩ := State.afterRecord_still_ring (s.noteFault p q k v) p q
  rw [State.ringFault_eq, h, hn]
  refine ⟨rfl, rfl, ?_⟩
  simp only [Ring.faultNoted, Ring.countIrq]
  split <;> rfl

/-! ## A producer index read (R33, R36) -/

theorem State.issueRead_onlyRing (s : State) (p : Plate) (q g : RingRef) (k : ReadKind) (a : DWord) (n : Nat) :
    OnlyRing s (s.issueRead p g k a n) p q := by
  obtain ⟨l, h⟩ := State.issueRead_sl s p g k a n
  exact .of_rings (by rw [h]) (by rw [h])

theorem State.issueRead_ring (s : State) (p : Plate) (q g : RingRef) (k : ReadKind) (a : DWord) (n : Nat) :
    (s.issueRead p g k a n).ring p q = s.ring p q := by
  obtain ⟨l, h⟩ := State.issueRead_sl s p g k a n
  cases q <;> simp only [State.ring, h]

/-- A fold of reads leaves the rings alone. -/
theorem State.each_issueRead {α : Type} (l : List α) (s : State) (p : Plate) (q g : RingRef) (k : α → ReadKind) (a : α → DWord)
    (n : Nat) : OnlyRing s (s.each l fun s x => s.issueRead p g (k x) (a x) n) p q ∧
      (s.each l fun s x => s.issueRead p g (k x) (a x) n).ring p q = s.ring p q ∧
      SameBut [.sl p, .pow p, .out] s (s.each l fun s x => s.issueRead p g (k x) (a x) n) ∧
      Traffic s (s.each l fun s x => s.issueRead p g (k x) (a x) n) p := by
  induction l generalizing s with
  | nil => exact ⟨.refl s p q, rfl, SameBut.refl _ s, .refl s p⟩
  | cons x l ih =>
    obtain ⟨h1, h2, h3, h4⟩ := ih (s.issueRead p g (k x) (a x) n)
    exact ⟨(State.issueRead_onlyRing s p q g _ _ n).trans h1, h2.trans (State.issueRead_ring s p q g _ _ n),
      (State.issueRead_frame s p g _ _ n).trans h3, (State.issueRead_traffic s p g _ _ n).trans h4⟩

/-- What a producer index does to its ring: a fault of reason 1 or 2, or the index where it is beyond the one accepted before. -/
def Ring.Takes (g h : Ring) (v : Word) : Prop :=
  if g.size < dist v g.low then h.faulted = true ∧ h.reason = 1 ∧ h.prod = g.prod
  else if g.size < dist v g.fetched then h.faulted = true ∧ h.reason = 2 ∧ h.prod = g.prod
  else h = { g with prod := if dist v g.fetched ≤ dist g.prod g.fetched then g.prod else v }

/-- Between `s` and `t` ring `q` of plate `p` was worked on: no other ring changed, and what moved is traffic of its slice. -/
structure RingWork (s t : State) (p : Plate) (q : RingRef) : Prop where
  only : OnlyRing s t p q
  frame : SameBut [.sl p, .pow p, .out] s t
  traffic : Traffic s t p

theorem RingWork.refl (s : State) (p : Plate) (q : RingRef) : RingWork s s p q := ⟨.refl s p q, SameBut.refl _ s, .refl s p⟩

theorem State.ringFault_work (s : State) (p : Plate) (q : RingRef) (k : Nat) (v : Word) : RingWork s (s.ringFault p q k v) p q :=
  ⟨State.ringFault_onlyRing s p q k v, State.ringFault_frame s p q k v, State.ringFault_traffic s p q k v⟩

theorem State.updRing_work (s : State) (p : Plate) (q : RingRef) (f : Ring → Ring) : RingWork s (s.updRing p q f) p q :=
  ⟨State.updRing_onlyRing s p q f, (State.updRing_frame s p q f).mono (by simp), State.updRing_traffic s p q f⟩

/-- A producer index read is answered by `Ring.Takes`, at its ring alone. -/
theorem State.takeP_spec (s : State) (p : Plate) (q : RingRef) (v : Word) :
    (s.ring p q).Takes ((s.takeP p q v).ring p q) v ∧ RingWork s (s.takeP p q v) p q := by
  unfold State.takeP Ring.Takes
  dsimp only
  split
  · exact ⟨State.ringFault_ring s p q 1 v, State.ringFault_work s p q 1 v⟩
  · split
    · exact ⟨State.ringFault_ring s p q 2 v, State.ringFault_work s p q 2 v⟩
    · split
      · exact ⟨rfl, .refl s p q⟩
      · obtain ⟨h1, h2, h3, h4⟩ := State.each_issueRead (List.range (dist v (s.ring p q).prod))
          (s.updRing p q fun g => { g with prod := v }) p q q
          (fun k => .descriptor q ((s.ring p q).prod + BitVec.ofNat 32 k))
          (fun k => (s.ring p q).sqEntry ((s.ring p q).prod + BitVec.ofNat 32 k)) 64
        exact ⟨h2.trans (State.ring_updRing s p q _), (State.updRing_onlyRing s p q _).trans h1,
          (State.updRing_frame s p q _).step (by simp) h3, (State.updRing_traffic s p q _).trans h4⟩

/-- Work on each ring of a slice in turn: each ring is worked on once, as it was before, and the rest is traffic. -/
theorem State.each_ringWork (f : State → Nat → State) (h : ∀ s r, RingWork s (f s r) p (.tenant i r)) (s : State) :
    (∀ r < 16, ∃ u, u.ring p (.tenant i r) = s.ring p (.tenant i r) ∧
      (s.each (List.range 16) f).ring p (.tenant i r) = (f u r).ring p (.tenant i r)) ∧
    SameBut [.sl p, .pow p, .out] s (s.each (List.range 16) f) ∧ Traffic s (s.each (List.range 16) f) p :=
  ⟨fun _ hr => State.each_ring_self _ f (fun s r => (h s r).only) List.nodup_range (List.mem_range.mpr hr) s,
    State.each_frame _ f (fun s r => (h s r).frame) s, Traffic.each _ f (fun s r => (h s r).traffic) s⟩

/-- The same, of work that only rings meeting a condition get. -/
theorem State.each_ringWork_if (c : Ring → Bool) (f : State → Nat → State) (h : ∀ s r, RingWork s (f s r) p (.tenant i r))
    (s : State) :
    (∀ r < 16, c (s.ring p (.tenant i r)) = true → ∃ u, u.ring p (.tenant i r) = s.ring p (.tenant i r) ∧
      (s.each (List.range 16) fun s r => if c (s.ring p (.tenant i r)) then f s r else s).ring p (.tenant i r) =
        (f u r).ring p (.tenant i r)) ∧
    SameBut [.sl p, .pow p, .out] s (s.each (List.range 16) fun s r => if c (s.ring p (.tenant i r)) then f s r else s) ∧
    Traffic s (s.each (List.range 16) fun s r => if c (s.ring p (.tenant i r)) then f s r else s) p := by
  obtain ⟨hr, hf, ht⟩ := State.each_ringWork (p := p) (i := i)
    (fun s r => if c (s.ring p (.tenant i r)) then f s r else s) (fun s r => by
      split
      · exact h s r
      · exact .refl s p _) s
  refine ⟨fun r h16 hc => ?_, hf, ht⟩
  obtain ⟨u, hu, e⟩ := hr r h16
  exact ⟨u, hu, by rw [e, hu, if_pos hc]⟩

/-! ## The end of a doorbell read -/

/-- Noting a line changes of a ring what it last showed, and nothing else. -/
theorem State.noteLine_spec (s : State) (p : Plate) (i : Nat) (b : Bytes) :
    (∀ r < 16, ∃ v, (s.noteLine p i b).ring p (.tenant i r) = { s.ring p (.tenant i r) with lastP := v }) ∧
    SameBut [.sl p] s (s.noteLine p i b) ∧ Traffic s (s.noteLine p i b) p := by
  have note (s : State) (r : Nat) := State.updRing_work s p (.tenant i r) fun g =>
    { g with lastP := BitVec.ofNat 32 (leAt b (4 * r) 4) }
  obtain ⟨-, -, ht⟩ := State.each_ringWork_if Ring.takesP _ note s
  obtain ⟨hr, -, -⟩ := State.each_ringWork (p := p) (i := i) (fun s r => if (s.ring p (.tenant i r)).takesP then
    s.updRing p (.tenant i r) fun g => { g with lastP := BitVec.ofNat 32 (leAt b (4 * r) 4) } else s) (fun s r => by
      split
      · exact note s r
      · exact .refl s p _) s
  refine ⟨fun r h16 => ?_, State.each_frame _ _ (fun s r => ?_) s, ht⟩
  · obtain ⟨u, hu, e⟩ := hr r h16
    refine ⟨if (u.ring p (.tenant i r)).takesP then BitVec.ofNat 32 (leAt b (4 * r) 4) else (s.ring p (.tenant i r)).lastP,
      e.trans ?_⟩
    split
    · rw [State.ring_updRing, hu]
    · rw [hu]
  · exact SameBut.ite (State.updRing_frame s p _ _) (SameBut.refl _ s)

/-- The state in which a doorbell line takes effect: what it shows is noted, its read has returned, and the slice's polling state is
updated (R34). -/
def State.lineRead (s : State) (p : Plate) (i : Nat) (line : Dma) : State :=
  let changed := match line with
    | .ok b => (List.range 16).any fun r =>
        (s.ring p (.tenant i r)).takesP && leAt b (4 * r) 4 != (s.ring p (.tenant i r)).lastP.toNat
    | .fault => false
  let s := match line with
    | .ok b => s.noteLine p i b
    | .fault => s
  (s.retireFirst p (.doorbell i)).updSl p fun x => { x with
    poll := x.poll.mod {} i fun q => { q with
      reading := q.reading - 1, interval := x.nextInterval q changed, idleFrom := if changed then s.clock else q.idleFrom } }

theorem State.doorbellDone_ok (s : State) (p : Plate) (i : Nat) (b : Bytes) (h : (s.lineRead p i (.ok b)).fetches p i = true) :
    s.doorbellDone p i (.ok b) = (s.lineRead p i (.ok b)).each (List.range 16) fun s r =>
      if (s.ring p (.tenant i r)).takesP && !(s.ring p (.tenant i r)).faulted then
        s.takeP p (.tenant i r) (BitVec.ofNat 32 (leAt b (4 * r) 4)) else s := by
  change (if !(s.lineRead p i (.ok b)).fetches p i then _ else _) = _
  rw [h]
  rfl

theorem State.doorbellDone_fault (s : State) (p : Plate) (i : Nat) (h : (s.lineRead p i .fault).fetches p i = true) :
    s.doorbellDone p i .fault = (s.lineRead p i .fault).each (List.range 16) fun s r =>
      if (s.ring p (.tenant i r)).takesP && !(s.ring p (.tenant i r)).faulted then
        s.ringFault p (.tenant i r) 3 (s.ring p (.tenant i r)).fetched else s := by
  change (if !(s.lineRead p i .fault).fetches p i then _ else _) = _
  rw [h]
  rfl

/-- Whether a plate fetches for a slice rests on parts that its rings, polling and jobs are not. -/
theorem State.fetches_congr (h : SameBut [.sl p] s t) (hi : t.impo p i = s.impo p i) : t.fetches p i = s.fetches p i := by
  have hpow : (t.pl p).pow = (s.pl p).pow := h (.pow p) (by simp)
  have htmp : (t.pl p).tmp = (s.pl p).tmp := h (.tmp p) (by simp)
  have hpr : (t.pl p).pr = (s.pl p).pr := h (.pr p) (by simp)
  have hflt : (t.pl p).flt = (s.pl p).flt := h (.flt p) (by simp)
  simp only [State.fetches, State.homes, State.serves, State.pasid, hi, hpow, htmp, hpr, hflt]

theorem State.lineRead_spec (s : State) (p : Plate) (i : Nat) (line : Dma) :
    (((s.lineRead p i line).pl p).sl.poll.get {} i).reading = ((s.pl p).sl.poll.get {} i).reading - 1 ∧
    (s.lineRead p i line).fetches p i = s.fetches p i ∧ SameBut [.sl p] s (s.lineRead p i line) ∧
    ∀ r < 16, ∃ v, (s.lineRead p i line).ring p (.tenant i r) = { s.ring p (.tenant i r) with lastP := v } := by
  have noted : ∃ n, (n = match line with
      | .ok b => s.noteLine p i b
      | .fault => s) ∧ SameBut [.sl p] s n ∧ Traffic s n p ∧
      ∀ r < 16, ∃ v, n.ring p (.tenant i r) = { s.ring p (.tenant i r) with lastP := v } := by
    cases line with
    | ok b =>
      obtain ⟨hr, hf, ht⟩ := State.noteLine_spec s p i b
      exact ⟨_, rfl, hf, ht, hr⟩
    | fault => exact ⟨_, rfl, SameBut.refl _ s, .refl s p, fun r _ => ⟨_, rfl⟩⟩
  obtain ⟨n, e, hf, ht, hr⟩ := noted
  unfold State.lineRead
  dsimp only
  rw [← e]
  refine ⟨?_, State.fetches_congr ?_ ?_, ?_, fun r h16 => ?_⟩
  · rw [State.updSl_self, Tab.get_mod, State.retireFirst, State.updSl_self, ht.sl.poll]
  · exact (hf.trans (State.updSl_frame _ p _)).trans (State.updSl_frame _ p _)
  · exact (State.impo_updSl _ _ _ _ fun _ => by rfl).trans ((State.impo_updSl _ _ _ _ fun _ => by rfl).trans (ht.impo i))
  · exact (hf.trans (State.updSl_frame _ p _)).trans (State.updSl_frame _ p _)
  · obtain ⟨v, hv⟩ := hr r h16
    exact ⟨v, (State.ring_updSl _ p _ _ (fun _ => by rfl) fun _ => by rfl).trans
      ((State.ring_updSl _ p _ _ (fun _ => by rfl) fun _ => by rfl).trans hv)⟩

theorem exec_doorbellReadDone (line : Dma) (h : ((s.pl p).sl.poll.get {} i).reading ≠ 0) :
    exec (.doorbellReadDone p i line) s = .next (s.doorbellDone p i line) := by
  show execDoorbellReadDone p i line s = _
  simp [execDoorbellReadDone, h]

/-- What a line shows a ring takes no account of what the line before showed. -/
theorem Ring.takes_lastP {g h : Ring} {v w : Word} (ht : ({ g with lastP := w } : Ring).Takes h v) :
    if g.size < dist v g.low then h.faulted = true ∧ h.reason = 1 ∧ h.prod = g.prod
    else if g.size < dist v g.fetched then h.faulted = true ∧ h.reason = 2 ∧ h.prod = g.prod
    else h.faulted = g.faulted ∧ h.prod = (if dist v g.fetched ≤ dist g.prod g.fetched then g.prod else v) := by
  unfold Ring.Takes at ht
  change if g.size < dist v g.low then _ else if g.size < dist v g.fetched then _ else _ at ht
  split
  · simpa only [if_pos ‹_›] using ht
  · split
    · simpa only [if_neg ‹¬ g.size < dist v g.low›, if_pos ‹g.size < dist v g.fetched›] using ht
    · rw [if_neg ‹_›, if_neg ‹_›] at ht
      rw [ht]
      exact ⟨rfl, rfl⟩

/-- Settles O3: each ring of the slice is worked on once (`each_ringWork_if`), as `takeP_spec` and `ringFault_ring` say. -/
theorem doorbellLineTakesEffect : Obligations.DoorbellLineTakesEffect := by
  refine ⟨fun p i r b s hread hf h16 ht hn => ?_, fun p i r s hread hf h16 ht hn => ?_⟩
  · obtain ⟨reading, fetch, frame, ring⟩ := State.lineRead_spec s p i (.ok b)
    obtain ⟨w, hw⟩ := ring r h16
    obtain ⟨hr, hfr, htr⟩ := State.each_ringWork_if (fun g => g.takesP && !g.faulted) _
      (fun s r => (State.takeP_spec s p (.tenant i r) (BitVec.ofNat 32 (leAt b (4 * r) 4))).2) (s.lineRead p i (.ok b))
    refine ⟨_, exec_doorbellReadDone _ hread, ?_⟩
    rw [State.doorbellDone_ok s p i b (fetch.trans hf)]
    refine ⟨by rw [htr.sl.poll, reading], ?_, frame.step (by simp) hfr⟩
    obtain ⟨u, hu, e⟩ := hr r h16 (by
      rw [hw]
      simpa [Ring.takesP, Ring.enabled, hn] using ht)
    have takes := (State.takeP_spec u p (.tenant i r) (BitVec.ofNat 32 (leAt b (4 * r) 4))).1
    rw [hu, hw] at takes
    have := Ring.takes_lastP takes
    rw [hn] at this
    dsimp only
    rwa [e]
  · obtain ⟨reading, fetch, frame, ring⟩ := State.lineRead_spec s p i .fault
    obtain ⟨w, hw⟩ := ring r h16
    obtain ⟨hr, hfr, htr⟩ := State.each_ringWork_if (fun g => g.takesP && !g.faulted) _
      (fun s r => State.ringFault_work s p (.tenant i r) 3 (s.ring p (.tenant i r)).fetched) (s.lineRead p i .fault)
    refine ⟨_, exec_doorbellReadDone _ hread, ?_⟩
    rw [State.doorbellDone_fault s p i (fetch.trans hf)]
    obtain ⟨u, hu, e⟩ := hr r h16 (by
      rw [hw]
      simpa [Ring.takesP, Ring.enabled, hn] using ht)
    obtain ⟨faulted, reason, -⟩ := State.ringFault_ring u p (.tenant i r) 3 (u.ring p (.tenant i r)).fetched
    exact ⟨by rw [htr.sl.poll, reading], by rw [e, faulted], by rw [e, reason]; rfl, frame.step (by simp) hfr⟩

end Sys2Proof.Machine

/-! PROOFS. CANCEL and FENCE (O4). -/

namespace Sys2Proof.Machine

variable {s t : State} {p : Plate} {i : Nat} {q : RingRef}

/-! ## The rows of this family (R37, R49 to R53) -/

theorem exec_cancel (p : Plate) (i offset size : Nat) (v : DWord) (s : State) : exec (.cancel p i offset size v) s = .next
    (if offset != 8 || size != 8 || decide (2 ^ 36 ≤ v.toNat) || (s.impo p i).st = .free || !s.up p then s
      else if (s.impo p i).home = p then
        let u := if s.movedSent p.peer i then s
          else s.arm p (.tenant i ((v.toNat / 2 ^ 32) % 16)) (BitVec.ofNat 32 v.toNat)
        if (u.impo p i).st = .moving then
          u.send p (.cancel i ((v.toNat / 2 ^ 32) % 16) (BitVec.ofNat 32 v.toNat)) else u
      else (s.keepCancel p i ((v.toNat / 2 ^ 32) % 16) (BitVec.ofNat 32 v.toNat)).send p
        (.cancel i ((v.toNat / 2 ^ 32) % 16) (BitVec.ofNat 32 v.toNat))) := rfl

theorem exec_cancelForwardArrive {r : Nat} {f : Word} {l : List GMsg} (h : s.gut p = .cancel i r f :: l) :
    exec (.cancelForwardArrive p) s = .next
      (if ((s.setGut p l).impo p i).home = p && !(s.setGut p l).movedSent p.peer i then (s.setGut p l).arm p (.tenant i r) f
        else (s.setGut p l).keepCancel p i r f) := by
  show execCancelForwardArrive p s = _
  simp only [execCancelForwardArrive, State.receive, h, takeMsg]

theorem exec_fence {r : JobRef} {j : Job} (h : s.jobAt r = some j) : exec (.fence r) s = .next
    (if j.stage == .queued && j.desc.op == 0x51 && (s.ring r.plate r.ring).low == r.index then
      s.finish r.plate j { status := if (s.ring r.plate r.ring).covers r.index then .cancelled else .ok } else s) := by
  show execFence r s = _
  simp only [execFence, h]

/-- A well-formed CANCEL at the home plate of a slice in use arms its ring, or goes on alone where the slice's state has been sent
to its new home (Table 9.9). -/
theorem exec_cancel_home {v : DWord} (hv : v.toNat < 2 ^ 36) (hs : (s.impo p i).st ≠ .free) (hu : s.up p = true)
    (hh : (s.impo p i).home = p) : exec (.cancel p i 8 8 v) s = .next
      (let u := if s.movedSent p.peer i then s
          else s.arm p (.tenant i ((v.toNat / 2 ^ 32) % 16)) (BitVec.ofNat 32 v.toNat)
        if (u.impo p i).st = .moving then
          u.send p (.cancel i ((v.toNat / 2 ^ 32) % 16) (BitVec.ofNat 32 v.toNat)) else u) := by
  have ok : (8 != 8 || 8 != 8 || decide (2 ^ 36 ≤ v.toNat) || decide ((s.impo p i).st = .free) || !s.up p) = false := by
    simp [hs, hu]; omega
  rw [exec_cancel, ok, if_neg Bool.false_ne_true, if_pos hh]

theorem exec_cancel_away {v : DWord} (hv : v.toNat < 2 ^ 36) (hs : (s.impo p i).st ≠ .free) (hu : s.up p = true)
    (hh : (s.impo p i).home = p.peer) : exec (.cancel p i 8 8 v) s = .next
      ((s.keepCancel p i ((v.toNat / 2 ^ 32) % 16) (BitVec.ofNat 32 v.toNat)).send p
        (.cancel i ((v.toNat / 2 ^ 32) % 16) (BitVec.ofNat 32 v.toNat))) := by
  have ok : (8 != 8 || 8 != 8 || decide (2 ^ 36 ≤ v.toNat) || decide ((s.impo p i).st = .free) || !s.up p) = false := by
    simp [hs, hu]; omega
  rw [exec_cancel, ok, if_neg Bool.false_ne_true, if_neg (by rw [hh]; exact Plate.peer_ne p)]

/-! ## Arming a fence (R49) -/

theorem State.arm_of_armable {f : Word} (h : Armable (s.ring p q) f) :
    s.arm p q f = (s.updRing p q fun g => { g with fence := some f }).cancelNow p q := by
  obtain ⟨h0, hsize, hfence⟩ := h
  simp only [State.arm, Nat.not_lt.mpr hsize, if_false, h0]
  split
  · next o e =>
    rw [e] at hfence
    rw [if_pos (by simpa using hfence)]
  · rfl

theorem State.arm_bad {f : Word} (h : (s.ring p q).size < dist f (s.ring p q).low) :
    s.arm p q f = s.updRing p q fun g => { g with cancelBad := true } := by
  simp only [State.arm, h, if_true]

theorem State.jobs_updRing (s : State) (p : Plate) (q : RingRef) (f : Ring → Ring) :
    ((s.updRing p q f).pl p).sl.jobs = (s.pl p).sl.jobs := by cases q <;> simp [State.updRing]

theorem State.impo_updRing (s : State) (p : Plate) (q : RingRef) (f : Ring → Ring) (i : Nat) :
    (s.updRing p q f).impo p i = s.impo p i := by cases q <;> simp [State.updRing, State.impo]

/-- Where no job of the ring waits for a lease or is parked, arming completes nothing (R50, R131). -/
theorem State.cancelNow_none (h : NoneWaits s p q) : s.cancelNow p q = s := by
  have : ((s.pl p).sl.jobs.filter fun j => j.ring == q && (j.stage == .waitLease || j.stage == .parked)) = [] := by
    rw [List.filter_eq_nil_iff]
    intro j hj
    simpa [not_or] using h j hj
  rw [State.cancelNow, this]
  rfl

theorem State.arm_quiet {f : Word} (h : Armable (s.ring p q) f) (hn : NoneWaits s p q) :
    s.arm p q f = s.updRing p q fun g => { g with fence := some f } := by
  rw [State.arm_of_armable h]
  exact State.cancelNow_none (by simpa only [NoneWaits, State.jobs_updRing] using hn)

/-! ## Completions seen from an earlier state -/

/-- A completion is seen from before a change of the slices part that leaves the slices' table, and of the ring where its records
go, as they were. -/
theorem Completes.before_updSl {f : Slices → Slices} {j : Job} {r : Result} (h : Completes (s.updSl p f) t p j r)
    (hi : ∀ x, (f x).impo = x.impo) (hq : ((s.updSl p f).ring p j.ring).cq = (s.ring p j.ring).cq)
    (hg : ((s.updSl p f).ring p j.ring).cfg = (s.ring p j.ring).cfg)
    (hc : ((s.updSl p f).ring p j.ring).count = (s.ring p j.ring).count) : Completes s t p j r := by
  obtain ⟨ho, hw⟩ := h
  have pasid (n : Nat) : (s.updSl p f).pasid p n = s.pasid p n := by
    simp only [State.pasid, State.impo_updSl s p f n hi]
  have tag : (s.updSl p f).ringTag p j.ring = s.ringTag p j.ring := by
    cases j.ring <;> simp only [State.ringTag, pasid]
  have may : (s.updSl p f).mayWrite p = s.mayWrite p := by simp [State.mayWrite]
  have size : ((s.updSl p f).ring p j.ring).size = (s.ring p j.ring).size := by rw [Ring.size, Ring.size, hg]
  have same : (s.updSl p f).translated p j.ring (some j.desc) r = s.translated p j.ring (some j.desc) r := by
    cases j.ring <;> simp only [State.translated, pasid, State.updSl_pow]
  refine ⟨by simpa using ho, fun v hv => ?_⟩
  obtain ⟨gone, written⟩ := hw v (tag.trans hv)
  refine ⟨gone, fun hm => ?_⟩
  simpa only [recordOf, Ring.cqEntry, Ring.phase, same, size, hq, hc] using written (may.trans hm)

/-- What a change of one ring keeps of every ring, it keeps of any. -/
theorem State.ring_updRing_keeps {α : Type} (s : State) (p : Plate) (q g : RingRef) (f : Ring → Ring) (c : Ring → α)
    (h : ∀ x, c (f x) = c x) : c ((s.updRing p q f).ring p g) = c (s.ring p g) := by
  cases q with
  | admin => cases g <;> simp [State.updRing, State.ring, h]
  | tenant i r =>
    cases g with
    | admin => simp [State.updRing, State.ring]
    | tenant k n =>
      simp only [State.updRing, State.ring, State.updSl_self]
      by_cases e : ringKey k n = ringKey i r
      · rw [e, Tab.get_mod, h]
      · rw [Tab.get_mod_ne _ _ _ _ _ e]

/-- A completion is seen from before a change of the slices part that leaves its table and the rings as they were. -/
theorem Completes.before_quiet {f : Slices → Slices} {r : Result} (h : Completes (s.updSl p f) t p j r)
    (hi : ∀ x, (f x).impo = x.impo) (hr : ∀ x, (f x).rings = x.rings) (ha : ∀ x, (f x).adm = x.adm) : Completes s t p j r := by
  have same := State.ring_updSl s p j.ring f hr ha
  exact h.before_updSl hi (congrArg Ring.cq same) (congrArg Ring.cfg same) (congrArg Ring.count same)

theorem Completes.before_updRing {f : Ring → Ring} {j : Job} {r : Result} (h : Completes (s.updRing p q f) t p j r)
    (hq : ∀ g, (f g).cq = g.cq) (hg : ∀ g, (f g).cfg = g.cfg) (hc : ∀ g, (f g).count = g.count) : Completes s t p j r := by
  have keeps {α : Type} (c : Ring → α) := State.ring_updRing_keeps s p q j.ring f c
  cases q with
  | tenant i r => exact h.before_updSl (fun _ => by rfl) (keeps Ring.cq hq) (keeps Ring.cfg hg) (keeps Ring.count hc)
  | admin => exact h.before_updSl (fun _ => by rfl) (keeps Ring.cq hq) (keeps Ring.cfg hg) (keeps Ring.count hc)

/-! ## One job cancelled at once (R50, R131) -/

/-- Arming a fence that covers the one job of its ring that waits for a lease or is parked completes that job. -/
theorem State.arm_cancels {f : Word} {j : Job} (h : Armable (s.ring p q) f)
    (hj : ((s.pl p).sl.jobs.filter fun j => j.ring == q && (j.stage == .waitLease || j.stage == .parked)) = [j])
    (hc : dist j.index (s.ring p q).low < dist f (s.ring p q).low) :
    s.arm p q f = (s.updRing p q fun g => { g with fence := some f }).fail p j .cancelled := by
  rw [State.arm_of_armable h, State.cancelNow, State.jobs_updRing, hj]
  simp [State.each, Ring.covers, hc]

/-! ## CANCELs kept away from the home (R52) -/

theorem State.keepCancel_get (s : State) (p : Plate) (i r : Nat) (f : Word) :
    ((s.keepCancel p i r f).pl p).sl.cancels.get [] (ringKey i r) =
      if ((s.pl p).sl.cancels.get [] (ringKey i r)).contains f then (s.pl p).sl.cancels.get [] (ringKey i r)
      else (s.pl p).sl.cancels.get [] (ringKey i r) ++ [f] := by
  rw [State.keepCancel, State.updSl_self, Tab.get_mod]

theorem State.mem_keepCancel (s : State) (p : Plate) (i r : Nat) (f : Word) :
    f ∈ ((s.keepCancel p i r f).pl p).sl.cancels.get [] (ringKey i r) := by
  rw [State.keepCancel_get]
  split
  · exact List.contains_iff_mem.mp ‹_›
  · exact List.mem_append_right _ (List.mem_singleton_self f)

theorem State.mem_keepCancel_of_mem {r : Nat} {f g : Word} (h : g ∈ (s.pl p).sl.cancels.get [] (ringKey i r)) :
    g ∈ ((s.keepCancel p i r f).pl p).sl.cancels.get [] (ringKey i r) := by
  rw [State.keepCancel_get]
  split
  · exact h
  · exact List.mem_append_left _ h

theorem State.job_eq {r : RingRef} {n : Word} {j : Job} (h : s.job? p r n = some j) : j.ring = r ∧ j.index = n := by
  simpa using List.find?_some h

/-- Settles O4, clause by clause: an armed fence (`arm_quiet`, `arm_cancels`), CANCEL_BAD (`arm_bad`), a CANCEL kept and passed on,
and FENCE. -/
theorem cancelsAndFences : Obligations.CancelsAndFences := by
  refine ⟨?arms, ?bad, ?movedOn, ?forwarded, ?arrives, ?malformed, ?cancelled, ?fence, ?fenceWaits⟩
  case arms =>
    intro p i v s hv hs hu hh hm q f ha hn
    refine ⟨_, exec_cancel_home hv (by simp [hs]) hu hh, ?_⟩
    dsimp only
    rw [hm, if_neg Bool.false_ne_true, State.arm_quiet ha hn, State.impo_updRing, hs, if_neg (by decide)]
    exact ⟨State.ring_updRing s p q _, State.jobs_updRing s p q _, State.updRing_onlyRing s p q _, State.updRing_frame s p q _⟩
  case bad =>
    intro p i v s hv hs hu hh hm q hb
    refine ⟨_, exec_cancel_home hv (by simp [hs]) hu hh, ?_⟩
    dsimp only
    rw [hm, if_neg Bool.false_ne_true, State.arm_bad hb, State.impo_updRing, hs, if_neg (by decide)]
    exact ⟨State.ring_updRing s p q _, State.jobs_updRing s p q _, State.updRing_onlyRing s p q _, State.updRing_frame s p q _⟩
  case movedOn =>
    intro p i v s hv hs hu hh hm hg
    refine ⟨_, exec_cancel_home hv (by simp [hs]) hu hh, ?_⟩
    dsimp only
    rw [hm, if_pos rfl, hs, if_pos rfl]
    exact ⟨State.send_gut _ hg, State.send_frame s p _⟩
  case forwarded =>
    intro p i v s hv hs hu hh hg r
    have up : (s.keepCancel p i r (BitVec.ofNat 32 v.toNat)).gutterUp p = true := by
      simpa [State.keepCancel, State.gutterUp] using hg
    have sl (m : GMsg) : (((s.keepCancel p i r (BitVec.ofNat 32 v.toNat)).send p m).pl p).sl =
        ((s.keepCancel p i r (BitVec.ofNat 32 v.toNat)).pl p).sl := State.send_frame _ p m (.sl p) (by simp)
    refine ⟨_, exec_cancel_away hv hs hu hh, ?_, fun f hf => ?_, ?_, ?_, ?_⟩
    · rw [sl]
      exact State.mem_keepCancel s p i r _
    · rw [sl]
      exact State.mem_keepCancel_of_mem hf
    · rw [State.send_gut _ up]
      congr 1
      cases p <;> rfl
    · rw [sl, State.keepCancel, State.updSl_self]
    · exact (State.updSl_frame s p _).step (by simp) ((State.send_frame _ p _).mono (by simp))
  case arrives =>
    intro p i r f l s hg hh hm ha hn
    have home : ((s.setGut p l).impo p i).home = p := by simpa [State.impo] using hh
    have stays : (s.setGut p l).movedSent p.peer i = false := by simpa [State.movedSent] using hm
    have ring : (s.setGut p l).ring p (.tenant i r) = s.ring p (.tenant i r) := State.ring_congr _ (by simp)
    have waits : NoneWaits (s.setGut p l) p (.tenant i r) := by simpa [NoneWaits] using hn
    refine ⟨_, exec_cancelForwardArrive hg, ?_⟩
    rw [home, stays, if_pos (by simp), State.arm_quiet (by rwa [ring]) waits]
    have frame := State.updRing_frame (s.setGut p l) p (.tenant i r) fun g => { g with fence := some f }
    refine ⟨?_, by rw [State.ring_updRing, ring], ?_, (State.setGut_frame s p l).step (by simp) (frame.mono (by simp))⟩
    · simpa [Same] using frame (.gut p) (by simp)
    · exact (OnlyRing.of_sl (by simp)).trans (State.updRing_onlyRing _ p _ _)
  case malformed =>
    intro p i o n v s h
    have : (o != 8 || n != 8 || decide (2 ^ 36 ≤ v.toNat)) = true := by simpa [or_assoc] using h
    rw [exec_cancel, this]
    rfl
  case cancelled =>
    intro p i v j s hv hs hu hh hm q f ha hj hc
    refine ⟨_, exec_cancel_home hv (by simp [hs]) hu hh, ?_⟩
    dsimp only
    have traffic := (State.updRing_traffic s p q fun g => { g with fence := some f }).trans
      (State.finish_traffic _ p j { status := .cancelled })
    rw [hm, if_neg Bool.false_ne_true, State.arm_cancels ha hj hc]
    rw [if_neg (by rw [State.fail, traffic.impo, hs]; decide)]
    refine ⟨(State.fail_completes _ p j .cancelled).before_updRing (fun _ => rfl) (fun _ => rfl) (fun _ => rfl), ?_⟩
    exact (State.updRing_frame s p q _).step (by simp [completing]) (State.fail_frame _ p j .cancelled)
  case fence =>
    intro r j s hj hs ho hl
    refine ⟨_, exec_fence hj, ?_⟩
    rw [if_pos (by simp [hs, ho, hl])]
    exact ⟨State.finish_completes s r.plate j _, State.finish_frame s r.plate j _⟩
  case fenceWaits =>
    intro r s hl
    cases hj : s.jobAt r with
    | none => show execFence r s = _; simp only [execFence, hj]
    | some j => rw [exec_fence hj, if_neg (by simp [hl])]

end Sys2Proof.Machine

/-! PROOFS. Jobs: what a change of one job reads back as, and how a checked job comes to wait for its class (R40, R70). -/

namespace Sys2Proof.Machine

variable {s t : State} {p : Plate} {q : RingRef} {n : Word} {j k : Job}

/-! ## One job -/

/-- A changed job reads as the change of what it read before, where the change keeps whose descriptor it is. -/
theorem State.job?_updJob (s : State) (p : Plate) (q : RingRef) (n : Word) (f : Job → Job)
    (h : ∀ k, k.ring = q → k.index = n → (f k).ring = q ∧ (f k).index = n) :
    (s.updJob p q n f).job? p q n = (s.job? p q n).map f := by
  have keeps : (fun j : Job => j.ring == q && j.index == n) ∘ (fun j => if j.ring == q && j.index == n then f j else j) =
      fun j => j.ring == q && j.index == n := by
    funext j
    dsimp only [Function.comp]
    split
    · next hj =>
      have := hj
      simp only [Bool.and_eq_true, beq_iff_eq] at this
      simp [h j this.1 this.2, this]
    · rfl
  rw [State.job?, State.job?, State.updJob, State.updSl_self]
  dsimp only
  rw [List.find?_map, keeps]
  cases hj : (s.pl p).sl.jobs.find? fun j => j.ring == q && j.index == n with
  | none => rfl
  | some j => rw [Option.map_some, Option.map_some, if_pos (List.find?_some hj)]

theorem State.job?_updSl (s : State) (p : Plate) (f : Slices → Slices) (h : ∀ x, (f x).jobs = x.jobs) (q : RingRef) (n : Word) :
    (s.updSl p f).job? p q n = s.job? p q n := by simp [State.job?, h]

theorem State.job?_congr (h : (t.pl p).sl.jobs = (s.pl p).sl.jobs) (q : RingRef) (n : Word) : t.job? p q n = s.job? p q n := by
  simp only [State.job?, h]

/-- A job that a descriptor makes stands where that descriptor had none. -/
theorem State.job?_append (s : State) (p : Plate) (j : Job) (h : s.job? p j.ring j.index = none) :
    (s.updSl p fun x => { x with jobs := x.jobs ++ [j] }).job? p j.ring j.index = some j := by
  simp only [State.job?] at h
  simp [State.job?, h]

/-! ## Coming to wait for a class (R70) -/

/-- Schedulers are no ring, job or slice entry. -/
theorem Slices.modSched_keeps (x : Slices) (c : EngClass) (f : Sched → Sched) :
    (x.modSched c f).jobs = x.jobs ∧ (x.modSched c f).rings = x.rings ∧ (x.modSched c f).adm = x.adm ∧
      (x.modSched c f).impo = x.impo := by
  cases c <;> exact ⟨rfl, rfl, rfl, rfl⟩

theorem State.joinClass_frame (s : State) (p : Plate) (j : Job) (c : EngClass) : SameBut [.sl p] s (s.joinClass p j c) :=
  SameBut.ite (SameBut.refl _ s) (State.updSl_frame s p _)

theorem State.joinClass_jobs (s : State) (p : Plate) (j : Job) (c : EngClass) :
    ((s.joinClass p j c).pl p).sl.jobs = (s.pl p).sl.jobs := by
  unfold State.joinClass
  dsimp only
  split
  · rfl
  · rw [State.updSl_self]
    exact (Slices.modSched_keeps _ c _).1

theorem State.joinClass_ring (s : State) (p : Plate) (j : Job) (c : EngClass) (q : RingRef) :
    (s.joinClass p j c).ring p q = s.ring p q := by
  unfold State.joinClass
  dsimp only
  split
  · rfl
  · exact State.ring_updSl s p q _ (fun x => (Slices.modSched_keeps x c _).2.1) fun x => (Slices.modSched_keeps x c _).2.2.1

theorem State.updJob_ring (s : State) (p : Plate) (q g : RingRef) (n : Word) (f : Job → Job) :
    (s.updJob p q n f).ring p g = s.ring p g := State.ring_updSl s p g _ (fun _ => rfl) fun _ => rfl

theorem State.issueRead_jobs (s : State) (p : Plate) (q : RingRef) (k : ReadKind) (a : DWord) (n : Nat) :
    ((s.issueRead p q k a n).pl p).sl.jobs = (s.pl p).sl.jobs := by
  obtain ⟨l, h⟩ := State.issueRead_sl s p q k a n
  rw [h]

/-- The stored job `k` as check 7 of job `j` leaves it. -/
def Job.madeReady (k j : Job) : Job :=
  { k with
    stage := if k.desc.op == 0x51 then .queued else .ready, cls := opClass j.desc.op j.desc.al, cost := jobCost k.desc k.key
    prefetched := (if opClass j.desc.op j.desc.al == .lane then lanePrefetch j.desc else []).isEmpty
    addOn := jobCost k.desc k.key - laneD1 k.desc.op k.desc.al, d1 := laneD1 k.desc.op k.desc.al }

/-- Reads keep the jobs and the rings, and are traffic. -/
theorem State.each_reads {α : Type} (l : List α) (s : State) (p : Plate) (g : RingRef) (k : ReadKind) (a : α → DWord)
    (n : α → Nat) : ((s.each l fun s x => s.issueRead p g k (a x) (n x)).pl p).sl.jobs = (s.pl p).sl.jobs ∧
      (∀ q, (s.each l fun s x => s.issueRead p g k (a x) (n x)).ring p q = s.ring p q) ∧
      SameBut [.sl p, .pow p, .out] s (s.each l fun s x => s.issueRead p g k (a x) (n x)) := by
  induction l generalizing s with
  | nil => exact ⟨rfl, fun _ => rfl, SameBut.refl _ s⟩
  | cons x l ih =>
    obtain ⟨h1, h2, h3⟩ := ih (s.issueRead p g k (a x) (n x))
    exact ⟨h1.trans (State.issueRead_jobs s p g k _ _), fun q => (h2 q).trans (State.issueRead_ring s p q g k _ _),
      SameBut.trans (State.issueRead_frame s p g k _ _) h3⟩

/-- A job is ready: its fields are fixed, and beside the reads that it asks for only its slice part moves. -/
theorem State.makeReady_spec (s : State) (p : Plate) (j : Job) :
    (s.makeReady p j).job? p j.ring j.index = (s.job? p j.ring j.index).map (·.madeReady j) ∧
      (∀ g, (s.makeReady p j).ring p g = s.ring p g) ∧ SameBut [.sl p, .pow p, .out] s (s.makeReady p j) ∧
      (opClass j.desc.op j.desc.al ≠ .lane → SameBut [.sl p] s (s.makeReady p j)) := by
  obtain ⟨h1, h2, h3⟩ := State.each_reads (if opClass j.desc.op j.desc.al == .lane then lanePrefetch j.desc else [])
    ((s.joinClass p j (opClass j.desc.op j.desc.al)).updJob p j.ring j.index (·.madeReady j)) p j.ring
    (.input j.ring j.index) (·.1) (·.2)
  have core := State.job?_updJob (s.joinClass p j (opClass j.desc.op j.desc.al)) p j.ring j.index (·.madeReady j)
    fun k h1 h2 => ⟨h1, h2⟩
  have frame : SameBut [.sl p] s ((s.joinClass p j (opClass j.desc.op j.desc.al)).updJob p j.ring j.index (·.madeReady j)) :=
    (State.joinClass_frame s p j _).trans (State.updJob_frame _ p _ _ _)
  refine ⟨(State.job?_congr h1 _ _).trans (core.trans (congrArg _ (State.job?_congr (State.joinClass_jobs s p j _) _ _))),
    fun g => (h2 g).trans ((State.updJob_ring _ p _ g _ _).trans (State.joinClass_ring s p j _ g)),
    frame.step (by simp) h3, fun hc => ?_⟩
  have none : (if opClass j.desc.op j.desc.al == .lane then lanePrefetch j.desc else []) = [] := by simp [hc]
  have e : s.makeReady p j = ((s.joinClass p j (opClass j.desc.op j.desc.al)).updJob p j.ring j.index (·.madeReady j)).each
      (if opClass j.desc.op j.desc.al == .lane then lanePrefetch j.desc else [])
      fun s r => s.issueRead p j.ring (.input j.ring j.index) r.1 r.2 := rfl
  rw [e, none]
  exact frame

end Sys2Proof.Machine

/-! PROOFS. A fetched descriptor and its checks (O5). -/

namespace Sys2Proof.Machine

variable {s t : State} {p : Plate} {q : RingRef} {i : Word}

/-! ## F passes a descriptor (R36, R39) -/

/-- The state in which a fetched descriptor is checked: its read has returned and F has passed it. -/
def State.fetchPassed (s : State) (p : Plate) (q : RingRef) : State :=
  (s.retireRead p (.descriptor q (s.ring p q).fetched)).updRing p q fun g =>
    { g with fetched := s.nextFetch p q g.prod g.reach ((s.ring p q).fetched + 1) }

theorem State.fetchDone_ok (s : State) (p : Plate) (q : RingRef) (b : Bytes) :
    s.fetchDone p q (.ok b) = (s.fetchPassed p q).fetched p q (s.ring p q).fetched (decodeDesc (fit 64 b)) := rfl

theorem State.fetchPassed_frame (s : State) (p : Plate) (q : RingRef) : SameBut [.sl p] s (s.fetchPassed p q) :=
  (State.updSl_frame s p _).trans (State.updRing_frame _ p q _)

theorem State.fetchPassed_ring (s : State) (p : Plate) (q : RingRef) : (s.fetchPassed p q).ring p q = { s.ring p q with
    fetched := s.nextFetch p q (s.ring p q).prod (s.ring p q).reach ((s.ring p q).fetched + 1) } := by
  have : (s.retireRead p (.descriptor q (s.ring p q).fetched)).ring p q = s.ring p q :=
    State.ring_updSl s p q _ (fun _ => by rfl) fun _ => by rfl
  rw [State.fetchPassed, State.ring_updRing, this]

theorem State.fetchPassed_jobs (s : State) (p : Plate) (q : RingRef) :
    ((s.fetchPassed p q).pl p).sl.jobs = (s.pl p).sl.jobs := by
  rw [State.fetchPassed, State.jobs_updRing, State.retireRead, State.updSl_self]

/-- Quotas rest on the slices' table and on the slice commands in progress. -/
theorem State.quotaNow_congr (h : SameBut [.sl p] s t) (hk : (s.pl p).sl.SetUpKept (t.pl p).sl) (n : Nat) :
    t.quotaNow p n = s.quotaNow p n := by
  have hp : (t.pl p.peer).sl = (s.pl p.peer).sl := h (.sl p.peer) (by cases p <;> simp)
  have ho : (t.pl p).sl.ops = (s.pl p).sl.ops := by
    obtain ⟨_, _, _, _, _, _, _, _, e⟩ := hk
    rw [e]
  have hi : t.impo p n = s.impo p n := by simp only [State.impo, hk.impo]
  cases p <;> simp only [State.quotaNow, hi] <;> simp only [State.pl, Plate.peer] at hp ho <;> simp only [hp, ho]

theorem State.fetchPassed_quotaNow (s : State) (p : Plate) (q : RingRef) (n : Nat) :
    (s.fetchPassed p q).quotaNow p n = s.quotaNow p n :=
  State.quotaNow_congr (State.fetchPassed_frame s p q)
    ((State.retireRead_traffic s p _).trans (State.updRing_traffic _ p q _)).sl n

/-- F moves to the next index where that one is not settled already. -/
theorem State.nextFetch_open (h : s.settled p q i = false) (e : Word) (fuel : Nat) : s.nextFetch p q e fuel i = i := by
  cases fuel with
  | zero => rfl
  | succ n => simp [State.nextFetch, h]

/-- A completion of a job that a fetch made is seen from before the fetch. -/
theorem Completes.before_fetch {j : Job} {l : List Job} {r : Result}
    (h : Completes ((s.fetchPassed p q).updSl p fun x => { x with jobs := x.jobs ++ l }) t p j r) : Completes s t p j r := by
  have joined := h.before_quiet (fun _ => by rfl) (fun _ => by rfl) (fun _ => by rfl)
  have passed := joined.before_updRing (fun _ => by rfl) (fun _ => by rfl) (fun _ => by rfl)
  exact passed.before_quiet (fun _ => by rfl) (fun _ => by rfl) (fun _ => by rfl)

/-! ## The job of a fetched descriptor (R40) -/

/-- DESCRIPTOR_FETCH where its plate serves the ring and the descriptor is the next to fetch. -/
theorem exec_descriptorFetch {b : Bytes} (hs : s.servesRing p q = true) (ho : (s.ring p q).fetchOpen = true)
    (hi : (s.ring p q).fetched = i) : exec (.descriptorFetch { plate := p, ring := q, index := i } (.ok b)) s = .next
      ((s.fetchPassed p q).fetched p q i (decodeDesc (fit 64 b))) := by
  show execDescriptorFetch _ _ s = _
  subst hi
  simp [execDescriptorFetch, hs, ho, State.fetchDone_ok]

theorem fetchedJob_passed (s : State) (p : Plate) (q : RingRef) (i : Word) (d : Desc) :
    fetchedJob (s.fetchPassed p q) p q i d = fetchedJob s p q i d := by
  simp [fetchedJob, State.fetchPassed_ring, Ring.fetcher]

/-- A descriptor on a draining ring is cancelled (R55). -/
theorem State.fetched_draining {d : Desc} (h : (s.ring p q).draining = true) : s.fetched p q i d =
    (s.updSl p fun x => { x with jobs := x.jobs ++ [fetchedJob s p q i d] }).finishBatch p (fetchedJob s p q i d)
      { status := .cancelled } := by
  simp only [State.fetched, h, if_true, fetchedJob]

/-- A tenant's descriptor that fails checks 1 to 3 completes, and one that passes them goes on to check 4. -/
theorem State.fetched_tenant {n r : Nat} {d : Desc} (h : (s.ring p (.tenant n r)).draining = false) :
    s.fetched p (.tenant n r) i d =
      match checks13 (.tenant n r) (s.quotaNow p n).slots d with
      | some st => (s.updSl p fun x => { x with jobs := x.jobs ++ [fetchedJob s p (.tenant n r) i d] }).fail p
          (fetchedJob s p (.tenant n r) i d) st
      | none => (s.updSl p fun x => { x with jobs := x.jobs ++ [fetchedJob s p (.tenant n r) i d] }).checks47 p
          (fetchedJob s p (.tenant n r) i d) := by
  simp only [State.fetched, h, Bool.false_eq_true, if_false, fetchedJob]
  rfl

/-- A job that names no key, takes nothing of the vault and fits its output is ready after check 7. -/
theorem State.checks47_keyless {j : Job} (hk : keyless j.desc = true) (h30 : j.desc.op ≠ 0x30) (h31 : j.desc.op ≠ 0x31)
    (h32 : j.desc.op ≠ 0x32) (hj : j.key = none) (hn : j.newPos = none)
    (hl : newLines j.desc none = 0) (h7 : check7 j.desc none = none) : s.checks47 p j = s.makeReady p j := by
  have ready : s.check7Ready p j = s.makeReady p j := by simp [State.check7Ready, hj, h7, hn]
  have last : s.checks567 p j = s.makeReady p j := by
    simp [State.checks567, State.checks67, hj, hl, takesLedger, h30, ready]
  simp [State.checks47, h32, h30, h31, hk, last]

/-- A DIGEST and a FENCE need no lines and no key. -/
theorem needsNothing_of_op {d : Desc} (h : d.op = 0x18 ∨ d.op = 0x51) :
    keyless d = true ∧ d.op ≠ 0x30 ∧ d.op ≠ 0x31 ∧ d.op ≠ 0x32 ∧ newLines d none = 0 := by
  rcases h with h | h <;> simp [keyless, newLines, h]

/-- A keyless descriptor that passes checks 1 to 7 becomes a job that is ready. -/
theorem State.fetched_ready {n r : Nat} {d : Desc} (hd : (s.ring p (.tenant n r)).draining = false)
    (hop : d.op = 0x18 ∨ d.op = 0x51) (hc : checks13 (.tenant n r) (s.quotaNow p n).slots d = none)
    (h7 : check7 d none = none) : s.fetched p (.tenant n r) i d =
      (s.updSl p fun x => { x with jobs := x.jobs ++ [fetchedJob s p (.tenant n r) i d] }).makeReady p
        (fetchedJob s p (.tenant n r) i d) := by
  obtain ⟨hk, h30, h31, h32, hl⟩ := needsNothing_of_op hop
  rw [State.fetched_tenant hd, hc]
  exact State.checks47_keyless hk h30 h31 h32 rfl rfl hl h7

/-- A job added and made ready at once: it reads back as made ready, and no ring and no other part moves. -/
theorem State.addReady_spec (s : State) (p : Plate) (j : Job) (hj : s.job? p j.ring j.index = none)
    (hc : opClass j.desc.op j.desc.al ≠ .lane) :
    ((s.updSl p fun x => { x with jobs := x.jobs ++ [j] }).makeReady p j).job? p j.ring j.index = some (j.madeReady j) ∧
      (∀ g, ((s.updSl p fun x => { x with jobs := x.jobs ++ [j] }).makeReady p j).ring p g = s.ring p g) ∧
      SameBut [.sl p] s ((s.updSl p fun x => { x with jobs := x.jobs ++ [j] }).makeReady p j) := by
  obtain ⟨job, ring, -, frame⟩ := State.makeReady_spec (s.updSl p fun x => { x with jobs := x.jobs ++ [j] }) p j
  rw [State.job?_append s p j hj] at job
  exact ⟨job, fun g => (ring g).trans (State.ring_updSl s p g _ (fun _ => by rfl) fun _ => by rfl),
    (State.updSl_frame s p _).trans (frame hc)⟩

/-- The fetch of a keyless descriptor that passes every check makes a ready job, and F passes it. -/
theorem descriptorFetch_ready {n r : Nat} {b : Bytes} (hs : s.servesRing p (.tenant n r) = true)
    (ho : (s.ring p (.tenant n r)).fetchOpen = true) (hi : (s.ring p (.tenant n r)).fetched = i)
    (hd : (s.ring p (.tenant n r)).draining = false) (hj : s.job? p (.tenant n r) i = none)
    (hop : (decodeDesc (fit 64 b)).op = 0x18 ∨ (decodeDesc (fit 64 b)).op = 0x51)
    (hc : checks13 (.tenant n r) (s.quotaNow p n).slots (decodeDesc (fit 64 b)) = none)
    (h7 : check7 (decodeDesc (fit 64 b)) none = none) :
    ∃ t, exec (.descriptorFetch { plate := p, ring := .tenant n r, index := i } (.ok b)) s = .next t ∧
      FetchPassed s t p (.tenant n r) i ∧ t.job? p (.tenant n r) i =
        some ((fetchedJob s p (.tenant n r) i (decodeDesc (fit 64 b))).madeReady
          (fetchedJob s p (.tenant n r) i (decodeDesc (fit 64 b)))) ∧ SameBut [.sl p] s t := by
  have draining : ((s.fetchPassed p (.tenant n r)).ring p (.tenant n r)).draining = false := by
    rw [State.fetchPassed_ring, hd]
  rw [← State.fetchPassed_quotaNow s p (.tenant n r) n] at hc
  have ready := State.fetched_ready (i := i) draining hop hc h7
  rw [fetchedJob_passed] at ready
  have free : (s.fetchPassed p (.tenant n r)).job? p (.tenant n r) i = none :=
    (State.job?_congr (State.fetchPassed_jobs s p _) _ _).trans hj
  obtain ⟨job, ring, frame⟩ := State.addReady_spec (s.fetchPassed p (.tenant n r)) p
    (fetchedJob s p (.tenant n r) i (decodeDesc (fit 64 b))) free
    (by rcases hop with h | h <;> simp [fetchedJob, opClass, h])
  refine ⟨_, (exec_descriptorFetch hs ho hi).trans (congrArg _ ready), fun hset => ?_, job,
    (State.fetchPassed_frame s p _).trans frame⟩
  rw [ring, State.fetchPassed_ring, hi]
  exact State.nextFetch_open hset _ _

/-- Settles O5: F passes the descriptor, and it completes (`fail_completes`) or is made ready (`descriptorFetch_ready`). -/
theorem fetchedDescriptorIsChecked : Obligations.FetchedDescriptorIsChecked := by
  refine ⟨?failed, ?draining, ?digest, ?fence⟩
  case failed =>
    intro p n r i b st s hs ho hi hd hc
    have draining : ((s.fetchPassed p (.tenant n r)).ring p (.tenant n r)).draining = false := by
      rw [State.fetchPassed_ring, hd]
    have fails := hc
    rw [← State.fetchPassed_quotaNow s p (.tenant n r) n] at fails
    refine ⟨_, exec_descriptorFetch hs ho hi, ?_⟩
    rw [State.fetched_tenant draining, fails, fetchedJob_passed]
    exact ⟨(State.fail_completes _ p _ st).before_fetch, ((State.fetchPassed_frame s p _).trans (State.updSl_frame _ p _)).step
      (by simp [completing]) (State.fail_frame _ p _ st)⟩
  case draining =>
    intro p n r i b s hs ho hi hd
    have draining : ((s.fetchPassed p (.tenant n r)).ring p (.tenant n r)).draining = true := by
      rw [State.fetchPassed_ring, hd]
    refine ⟨_, exec_descriptorFetch hs ho hi, ?_⟩
    rw [State.fetched_draining draining, fetchedJob_passed]
    exact ⟨(State.finishBatch_completes _ p _ _).before_fetch, ((State.fetchPassed_frame s p _).trans
      (State.updSl_frame _ p _)).step (by simp [completing]) (State.finishBatch_frame _ p _ _)⟩
  case digest =>
    intro p n r i b s hs ho hi hd hj d hop hc h7
    obtain ⟨t, ht, passed, job, frame⟩ := descriptorFetch_ready hs ho hi hd hj (.inl hop) hc h7
    refine ⟨t, ht, passed, ?_, frame .out (by simp), frame⟩
    rw [job]
    simp [fetchedJob, Job.madeReady, opClass, jobCost, hop, d]
  case fence =>
    intro p n r i b s hs ho hi hd hj d hop hc
    have h7 : check7 d none = none := by simp [check7, needOut, hop]
    obtain ⟨t, ht, passed, job, frame⟩ := descriptorFetch_ready hs ho hi hd hj (.inr hop) hc h7
    refine ⟨t, ht, passed, ?_, frame .out (by simp), frame⟩
    rw [job]
    simp [fetchedJob, Job.madeReady, hop, d]

end Sys2Proof.Machine

/-! PROOFS. Progress lines and coalesced messages (O8). -/

namespace Sys2Proof.Machine

variable {s t : State} {p : Plate} {q : RingRef} {i r : Nat}

/-! ## Writing a progress line (R43 to R45) -/

/-- The state after the line itself, before the messages that waited for it. -/
def State.lineWritten (s : State) (p : Plate) (i : Nat) : State :=
  (s.sliceWrite p i ((s.pl p).sl.regs.get {} i).pg (progressBytes s p i) false).updSl p fun x =>
    { x with progress := x.progress.filter (· != i) }

theorem State.writeProgress_eq (s : State) (p : Plate) (i : Nat) : s.writeProgress p i =
    (s.lineWritten p i).each (List.range 16) fun s r => s.flushRing p (.tenant i r) := rfl

theorem State.lineWritten_sl (s : State) (p : Plate) (i : Nat) : ((s.lineWritten p i).pl p).sl =
    { (s.pl p).sl with progress := (s.pl p).sl.progress.filter (· != i) } := by
  rw [State.lineWritten, State.updSl_self, State.sliceWrite_frame s p i _ _ _ (.sl p) (by simp)]

theorem State.lineWritten_ring (s : State) (p : Plate) (i : Nat) (q : RingRef) : (s.lineWritten p i).ring p q = s.ring p q := by
  cases q <;> simp only [State.ring, State.lineWritten_sl]

theorem State.flushRing_progress (s : State) (p : Plate) (q : RingRef) :
    ((s.flushRing p q).pl p).sl.progress = (s.pl p).sl.progress := by
  unfold State.flushRing
  dsimp only
  split
  · rfl
  · rw [State.sendMsixN_sl]
    cases q <;> simp [State.updRing]

/-- After the line the messages of each ring of the slice are sent, and no other ring of it changes (R45). -/
theorem State.writeProgress_ring (s : State) (p : Plate) (i : Nat) (h : r < 16) :
    (s.writeProgress p i).ring p (.tenant i r) = if (s.ring p (.tenant i r)).due = 0 then s.ring p (.tenant i r)
      else { s.ring p (.tenant i r) with irqCount := 0, irqSince := none } := by
  obtain ⟨u, hu, e⟩ := State.each_ring_self (List.range 16) (fun s r => s.flushRing p (.tenant i r))
    (fun s r => State.flushRing_onlyRing s p (.tenant i r)) List.nodup_range (List.mem_range.mpr h) (s.lineWritten p i)
  rw [State.writeProgress_eq, e, State.flushRing_ring, hu, State.lineWritten_ring]

theorem State.writeProgress_progress (s : State) (p : Plate) (i : Nat) :
    ((s.writeProgress p i).pl p).sl.progress = (s.pl p).sl.progress.filter (· != i) := by
  have flush (l : List Nat) (u : State) :
      ((u.each l fun s r => s.flushRing p (.tenant i r)).pl p).sl.progress = (u.pl p).sl.progress := by
    induction l generalizing u with
    | nil => rfl
    | cons a l ih => exact (ih _).trans (State.flushRing_progress u p _)
  rw [State.writeProgress_eq, flush, State.lineWritten_sl]

/-- The line itself is written under the slice's PASID. -/
theorem State.writeProgress_mem {v : BitVec 20} (hv : s.pasid p i = some v) (hw : s.mayWrite p = true) :
    Out.write p (some v) ((s.pl p).sl.regs.get {} i).pg (progressBytes s p i) false ∈ (s.writeProgress p i).out := by
  have written := State.ringWrite_mem s p (.tenant i 0) ((s.pl p).sl.regs.get {} i).pg (progressBytes s p i) false (some v)
    (by simp [State.ringTag, hv]) hw
  have after : (s.sliceWrite p i ((s.pl p).sl.regs.get {} i).pg (progressBytes s p i) false).out <+: (s.writeProgress p i).out :=
    ((State.updSl_traffic _ p _ fun _ => ⟨_, _, _, _, _, _, _, _, rfl⟩).trans
      (Traffic.each _ _ (fun s r => State.flushRing_traffic s p _) (s.lineWritten p i))).out
  exact after.subset written

/-! ## The rows of this family -/

theorem exec_progressLineWrite (p : Plate) (i : Nat) (s : State) : exec (.progressLineWrite p i) s =
    .next (if (s.pl p).sl.progress.contains i then s.writeProgress p i else s) := rfl

/-- COAL_US after the first record without a message, where no progress line is owed (R45). -/
theorem exec_irqCoalTimeout {t0 : Nat} (ht : (s.ring p (.tenant i r)).irqSince = some t0) (hc : (s.ring p (.tenant i r)).coalUs ≠ 0)
    (hp : s.past t0 (s.ring p (.tenant i r)).coalUs = true) (hn : (s.ring p (.tenant i r)).irqCount ≠ 0)
    (hg : (s.pl p).sl.progress.contains i = false) : exec (.irqCoalTimeout p i r) s = .next
      ((s.updRing p (.tenant i r) fun g => { g with irqCount := 0, irqSince := none }).sendMsix p
        (s.ring p (.tenant i r)).vector) := by
  show execIrqCoalTimeout p i r s = _
  simp only [execIrqCoalTimeout, ht, hg, hn, hp, bne_iff_ne.mpr hc, bne_iff_ne.mpr hn, Bool.and_self, if_true, if_false,
    Bool.false_eq_true]

theorem State.sendMsix_unmasked {v : Nat} (hm : (s.msixEntry p v).2.2 = false) (hf : (s.pl p).pow.fnMask = false) :
    s.sendMsix p v = s.emit (.msix p v) := by
  simp [State.sendMsix, hm, hf]

/-- Settles O8: a line written is `writeProgress`, a message is one `sendMsix`, and a row with nothing to show does nothing. -/
theorem progressAndInterrupts : Obligations.ProgressAndInterrupts := by
  refine ⟨fun p i v s hc hv hw => ?_, fun p i s hc => ?_, ?timeout, fun p i r s ht => ?_⟩
  · refine ⟨_, by rw [exec_progressLineWrite, if_pos hc], ?_, State.writeProgress_mem hv hw, State.writeProgress_out s p i,
      State.writeProgress_frame s p i⟩
    rw [State.writeProgress_progress]
    simp
  · rw [exec_progressLineWrite, if_neg (by rw [hc]; exact Bool.false_ne_true)]
  case timeout =>
    intro p i r t0 s g ht hc hp hn hg hm hf
    have mask : ((s.updRing p (.tenant i r) fun g => { g with irqCount := 0, irqSince := none }).msixEntry p g.vector).2.2 =
        false := by simpa [State.msixEntry, State.updRing] using hm
    have fn : ((s.updRing p (.tenant i r) fun g => { g with irqCount := 0, irqSince := none }).pl p).pow.fnMask = false := by
      simpa [State.updRing] using hf
    refine ⟨_, exec_irqCoalTimeout ht hc hp hn hg, ?_⟩
    rw [State.sendMsix_unmasked mask fn]
    exact ⟨(State.emit_ring _ _ p _).trans (State.ring_updRing s p _ _), by simp [State.updRing, g],
      (State.updRing_onlyRing s p _ _).trans (.of_sl (State.emit_frame _ _ (.sl p) (by simp))),
      (State.updRing_frame s p _ _).step (by simp) ((State.emit_frame _ _).mono (by simp))⟩
  · show execIrqCoalTimeout p i r s = _
    simp [execIrqCoalTimeout, ht]

end Sys2Proof.Machine

/-! PROOFS. Rings into and out of service (O7). -/

namespace Sys2Proof.Machine

/-- Both plates in service; on Plate A slice 0 is ACTIVE with two rings, of which ring 0 is not enabled and ring 1 has one record
whose message has not been sent, as after a batch of records whose progress line is still owed (R44, R45). -/
def messageOwed : State :=
  { pa :=
      { pow := { phase := .running, perst := false, ready := true, serving := true }
        sl :=
          { impo := [(0, { st := .active, home := .a, pasidA := some 1, quota := { rings := 2 } })]
            rings := [(ringKey 0 1, { cfg := 0x80000108, active := true, irqCount := 1, irqSince := some 0 })]
            progress := [0] } } }

theorem exec_ringEnable (p : Plate) (i r : Nat) (cfg : Word) (s : State) : exec (.ringEnable p i r cfg) s = .next
    (if s.acceptsCopied p i && cfg.getLsbD 31 && !(s.ring p (.tenant i r)).enabled && !s.ringDraining p i r then
      (s.applyRingCfg p i r cfg).copyOut p (ringOffset i r 0x10) 4 (cfg.setWidth 64) else s) := rfl

/-- Enabling a ring of a slice at its home writes the slice's progress line after the ring's set-up (R54). -/
theorem State.applyRingCfg_enables {s : State} {p : Plate} {i r : Nat} {cfg : Word}
    (hf : ((s.impo p i).st = .free || (s.ring p (.tenant i r)).draining) = false) (hc : cfg.getLsbD 31 = true)
    (he : (s.ring p (.tenant i r)).enabled = false)
    (hq : ((s.impo p i).st = .draining || (s.quotaNow p i).rings ≤ r || cfg.toNat % 32 < 6 || 16 < cfg.toNat % 32 ||
      (s.pl p).vlt.hold.isSome) = false) (hh : (s.impo p i).home = p) :
    s.applyRingCfg p i r cfg = s.enableRing p (.tenant i r) (cfg &&& ringCfgMask) := by
  have home : ((s.impo p i).home == p) = true := by simp [hh]
  simp only [State.applyRingCfg, hf, hc, he, hq, home, if_true, Bool.false_eq_true, if_false]

/-- The message that another ring of the slice owes is sent with the progress line that enabling a ring writes (R43, R54). -/
theorem State.enableRing_flushes {s : State} {p : Plate} {i r k : Nat} {cfg : Word} (hk : k < 16) (hr : k ≠ r)
    (hd : (s.ring p (.tenant i k)).due ≠ 0) : ((s.enableRing p (.tenant i r) cfg).ring p (.tenant i k)).irqCount = 0 := by
  have other (f : Ring → Ring) (g : Slices → Slices) (hg : ∀ x, (g x).rings = x.rings) (ha : ∀ x, (g x).adm = x.adm) :
      ((s.updRing p (.tenant i r) f).updSl p g).ring p (.tenant i k) = s.ring p (.tenant i k) :=
    (State.ring_updSl _ p _ g hg ha).trans ((State.updRing_onlyRing s p (.tenant i r) f).tenant_ne hr)
  unfold State.enableRing
  dsimp only
  rw [State.writeProgress_ring _ p i hk, other _ _ (fun _ => by rfl) fun _ => by rfl, if_neg hd]

theorem State.copyOut_ring (s : State) (p : Plate) (o n : Nat) (v : DWord) (q : RingRef) :
    (s.copyOut p o n v).ring p q = s.ring p q := by
  unfold State.copyOut
  split
  · exact State.ring_congr q (State.send_frame s p _ (.sl p) (by simp))
  · exact State.ring_congr q (State.updPr_frame s p _ (.sl p) (by simp))

/-- In `messageOwed` enabling ring 0 sends the message that ring 1 owes. -/
theorem ringEnable_sends_owed :
    (messageOwed.ring .a (.tenant 0 1)).irqCount = 1 ∧
    ∀ t, exec (.ringEnable .a 0 0 0x80000006) messageOwed = .next t → (t.ring .a (.tenant 0 1)).irqCount = 0 := by
  refine ⟨rfl, fun t h => ?_⟩
  have accepted : (messageOwed.acceptsCopied .a 0 && (0x80000006 : Word).getLsbD 31 &&
      !(messageOwed.ring .a (.tenant 0 0)).enabled && !messageOwed.ringDraining .a 0 0) = true := by decide
  rw [exec_ringEnable, if_pos accepted, State.applyRingCfg_enables (by decide) (by decide) (by decide) (by decide) (by decide)] at h
  rw [← Host.Outcome.next.inj h, State.copyOut_ring]
  exact State.enableRing_flushes (by decide) (by decide) (by decide)

/-- Refutes O7: RING_ENABLE writes the slice's progress line (R54), after which the messages that waited for it are sent (R43 to R45).
Where another ring of the slice owes one, that ring's count of records without a message changes too, which the first clause
excludes. -/
theorem not_ringSetUp : ¬ Obligations.RingSetUp := by
  rintro ⟨enable, -⟩
  obtain ⟨owed, sent⟩ := ringEnable_sends_owed
  obtain ⟨t, ht, -, -, ⟨-, only⟩, -⟩ := enable .a 0 0 0x80000006 messageOwed (by decide) (by decide) (by decide) (by decide)
    (by decide) (by decide) (by decide) (by decide) (by decide)
  have same : t.ring .a (.tenant 0 1) = messageOwed.ring .a (.tenant 0 1) := only (ringKey 0 1) (by decide)
  have := sent t ht
  rw [same, owed] at this
  exact absurd this (by decide)

end Sys2Proof.Machine

/-! PROOFS. Slugs, held lines and fills (O9). -/

namespace Sys2Proof.Machine

variable {s t u : State} {p : Plate} {i n pos : Nat} {j j' : Job} {k : Key}

/-! ## Reads of a slug (R161, Table 6.17) -/

/-- A ledger entry, TRK and the cached keys are read from the vault part alone. -/
theorem State.checkLedger_congr (h : (t.pl p).vlt = (s.pl p).vlt) (i : Nat) (e : Option Nat) (b : Bool) (g : Word) :
    t.checkLedger p i e b g = s.checkLedger p i e b g := by
  cases e with
  | none => rfl
  | some e =>
    have bad : t.ledgerBad p e = s.ledgerBad p e := by rw [State.ledgerBad, State.ledgerBad, h]
    have entry : t.ledgerAt p e = s.ledgerAt p e := by rw [State.ledgerAt, State.ledgerAt, h]
    simp only [State.checkLedger, bad, entry]

theorem State.hasTrk_congr (h : (t.pl p).vlt = (s.pl p).vlt) (i : Nat) : t.hasTrk p i = s.hasTrk p i := by
  simp only [State.hasTrk, h]

theorem State.cached_congr (h : (t.pl p).vlt = (s.pl p).vlt) (i : Nat) (k : Key) : t.cached p i k = s.cached p i k := by
  simp only [State.cached, h]

theorem State.checkLedger_gone {e : Nat} {g : Word} (hl : s.ledgerBad p e = false)
    (hg : ledgerLive (s.ledgerAt p e) i true g = false) : s.checkLedger p i (some e) true g = some .keyGone := by
  simp only [State.checkLedger, hl, hg, Bool.false_eq_true, if_false]

theorem State.readRepair_ok {x : PageRef} (h : s.itemOk p x = true) : s.readRepair p x = s := by simp [State.readRepair, h]

/-- A job that fails after its slug's read has returned completes with that status, seen from before the read's return. -/
theorem State.fail_after_read (s : State) (p : Plate) (x : ReadKind) (j : Job) (st : Status) :
    Completes s ((s.retireRead p x).fail p j st) p j { status := st } ∧
      SameBut (completing p) s ((s.retireRead p x).fail p j st) :=
  ⟨(State.fail_completes _ p j st).before_quiet (fun _ => by rfl) (fun _ => by rfl) (fun _ => by rfl),
    (State.updSl_frame s p _).step (by simp [completing]) (State.fail_frame _ p j st)⟩

/-- The same, where the job's slug was taken from it between. -/
theorem State.fail_after_material (s : State) (p : Plate) (x : ReadKind) (j : Job) (f : Job → Job) (st : Status) :
    Completes s (((s.retireRead p x).updJob p j.ring j.index f).fail p j st) p j { status := st } ∧
      SameBut (completing p) s (((s.retireRead p x).updJob p j.ring j.index f).fail p j st) :=
  ⟨((State.fail_completes _ p j st).before_quiet (fun _ => by rfl) (fun _ => by rfl) (fun _ => by rfl)).before_quiet
      (fun _ => by rfl) (fun _ => by rfl) (fun _ => by rfl),
    ((State.updSl_frame s p _).trans (State.updSl_frame _ p _)).step (by simp [completing]) (State.fail_frame _ p j st)⟩

/-- The read of a header or of material that ends without data completes the job with DMA_FAULT. -/
theorem State.slugRead_fault {h m : Dma} (hf : (if j.slug.isSome then m else h) = .fault) :
    Completes s (s.slugRead p j h m) p j { status := .dmaFault } ∧ SameBut (completing p) s (s.slugRead p j h m) := by
  cases hs : j.slug with
  | none =>
    obtain rfl : h = .fault := by simpa [hs] using hf
    have e : s.slugRead p j .fault m = (s.retireRead p (.slug j.ring j.index)).fail p j .dmaFault := by
      simp only [State.slugRead, hs, State.resolveSlug]
    rw [e]
    exact State.fail_after_read s p _ j _
  | some k =>
    obtain rfl : m = .fault := by simpa [hs] using hf
    have e : s.slugRead p j h .fault = ((s.retireRead p (.slug j.ring j.index)).updJob p j.ring j.index fun j =>
        { j with slug := none }).fail p j .dmaFault := by
      simp only [State.slugRead, hs, State.openSlug]
    rw [e]
    exact State.fail_after_material s p _ j _ _

theorem exec_slugResolve {r : JobRef} {h m : Dma} (hj : s.jobAt r = some j) (hs : j.stage = .resolving) :
    exec (.slugResolve r h m) s = .next (s.slugRead r.plate j h m) := by
  show execSlugResolve r h m s = _
  simp [execSlugResolve, hj, hs]

/-- A header that is not one of the slice is KEY_BAD (step 2). -/
theorem State.slugRead_badHeader {b : Bytes} {m : Dma} (hs : j.slug = none)
    (hb : slugHeaderOk (fit 48 b) ((ringSlice j.ring).getD 0) = false)
    (ht : ((s.pl p).vlt.recs.get {} ((ringSlice j.ring).getD 0)).tagOk = true) :
    s.slugRead p j (.ok b) m = (s.retireRead p (.slug j.ring j.index)).fail p j .keyBad := by
  have record : (s.retireRead p (.slug j.ring j.index)).itemOk p (.record ((ringSlice j.ring).getD 0)) = true := by
    simpa [State.retireRead, State.itemOk] using ht
  simp only [State.slugRead, hs, State.resolveSlug, hb, Bool.not_false, Bool.or_true, if_true, State.readKey,
    State.readRepair_ok record]

/-- A ledger entry that does not stand is KEY_GONE (step 4). -/
theorem State.slugRead_gone {b : Bytes} {m : Dma} {e : Nat} (hs : j.slug = none)
    (hb : slugHeaderOk (fit 48 b) ((ringSlice j.ring).getD 0) = true)
    (ht : ((s.pl p).vlt.recs.get {} ((ringSlice j.ring).getD 0)).tagOk = true)
    (he : (slugKey (fit 48 b)).ledger = some e) (hl : s.ledgerBad p e = false)
    (hg : ledgerLive (s.ledgerAt p e) ((ringSlice j.ring).getD 0) true (slugKey (fit 48 b)).gen = false) :
    s.slugRead p j (.ok b) m = (s.retireRead p (.slug j.ring j.index)).fail p j .keyGone := by
  have vlt : ((s.retireRead p (.slug j.ring j.index)).pl p).vlt = (s.pl p).vlt := State.updSl_vlt s p p _
  have record : (s.retireRead p (.slug j.ring j.index)).itemOk p (.record ((ringSlice j.ring).getD 0)) = true := by
    simpa only [State.itemOk, vlt] using ht
  have page : (s.retireRead p (.slug j.ring j.index)).itemOk p (.ledger e) = true := by
    simpa only [State.itemOk, State.ledgerBad, vlt, Bool.not_eq_true'] using hl
  have gone := (State.checkLedger_congr vlt _ _ _ _).trans (State.checkLedger_gone hl hg)
  simp only [State.slugRead, hs, State.resolveSlug, hb, vlt, ht, Bool.not_true, Bool.or_self, Bool.false_eq_true, if_false,
    he, gone, State.readKey, State.readRepair_ok record, State.readRepair_ok page]

/-- After a header that stands, the wrapped material is read (step 6). -/
theorem State.slugRead_asks {b : Bytes} {m : Dma} (hs : j.slug = none) (h32 : j.desc.op ≠ 0x32)
    (hb : slugHeaderOk (fit 48 b) ((ringSlice j.ring).getD 0) = true)
    (ht : ((s.pl p).vlt.recs.get {} ((ringSlice j.ring).getD 0)).tagOk = true)
    (hl : s.checkLedger p ((ringSlice j.ring).getD 0) (slugKey (fit 48 b)).ledger true (slugKey (fit 48 b)).gen = none)
    (hk : s.hasTrk p ((ringSlice j.ring).getD 0) = true)
    (hc : s.cached p ((ringSlice j.ring).getD 0) (slugKey (fit 48 b)) = none) :
    s.slugRead p j (.ok b) m =
      (s.retireRead p (.slug j.ring j.index)).askMaterial p j (slugKey (fit 48 b)) (leAt (fit 48 b) 0x14 4) := by
  have vlt : ((s.retireRead p (.slug j.ring j.index)).pl p).vlt = (s.pl p).vlt := State.updSl_vlt s p p _
  have ledger := (State.checkLedger_congr vlt _ _ _ _).trans hl
  have trk := (State.hasTrk_congr vlt _).trans hk
  have key := (State.cached_congr vlt _ _).trans hc
  simp only [State.slugRead, hs, State.resolveSlug, hb, vlt, ht, Bool.not_true, Bool.or_self, Bool.false_eq_true, if_false,
    ledger, trk, key, beq_eq_false_iff_ne.mpr h32]

/-- Material that does not open under TRK is KEY_BAD (step 7). -/
theorem State.slugRead_unopened {h w : Bytes} {d : Dma} (hs : j.slug = some k) (hk : k.src = .slug h)
    (ho : Config.sivOpen (s.trk p ((ringSlice j.ring).getD 0)) (cut h 0x18 12) h (fit (leAt h 0x14 4 + 16) w) = none) :
    s.slugRead p j d (.ok w) = ((s.retireRead p (.slug j.ring j.index)).updJob p j.ring j.index fun j =>
        { j with slug := none }).fail p j .keyBad := by
  have trk : ((s.retireRead p (.slug j.ring j.index)).updJob p j.ring j.index fun j => { j with slug := none }).trk p
      ((ringSlice j.ring).getD 0) = s.trk p ((ringSlice j.ring).getD 0) := by
    simp [State.trk, State.drk, State.updJob, State.retireRead]
  simp only [State.slugRead, hs, State.openSlug, hk, trk, ho]

/-! ## Checks 5 to 7 (R40) -/

/-- Checks 5 to 7 of a job that needs no lines and no ledger entry of its own pass. -/
theorem State.checks567_ready (hk : j.key = some k) (h2 : j.key2 = none) (hp : j.newPos = none) (hn : NeedsNoMore j k) :
    s.checks567 p j = s.makeReady p j := by
  obtain ⟨hperm, hlines, hledger, h7⟩ := hn
  simp [State.checks567, State.checks67, State.check7Ready, hk, h2, hp, hperm, hlines, hledger, h7]

/-- Once the key's entry is at hand, and numbers are left, the job is ready. -/
theorem State.afterResolve_ready (hu : usesCache j.desc = true) (he : s.needEntry p j false = (u, some j'))
    (hx : u.exhaustedNow p ((ringSlice j.ring).getD 0) j' k = false) (hk : j'.key = some k) (h2 : j'.key2 = none)
    (hp : j'.newPos = none) (hn : NeedsNoMore j' k) : s.afterResolve p j = u.makeReady p j' := by
  have second : u.needEntry p j' true = (u, some j') := by simp [State.needEntry, h2]
  simp [State.afterResolve, hu, he, hk, hx, second, State.checks567_ready hk h2 hp hn]

/-- A job whose entry is filled has its key. -/
theorem State.needEntry_filled {e : CacheEntry} (hk : j.key = some k) (hp : j.entry = some pos)
    (he : s.entryAt p ((ringSlice j.ring).getD 0) pos = some e) (hf : e.filled = true) :
    s.needEntry p j false = (s, some j) := by
  simp [State.needEntry, hk, hp, he, hf]

/-- A job whose entry is not filled waits for it. -/
theorem State.needEntry_unfilled {e : CacheEntry} (hk : j.key = some k) (hp : j.entry = some pos)
    (he : s.entryAt p ((ringSlice j.ring).getD 0) pos = some e) (hf : e.filled = false) :
    s.needEntry p j false = (s.updJob p j.ring j.index fun j => { j with stage := .waitLines }, none) := by
  simp [State.needEntry, hk, hp, he, hf]

/-- What a job that uses the cache becomes once it is ready (R70). -/
theorem State.makeReady_madeReady {r : JobRef} (hj : s.jobAt r = some j) (hu : usesCache j.desc = true) :
    MadeReady (s.makeReady r.plate j) r j := by
  obtain ⟨hr, hi⟩ := State.job_eq hj
  obtain ⟨job, -, -, -⟩ := State.makeReady_spec s r.plate j
  have h51 : j.desc.op ≠ 0x51 := by
    intro h
    simp [usesCache, keyless, h] at hu
  rw [hr, hi] at job
  simp only [MadeReady, State.jobAt] at hj ⊢
  rw [job, hj]
  simp [Job.madeReady, h51]

theorem exec_lineReserveRetry {r : JobRef} (hj : s.jobAt r = some j) (hs : j.stage = .waitLines) :
    exec (.lineReserveRetry r) s = .next (s.afterResolve r.plate j) := by
  show execLineReserveRetry r s = _
  simp [execLineReserveRetry, hj, hs]

/-- The job that a reference names, changed. -/
theorem State.jobAt_updJob {r : JobRef} (hj : s.jobAt r = some j) (f : Job → Job)
    (h : ∀ k, k.ring = r.ring → k.index = r.index → (f k).ring = r.ring ∧ (f k).index = r.index) :
    (s.updJob r.plate r.ring r.index f).jobAt r = some (f j) := by
  rw [State.jobAt, State.job?_updJob s r.plate r.ring r.index f h]
  exact congrArg _ hj

/-! ## Lines reserved and filled (R64, R144) -/

/-- A job that goes on with step 2 of R64 gets lines that are unoccupied, and evicts none for them. -/
theorem State.reserve_free (h : s.linesUsed p i + n ≤ (s.quotaNow p i).lines) : s.reserve p i n true = (s, .got) := by
  have evict (fuel : Nat) : s.evict p i n fuel = s := by
    cases fuel with
    | zero => rfl
    | succ m => simp [State.evict, h]
  simp only [State.reserve, Bool.not_true, Bool.false_and, Bool.false_eq_true, if_false, evict]
  rw [if_neg (by omega)]

theorem State.posFree_of_findPos {q fuel m : Nat} (h : s.findPos p i q fuel m = some pos) : s.posFree p i pos = true := by
  induction fuel generalizing m with
  | zero => simp [State.findPos] at h
  | succ fuel ih =>
    unfold State.findPos at h
    split at h
    · next hf => rwa [← Option.some.inj h]
    · exact ih h

/-- A filled entry is made at the position that the free values name; leases and ledger stay as they are. -/
theorem State.newEntry_spec {lines : Nat}
    (h : s.findPos p i (s.quotaNow p i).lines (s.quotaNow p i).lines (Config.freeNat s.free) = some pos) :
    ∃ u, s.newEntry p i lines k true = (u, some pos) ∧ SameBut [.vlt p, .free] s u ∧
      (u.entryAt p i pos).map (fun e => (e.filled, e.lines)) = some (true, lines) ∧
      (u.pl p).vlt.ledger = (s.pl p).vlt.ledger ∧ (u.pl p).vlt.leases = (s.pl p).vlt.leases := by
  have free := State.posFree_of_findPos h
  simp only [State.posFree, Bool.and_eq_true, Option.isNone_iff_eq_none, State.entryAt] at free
  obtain ⟨⟨-, none⟩, -⟩ := free
  simp only [State.newEntry, h]
  refine ⟨_, rfl, (State.tick_frame s 1).step (by simp) ((State.updVlt_frame _ p _).mono (by simp)), ?_, ?_, ?_⟩
  · simp [State.entryAt, none, State.masked]
  · simp
  · simp

/-- Whether numbers are left for a key without a number of its own rests on its ledger entry and the lease held of it. -/
theorem State.exhausted_congr (hv : k.vinst = none) (hl : (t.pl p).vlt.ledger = (s.pl p).vlt.ledger)
    (he : (t.pl p).vlt.leases = (s.pl p).vlt.leases) (a b : Option Nat) : t.exhausted p i k a = s.exhausted p i k b := by
  have entry (e : Nat) : t.ledgerAt p e = s.ledgerAt p e := by rw [State.ledgerAt, State.ledgerAt, hl]
  cases hk : k.ledger with
  | none => simp only [State.exhausted, hk, hv]
  | some e => simp only [State.exhausted, hk, State.leaseOf, State.noGrant, entry, he]

/-- The job with its key's entry at a position. -/
def Job.entered (j : Job) (pos : Nat) : Job := { j with entry := some pos, reserving := false }

/-- A slot key that is not cached, whose fill costs nothing, gets unoccupied lines at once (R64, R144). -/
theorem State.needEntry_reserves {m : Nat} (hk : j.key = some k) (he : j.entry = none) (hr : j.reserving = true)
    (hm : parseKref j.desc.keyRef = .slot m) (hf : fillCost k.alg = 0)
    (hc : s.cached p ((ringSlice j.ring).getD 0) k = none)
    (hl : s.linesUsed p ((ringSlice j.ring).getD 0) + keyLines k.alg k.material.length ≤
      (s.quotaNow p ((ringSlice j.ring).getD 0)).lines)
    (hn : s.newEntry p ((ringSlice j.ring).getD 0) (keyLines k.alg k.material.length) k true = (u, some pos)) :
    s.needEntry p j false = (u.updJob p j.ring j.index (·.entered pos), some (j.entered pos)) := by
  simp only [State.needEntry, hk, he, hr, hm, hf, hc, State.reserve_free hl, hn, Bool.false_eq_true, if_false, if_true,
    Option.bind_none, Job.entered]

/-- The entry whose fill has ended is filled. -/
theorem State.entryAt_filled {e : CacheEntry} (h : s.entryAt p i pos = some e) :
    ((s.updEntry p i pos fun e => { e with filled := true }).entryAt p i pos).map CacheEntry.filled = some true := by
  have place : (e.slice == i && e.pos == pos) = true :=
    List.find?_some (p := fun x : CacheEntry => x.slice == i && x.pos == pos) h
  have keeps : (fun x : CacheEntry => x.slice == i && x.pos == pos) ∘
      (fun x => if x.slice == i && x.pos == pos then s.masked p { x with filled := true } else x) =
      fun x => x.slice == i && x.pos == pos := by
    funext x
    dsimp only [Function.comp]
    split <;> rfl
  rw [State.entryAt, State.updEntry, State.updVlt_self]
  dsimp only
  rw [List.find?_map, keeps]
  simp only [State.entryAt] at h
  rw [h, Option.map_some, Option.map_some, if_pos place]
  rfl

/-- The job whose fill has ended: it goes on off its lane. -/
def Job.offLane (j : Job) : Job := { j with stage := .waitLines, unit := none, window := none }

theorem exec_fillDone {r : JobRef} (hj : s.jobAt r = some j) (hs : j.stage = .filling) (h33 : j.desc.op ≠ 0x33)
    (h2 : j.entry2 = none) (he : j.entry = some pos) (hk : j.key = some k) (hp : s.past j.startedAt (fillCost k.alg) = true) :
    exec (.fillDone r) s = .next (((s.updEntry r.plate ((ringSlice j.ring).getD 0) pos fun e => { e with filled := true }).updJobAt
      r fun _ => j.offLane).afterResolve r.plate j.offLane) := by
  show execFillDone r s = _
  simp [execFillDone, hj, hs, h33, h2, he, hk, hp, Job.offLane]

theorem exec_dmaReadTimeout (p : Plate) (x : ReadKind) (s : State) :
    exec (.dmaReadTimeout p x) s = .next (if s.readExpired p x then s.readTimesOut p x else s) := rfl

/-- Settles O9: each row's read, entry or fill ends as `slugRead_…`, `needEntry_…` and `afterResolve_ready` say. -/
theorem keyResolution : Obligations.KeyResolution := by
  refine ⟨?unread, ?badHeader, ?asks, ?unopened, ?gone, ?held, ?filled, ?reserves, ?fillEnds, ?early, ?timeout⟩
  case unread =>
    intro r j h m s hj hs hf
    exact ⟨_, exec_slugResolve hj hs, State.slugRead_fault hf⟩
  case badHeader =>
    intro r j b m s hj hs hn hb ht
    refine ⟨_, exec_slugResolve hj hs, ?_⟩
    rw [State.slugRead_badHeader hn hb ht]
    exact State.fail_after_read s r.plate _ j _
  case asks =>
    intro r i n j b m v s hr hjr hj hs hn h32 hb ht hl hk hc hv
    obtain ⟨-, hi⟩ := State.job_eq hj
    have slice : (ringSlice j.ring).getD 0 = i := by rw [hjr, hr]; rfl
    rw [← slice] at hb ht hl hk hc
    refine ⟨_, exec_slugResolve hj hs, ?_⟩
    rw [State.slugRead_asks hn h32 hb ht hl hk hc, State.askMaterial, hjr, hi]
    have job : (s.retireRead r.plate (.slug r.ring r.index)).jobAt r = some j :=
      (State.job?_updSl s r.plate _ (fun _ => by rfl) _ _).trans hj
    have tag : ((s.retireRead r.plate (.slug r.ring r.index)).updJob r.plate r.ring r.index fun j =>
        { j with slug := some (slugKey (fit 48 b)) }).ringTag r.plate r.ring = some (some v) := by
      rw [hr, State.ringTag, State.updJob, State.retireRead]
      simpa [State.pasid, State.impo] using hv
    refine ⟨?_, ?_, ((State.updSl_frame s r.plate _).trans (State.updSl_frame _ r.plate _)).step (by simp)
      (State.issueRead_frame _ r.plate _ _ _ _)⟩
    · rw [State.jobAt, State.job?_congr (State.issueRead_jobs _ _ _ _ _ _)]
      have := State.jobAt_updJob job (fun j => { j with slug := some (slugKey (fit 48 b)) }) fun _ h1 h2 => ⟨h1, h2⟩
      rw [State.jobAt] at this
      rw [this, Option.map_some, hs]
    · rw [State.issueRead_sent _ _ _ tag]
      exact congrArg (· ++ _) (State.sent_congr ((State.updSl_out _ _ _).trans (State.updSl_out _ _ _)))
  case unopened =>
    intro r j k h w d s hj hs hn hk
    refine ⟨_, exec_slugResolve hj hs, fun ho => ?_⟩
    rw [State.slugRead_unopened hn hk ho]
    exact State.fail_after_material s r.plate _ j _ _
  case gone =>
    intro r i n j b m k s hr hjr hj hs hn hb ht hk hl hg
    have slice : (ringSlice j.ring).getD 0 = i := by rw [hjr, hr]; rfl
    rw [← slice] at hb ht hg
    refine ⟨_, exec_slugResolve hj hs, ?_⟩
    rw [State.slugRead_gone hn hb ht hk hl hg]
    exact State.fail_after_read s r.plate _ j _
  case held =>
    intro r j k pos e s hj hs hu hk hp he hf
    obtain ⟨hr, hi⟩ := State.job_eq hj
    have waits : s.afterResolve r.plate j = s.updJob r.plate r.ring r.index fun j => { j with stage := .waitLines } := by
      rw [← hr, ← hi]
      simp [State.afterResolve, hu, State.needEntry_unfilled hk hp he hf]
    refine ⟨_, exec_lineReserveRetry hj hs, ?_⟩
    rw [waits]
    exact ⟨State.jobAt_updJob hj _ fun _ h1 h2 => ⟨h1, h2⟩, State.updJob_frame s r.plate _ _ _⟩
  case filled =>
    intro r j k pos e s hj hs hu hk h2 hp he hen hf hx hn
    refine ⟨_, exec_lineReserveRetry hj hs, ?_⟩
    rw [State.afterResolve_ready hu (State.needEntry_filled hk he hen hf) hx hk h2 hp hn]
    exact ⟨State.makeReady_madeReady hj hu, (State.makeReady_spec s r.plate j).2.2.1⟩
  case reserves =>
    intro r j k m pos s hj hs hu hk h2 hp he hr hm hv hf hn i hc hl hpos hx
    obtain ⟨hjr, hji⟩ := State.job_eq hj
    obtain ⟨u, hu', frame, entry, ledger, leases⟩ := State.newEntry_spec (k := k)
      (lines := keyLines k.alg k.material.length) hpos
    have need := State.needEntry_reserves hk he hr hm hf hc hl hu'
    have vlt : ((u.updJob r.plate j.ring j.index (·.entered pos)).pl r.plate).vlt = (u.pl r.plate).vlt :=
      State.updSl_vlt _ _ _ _
    have left : (u.updJob r.plate j.ring j.index (·.entered pos)).exhaustedNow r.plate i (j.entered pos) k = false := by
      rw [← hx, State.exhaustedNow, State.exhaustedNow, State.exhausted_congr (s := s) hv (by rw [vlt, ledger])
        (by rw [vlt, leases]) _ j.entry]
      rfl
    have job : (u.updJob r.plate j.ring j.index (·.entered pos)).jobAt r = some (j.entered pos) := by
      rw [hjr, hji]
      refine State.jobAt_updJob ?_ _ fun _ h1 h2 => ⟨h1, h2⟩
      rw [← hj]
      exact State.job?_congr (congrArg Slices.jobs (frame (.sl r.plate) (by simp))) _ _
    obtain ⟨stored, -, ready, -⟩ := State.makeReady_spec (u.updJob r.plate j.ring j.index (·.entered pos)) r.plate (j.entered pos)
    refine ⟨_, exec_lineReserveRetry hj hs, ?_⟩
    rw [State.afterResolve_ready hu need left hk h2 hp hn]
    refine ⟨State.makeReady_madeReady job hu, ?_, ?_, ?_⟩
    · rw [State.jobAt] at job ⊢
      rw [← hjr, ← hji] at job ⊢
      exact (congrArg (Option.map Job.entry) (stored.trans (congrArg _ job))).trans rfl
    · rw [← entry, State.entryAt, State.entryAt, ready (.vlt r.plate) (by simp), vlt]
    · exact frame.step (by simp) ((State.updSl_frame _ r.plate _).step (by simp) (ready.mono (by simp)))
  case fillEnds =>
    intro r j k pos e s hj hs hu h33 hseal hk h2 he2 hp he hpast hen hn
    obtain ⟨hjr, hji⟩ := State.job_eq hj
    have vlt : (((s.updEntry r.plate ((ringSlice j.ring).getD 0) pos fun e => { e with filled := true }).updJobAt r
        fun _ => j.offLane).pl r.plate).vlt = ((s.updEntry r.plate ((ringSlice j.ring).getD 0) pos fun e =>
        { e with filled := true }).pl r.plate).vlt := State.updSl_vlt _ _ _ _
    have filled := State.entryAt_filled hen
    have job : ((s.updEntry r.plate ((ringSlice j.ring).getD 0) pos fun e => { e with filled := true }).updJobAt r
        fun _ => j.offLane).jobAt r = some j.offLane := by
      refine State.jobAt_updJob (j := j) ?_ _ fun _ _ _ => ⟨hjr, hji⟩
      rw [← hj]
      exact State.job?_congr (congrArg Slices.jobs (State.updVlt_sl _ _ _ _)) _ _
    obtain ⟨stored, -, ready, -⟩ := State.makeReady_spec ((s.updEntry r.plate ((ringSlice j.ring).getD 0) pos fun e =>
      { e with filled := true }).updJobAt r fun _ => j.offLane) r.plate j.offLane
    refine ⟨_, exec_fillDone hj hs h33 he2 he hk hpast, ?_⟩
    obtain ⟨e', he', hf'⟩ := Option.map_eq_some_iff.mp filled
    have entered : (((s.updEntry r.plate ((ringSlice j.ring).getD 0) pos fun e => { e with filled := true }).updJobAt r
        fun _ => j.offLane).entryAt r.plate ((ringSlice j.offLane.ring).getD 0) pos) = some e' := by
      rw [← he', State.entryAt, State.entryAt, vlt]
      rfl
    rw [State.afterResolve_ready (j := j.offLane) hu (State.needEntry_filled hk he entered hf')
      (by simp [State.exhaustedNow, Job.offLane, hseal]) hk h2 hp hn]
    refine ⟨?_, State.makeReady_madeReady job hu, ?_, ?_⟩
    · rw [← filled, State.entryAt, State.entryAt, ready (.vlt r.plate) (by simp), vlt]
    · rw [State.jobAt] at job ⊢
      rw [← hjr, ← hji] at job ⊢
      exact (congrArg (Option.map fun j => (j.unit, j.window)) (stored.trans (congrArg _ job))).trans rfl
    · exact (State.updVlt_frame s r.plate _).step (by simp) ((State.updSl_frame _ r.plate _).step (by simp)
        (ready.mono (by simp)))
  case early =>
    intro p x s hx
    rw [exec_dmaReadTimeout, hx]
    rfl
  case timeout =>
    intro p q i j s hj hs hx
    refine ⟨_, exec_dmaReadTimeout p _ s, ?_⟩
    have ends : s.readTimesOut p (.slug q i) = s.slugRead p j .fault .fault := by simp [State.readTimesOut, hj, hs]
    rw [if_pos hx, ends]
    exact State.slugRead_fault (by split <;> rfl)

end Sys2Proof.Machine

/-! PROOFS. The start step (O11). -/

namespace Sys2Proof.Machine

variable {s t u : State} {p : Plate} {c : EngClass} {j : Job} {n : Nat}

/-! ## What the schedulers and a start move (R63, R70, R72) -/

/-- The slices part `y` is `x` but for buckets, schedulers and what the windows hold. -/
def Slices.SchedKept (x y : Slices) : Prop :=
  ∃ buckets lane cipher random vault winData, y = { x with
    buckets := buckets, lane := lane, cipher := cipher, random := random, vault := vault, winData := winData }

theorem Slices.SchedKept.refl (x : Slices) : x.SchedKept x := ⟨_, _, _, _, _, _, rfl⟩

theorem Slices.SchedKept.trans {x y z : Slices} (h : x.SchedKept y) (k : y.SchedKept z) : x.SchedKept z := by
  obtain ⟨_, _, _, _, _, _, rfl⟩ := h
  obtain ⟨_, _, _, _, _, _, rfl⟩ := k
  exact ⟨_, _, _, _, _, _, rfl⟩

theorem Slices.SchedKept.jobs {x y : Slices} (h : x.SchedKept y) : y.jobs = x.jobs := by
  obtain ⟨_, _, _, _, _, _, rfl⟩ := h; rfl

theorem Slices.modSched_schedKept (x : Slices) (c : EngClass) (f : Sched → Sched) : x.SchedKept (x.modSched c f) := by
  cases c <;> exact ⟨_, _, _, _, _, _, rfl⟩

theorem Slices.emptied_schedKept (x : Slices) (i : Nat) (c : EngClass) (n : Int) : x.SchedKept (x.emptied i c n) := by
  unfold Slices.emptied
  split
  · exact .refl x
  · exact x.modSched_schedKept c _

/-- Between `s` and `t` plate `p` moved only what a start moves: buckets, schedulers, windows, jobs, reads and outputs. -/
structure StartWork (s t : State) (p : Plate) : Prop where
  rings : (t.pl p).sl.rings = (s.pl p).sl.rings
  live : (t.pl p).sl.live = (s.pl p).sl.live
  lanes : (t.pl p).sl.lanes = (s.pl p).sl.lanes
  selected : (t.pl p).sl.selected = (s.pl p).sl.selected
  frame : SameBut [.sl p, .pow p, .out] s t

theorem StartWork.trans (h : StartWork s t p) (k : StartWork t u p) : StartWork s u p :=
  ⟨k.rings.trans h.rings, k.live.trans h.live, k.lanes.trans h.lanes, k.selected.trans h.selected, h.frame.trans k.frame⟩

/-- A change of schedulers, buckets and windows is such work, and leaves the jobs. -/
theorem State.updSl_sched (s : State) (p : Plate) (f : Slices → Slices) (h : ∀ x : Slices, x.SchedKept (f x)) :
    StartWork s (s.updSl p f) p ∧ ((s.updSl p f).pl p).sl.jobs = (s.pl p).sl.jobs := by
  obtain ⟨_, _, _, _, _, _, e⟩ := h (s.pl p).sl
  have : ((s.updSl p f).pl p).sl = f (s.pl p).sl := State.updSl_self s p f
  rw [e] at this
  exact ⟨⟨by rw [this], by rw [this], by rw [this], by rw [this], (State.updSl_frame s p f).mono (by simp)⟩, by rw [this]⟩

theorem State.updJob_work (s : State) (p : Plate) (q : RingRef) (i : Word) (f : Job → Job) : StartWork s (s.updJob p q i f) p :=
  ⟨by simp [State.updJob], by simp [State.updJob], by simp [State.updJob], by simp [State.updJob],
    (State.updJob_frame s p q i f).mono (by simp)⟩

theorem State.issueRead_work (s : State) (p : Plate) (q : RingRef) (x : ReadKind) (a : DWord) (n : Nat) :
    StartWork s (s.issueRead p q x a n) p ∧ ((s.issueRead p q x a n).pl p).sl.jobs = (s.pl p).sl.jobs := by
  obtain ⟨l, h⟩ := State.issueRead_sl s p q x a n
  exact ⟨⟨by rw [h], by rw [h], by rw [h], by rw [h], State.issueRead_frame s p q x a n⟩, by rw [h]⟩

theorem State.issueInputs_work (l : List (DWord × Nat)) (s : State) (p : Plate) (j : Job) :
    StartWork s (s.issueInputs p j l) p ∧ ((s.issueInputs p j l).pl p).sl.jobs = (s.pl p).sl.jobs := by
  induction l generalizing s with
  | nil => exact ⟨⟨rfl, rfl, rfl, rfl, SameBut.refl _ s⟩, rfl⟩
  | cons x l ih =>
    obtain ⟨h1, h2⟩ := State.issueRead_work s p j.ring (.input j.ring j.index) x.1 x.2
    obtain ⟨k1, k2⟩ := ih (s.issueRead p j.ring (.input j.ring j.index) x.1 x.2)
    exact ⟨h1.trans k1, k2.trans h2⟩

theorem State.startReads_work (s : State) (p : Plate) (j : Job) :
    StartWork s (s.startReads p j) p ∧ ((s.startReads p j).pl p).sl.jobs = (s.pl p).sl.jobs := by
  unfold State.startReads
  split
  · exact State.issueRead_work s p _ _ _ _
  · split
    · exact State.issueInputs_work _ s p j
    · exact ⟨⟨rfl, rfl, rfl, rfl, SameBut.refl _ s⟩, rfl⟩

theorem Slices.setBuckets_schedKept (x : Slices) (i : Nat) (b : Buckets) : x.SchedKept
    (((({ x with buckets := x.buckets.set {} i b } : Slices).emptied i .lane b.pk).emptied i .cipher b.ci).emptied i .random b.rn) :=
  (((Slices.SchedKept.trans (y := { x with buckets := x.buckets.set {} i b }) ⟨_, _, _, _, _, _, rfl⟩
    (Slices.emptied_schedKept _ i .lane _)).trans (Slices.emptied_schedKept _ i .cipher _)).trans
      (Slices.emptied_schedKept _ i .random _))

theorem State.setBuckets_work (s : State) (p : Plate) (i : Nat) (b : Buckets) :
    StartWork s (s.setBuckets p i b) p ∧ ((s.setBuckets p i b).pl p).sl.jobs = (s.pl p).sl.jobs :=
  State.updSl_sched s p _ fun x => x.setBuckets_schedKept i b

theorem State.charge_work (s : State) (p : Plate) (c : EngClass) (i n : Nat) :
    StartWork s (s.charge p c i n) p ∧ ((s.charge p c i n).pl p).sl.jobs = (s.pl p).sl.jobs := by
  have none : StartWork s s p ∧ (s.pl p).sl.jobs = (s.pl p).sl.jobs := ⟨⟨rfl, rfl, rfl, rfl, SameBut.refl _ s⟩, rfl⟩
  unfold State.charge
  dsimp only
  split
  · exact none
  · cases c
    case vault => exact none
    all_goals exact State.setBuckets_work s p i _

theorem State.fillWindow_work (s : State) (p : Plate) (w : Option Nat) (q : RingRef) (i : Word) :
    StartWork s (s.fillWindow p w q i) p ∧ ((s.fillWindow p w q i).pl p).sl.jobs = (s.pl p).sl.jobs := by
  cases w with
  | none => exact ⟨⟨rfl, rfl, rfl, rfl, SameBut.refl _ s⟩, rfl⟩
  | some w => exact State.updSl_sched s p _ fun x => ⟨_, _, _, _, _, _, rfl⟩

theorem State.settle_work (s : State) (p : Plate) (c : EngClass) (i n : Nat) :
    StartWork s (s.settle p c i n) p ∧ ((s.settle p c i n).pl p).sl.jobs = (s.pl p).sl.jobs :=
  State.updSl_sched s p _ fun x => x.modSched_schedKept c _

/-! ## A start on a unit -/

/-- A job that starts on a unit stands there from now on. -/
theorem State.startOn_spec (s : State) (p : Plate) (j : Job) (n : Nat) : StartWork s (s.startOn p j n) p ∧
    ∃ w, (s.startOn p j n).job? p j.ring j.index = (s.job? p j.ring j.index).map fun k => startJob k n s.clock w := by
  unfold State.startOn
  dsimp only
  generalize (if j.cls == .lane then (ringSlice j.ring).bind (s.pickWindow p) else none) = w
  obtain ⟨h1, e1⟩ := State.charge_work s p j.cls (roundKey j.ring) j.cost
  obtain ⟨h2, e2⟩ := State.fillWindow_work (s.charge p j.cls (roundKey j.ring) j.cost) p w j.ring j.index
  generalize hv : (s.charge p j.cls (roundKey j.ring) j.cost).fillWindow p w j.ring j.index = v at h2 e2 ⊢
  have h3 := State.updJob_work v p j.ring j.index fun j => startJob j n s.clock w
  obtain ⟨h4, e4⟩ := State.settle_work (v.updJob p j.ring j.index fun j => startJob j n s.clock w) p j.cls (roundKey j.ring) j.cost
  obtain ⟨h5, e5⟩ := State.startReads_work
    ((v.updJob p j.ring j.index fun j => startJob j n s.clock w).settle p j.cls (roundKey j.ring) j.cost) p j
  refine ⟨h1.trans (h2.trans (h3.trans (h4.trans h5))), w, ?_⟩
  rw [State.job?_congr (e5.trans e4), State.job?_updJob v p j.ring j.index (fun j => startJob j n s.clock w)
    fun _ h1 h2 => ⟨h1, h2⟩]
  exact congrArg _ (State.job?_congr (e2.trans e1) _ _)

/-- A chosen job that nothing stops starts on its unit. -/
theorem State.startStep_free (h : FreeToStart s p j) : s.startStep p j n = s.startOn p j n := by
  obtain ⟨hfence, hkey, hentropy, hdraw⟩ := h
  unfold State.startStep
  rw [hfence, hkey, hentropy]
  cases hk : j.key with
  | none => simp
  | some k =>
    rw [hk] at hdraw
    simp only [Option.all_some, Bool.not_eq_true'] at hdraw
    simp [hdraw]

/-- A job that an armed fence covers is cancelled at its start step (R50). -/
theorem State.startStep_covered (hb : j.begun = false) (hf : (s.ring p j.ring).covers j.index = true) :
    s.startStep p j n = s.fail p j .cancelled := by simp [State.startStep, hb, hf]

/-- A job whose keys do not stand, or which gets no random values, fails at its start step (R188, R206). -/
theorem State.startStep_fails {st : Status} (hb : j.begun = false) (hf : (s.ring p j.ring).covers j.index = false)
    (h : s.keyAtStart p j = some st ∨ (s.keyAtStart p j = none ∧ s.entropyAtStart p j = some true ∧ st = .entropyHalt)) :
    s.startStep p j n = s.fail p j st := by
  rcases h with hk | ⟨hk, he, rfl⟩
  · simp [State.startStep, hb, hf, hk]
  · simp [State.startStep, hb, hf, hk, he]

/-! ## The choice (R70) -/

theorem Slices.sched_kept (x : Slices) (c : EngClass) (d : Sched) : x.SchedKept (match c with
    | .lane => { x with lane := d }
    | .cipher => { x with cipher := d }
    | .random => { x with random := d }
    | .vault => { x with vault := d }) := by
  cases c <;> exact ⟨_, _, _, _, _, _, rfl⟩

/-- The choice of a job sets the scheduler of its class. -/
theorem State.choose_fst (s : State) (p : Plate) (c : EngClass) : ∃ d, (s.choose p c).1 = s.setSched p c d := by
  unfold State.choose
  dsimp only
  split
  · exact ⟨_, rfl⟩
  · exact ⟨_, rfl⟩

theorem State.choose_work (s : State) (p : Plate) (c : EngClass) : StartWork s (s.choose p c).1 p := by
  obtain ⟨d, h⟩ := State.choose_fst s p c
  rw [h]
  exact (State.updSl_sched s p _ fun x => x.sched_kept c d).1

/-- A chosen job that nothing stops is started. -/
theorem State.choose_started {unit : Option Nat} {stage : Stage} (hj : (s.choose p c).1.job? p j.ring j.index = some j)
    (hf : FreeToStart (s.choose p c).1 p j)
    (hs : (startJob j n s.clock none).stage = stage ∧ (startJob j n s.clock none).unit = unit) :
    Started s ((s.choose p c).1.startStep p j n) p j unit stage := by
  have chosen := State.choose_work s p c
  obtain ⟨work, w, job⟩ := State.startOn_spec (s.choose p c).1 p j n
  obtain ⟨rings, live, lanes, -, frame⟩ := chosen.trans work
  have clock : (s.choose p c).1.clock = s.clock := chosen.frame .clock (by simp)
  rw [State.startStep_free hf]
  refine ⟨?_, rings, live, lanes, frame⟩
  rw [job, hj, clock, ← hs.1, ← hs.2]
  rfl

/-- A chosen job that fails at its start step completes, seen from before the choice. -/
theorem State.choose_fails (s : State) (p : Plate) (c : EngClass) (j : Job) (st : Status) :
    Completes s ((s.choose p c).1.fail p j st) p j { status := st } ∧ SameBut (completing p) s ((s.choose p c).1.fail p j st) := by
  obtain ⟨d, h⟩ := State.choose_fst s p c
  rw [h]
  exact ⟨(State.fail_completes _ p j st).before_quiet (fun _ => by cases c <;> rfl) (fun _ => by cases c <;> rfl)
    (fun _ => by cases c <;> rfl), (State.updSl_frame s p _).step (by simp [completing]) (State.fail_frame _ p j st)⟩

/-! ## JOB_START by class -/

theorem exec_jobStart_cipher {t0 : State} (hu : s.up p = true) (hr : s.cipherRestart p = none)
    (hc : s.choose p .cipher = (t0, some j)) (hn : t0.unitFor p j = some n) :
    exec (.jobStart p .cipher) s = .next (t0.startStep p j n) := by
  show execJobStart p .cipher s = _
  simp [execJobStart, hu, hr, hc, hn]

theorem exec_jobStart_random {t0 : State} (hu : s.up p = true) (hc : s.choose p .random = (t0, some j)) :
    exec (.jobStart p .random) s = .next (t0.startStep p j 0) := by
  show execJobStart p .random s = _
  simp [execJobStart, hu, hc]

theorem exec_jobStart_vault {t0 : State} (hu : s.up p = true) (hc : s.choose p .vault = (t0, some j)) :
    exec (.jobStart p .vault) s = .next (t0.startStep p j 0) := by
  show execJobStart p .vault s = _
  simp [execJobStart, hu, hc]

/-- A lane starts the job of the round where none was selected and the resume queue is empty. -/
theorem exec_jobStart_lane {t0 : State} (hu : s.up p = true) (hs : s.selectedJob p = none)
    (hc : (s.updSl p fun x => { x with selected := none }).choose p .lane = (t0, some j)) (hn : t0.freeLane p = some n)
    (hr : (t0.pl p).sl.resume = []) :
    exec (.jobStart p .lane) s = .next ((t0.updSl p fun x => { x with selected := none }).startStep p j n) := by
  show execJobStart p .lane s = _
  simp [execJobStart, State.startLane, hu, hs, hc, hn, hr]

/-- A change that leaves a plate's slices part as it is leaves the state. -/
theorem State.updSl_eq_self {f : Slices → Slices} (h : f (s.pl p).sl = (s.pl p).sl) : s.updSl p f = s := by
  unfold State.updSl State.upd
  dsimp only
  rw [h]
  cases p <;> rfl

theorem choose_eq (h : (s.choose p c).2 = some j) : s.choose p c = ((s.choose p c).1, some j) := by rw [← h]

/-- The choice after the selected job was forgotten selects none. -/
theorem State.choose_deselected (s : State) (p : Plate) (c : EngClass) :
    (((s.updSl p fun x => { x with selected := none }).choose p c).1.pl p).sl.selected = none := by
  rw [(State.choose_work _ p c).selected, State.updSl_self]

/-- A start is seen from before the selected job was forgotten. -/
theorem started_before_selected {unit : Option Nat} {stage : Stage}
    (h : Started (s.updSl p fun x => { x with selected := none }) t p j unit stage) : Started s t p j unit stage := by
  obtain ⟨job, rings, live, lanes, frame⟩ := h
  rw [State.updSl_self] at rings live lanes
  rw [State.updSl_clock] at job
  exact ⟨job, rings, live, lanes, (State.updSl_frame s p _).step (by simp) frame⟩

/-- Settles O11: the choice moves schedulers alone (`choose_work`), and the start step starts the job (`choose_started`) or completes
it (`choose_fails`). -/
theorem startStep : Obligations.StartStep := by
  refine ⟨?cipher, ?random, ?vault, ?lane, ?cancelled, ?failed⟩
  case cipher =>
    intro p s j u hup hr hc t0 hj hcls hn hf
    exact ⟨_, exec_jobStart_cipher hup hr (choose_eq hc) hn, State.choose_started hj hf (by simp [startJob, hcls])⟩
  case random =>
    intro p s j hup hc t0 hj hcls hf
    exact ⟨_, exec_jobStart_random hup (choose_eq hc), State.choose_started hj hf (by simp [startJob, hcls])⟩
  case vault =>
    intro p s j hup hc t0 hj hcls hf
    exact ⟨_, exec_jobStart_vault hup (choose_eq hc), State.choose_started hj hf (by simp [startJob, hcls])⟩
  case lane =>
    intro p s j u hup hsel hc t0 hj hcls hn hres hf
    have gone := State.choose_deselected s p .lane
    refine ⟨_, exec_jobStart_lane hup hsel (choose_eq hc) hn hres, ?_⟩
    rw [State.updSl_eq_self (s := t0) (f := fun x => { x with selected := none }) (by rw [← gone])]
    refine ⟨started_before_selected (State.choose_started hj hf (by simp [startJob, hcls])), ?_⟩
    rw [State.startStep_free hf, (State.startOn_spec t0 p j u).1.selected, gone]
  case cancelled =>
    intro p s j hup hc t0 hb hf
    refine ⟨_, exec_jobStart_vault hup (choose_eq hc), ?_⟩
    rw [State.startStep_covered hb hf]
    exact State.choose_fails s p .vault j _
  case failed =>
    intro p s j hup hc t0 st hb hf hst
    refine ⟨_, exec_jobStart_vault hup (choose_eq hc), ?_⟩
    rw [State.startStep_fails hb hf hst]
    exact State.choose_fails s p .vault j _

end Sys2Proof.Machine

/-! PROOFS. What keeps a plate's link, random part and tamper monitor: the work on rings, registers and the vault's ledger. -/

namespace Sys2Proof.Machine

variable {s t u : State} {p : Plate} {q : RingRef}

/-- Between `s` and `t` what was sent stays sent, plate `p` changed of its link nothing but what the function holds, shows or serves,
and its random part and tamper monitor are as they were. -/
structure Steady (s t : State) (p : Plate) : Prop where
  out : s.out <+: t.out
  pow : ∃ atc pba outLow serving step tmbCfg, (t.pl p).pow = { (s.pl p).pow with
    atc := atc, pba := pba, outLow := outLow, serving := serving, step := step, tmbCfg := tmbCfg }
  rng : (t.pl p).rng = (s.pl p).rng
  tmp : (t.pl p).tmp = (s.pl p).tmp

namespace Steady

theorem refl (s : State) (p : Plate) : Steady s s p := ⟨List.prefix_refl _, ⟨_, _, _, _, _, _, rfl⟩, rfl, rfl⟩

theorem trans (h : Steady s t p) (k : Steady t u p) : Steady s u p := by
  obtain ⟨_, _, _, _, _, _, e⟩ := h.pow
  obtain ⟨a, b, c, d, f, g, e'⟩ := k.pow
  exact ⟨h.out.trans k.out, ⟨a, b, c, d, f, g, by rw [e', e]⟩, k.rng.trans h.rng, k.tmp.trans h.tmp⟩

theorem ite {c : Prop} [Decidable c] (h : Steady s t p) (k : Steady s u p) : Steady s (if c then t else u) p := by
  split
  · exact h
  · exact k

theorem foldl {α : Type} (l : List α) (f : State → α → State) (h : ∀ s a, Steady s (f s a) p) (s : State) :
    Steady s (l.foldl f s) p := by
  induction l generalizing s with
  | nil => exact refl s p
  | cons a l ih => exact (h s a).trans (ih (f s a))

theorem each {α : Type} (l : List α) (f : State → α → State) (h : ∀ s a, Steady s (f s a) p) (s : State) :
    Steady s (s.each l f) p := foldl l f h s

theorem of_frame {l : List Part} (h : SameBut l s t) (ho : Part.out ∉ l) (hp : Part.pow p ∉ l) (hr : Part.rng p ∉ l)
    (ht : Part.tmp p ∉ l) : Steady s t p := by
  have eo : t.out = s.out := h _ ho
  have ep : (t.pl p).pow = (s.pl p).pow := h _ hp
  exact ⟨by rw [eo], ⟨_, _, _, _, _, _, ep⟩, h _ hr, h _ ht⟩

theorem of_traffic {l : List Part} (k : Traffic s t p) (h : SameBut l s t) (hr : Part.rng p ∉ l) (ht : Part.tmp p ∉ l) :
    Steady s t p := by
  obtain ⟨_, _, e⟩ := k.pow
  exact ⟨k.out, ⟨_, _, _, _, _, _, e⟩, h _ hr, h _ ht⟩

theorem phase (h : Steady s t p) : (t.pl p).pow.phase = (s.pl p).pow.phase := by
  obtain ⟨_, _, _, _, _, _, e⟩ := h.pow
  rw [e]

theorem ready (h : Steady s t p) : (t.pl p).pow.ready = (s.pl p).pow.ready := by
  obtain ⟨_, _, _, _, _, _, e⟩ := h.pow
  rw [e]

end Steady

/-! ## Parts and messages -/

theorem State.updSl_steady (s : State) (p : Plate) (f : Slices → Slices) : Steady s (s.updSl p f) p :=
  .of_frame (State.updSl_frame s p f) (by simp) (by simp) (by simp) (by simp)

theorem State.updVlt_steady (s : State) (p : Plate) (f : Vault → Vault) : Steady s (s.updVlt p f) p :=
  .of_frame (State.updVlt_frame s p f) (by simp) (by simp) (by simp) (by simp)

theorem State.updFlt_steady (s : State) (p : Plate) (f : Faults → Faults) : Steady s (s.updFlt p f) p :=
  .of_frame (State.updFlt_frame s p f) (by simp) (by simp) (by simp) (by simp)

theorem State.updPr_steady (s : State) (p : Plate) (f : Pair → Pair) : Steady s (s.updPr p f) p :=
  .of_frame (State.updPr_frame s p f) (by simp) (by simp) (by simp) (by simp)

theorem State.updRing_steady (s : State) (p : Plate) (q : RingRef) (f : Ring → Ring) : Steady s (s.updRing p q f) p :=
  .of_frame (State.updRing_frame s p q f) (by simp) (by simp) (by simp) (by simp)

theorem State.send_steady (s : State) (p : Plate) (m : GMsg) : Steady s (s.send p m) p :=
  .of_frame (State.send_frame s p m) (by simp) (by simp) (by simp) (by simp)

theorem State.record_steady (s : State) (p : Plate) (t k : Nat) (d : Word) : Steady s (s.record p t k d) p :=
  .of_frame (State.record_frame s p t k d) (by simp) (by simp) (by simp) (by simp)

theorem State.setQueue_steady (s : State) (p : Plate) (f : List Word → List Word) : Steady s (s.setQueue p f) p :=
  .of_frame (State.updMgt_frame s p _) (by simp) (by simp) (by simp) (by simp)

theorem State.updPow_steady (s : State) (p r : Plate) (f : Power → Power) (h : ∀ w, ∃ atc pba outLow serving step tmbCfg,
    f w = { w with atc := atc, pba := pba, outLow := outLow, serving := serving, step := step, tmbCfg := tmbCfg }) :
    Steady s (s.updPow r f) p := by
  by_cases e : p = r
  · subst e
    obtain ⟨a, b, c, d, e, g, hf⟩ := h (s.pl p).pow
    exact ⟨by simp, ⟨a, b, c, d, e, g, by simpa using hf⟩, by simp, by simp⟩
  · exact .of_frame (State.updPow_frame s r f) (by simp) (by simpa using e) (by simp) (by simp)

theorem State.refreshOut_steady (s : State) (p : Plate) : Steady s (s.refreshOut p) p :=
  State.updPow_steady s p p _ fun _ => ⟨_, _, _, _, _, _, rfl⟩

/-! ## Work on a ring -/

theorem State.readUnder_steady (s : State) (p : Plate) (q : RingRef) (a : DWord) (n : Nat) : Steady s (s.readUnder p q a n) p :=
  .of_traffic (State.readUnder_traffic s p q a n) (SameBut.ite ((State.translate_frame s p _ a).step (by simp)
    ((State.emit_frame _ _).mono (by simp))) (SameBut.refl _ s) : SameBut [.pow p, .out] s (s.readUnder p q a n))
    (by simp) (by simp)

theorem State.issueRead_steady (s : State) (p : Plate) (q : RingRef) (k : ReadKind) (a : DWord) (n : Nat) :
    Steady s (s.issueRead p q k a n) p :=
  .of_traffic (State.issueRead_traffic s p q k a n) (State.issueRead_frame s p q k a n) (by simp) (by simp)

theorem State.post_steady (s : State) (p : Plate) (q : RingRef) (i : Word) (d : Option Desc) (r : Result) (a b c : Bool) :
    Steady s (s.post p q i d r a b c) p :=
  .of_traffic (State.post_traffic s p q i d r a b c) (State.post_frame s p q i d r a b c) (by simp) (by simp)

theorem State.finish_steady (s : State) (p : Plate) (j : Job) (r : Result) : Steady s (s.finish p j r) p :=
  .of_traffic (State.finish_traffic s p j r) (State.finish_frame s p j r) (by simp) (by simp)

theorem State.finishBatch_steady (s : State) (p : Plate) (j : Job) (r : Result) : Steady s (s.finishBatch p j r) p :=
  .of_traffic (State.finishBatch_traffic s p j r) (State.finishBatch_frame s p j r) (by simp) (by simp)

theorem State.ringFault_steady (s : State) (p : Plate) (q : RingRef) (k : Nat) (v : Word) : Steady s (s.ringFault p q k v) p :=
  .of_traffic (State.ringFault_traffic s p q k v) (State.ringFault_frame s p q k v) (by simp) (by simp)

theorem State.writeProgress_steady (s : State) (p : Plate) (i : Nat) : Steady s (s.writeProgress p i) p :=
  .of_traffic (State.writeProgress_traffic s p i) (State.writeProgress_frame s p i) (by simp) (by simp)

theorem State.takeP_steady (s : State) (p : Plate) (q : RingRef) (v : Word) : Steady s (s.takeP p q v) p :=
  have work := (State.takeP_spec s p q v).2
  .of_traffic work.traffic work.frame (by simp) (by simp)

theorem State.issueFetch_steady (s : State) (p : Plate) (q : RingRef) : Steady s (s.issueFetch p q) p :=
  .each _ _ (fun s _ => .ite (.refl s p) (State.issueRead_steady s p q _ _ _)) s

theorem State.cancelNow_steady (s : State) (p : Plate) (q : RingRef) : Steady s (s.cancelNow p q) p :=
  .each _ _ (fun s j => .ite (State.finish_steady s p j _) (.refl s p)) s

theorem State.arm_steady (s : State) (p : Plate) (q : RingRef) (f : Word) : Steady s (s.arm p q f) p := by
  have armed := (State.updRing_steady s p q fun g => { g with fence := some f }).trans (State.cancelNow_steady _ p q)
  unfold State.arm
  refine .ite (State.updRing_steady s p q _) (.ite (.refl s p) ?_)
  split
  · exact .ite armed (.refl s p)
  · exact armed

theorem State.clearFault_steady (s : State) (p : Plate) (q : RingRef) : Steady s (s.clearFault p q) p := by
  have fetched := (State.updRing_steady s p q fun g => { g with faulted := false }).trans (State.issueFetch_steady _ p q)
  exact .ite (.refl s p) (.ite (fetched.trans (State.takeP_steady _ p q _)) fetched)

theorem State.disableRing_steady (s : State) (p : Plate) (q : RingRef) : Steady s (s.disableRing p q) p := by
  have off := State.updRing_steady s p q fun g => { g with cfg := g.cfg &&& 0x7FFFFFFF, draining := true }
  exact .trans (.ite (off.trans (State.issueFetch_steady _ p q)) off)
    (.each _ _ (fun s j => State.finishBatch_steady s p j _) _)

theorem State.enableRing_steady (s : State) (p : Plate) (q : RingRef) (v : Word) : Steady s (s.enableRing p q v) p := by
  unfold State.enableRing
  cases q with
  | admin => exact State.updRing_steady s p _ _
  | tenant i r =>
    exact (State.updRing_steady s p _ _).trans ((State.updSl_steady _ p _).trans (State.writeProgress_steady _ p i))

end Sys2Proof.Machine

/-! PROOFS. The PCIe island (O48). -/

namespace Sys2Proof.Machine

variable {s t u : State} {p : Plate} {q : RingRef}

/-! ## Rings resolved from saved windows (R225, R308) -/

theorem State.startGroup_steady (s : State) (p : Plate) (g : Group) : Steady s (s.startGroup p g) p :=
  .of_frame (State.startGroup_frame s p g) (by simp) (by simp) (by simp) (by simp)

/-- A ledger entry carries no secret, so a change of it draws nothing (R138). -/
theorem State.beginChange_ledger_steady (s : State) (p : Plate) (k : Nat) (v : Ledger) (j : Option Journal) (a : After) :
    Steady s (s.beginChange p [.ledger k v] j a false) p := by
  have prepared : s.prepare p [.ledger k v] = s := rfl
  have sent (u : State) (c : Change) (hc : itemDraws c.items = []) : Steady u (u.sendChange p c) p := by
    unfold State.sendChange
    rw [hc]
    exact State.send_steady u p _
  unfold State.beginChange
  dsimp only
  rw [prepared]
  refine .trans (State.updVlt_steady s p _) (.ite (sent _ _ rfl) (.ite (State.startGroup_steady _ p _) (.refl _ p)))

theorem State.commitNow_ledger_steady (s : State) (p : Plate) (k : Nat) (v : Ledger) :
    Steady s (s.commitNow p [.ledger k v]) p := by
  have item (u : State) (q : Nat) (v : Ledger) : Steady u (u.applyItem p false q (.ledger k v)) p := by
    unfold State.applyItem
    exact State.updVlt_steady u p _
  unfold State.commitNow State.applyItems
  dsimp only [State.each, List.map, List.foldl, VItem.stamp]
  exact .ite (.refl s p) ((State.updVlt_steady s p _).trans ((item _ _ _).trans (State.updVlt_steady _ p _)))

theorem State.slugLost_steady (s : State) (p : Plate) (q : RingRef) (i : Word) (d : Option Desc) (r : Plate) (k : Nat) :
    Steady s (s.slugLost p q i d r k) p :=
  (State.updSl_steady s p _).trans ((State.updSl_steady _ p _).trans (State.beginChange_ledger_steady _ p _ _ _ _))

theorem State.journalResult_steady (s : State) (p : Plate) (i : Nat) (e : Journal) (d : Option Desc) :
    Steady s (s.journalResult p i e d).1 p := by
  unfold State.journalResult
  dsimp only
  split
  · exact State.commitNow_ledger_steady s p _ _
  · cases d with
    | none => exact .refl s p
    | some d =>
      dsimp only
      split
      · exact .refl s p
      · split <;> exact .refl s p

theorem State.resolveOne_steady (s : State) (p : Plate) (q : RingRef) (x : RingScan) (r : Plate) (i : Word) (a b : Bool) :
    Steady s (s.resolveOne p q x r i a b) p := by
  have read := State.readUnder_steady s p q ((s.ring p q).sqEntry i) 64
  unfold State.resolveOne
  dsimp only
  split
  · refine .trans read (.ite (State.slugLost_steady _ p q _ _ _ _) ?_)
    exact (State.journalResult_steady _ p _ _ _).trans (State.post_steady _ p q _ _ _ _ _ _)
  · exact .ite (read.trans (State.post_steady _ p q _ _ _ _ _ _)) (.refl s p)

theorem State.resolveRing_steady (s : State) (p : Plate) (q : RingRef) (w : Window) (x : RingScan) (r : Plate) (b : Bool) :
    Steady s (s.resolveRing p q w x r b) p := by
  have records : Steady s (s.readRecords p q w x) p := .each _ _ (fun s _ => State.readUnder_steady s p q _ _) s
  have walk (u : State) (n : Nat) (l f : Word) : Steady u (u.each (List.range n) fun s k =>
      if scanHas x (l + BitVec.ofNat 32 k) then s else s.resolveOne p q x r (l + BitVec.ofNat 32 k)
        (decide (dist (l + BitVec.ofNat 32 k) l < dist f l)) b) p :=
    .each _ _ (fun s _ => .ite (.refl s p) (State.resolveOne_steady s p q x r _ _ b)) u
  unfold State.resolveRing
  dsimp only
  split
  · exact records.trans ((State.updRing_steady _ p q _).trans ((walk _ _ _ _).trans
      ((State.updRing_steady _ p q _).trans (State.ringFault_steady _ p q _ _))))
  · exact records.trans ((State.updRing_steady _ p q _).trans ((walk _ _ _ _).trans
      ((State.updRing_steady _ p q _).trans (State.issueFetch_steady _ p q))))

theorem State.armKept_steady (s : State) (p : Plate) (i r : Nat) : Steady s (s.armKept p i r) p :=
  .trans (State.updSl_steady s p _) (.each _ _ (fun s f => .ite (State.arm_steady s p _ f) (.refl s p)) _)

theorem State.resolveSlice_steady (s : State) (p : Plate) (i : Nat) (w : Tab Window) (l : List RingScan) (r : Plate) (b : Bool) :
    Steady s (s.resolveSlice p i w l r b) p :=
  .trans (State.readUnder_steady s p _ _ _) (.trans (.each _ _ (fun s n => .ite
    ((State.resolveRing_steady s p _ _ _ r b).trans (State.armKept_steady _ p i n)) (.refl s p)) _)
    (State.writeProgress_steady _ p i))

/-- Its rings resolved, the plate holds no saved window any longer. -/
theorem State.resolveSaved_steady (s : State) (p : Plate) (l : List RingScan) :
    Steady s (s.resolveSaved p l) p ∧ ((s.resolveSaved p l).pl p).vlt.savedWin = [] := by
  unfold State.resolveSaved
  dsimp only
  exact ⟨.trans (.each _ _ (fun s i => State.resolveSlice_steady s p i _ l p false) s)
    (.trans (.ite (State.resolveRing_steady _ p _ _ _ p false) (.refl _ p)) (State.updVlt_steady _ p _)),
    by rw [State.updVlt_self]⟩

/-- The plates that go into service change of their links that alone (Table 16.7 step 9). -/
theorem State.startServing_steady (s : State) (p : Plate) :
    Steady s (s.startServing p) p ∧ ((s.startServing p).pl p).vlt = (s.pl p).vlt := by
  have on (u : State) (r : Plate) : Steady u (u.updPow r fun w => { w with serving := true, step := 9 }) p ∧
      ((u.updPow r fun w => { w with serving := true, step := 9 }).pl p).vlt = (u.pl p).vlt :=
    ⟨State.updPow_steady u p r _ fun _ => ⟨_, _, _, _, _, _, rfl⟩, State.updPow_frame u r _ (.vlt p) (by simp)⟩
  unfold State.startServing
  dsimp only
  split
  · exact ⟨.refl s p, rfl⟩
  split
  · exact ⟨.refl s p, rfl⟩
  split
  · exact ⟨.refl s p, rfl⟩
  split
  · exact ⟨(on s p).1.trans (on _ .b).1, (on _ .b).2.trans (on s p).2⟩
  · exact on s p

/-- Steps 6 to 9 of a start-up: what the plate's link comes to, and what they leave as it was. -/
theorem State.bringUp_spec (s : State) (p : Plate) (y : LinkShape) (l : List RingScan) :
    Steady ((s.linkStart p y).updPow p fun w => { w with
        ready := true, step := 8, startMs := min 65535 ((s.clock - (s.pl p).pow.bootAt) / 1000) }) (s.bringUp p y l) p ∧
      ((s.bringUp p y l).pl p).vlt.savedWin = [] := by
  obtain ⟨saved, gone⟩ := State.resolveSaved_steady ((((s.linkStart p y).updPow p fun w => { w with
    ready := true, step := 8, startMs := min 65535 ((s.clock - (s.pl p).pow.bootAt) / 1000) }).refreshOut p).record p 0x0001 0
      (BitVec.ofNat 32 (min 65535 ((s.clock - (s.pl p).pow.bootAt) / 1000)))) p l
  obtain ⟨serving, vlt⟩ := State.startServing_steady (((((s.linkStart p y).updPow p fun w => { w with
    ready := true, step := 8, startMs := min 65535 ((s.clock - (s.pl p).pow.bootAt) / 1000) }).refreshOut p).record p 0x0001 0
      (BitVec.ofNat 32 (min 65535 ((s.clock - (s.pl p).pow.bootAt) / 1000)))).resolveSaved p l) p
  exact ⟨(State.refreshOut_steady _ p).trans ((State.record_steady _ p _ _ _).trans (saved.trans serving)),
    (congrArg Vault.savedWin vlt).trans gone⟩

/-! ## PERST# and resets (R360 to R362) -/

/-- A class C reaction that begins on a plate without the token asks its peer for it (Table 13.2 step 2, R235). -/
theorem State.classC_asks (hk : (s.pl p).tmp.ko = false) (hr : (s.pl p).flt.react = .none) (hu : s.up p = true)
    (ht : (s.pl p).pr.token = false) :
    ((s.classC p).pl p).flt = { (s.pl p).flt with react := .waitToken, graceAt := none, graceC := false } ∧
      ((s.classC p).pl p).pr.asking = true ∧ SameBut [.flt p, .pr p, .gut p.peer] s (s.classC p) := by
  have token : (((s.updFlt p fun f => { f with react := .waitToken, graceAt := none, graceC := false }).dropFence p).pl p).pr.token =
      false := by simp [State.dropFence, ht]
  have e : s.classC p = (((s.updFlt p fun f => { f with react := .waitToken, graceAt := none, graceC := false }).dropFence p).updPr p
      fun r => { r with asking := true }).send p .askToken := by
    simp only [State.classC, hk, hr, hu, State.askToken, token, bne_self_eq_false, Bool.not_true, Bool.or_self, if_false,
      Bool.false_eq_true]
  rw [e]
  refine ⟨?_, ?_, ?_⟩
  · rw [State.send_frame _ p _ (.flt p) (by simp)]
    simp [State.dropFence]
  · rw [State.send_frame _ p _ (.pr p) (by simp)]
    simp
  · exact (State.updFlt_frame s p _).step (by simp) ((State.updPr_frame _ p _).step (by simp)
      ((State.updPr_frame _ p _).step (by simp) ((State.send_frame _ p _).mono (by simp))))

/-- The link of a running plate whose PERST# is asserted (R362). -/
def Power.underPerst (w : Power) (now : Nat) : Power :=
  { w with perst := true, perstAt := now, linkUp := false, cfgReady := false, fnMask := false, pba := [], cfg := {}, atc := [] }

/-- The state in which PERST#, once asserted, begins the class C reaction. -/
def State.perstTaken (s : State) (p : Plate) : State :=
  ((s.updPow p (·.underPerst s.clock)).updFlt p fun f => { f with perst := true }).record p 0x0002 0 4

theorem State.perstTaken_spec (s : State) (p : Plate) : ((s.perstTaken p).pl p).pow = (s.pl p).pow.underPerst s.clock ∧
    ((s.perstTaken p).pl p).flt = { (s.pl p).flt with perst := true } ∧
    SameBut [.pow p, .flt p, .nvm p] s (s.perstTaken p) := by
  refine ⟨?_, ?_, (State.updPow_frame s p _).step (by simp) ((State.updFlt_frame _ p _).step (by simp)
    ((State.record_frame _ p _ _ _).mono (by simp)))⟩
  · rw [State.perstTaken, State.record_frame _ p _ _ _ (.pow p) (by simp), State.updFlt_frame _ p _ (.pow p) (by simp),
      State.updPow_self]
  · rw [State.perstTaken, State.record_frame _ p _ _ _ (.flt p) (by simp), State.updFlt_self,
      State.updPow_frame s p _ (.flt p) (by simp)]

theorem exec_perstAssert (hp : (s.pl p).pow.perst = false) (hu : s.up p = true) :
    exec (.perstAssert p) s = .next ((s.perstTaken p).classC p) := by
  have running : (s.pl p).pow.phase ≠ .off := by
    intro h
    simp [State.up, h] at hu
  have phase : ((s.updPow p fun w =>
      { w with perst := true, perstAt := s.clock, linkUp := false, cfgReady := false }).pl p).pow.phase ≠ .off := by simpa using running
  have island : (s.updPow p fun w => { w with perst := true, perstAt := s.clock, linkUp := false, cfgReady := false }).resetIsland p =
      s.updPow p (·.underPerst s.clock) := State.updPow_comm s p _ _
  have up : (s.updPow p (·.underPerst s.clock)).up p = true := by simpa [State.up, Power.underPerst] using hu
  show execPerstAssert p s = _
  simp only [execPerstAssert, hp, Bool.false_eq_true, if_false, phase, island, up, if_true]
  rfl

theorem exec_perstRelease (y : LinkShape) (hp : (s.pl p).pow.perst = true) : exec (.perstRelease ⟨p, y⟩) s = .next
    (if !s.up p then s.updPow p fun w => { w with perst := false }
     else if (s.pl p).pow.ready then (s.updPow p fun w => { w with perst := false }).linkStart p y
     else (s.updPow p fun w => { w with perst := false }).bringUp p y []) := by
  show execPerstRelease ⟨p, y⟩ s = _
  have up : (s.updPow p fun w => { w with perst := false }).up p = s.up p := by simp [State.up]
  have ready : ((s.updPow p fun w => { w with perst := false }).pl p).pow.ready = (s.pl p).pow.ready := by simp
  simp only [execPerstRelease, hp, Bool.not_true, Bool.false_eq_true, if_false, up, ready]

theorem exec_hotReset (y : LinkShape) (hu : s.up p = true) : exec (.hotReset ⟨p, y⟩) s = .next
    (s.updPow p fun w => { w with
      fnMask := false, pba := [], cfg := {}, atc := [],
      lanes := if w.linkUp then y.lanes else w.lanes, gen := if w.linkUp then y.gen else w.gen }) := by
  show execHotReset ⟨p, y⟩ s = _
  simp only [execHotReset, hu, if_true, State.resetIsland, State.updPow_comm]
  congr 2
  funext w
  cases w.linkUp <;> rfl

/-! ## Configuration requests (R23, Table 2.1) -/

theorem exec_configRequest (q : CfgReq) (s : State) : exec (.configRequest p q) s = .next
    (if (s.pl p).pow.linkUp && (s.pl p).pow.cfgReady then (s.cfgWrite p q).emit (.cfg p (some (s.cfgAnswer p q)))
     else if (s.pl p).pow.linkUp || s.mayStart p then s.emit (.cfg p none) else s) := rfl

theorem exec_configRequest_ready (q : CfgReq) (hl : (s.pl p).pow.linkUp = true) (hc : (s.pl p).pow.cfgReady = true) :
    exec (.configRequest p q) s = .next ((s.cfgWrite p q).emit (.cfg p (some (s.cfgAnswer p q)))) := by
  rw [exec_configRequest, hl, hc]
  rfl

theorem State.updPow_emit_pow (s : State) (p : Plate) (f : Power → Power) (o : Out) :
    (((s.updPow p f).emit o).pl p).pow = f (s.pl p).pow := Eq.trans (State.emit_frame _ _ (.pow p) (by simp)) (State.updPow_self s p f)

/-- A write of one setting leaves every other as it was. -/
theorem CfgRegs.get_set_ne (c : CfgRegs) (v : Nat) {f g : CfgField} (h : g ≠ f) : (c.set v f).get g = c.get g := by
  cases f <;> rw [CfgRegs.set]
  case payload | readRequest =>
    split
    · cases g <;> simp only [CfgRegs.get, ne_eq, not_true_eq_false] at h ⊢
    · rfl
  all_goals cases g <;> simp only [CfgRegs.get, ne_eq, not_true_eq_false] at h ⊢

theorem CfgRegs.set_header (c : CfgRegs) (v : Nat) (f : CfgField) : (c.set v f).header = c.header := by
  cases f <;> rw [CfgRegs.set]
  all_goals split <;> rfl

/-- MPS takes only what Table 2.1 supports. -/
theorem CfgRegs.set_payload (c : CfgRegs) (v : Nat) :
    (c.set v .payload).payload = if v = 128 ∨ v = 256 ∨ v = 512 then v else c.payload := by
  simp only [CfgRegs.set, List.contains_cons, List.contains_nil, Bool.or_false, Bool.or_eq_true, beq_iff_eq]
  split <;> rfl

/-! ## Pending vectors (R365) -/

/-- The one vector that is pending is sent where nothing masks it. -/
theorem State.sendPending_one {v : Nat} (hp : (s.pl p).pow.pba = [v]) (hm : (s.msixEntry p v).2.2 = false)
    (hf : (s.pl p).pow.fnMask = false) :
    s.sendPending p = (s.updPow p fun w => { w with pba := w.pba.filter (· != v) }).emit (.msix p v) := by
  simp [State.sendPending, hp, State.each, hm, hf]

/-- Nothing pending, nothing is sent. -/
theorem State.sendPending_none (hp : (s.pl p).pow.pba = []) : s.sendPending p = s := by
  simp [State.sendPending, hp, State.each]

theorem exec_msixVectorUnmask {v : Nat} (hc : (s.pl p).pow.cfgReady = true) (hv : v < 2048) :
    exec (.msixVectorUnmask p (some v)) s = .next
      ((s.updPow p fun w => { w with msix := w.msix.mod (0, 0, true) v fun e => (e.1, e.2.1, false) }).sendPending p) := by
  show execMsixVectorUnmask p (some v) s = _
  simp only [execMsixVectorUnmask, hc, Bool.not_true, Bool.false_eq_true, if_false, if_neg (Nat.not_le.mpr hv)]

/-- Settles O48, clause by clause; a start-up's later steps leave the link as `bringUp_spec` says. -/
theorem pcieIsland : Obligations.PcieIsland := by
  refine ⟨?asserted, ?released, ?goesOn, ?down, ?hotReset, ?retry, ?silent, ?answers, ?setting, ?clears, ?unsupported, ?ats,
    ?unmask⟩
  case asserted =>
    intro p s hp hu hk hr ht
    obtain ⟨pow, flt, frame⟩ := State.perstTaken_spec s p
    refine ⟨_, exec_perstAssert hp hu, ?_⟩
    obtain ⟨react, asking, rest⟩ := State.classC_asks (s := s.perstTaken p) (p := p)
      ((congrArg Tamper.ko (frame (.tmp p) (by simp))).trans hk) (by rw [flt]; exact hr) (by rw [State.up, pow]; exact hu)
      ((congrArg Pair.token (frame (.pr p) (by simp))).trans ht)
    have same : (((s.perstTaken p).classC p).pl p).pow = (s.pl p).pow.underPerst s.clock := Eq.trans (rest (.pow p) (by simp)) pow
    rw [same, react, flt]
    exact ⟨rfl, rfl, rfl, rfl, rfl, rfl, rfl, rfl, rfl, asking, Eq.trans (rest .out (by simp)) (frame .out (by simp)),
      frame.step (by simp) (rest.mono (by simp))⟩
  case released =>
    intro p y s hp hu hr
    rw [exec_perstRelease y hp, hu, hr, if_neg (by simp), if_pos rfl]
    exact congrArg _ (State.updPow_comm s p _ _)
  case goesOn =>
    intro p y s hp hu hr
    refine ⟨_, by rw [exec_perstRelease y hp, hu, hr, if_neg (by simp), if_neg (by simp)], ?_⟩
    obtain ⟨⟨out, ⟨a, b, c, d, e, f, pow⟩, rng, tmp⟩, saved⟩ := State.bringUp_spec
      (s.updPow p fun w => { w with perst := false }) p y []
    rw [pow, rng, tmp]
    rw [State.linkStart, State.updPow_comm, State.updPow_comm] at out
    rw [State.linkStart, State.updPow_comm, State.updPow_comm, State.updPow_self]
    exact ⟨rfl, rfl, rfl, rfl, rfl, rfl, saved, by simpa using out, by simp, by simp⟩
  case down =>
    intro p y s hp hu
    rw [exec_perstRelease y hp, hu]
    rfl
  case hotReset =>
    intro p y s hu
    exact exec_hotReset y hu
  case retry =>
    intro p q s hl hc
    rw [exec_configRequest, hc, Bool.and_false, if_neg Bool.false_ne_true, if_pos (by simpa using hl)]
  case silent =>
    intro p q s hl hm
    rw [exec_configRequest, hl, hm]
    rfl
  case answers =>
    intro p o f x n s hl hc
    exact ⟨exec_configRequest_ready _ hl hc, exec_configRequest_ready _ hl hc, exec_configRequest_ready _ hl hc,
      exec_configRequest_ready _ hl hc⟩
  case setting =>
    intro p f v s hl hc
    refine ⟨_, exec_configRequest_ready _ hl hc, ?_⟩
    rw [State.cfgWrite, State.updPow_emit_pow]
    refine ⟨?_, fun g hg => CfgRegs.get_set_ne _ v hg, CfgRegs.set_header _ v f, ?_, ?_, ?_,
      (State.updPow_frame s p _).step (by simp) ((State.emit_frame _ _).mono (by simp))⟩
    · simp [State.cfgAnswer]
    · rintro rfl
      exact CfgRegs.set_payload _ v
    · rintro rfl
      rfl
    · rintro rfl
      refine ⟨rfl, fun hv => ?_⟩
      simp [CfgRegs.set, hv]
  case clears =>
    intro p s hl hc
    refine ⟨_, exec_configRequest_ready _ hl hc, ?_⟩
    rw [State.cfgWrite, State.updPow_emit_pow]
    exact ⟨rfl, rfl, (State.updPow_frame s p _).step (by simp) ((State.emit_frame _ _).mono (by simp))⟩
  case unsupported =>
    intro p h s hl hc
    refine ⟨_, exec_configRequest_ready _ hl hc, ?_⟩
    rw [State.cfgWrite, State.updPow_emit_pow]
    exact ⟨rfl, rfl, (State.updPow_frame s p _).step (by simp) ((State.emit_frame _ _).mono (by simp))⟩
  case ats =>
    intro p x s hl
    have e : exec (.atsInvalidateRequest p x) s = .next ((s.updPow p fun w => { w with
        atc := w.atc.filter (· != (x.pasid, x.addr.toNat / 4096))
        denied := w.denied.filter (· != (x.pasid, x.addr.toNat / 4096)) ++
          (if x.gone then [(x.pasid, x.addr.toNat / 4096)] else []) }).emit (.ats p)) := by
      show execAtsInvalidateRequest p x s = _
      simp only [execAtsInvalidateRequest, hl, if_true]
    refine ⟨_, e, by simp, fun e => by simp, ?_, (State.updPow_frame s p _).step (by simp) ((State.emit_frame _ _).mono (by simp))⟩
    cases x.gone <;> simp
  case unmask =>
    intro p v s hc hv hp hf
    refine ⟨_, exec_msixVectorUnmask hc hv, ?_⟩
    rw [State.sendPending_one (v := v) (by simpa using hp) (by simp [State.msixEntry, Tab.get_mod]) (by simpa using hf),
      State.updPow_comm]
    refine ⟨by simp, by simp [hp], by simp [State.msixEntry, Tab.get_mod],
      (State.updPow_frame s p _).step (by simp) ((State.emit_frame _ _).mono (by simp))⟩

end Sys2Proof.Machine

/-! PROOFS. Register accesses (O50). -/

namespace Sys2Proof.Machine

variable {s t u : State} {p : Plate} {i o size : Nat} {v : Word} {d : DWord}

/-! ## What a host write leaves of the link (R368) -/

theorem State.applyRingCfg_steady (s : State) (p : Plate) (i r : Nat) (v : Word) : Steady s (s.applyRingCfg p i r v) p := by
  have ring (u : State) (f : Ring → Ring) : Steady u (u.updRing p (.tenant i r) f) p := State.updRing_steady u p _ f
  exact .ite (.refl s p) (.ite (.ite (ring s _) (.ite (.refl s p) (.ite (State.enableRing_steady s p _ _) (ring s _))))
    (.ite (.ite ((State.disableRing_steady s p _).trans (ring _ _)) (ring s _)) (ring s _)))

theorem State.clearRing_steady (s : State) (p : Plate) (i r : Nat) (a b : Bool) : Steady s (s.clearRing p i r a b) p := by
  have bad : Steady s (if b then s.updRing p (.tenant i r) fun g => { g with cancelBad := false } else s) p :=
    .ite (State.updRing_steady s p _ _) (.refl s p)
  exact .ite (State.updRing_steady s p _ _) (.ite (bad.trans (State.clearFault_steady _ p _)) bad)

theorem State.writeRing_steady (s : State) (p : Plate) (i r o : Nat) (v : Word) : Steady s (s.writeRing p i r o v) p :=
  .ite (.refl s p) (.ite (State.updRing_steady s p _ _) (.ite (State.applyRingCfg_steady s p i r v)
    (.ite (State.updRing_steady s p _ _) (.ite (State.clearRing_steady s p i r _ _) (.refl s p)))))

theorem State.writeSlice_steady (s : State) (p : Plate) (i o : Nat) (v : Word) : Steady s (s.writeSlice p i o v) p :=
  .ite (.refl s p) (.ite (State.updSl_steady s p _) (.ite ((State.updSl_steady s p _).trans (State.updSl_steady _ p _))
    (.ite (State.updSl_steady s p _) (.refl s p))))

theorem State.writeCopied_steady (s : State) (p : Plate) (o : Nat) (v : Word) : Steady s (s.writeCopied p o v) p :=
  .ite (State.writeSlice_steady s p _ _ v) (State.writeRing_steady s p _ _ _ v)

theorem State.copyOut_steady (s : State) (p : Plate) (o n : Nat) (v : DWord) : Steady s (s.copyOut p o n v) p :=
  .ite (State.send_steady s p _) (State.updPr_steady s p _)

theorem State.hostCopied_steady (s : State) (p : Plate) (i o n : Nat) (v : DWord) : Steady s (s.hostCopied p i o n v) p := by
  have words : Steady s ((accessWords o n v).foldl (fun s (e : Nat × Word) => s.writeCopied p e.1 e.2) s) p :=
    .foldl _ _ (fun s (e : Nat × Word) => State.writeCopied_steady s p e.1 e.2) s
  exact .ite (words.trans (State.copyOut_steady _ p o n v)) (.refl s p)

theorem State.latchMeters_steady (s : State) (p : Plate) (l : List Nat) : Steady s (s.latchMeters p l) p :=
  .trans (State.updSl_steady s p _) (.each _ _ (fun s _ => State.updSl_steady s p _) _)

theorem State.broadcastWord_steady (s : State) (p : Plate) (o : Nat) (v : Word) : Steady s (s.broadcastWord p o v) p :=
  .ite (.ite (State.latchMeters_steady s p _) (.refl s p))
    (.ite (.foldl _ _ (fun s i => State.hostCopied_steady s p i _ _ _) s) (.refl s p))

theorem State.writeAdmCfg_steady (s : State) (p : Plate) (v : Word) : Steady s (s.writeAdmCfg p v) p := by
  have ring (u : State) (f : Ring → Ring) : Steady u (u.updRing p .admin f) p := State.updRing_steady u p _ f
  exact .ite (.refl s p) (.ite (.ite (ring s _) (.ite (.refl s p)
    ((State.enableRing_steady s p _ _).trans (State.updSl_steady _ p _))))
    (.ite ((State.disableRing_steady s p _).trans ((State.setQueue_steady _ p _).trans (ring _ _))) (ring s _)))

theorem State.adminPi_steady (s : State) (p : Plate) (v : Word) : Steady s (s.adminPi p v) p :=
  have set := State.updSl_steady s p fun x => { x with admPi := v }
  .ite (set.trans (State.takeP_steady _ p _ v)) set

theorem State.writePlain_steady (s : State) (p : Plate) (o : Nat) (v : Word) : Steady s (s.writePlain p o v) p := by
  have out (f : Faults → Faults) := (State.updFlt_steady s p f).trans (State.refreshOut_steady _ p)
  unfold State.writePlain
  split
  · exact State.updFlt_steady s p _
  · exact out _
  · exact out _
  · exact .ite (State.updPow_steady s p p _ fun _ => ⟨_, _, _, _, _, _, rfl⟩) (.refl s p)
  · exact State.updSl_steady s p _
  · exact .ite (State.updSl_steady s p _) (.refl s p)
  · exact State.updPr_steady s p _
  · exact State.updPr_steady s p _
  · exact State.updPr_steady s p _
  · exact State.updRing_steady s p _ _
  · exact State.updRing_steady s p _ _
  · exact State.updRing_steady s p _ _
  · exact State.updRing_steady s p _ _
  · exact State.writeAdmCfg_steady s p v
  · exact State.adminPi_steady s p v
  · exact .ite (State.clearFault_steady s p _) (.refl s p)
  · exact State.updSl_steady s p _
  · exact .refl s p

theorem State.writeAccess_steady (s : State) (p : Plate) (o n : Nat) (v : DWord) : Steady s (s.writeAccess p o n v) p := by
  unfold State.writeAccess
  split
  · exact State.hostCopied_steady s p _ o n v
  · exact .foldl _ _ (fun s e => .ite (State.broadcastWord_steady s p _ _) (.ite (.ite (State.latchMeters_steady s p _) (.refl s p))
      (State.writePlain_steady s p _ _))) s

/-- The host reaches BAR0 after a write as before it. -/
theorem State.writeAccess_barReady (s : State) (p : Plate) (o n : Nat) (v : DWord) :
    (s.writeAccess p o n v).barReady p = s.barReady p := by
  have h := State.writeAccess_steady s p o n v
  simp only [State.barReady, State.up, h.phase, h.ready]

/-! ## The words of an access (R368) -/

theorem accessWords_four (h : o % 4 = 0) : accessWords o 4 d = [(o, wordOf d 0)] := by
  simp [accessWords, h]

theorem accessWords_none (h4 : ¬(size = 4 ∧ o % 4 = 0)) (h8 : ¬(size = 8 ∧ o % 8 = 0)) : accessWords o size d = [] := by
  rw [accessWords, if_neg h4, if_neg h8]

theorem wordOf_setWidth (v : Word) : wordOf (v.setWidth 64) 0 = v := by
  simp only [wordOf]
  bv_omega

theorem wordOf_one (d : DWord) : (wordOf d 1).setWidth 64 = d >>> 32 := by
  apply BitVec.eq_of_toNat_eq
  simp [wordOf, Nat.shiftRight_eq_div_pow]
  omega

theorem wordOf_bit0 (d : DWord) : (wordOf d 0).getLsbD 0 = d.getLsbD 0 := by
  simp [wordOf, BitVec.getLsbD]

theorem State.writeBar0_narrow (h : ¬(size = 8 ∧ o % 8 = 0)) : s.writeBar0 p o size d = s.writeAccess p o size d := by
  have : barAccesses o size d = [(o, size, d)] := if_neg fun k => h ⟨k.1, k.2.1⟩
  rw [State.writeBar0, this]
  rfl

theorem State.writeBar0_wide (h : o % 8 = 0) (hc : ((copiedSlice o).isSome && wideCopied o) = false) :
    s.writeBar0 p o 8 d = (s.writeAccess p o 4 ((wordOf d 0).setWidth 64)).writeAccess p (o + 4) 4 (d >>> 32) := by
  have : barAccesses o 8 d = [(o, 4, (wordOf d 0).setWidth 64), (o + 4, 4, (wordOf d 1).setWidth 64)] :=
    if_pos ⟨rfl, h, by rw [hc]; rfl⟩
  rw [State.writeBar0, this, wordOf_one]
  rfl

theorem exec_registerWrite_bar0 (hb : s.barReady p = true) :
    exec (.registerWrite p 0 o size d) s = .next (s.writeBar0 p o size d) := by
  show execRegisterWrite p 0 o size d s = _
  simp [execRegisterWrite, hb]

theorem exec_registerWrite_closed (hb : s.barReady p = false) : exec (.registerWrite p 0 o size d) s = .next s := by
  show execRegisterWrite p 0 o size d s = _
  simp [execRegisterWrite, hb]

/-- A word written to a register of the plate that is not copied. -/
theorem exec_registerWrite_plain (hb : s.barReady p = true) (h4 : o % 4 = 0) (hc : copiedSlice o = none) (ho : o < 0x100000) :
    exec (.registerWrite p 0 o 4 (v.setWidth 64)) s = .next (s.writePlain p o v) := by
  rw [exec_registerWrite_bar0 hb, State.writeBar0_narrow (by simp)]
  simp only [State.writeAccess, hc, accessWords_four h4, wordOf_setWidth, List.foldl_cons, List.foldl_nil]
  rw [if_neg (by omega), if_neg (by omega)]

/-! ## SLC_RATE_PK of a slice (Table 3.8, R57) -/

theorem copiedSlice_rate (hi : i < 4096) : copiedSlice (0x100000 + 0x100 * i + 0x28) = some i := by
  have : (0x100000 + 0x100 * i + 0x28 - 0x100000) % 0x100 = 0x28 := by omega
  have : (0x100000 + 0x100 * i + 0x28 - 0x100000) / 0x100 = i := by omega
  simp only [copiedSlice]
  rw [if_pos (by omega), if_pos (by omega), this]

/-- The rate is clamped, and nothing else of the slice's set-up changes. -/
theorem State.writeCopied_rate (hi : i < 4096) (hf : (s.impo p i).st ≠ .free) :
    (((s.writeCopied p (0x100000 + 0x100 * i + 0x28) v).pl p).sl.regs.get {} i).ratePk =
        (if v.toNat ≤ 64000000 then v else 64000000) ∧
      (((s.writeCopied p (0x100000 + 0x100 * i + 0x28) v).pl p).sl.regs.get {} i).weight =
        ((s.pl p).sl.regs.get {} i).weight ∧
      ((s.writeCopied p (0x100000 + 0x100 * i + 0x28) v).pl p).sl.rings = (s.pl p).sl.rings ∧
      SameBut [.sl p] s (s.writeCopied p (0x100000 + 0x100 * i + 0x28) v) := by
  have slice : (0x100000 + 0x100 * i + 0x28 - 0x100000) / 0x100 = i := by omega
  have field : (0x100000 + 0x100 * i + 0x28 - 0x100000) % 0x100 = 0x28 := by omega
  have written : s.writeCopied p (0x100000 + 0x100 * i + 0x28) v = (s.setBuckets p i (s.bucketsNow p i)).updSl p fun x =>
      { x with regs := x.regs.mod {} i fun r => r.writeRate 0x28 v } := by
    rw [State.writeCopied, if_pos (by omega), slice, field, State.writeSlice, if_neg hf, if_neg (by decide), if_pos (by decide)]
  have clamp : BitVec.ofNat 32 (min v.toNat 64000000) = if v.toNat ≤ 64000000 then v else 64000000 := by
    split
    · rw [min_eq_left (by omega), BitVec.ofNat_toNat, BitVec.setWidth_eq]
    · rw [min_eq_right (by omega)]
      rfl
  have kept : (s.pl p).sl.SchedKept ((s.setBuckets p i (s.bucketsNow p i)).pl p).sl := by
    rw [State.setBuckets, State.updSl_self]
    exact Slices.setBuckets_schedKept _ i _
  obtain ⟨_, _, _, _, _, _, e⟩ := kept
  rw [written, State.updSl_self, e]
  refine ⟨?_, ?_, rfl, (State.updSl_frame s p _).trans (State.updSl_frame _ p _)⟩
  · rw [Tab.get_mod, ← clamp]
    rfl
  · rw [Tab.get_mod]
    rfl

theorem State.gutterUp_congr (h : SameBut [.sl p] s t) (r : Plate) : t.gutterUp r = s.gutterUp r := by
  have hr (q : Plate) : (t.pl q).pr = (s.pl q).pr := h (.pr q) (by simp)
  simp only [State.gutterUp, hr]

/-- A host write to a slice's rate at a plate that accepts it, with the gutter up: the write here, and the copy. -/
theorem exec_registerWrite_rate (ha : s.acceptsCopied p i = true) (hf : (s.impo p i).st ≠ .free) (hi : i < 4096)
    (hg : s.gutterUp p = true) :
    exec (.registerWrite p 0 (0x100000 + 0x100 * i + 0x28) 4 (v.setWidth 64)) s = .next
      ((s.writeCopied p (0x100000 + 0x100 * i + 0x28) v).send p
        (.copy (0x100000 + 0x100 * i + 0x28) 4 (v.setWidth 64))) := by
  have ready : s.barReady p = true := by
    simp only [State.acceptsCopied, Bool.and_eq_true] at ha
    simp only [State.barReady, ha.1, Bool.and_self]
  have guards : s.drainGuards p i (0x100000 + 0x100 * i + 0x28) = false := by
    simp only [State.drainGuards, Bool.and_eq_false_iff, decide_eq_false_iff_not]
    exact .inl (by omega)
  have words := accessWords_four (o := 0x100000 + 0x100 * i + 0x28) (d := v.setWidth 64) (by omega)
  obtain ⟨-, -, -, frame⟩ := State.writeCopied_rate (v := v) hi hf
  rw [exec_registerWrite_bar0 ready, State.writeBar0_narrow (by simp)]
  simp only [State.writeAccess, copiedSlice_rate hi, State.hostCopied, ha, guards, words, wordOf_setWidth, List.foldl_cons,
    List.foldl_nil, bne_iff_ne.mpr hf, Bool.not_false, Bool.and_self, List.isEmpty_cons, if_true, State.copyOut,
    State.gutterUp_congr frame, hg]

/-! ## Copies that arrive (R57, R369) -/

theorem exec_registerCopyArrive {l : List GMsg} (h : s.gut p = .copy o size d :: l) :
    exec (.registerCopyArrive p) s = .next ((s.setGut p l).copyArrives p o size d) := by
  show execRegisterCopyArrive p s = _
  simp only [execRegisterCopyArrive, State.receive, h, takeMsg]

/-- A copy of a slice's rate that arrives away from the home takes the place of the plate's own writes on their way. -/
theorem State.copyArrives_rate (hu : s.up p = true) (hi : i < 4096) (hh : (s.impo p i).home ≠ p) :
    s.copyArrives p (0x100000 + 0x100 * i + 0x28) 4 (v.setWidth 64) =
      (s.setGut p.peer ((s.gut p.peer).filter fun m => !copyOverlaps (0x100000 + 0x100 * i + 0x28) 4 m)).writeCopied p
        (0x100000 + 0x100 * i + 0x28) v := by
  have words := accessWords_four (o := 0x100000 + 0x100 * i + 0x28) (d := v.setWidth 64) (by omega)
  simp only [State.copyArrives, copiedSlice_rate hi, hu, hh, words, wordOf_setWidth, List.foldl_cons, List.foldl_nil, Bool.not_true,
    Bool.false_eq_true, if_false]

/-! ## Meter latches (R77) -/

/-- A latch of one slice that is not FREE. -/
theorem State.latchMeters_one (hf : (s.impo p i).st ≠ .free) :
    ((s.latchMeters p [i]).pl p).sl = { (s.pl p).sl with
      mtrSeq := (s.pl p).sl.mtrSeq + 1, mtrTime := s.optime p
      bank := (s.pl p).sl.bank.set {} i { meter := (s.pl p).sl.live.get {} i, slots := s.slotsUsed p i
                                          ledger := s.ledgerUsed p i, seq := (s.pl p).sl.mtrSeq + 1 }
      live := (s.pl p).sl.live.set {} i {} } := by
  have stays : ((s.updSl p fun x => { x with mtrSeq := (s.pl p).sl.mtrSeq + 1, mtrTime := s.optime p }).impo p i).st ≠ .free := by
    simpa [State.impo] using hf
  have one : [i].filter (fun i => ((s.updSl p fun x => { x with mtrSeq := (s.pl p).sl.mtrSeq + 1, mtrTime := s.optime p }).impo p
      i).st != .free) = [i] := by
    simp only [List.filter_cons, List.filter_nil, bne_iff_ne.mpr stays, if_true]
  have seq : BitVec.ofNat 32 ((s.pl p).sl.mtrSeq + 1).toNat = (s.pl p).sl.mtrSeq + 1 := by
    rw [BitVec.ofNat_toNat, BitVec.setWidth_eq]
  unfold State.latchMeters
  dsimp only
  rw [one, State.each, List.foldl_cons, List.foldl_nil, State.updSl_comm, State.updSl_self]
  simp only [State.bankOf, State.updSl_self, State.slotsUsed, State.ledgerUsed, State.updSl_vlt, seq]

theorem State.latchMeters_frame (s : State) (p : Plate) (l : List Nat) : SameBut [.sl p] s (s.latchMeters p l) :=
  (State.updSl_frame s p _).trans (State.each_frame _ _ (fun s _ => State.updSl_frame s p _) _)

theorem exec_meterLatch (p : Plate) (i : Nat) (v : Word) (s : State) : exec (.meterLatch p i v) s = .next
    (if s.barReady p then (if v.getLsbD 0 && (s.impo p i).st != .free then s.latchMeters p [i] else s) else s) := rfl

/-- Settles O50, clause by clause; that a first word leaves the plate reachable for the second is `writeAccess_barReady`. -/
theorem registerAccesses : Obligations.RegisterAccesses := by
  refine ⟨?rate, ?misaligned, ?twoWords, ?plain, ?msix, ?grace, ?copy, ?broadcast, ?latch, ?latchFree⟩
  case rate =>
    intro p i v s ha hf hi hg _
    obtain ⟨rate, weight, rings, frame⟩ := State.writeCopied_rate (v := v) hi hf
    have sl (u : State) (m : GMsg) : ((u.send p m).pl p).sl = (u.pl p).sl := State.send_frame u p m (.sl p) (by simp)
    refine ⟨_, exec_registerWrite_rate ha hf hi hg, ?_⟩
    rw [sl, State.send_gut _ ((State.gutterUp_congr frame p).trans hg)]
    exact ⟨rate, weight, rings, congrArg (· ++ _) (frame (.gut p.peer) (by simp)),
      frame.step (by simp) ((State.send_frame _ p _).mono (by simp))⟩
  case misaligned =>
    intro p o size v s h4 h8
    cases hb : s.barReady p with
    | false => exact exec_registerWrite_closed hb
    | true =>
      rw [exec_registerWrite_bar0 hb, State.writeBar0_narrow h8, State.writeAccess]
      split
      · simp [State.hostCopied, accessWords_none h4 h8]
      · rw [accessWords_none h4 h8]
        rfl
  case twoWords =>
    intro p o v s ho hc
    cases hb : s.barReady p with
    | false =>
      exact ⟨s, exec_registerWrite_closed hb, by rw [exec_registerWrite_closed hb, exec_registerWrite_closed hb]⟩
    | true =>
      refine ⟨s.writeAccess p o 4 ((wordOf v 0).setWidth 64), ?_, ?_⟩
      · rw [exec_registerWrite_bar0 hb, State.writeBar0_narrow (by simp)]
      · rw [exec_registerWrite_bar0 hb, State.writeBar0_wide ho hc,
          exec_registerWrite_bar0 ((State.writeAccess_barReady s p o 4 _).trans hb), State.writeBar0_narrow (by simp)]
  case plain =>
    intro p v s hb
    exact ⟨exec_registerWrite_plain hb (by decide) (by decide) (by decide),
      exec_registerWrite_plain hb (by decide) (by decide) (by decide),
      exec_registerWrite_plain hb (by decide) (by decide) (by decide)⟩
  case msix =>
    intro p k v s hc hk hp _
    have entry : (16 * k + 8) / 16 = k := by omega
    have word : (16 * k + 8) % 16 / 4 = 2 := by omega
    have e : exec (.registerWrite p 4 (16 * k + 8) 4 (v.setWidth 64)) s = .next
        (s.updPow p fun w => { w with msix := w.msix.mod (0, 0, true) k fun x => msixWord x 2 v }) := by
      show execRegisterWrite p 4 (16 * k + 8) 4 (v.setWidth 64) s = _
      have words := accessWords_four (d := v.setWidth 64) (show (16 * k + 8) % 4 = 0 by omega)
      simp only [execRegisterWrite, hc, if_true, State.writeBar4, words, List.foldl_cons, List.foldl_nil,
        wordOf_setWidth, show 16 * k + 8 < 0x8000 by omega, entry, word]
      rw [State.sendPending_none (by simpa using hp)]
    exact ⟨_, e, by simp [State.msixEntry, msixWord], by simp, State.updPow_frame s p _⟩
  case grace =>
    intro p v s hu
    show execRegisterWrite p 1 0x10018 4 (v.setWidth 64) s = _
    simp [execRegisterWrite, hu, State.writeGrace, wordOf_setWidth]
  case copy =>
    intro p i v l s hgut hu hi hf hh _
    have up : (s.setGut p l).up p = true := by simpa [State.up] using hu
    have away : ((s.setGut p l).impo p i).home ≠ p := by
      rw [State.impo, State.setGut_pl]
      exact hh ▸ Plate.peer_ne p
    have slice : (((s.setGut p l).setGut p.peer (((s.setGut p l).gut p.peer).filter fun m =>
        !copyOverlaps (0x100000 + 0x100 * i + 0x28) 4 m)).impo p i).st ≠ .free := by
      rw [State.impo, State.setGut_pl, State.setGut_pl]
      exact hf
    obtain ⟨rate, -, -, frame⟩ := State.writeCopied_rate (v := v) hi slice
    refine ⟨_, exec_registerCopyArrive hgut, ?_⟩
    rw [State.copyArrives_rate up hi away]
    refine ⟨rate, ?_, ?_, ?_⟩
    · rw [frame (.gut p) (by simp)]
      cases p <;> rfl
    · rw [frame (.gut p.peer) (by simp)]
      cases p <;> rfl
    · exact (State.setGut_frame s p l).step (by cases p <;> simp) ((State.setGut_frame _ p.peer _).step
        (by cases p <;> simp [Plate.peer]) (frame.mono (by simp)))
  case broadcast =>
    intro p v s hb hv
    show execBroadcastWrite p 0x50 4 v s = _
    simp only [execBroadcastWrite, hb, accessWords_four (show 0x50 % 4 = 0 by rfl), List.foldl_cons, List.foldl_nil,
      State.broadcastWord, wordOf_bit0, hv, if_true]
    rfl
  case latch =>
    intro p i v s hb hv hf
    refine ⟨s.latchMeters p [i], ?_, ?_⟩
    · rw [exec_meterLatch, hb, hv, if_pos rfl, if_pos (by simp [hf])]
    · rw [State.latchMeters_one hf]
      exact ⟨rfl, rfl, fun _ => Tab.get_set _ _ _ _, fun k hk => ⟨Tab.get_set_ne _ _ _ _ _ hk,
        Tab.get_set_ne (s.pl p).sl.live {} i k {} hk⟩,
        State.latchMeters_frame s p [i]⟩
  case latchFree =>
    intro p i v s hf
    rw [exec_meterLatch, hf]
    simp

end Sys2Proof.Machine

/-! PROOFS. The scheduler's choice (O12). -/

namespace Sys2Proof.Machine

variable {s : State} {p : Plate} {c : EngClass} {j : Job} {i : Nat}

/-! ## The next job of a ring and of a slice (R70) -/

/-- A fold whose every step keeps what it holds or takes the element at hand ends with an element of the list. -/
theorem mem_of_foldl_choice {α : Type} {f : Option α → α → Option α} (hf : ∀ b a, f b a = b ∨ f b a = some a) {l : List α}
    {b : Option α} {x : α} (h : l.foldl f b = some x) : b = some x ∨ x ∈ l := by
  induction l generalizing b with
  | nil => exact .inl h
  | cons a l ih =>
    rcases ih h with held | rest
    · rcases hf b a with kept | taken
      · exact .inl (kept.symm.trans held)
      · exact .inr (List.mem_cons.mpr (.inl (Option.some.inj (held.symm.trans taken))))
    · exact .inr (List.mem_cons_of_mem a rest)

/-- The job with the lowest index is one of the list. -/
theorem lowestJob_mem {low : Word} {l : List Job} (h : lowestJob low l = some j) : j ∈ l := by
  refine (mem_of_foldl_choice (fun b a => ?_) h).resolve_left (by simp)
  cases b with
  | none => exact .inr rfl
  | some b =>
    dsimp only
    split
    · exact .inr rfl
    · exact .inl rfl

/-- The next job of a ring is a job of it that waits for the class. -/
theorem State.nextOfRing_spec {q : RingRef} (h : s.nextOfRing p c q = some j) :
    j ∈ (s.pl p).sl.jobs ∧ j.ring = q ∧ s.waits p c j = true := by
  unfold State.nextOfRing at h
  split at h
  · next k hk =>
    split at h
    · next hm =>
      obtain rfl : k = j := Option.some.inj h
      have := List.mem_filter.mp (lowestJob_mem hk)
      simp only [Bool.and_eq_true, beq_iff_eq] at this
      obtain ⟨hmem, ⟨hring, hstage⟩, hcls⟩ := this
      exact ⟨hmem, hring, by simp [State.waits, hstage, hcls, hm]⟩
    · simp at h
  · simp at h

/-- The next job of slice `i` is a job of one of its rings that waits for the class; 4,096 stands for the admin ring. -/
theorem State.nextOfSlice_spec {t : Nat} (h : s.nextOfSlice p c i t = some j) :
    j ∈ (s.pl p).sl.jobs ∧ s.waits p c j = true ∧ roundKey j.ring = i ∧ (i = 4096 → j.ring = .admin) := by
  unfold State.nextOfSlice at h
  split at h
  · next hi =>
    obtain ⟨hmem, hring, hw⟩ := State.nextOfRing_spec h
    exact ⟨hmem, hw, by rw [hring, hi]; rfl, fun _ => hring⟩
  · next hi =>
    obtain ⟨k, -, hk⟩ := List.exists_of_findSome?_eq_some h
    obtain ⟨hmem, hring, hw⟩ := State.nextOfRing_spec hk
    exact ⟨hmem, hw, by rw [hring]; rfl, fun e => absurd e hi⟩

/-! ## The round -/

/-- A pass of the round picks the next job of a slice that is ready. -/
theorem State.pick_spec {ready : List Nat} {fuel : Nat} {d : Sched} (h : (s.pick p c ready fuel d).2 = some j) :
    ∃ i ∈ ready, ∃ t, s.nextOfSlice p c i t = some j := by
  induction fuel generalizing d with
  | zero => simp [State.pick] at h
  | succ fuel ih =>
    unfold State.pick at h
    split at h
    · next i _ =>
      split at h
      · exact ih h
      · next hr =>
        split at h
        · simp at h
        · next k hk =>
          split at h
          · exact ih h
          · split at h
            · exact ih h
            · obtain rfl : k = j := Option.some.inj h
              exact ⟨i, by simpa using hr, _, hk⟩
    · split at h
      · simp at h
      · exact ih h

/-- What the scheduler chooses is the next job of a slice that is ready. -/
theorem State.choose_ready (h : (s.choose p c).2 = some j) :
    ∃ i, s.sliceReady p c i = true ∧ ∃ t, s.nextOfSlice p c i t = some j := by
  unfold State.choose at h
  dsimp only at h
  split at h
  · simp at h
  · obtain ⟨i, hi, t, ht⟩ := State.pick_spec h
    exact ⟨i, (List.mem_filter.mp hi).2, t, ht⟩

/-- A ready slice has its bucket above 0 and, for the lane class, a free window. -/
theorem State.sliceReady_spec (h : s.sliceReady p c i = true) :
    s.levelUp p c i = true ∧ (c = .lane → i ≠ 4096 → s.windowFree p i = true) := by
  simp only [State.sliceReady, Bool.and_eq_true] at h
  obtain ⟨⟨-, level⟩, window⟩ := h
  exact ⟨level, fun hc hi => by simpa [hc, hi] using window⟩

/-- The choice moves only the schedulers of its plate. -/
theorem State.choose_moves (s : State) (p : Plate) (c : EngClass) :
    ((s.choose p c).1.pl p).sl.jobs = (s.pl p).sl.jobs ∧ ((s.choose p c).1.pl p).sl.rings = (s.pl p).sl.rings ∧
      SameBut [.sl p] s (s.choose p c).1 := by
  obtain ⟨d, h⟩ := State.choose_fst s p c
  obtain ⟨work, jobs⟩ := State.updSl_sched s p _ fun x => x.sched_kept c d
  rw [h]
  exact ⟨jobs, work.rings, State.updSl_frame s p _⟩

/-- Settles O12: the choice is the next job of a ready slice (`choose_ready`), which is a job that waits (`nextOfSlice_spec`). -/
theorem schedulerChoosesAReadyJob : Obligations.SchedulerChoosesAReadyJob := by
  intro p c s j h t
  obtain ⟨i, ready, _, next⟩ := State.choose_ready h
  obtain ⟨hmem, hwaits, hkey, hadmin⟩ := State.nextOfSlice_spec next
  obtain ⟨level, window⟩ := State.sliceReady_spec ready
  refine ⟨hmem, hwaits, hkey ▸ level, fun hc hr k n hk => ?_, State.choose_moves s p c⟩
  obtain rfl : k = i := by rw [← hkey, hk]; rfl
  exact window hc fun e => hr (hadmin e)

end Sys2Proof.Machine

/-! PROOFS. Random values drawn, and key-state changes that begin (R198, R210). -/

namespace Sys2Proof.Machine

variable {s t u : State} {p : Plate} {items : List VItem}

/-! ## Draws (R198 to R200) -/

theorem State.usedBlock_frame (s : State) (p : Plate) : SameBut [.rng p] s (s.usedBlock p) := State.updRng_frame s p _

theorem State.updInst_frame (s : State) (p : Plate) (k : Nat) (f : Drbg → Drbg) : SameBut [.rng p] s (s.updInst p k f) :=
  State.updRng_frame s p _

theorem State.reseed_frame (s : State) (p : Plate) (k : Nat) : SameBut [.rng p] s (s.reseed p k) :=
  (State.usedBlock_frame s p).trans ((State.updInst_frame _ p k _).trans (State.updRng_frame _ p _))

theorem State.instantiate_frame (s : State) (p : Plate) (k : Nat) : SameBut [.rng p] s (s.instantiate p k) :=
  (State.usedBlock_frame s p).trans ((State.usedBlock_frame _ p).trans (State.updInst_frame _ p k _))

theorem State.readied_frame (s : State) (p : Plate) (k : Nat) : SameBut [.rng p] s (s.readied p k) :=
  .ite (.refl _ s) (.ite (.ite (State.instantiate_frame s p k) (.refl _ s)) (.ite (State.reseed_frame s p k) (.refl _ s)))

/-- Requests move the random part of their plate alone. -/
theorem State.drew_frame (s : State) (p : Plate) (k : Nat) (l : List Nat) : SameBut [.rng p] s (s.drew p k l) := by
  unfold State.drew
  induction l generalizing s with
  | nil => exact .refl _ s
  | cons n l ih => exact (State.readied_frame s p k).trans ((State.updInst_frame _ p k _).trans (ih _))

@[simp] theorem State.optime_updRng (s : State) (p q : Plate) (f : Rng → Rng) : (s.updRng p f).optime q = s.optime q := by
  simp [State.optime]

/-- What a plate does before a request rests on the random part of its plate, the clock and the operating time. -/
theorem State.readied_congr (hr : (t.pl p).rng = (s.pl p).rng) (hc : t.clock = s.clock) (ho : t.optime p = s.optime p) (k : Nat) :
    ((t.readied p k).pl p).rng = ((s.readied p k).pl p).rng := by
  have seeded : ((t.reseed p k).pl p).rng = ((s.reseed p k).pl p).rng := by
    simp only [State.reseed, State.usedBlock, State.block, State.updInst, State.updRng_self, hr, hc]
  have made : ((t.instantiate p k).pl p).rng = ((s.instantiate p k).pl p).rng := by
    simp only [State.instantiate, State.usedBlock, State.block, State.updInst, State.updRng_self, State.updRng_clock,
      State.optime_updRng, hr, hc, ho]
  have gives : t.gives p = s.gives p := by rw [State.gives, State.gives, hr]
  have inst : t.inst p k = s.inst p k := by rw [State.inst, State.inst, hr]
  have due : t.due p k = s.due p k := by rw [State.due, State.due, inst, hc]
  unfold State.readied
  rw [gives, inst, due, hr]
  by_cases h1 : (!s.gives p) = true
  · simpa only [if_pos h1] using hr
  by_cases h2 : (!(s.inst p k).made) = true
  · by_cases h3 : 2 ≤ (s.pl p).rng.pool.length
    · simpa only [if_neg h1, if_pos h2, if_pos h3] using made
    · simpa only [if_neg h1, if_pos h2, if_neg h3] using hr
  by_cases h3 : (s.due p k && decide (1 ≤ (s.pl p).rng.pool.length)) = true
  · simpa only [if_neg h1, if_neg h2, if_pos h3] using seeded
  · simpa only [if_neg h1, if_neg h2, if_neg h3] using hr

/-- So does what the request returns. -/
theorem State.drawn_congr (hr : (t.pl p).rng = (s.pl p).rng) (hc : t.clock = s.clock) (ho : t.optime p = s.optime p) (k n : Nat) :
    t.drawn p k n = s.drawn p k n := by
  simp only [State.drawn, State.inst, State.readied_congr hr hc ho]

/-! ## A change that begins (R210, R213) -/

/-- A change that began is seen from any earlier state with the same vault, pair part, messages and outputs. -/
theorem changeBegun_from (hv : (u.pl p).vlt = (s.pl p).vlt) (hp : (u.pl p).pr = (s.pl p).pr) (hg : u.gut p.peer = s.gut p.peer)
    (ho : u.out = s.out) (h : ChangeBegun u t p items) : ChangeBegun s t p items := by
  have up : u.gutterUp p = s.gutterUp p := by rw [State.gutterUp, State.gutterUp, hp]
  simpa only [ChangeBegun, ReadsOnly, State.sent_congr ho, hv, hp, hg, up] using h

/-- The same, of a state that differs in a frame clear of those parts. -/
theorem changeBegun_before {l : List Part} (h : ChangeBegun u t p items) (f : SameBut l s u)
    (hl : Part.vlt p ∉ l ∧ Part.pr p ∉ l ∧ Part.gut p.peer ∉ l ∧ Part.out ∉ l) : ChangeBegun s t p items :=
  changeBegun_from (f _ hl.1) (f _ hl.2.1) (f _ hl.2.2.1) (f _ hl.2.2.2) h

theorem VItem.draws_stamp (q : Nat) (v : VItem) : (v.stamp q).draws = v.draws := by cases v <;> rfl

theorem itemDraws_stamp (q : Nat) (items : List VItem) : itemDraws (items.map (VItem.stamp q)) = itemDraws items := by
  simp only [itemDraws, List.map_map]
  congr 2
  funext v
  exact v.draws_stamp q

/-- A change without secrets goes to the peer under the mirror key (R137). -/
theorem State.sendChange_keyless {c : Change} (h : itemDraws c.items = []) :
    s.sendChange p c = s.send p (.mirror (s.pl p).vlt.kr.mirror c) := by
  simp [State.sendChange, State.sealKey, h]

/-- The change that plate `p` begins with these items. -/
def State.newChange (s : State) (p : Plate) (items : List VItem) (j : Option Journal) (a : After) : Change :=
  { id := (s.pl p).vlt.nextId, seq := commitSeq p ((s.pl p).vlt.counter + 1)
    items := items.map (VItem.stamp (commitSeq p ((s.pl p).vlt.counter + 1)))
    journal := j.map fun e => { e with seq := commitSeq p ((s.pl p).vlt.counter + 1) }
    after := a, sent := (s.pl p).pr.mode == .paired }

/-- The state that has taken the next commit sequence for change `c`. -/
def State.noteChange (s : State) (p : Plate) (c : Change) : State :=
  s.updVlt p fun x => { x with counter := x.counter + 1, nextId := x.nextId + 1, changes := x.changes ++ [c] }

/-- The group that commits a change on the plate's own NVM. -/
def Change.ownGroup (c : Change) : Group := { kind := .own c.id, items := c.items, journal := c.journal, comSeq := c.seq }

theorem State.noteChange_frame (s : State) (p : Plate) (c : Change) : SameBut [.vlt p] s (s.noteChange p c) :=
  State.updVlt_frame s p _

theorem State.beginChange_keyless (s : State) (p : Plate) (j : Option Journal) (a : After) (h : itemDraws items = []) :
    s.beginChange p items j a false =
      let c := s.newChange p items j a
      let w := s.noteChange p c
      if (s.pl p).pr.mode = .paired then w.send p (.mirror (s.pl p).vlt.kr.mirror c)
      else if w.commitsAlone p then w.startGroup p c.ownGroup
      else w := by
  have prepared : s.prepare p items = s := by simp [State.prepare, h]
  have secretless : itemDraws (s.newChange p items j a).items = [] := (itemDraws_stamp _ items).trans h
  have mirrored := State.sendChange_keyless (s := s.noteChange p (s.newChange p items j a)) (p := p) secretless
  have key : ((s.noteChange p (s.newChange p items j a)).pl p).vlt.kr = (s.pl p).vlt.kr := by
    rw [State.noteChange, State.updVlt_self]
  rw [key] at mirrored
  unfold State.beginChange
  rw [prepared]
  dsimp only
  rw [← mirrored, Bool.or_false]
  simp only [beq_iff_eq]
  rfl

/-- A change without secrets, as it begins. -/
theorem State.beginChange_begun (s : State) (p : Plate) (j : Option Journal) (a : After) (h : itemDraws items = []) :
    ChangeBegun s (s.beginChange p items j a false) p items ∧
      SameBut [.vlt p, .gut p.peer, .nvm p] s (s.beginChange p items j a false) := by
  rw [State.beginChange_keyless s p j a h]
  dsimp only
  have noted := State.noteChange_frame s p (s.newChange p items j a)
  have vault : ((s.noteChange p (s.newChange p items j a)).pl p).vlt = { (s.pl p).vlt with
      counter := (s.pl p).vlt.counter + 1, nextId := (s.pl p).vlt.nextId + 1
      changes := (s.pl p).vlt.changes ++ [s.newChange p items j a] } := by rw [State.noteChange, State.updVlt_self]
  generalize s.noteChange p (s.newChange p items j a) = w at noted vault ⊢
  have begun {t : State} (hv : (t.pl p).vlt = (w.pl p).vlt) (ho : t.out = w.out)
      (hg : (s.pl p).pr.mode = .paired → s.gutterUp p = true →
        t.gut p.peer = s.gut p.peer ++ [.mirror (s.pl p).vlt.kr.mirror (s.newChange p items j a)]) : ChangeBegun s t p items := by
    rw [vault] at hv
    refine ⟨by rw [hv], ⟨[], ?_, by simp⟩, _, by rw [hv], rfl, fun hm hu => ⟨_, hg hm hu, fun _ => rfl⟩⟩
    rw [List.append_nil, State.sent_congr (ho.trans (noted .out (by simp)))]
  split
  · have sent := State.send_frame w p (.mirror (s.pl p).vlt.kr.mirror (s.newChange p items j a))
    refine ⟨begun (sent (.vlt p) (by simp)) (sent .out (by simp)) fun _ hu => ?_, noted.step (by simp) (sent.mono (by simp))⟩
    have pair : (w.pl p).pr = (s.pl p).pr := noted (.pr p) (by simp)
    have gut : w.gut p.peer = s.gut p.peer := noted (.gut p.peer) (by simp)
    rw [State.send_gut _ (by rwa [State.gutterUp, pair]), gut]
  · next alone =>
    split
    · have started := State.startGroup_frame w p (s.newChange p items j a).ownGroup
      exact ⟨begun (started (.vlt p) (by simp)) (started .out (by simp)) fun hm => absurd hm alone,
        noted.step (by simp) (started.mono (by simp))⟩
    · exact ⟨begun rfl rfl fun hm => absurd hm alone, noted.mono (by simp)⟩

/-- A job that waits for its commit, to complete with `r` after it. -/
def Job.awaiting (j : Job) (r : Result) : Job := { j with stage := .commit, result := some r }

/-- A job's change without secrets: the job waits for it, and the change begins (R210). -/
theorem State.commitJob_begun {j k : Job} (hj : s.job? p j.ring j.index = some k) (h : itemDraws items = []) (r : Result) (o : Nat)
    (a : After) : CommitBegun s (s.commitJob p j items r o a) p j.ring j.index items r ∧
      SameBut (committing p) s (s.commitJob p j items r o a) := by
  have waits := State.updJob_frame s p j.ring j.index (·.awaiting r)
  obtain ⟨begun, frame⟩ := State.beginChange_begun (s.updJob p j.ring j.index (·.awaiting r)) p (some (jobJournal j r o)) a h
  refine ⟨⟨?_, changeBegun_before begun waits (by simp)⟩, waits.step (by simp [committing]) (frame.mono (by simp [committing]))⟩
  have jobs := State.job?_congr (congrArg Slices.jobs (frame (.sl p) (by simp))) j.ring j.index
  rw [State.job?_updJob _ _ _ _ (·.awaiting r) fun _ h1 h2 => ⟨h1, h2⟩, hj] at jobs
  exact congrArg (Option.map fun k => (k.stage, k.result)) jobs

end Sys2Proof.Machine

/-! PROOFS. Admin commands that are taken, and what their session does (R247, R323). -/

namespace Sys2Proof.Machine

variable {s t u : State} {p : Plate} {r : JobRef} {op : Nat} {j : Job} {b : Bytes} {items : List VItem}

/-! ## What the taking of a command and its session leave -/

/-- The slices part `y` is `x` but for the reads under way, the slice commands in progress, and what its jobs hold beside their ring and
their window. -/
def Slices.AdminKept (x y : Slices) : Prop :=
  ∃ g : Job → Job, (∀ j, (g j).ring = j.ring ∧ (g j).window = j.window) ∧
    ∃ reads ops, y = { x with jobs := x.jobs.map g, reads := reads, ops := ops }

theorem Slices.AdminKept.refl (x : Slices) : x.AdminKept x := ⟨id, fun _ => ⟨rfl, rfl⟩, _, _, by rw [List.map_id]⟩

theorem Slices.AdminKept.trans {x y z : Slices} (h : x.AdminKept y) (k : y.AdminKept z) : x.AdminKept z := by
  obtain ⟨f, hf, _, _, rfl⟩ := h
  obtain ⟨g, hg, _, _, rfl⟩ := k
  exact ⟨g ∘ f, fun j => ⟨(hg _).1.trans (hf j).1, (hg _).2.trans (hf j).2⟩, _, _, by rw [← List.map_map]⟩

/-- Between `s` and `u` plate `p` took an admin command, used its session, or noted its steps: nothing that a check of the command
rests on moved. -/
structure AdminWork (s u : State) (p : Plate) : Prop where
  frame : SameBut [.mgt p, .sl p, .cus p] s u
  kept : (s.pl p).sl.AdminKept (u.pl p).sl

theorem AdminWork.trans (h : AdminWork s t p) (k : AdminWork t u p) : AdminWork s u p :=
  ⟨h.frame.trans k.frame, h.kept.trans k.kept⟩

theorem AdminWork.of_frame {l : List Part} (h : SameBut l s u) (hl : ∀ y ∈ l, y = .mgt p ∨ y = .cus p) : AdminWork s u p := by
  refine ⟨h.mono fun y hy => by rcases hl y hy with e | e <;> simp [e], ?_⟩
  have sl : (u.pl p).sl = (s.pl p).sl := h (.sl p) fun hs => by rcases hl _ hs with e | e <;> cases e
  rw [sl]
  exact .refl _

theorem State.updSl_adminWork {f : Slices → Slices} (h : (s.pl p).sl.AdminKept (f (s.pl p).sl)) :
    AdminWork s (s.updSl p f) p :=
  ⟨(State.updSl_frame s p f).mono (by simp), by rwa [State.updSl_self]⟩

theorem State.updJob_adminWork (s : State) (p : Plate) (q : RingRef) (n : Word) {f : Job → Job}
    (h : ∀ j, (f j).ring = j.ring ∧ (f j).window = j.window) : AdminWork s (s.updJob p q n f) p := by
  refine State.updSl_adminWork ⟨_, fun j => ?_, _, _, rfl⟩
  split
  · exact h j
  · exact ⟨rfl, rfl⟩

theorem State.adminTake_work (s : State) (r : JobRef) : AdminWork s (s.adminTake r) r.plate :=
  .trans (.of_frame (State.updMgt_frame s r.plate _) (by simp)) (State.updJob_adminWork _ r.plate r.ring r.index fun _ => ⟨rfl, rfl⟩)

theorem State.retireRead_adminWork (s : State) (p : Plate) (k : ReadKind) : AdminWork s (s.retireRead p k) p :=
  State.updSl_adminWork ⟨id, fun _ => ⟨rfl, rfl⟩, _, _, by rw [List.map_id]⟩

/-- A session that passes is used up or matched, and nothing else moves (R247). -/
theorem State.quorum_frame {d : Desc} (h : s.quorum p d b = some u) : SameBut [.cus p] s u := by
  unfold State.quorum at h
  split at h
  · simp at h
  · split at h
    · split at h
      · cases h
        exact .refl _ s
      · simp at h
    · split at h
      · simp at h
      · split at h
        · cases h
          exact State.updCus_frame s p _
        · cases h
          exact State.updCus_frame s p _

section
variable (h : AdminWork s u p)
include h

theorem AdminWork.vlt (x : Plate) : (u.pl x).vlt = (s.pl x).vlt := h.frame (.vlt x) (by simp)
theorem AdminWork.rng (x : Plate) : (u.pl x).rng = (s.pl x).rng := h.frame (.rng x) (by simp)
theorem AdminWork.pr (x : Plate) : (u.pl x).pr = (s.pl x).pr := h.frame (.pr x) (by simp)
theorem AdminWork.nvm (x : Plate) : (u.pl x).nvm = (s.pl x).nvm := h.frame (.nvm x) (by simp)
theorem AdminWork.pow (x : Plate) : (u.pl x).pow = (s.pl x).pow := h.frame (.pow x) (by simp)
theorem AdminWork.tmp (x : Plate) : (u.pl x).tmp = (s.pl x).tmp := h.frame (.tmp x) (by simp)
theorem AdminWork.flt (x : Plate) : (u.pl x).flt = (s.pl x).flt := h.frame (.flt x) (by simp)
theorem AdminWork.clock : u.clock = s.clock := h.frame .clock (by simp)
theorem AdminWork.out : u.out = s.out := h.frame .out (by simp)

theorem AdminWork.optime (x : Plate) : u.optime x = s.optime x := by
  have : u.pwrgood = s.pwrgood := h.frame .pwrgood (by simp)
  simp only [State.optime, h.nvm, h.clock, this]

theorem AdminWork.sl (x : Plate) : (s.pl x).sl.AdminKept (u.pl x).sl := by
  by_cases e : x = p
  · exact e ▸ h.kept
  · have : (u.pl x).sl = (s.pl x).sl := h.frame (.sl x) (by simp [e])
    rw [this]
    exact .refl _

theorem AdminWork.impo_tab (x : Plate) : (u.pl x).sl.impo = (s.pl x).sl.impo := by
  obtain ⟨_, _, _, _, e⟩ := h.sl x
  rw [e]

theorem AdminWork.impo (x : Plate) (i : Nat) : u.impo x i = s.impo x i := by rw [State.impo, State.impo, h.impo_tab]

theorem AdminWork.ring (x : Plate) (q : RingRef) : u.ring x q = s.ring x q := by
  obtain ⟨_, _, _, _, e⟩ := h.sl x
  cases q <;> simp only [State.ring, e]

/-- What is asked of the jobs by ring and window alone is answered as before. -/
theorem AdminWork.windows (x : Plate) (c : RingRef → Option Nat → Bool) :
    ((u.pl x).sl.jobs.filter fun j => c j.ring j.window).map Job.window =
      ((s.pl x).sl.jobs.filter fun j => c j.ring j.window).map Job.window := by
  obtain ⟨g, hg, _, _, e⟩ := h.sl x
  have ring (j : Job) : (g j).ring = j.ring := (hg j).1
  have window (j : Job) : (g j).window = j.window := (hg j).2
  rw [e]
  simp only [List.filter_map, List.map_map, Function.comp_def, ring, window]

/-- A completion is seen from before the command was taken. -/
theorem AdminWork.completes {k : Job} {x : Result} (hr : k.ring = .admin) : Completes u t p k x ↔ Completes s t p k x := by
  have may : u.mayWrite p = s.mayWrite p := by simp only [State.mayWrite, h.pow, h.pr, h.tmp, h.flt]
  have same : u.translated p k.ring (some k.desc) x = s.translated p k.ring (some k.desc) x := by
    simp only [State.translated, hr, h.pow]
  have tag : u.ringTag p k.ring = s.ringTag p k.ring := by rw [hr]; rfl
  have ring := h.ring p k.ring
  refine ⟨fun c => c.from_ ring tag may (by rw [h.out]) same, fun c => c.from_ ring.symm tag.symm may.symm (by rw [h.out]) same.symm⟩

/-- So is a change that begins. -/
theorem AdminWork.changeBegun (c : ChangeBegun u t p items) : ChangeBegun s t p items :=
  changeBegun_before c h.frame (by simp)

end

/-! ## A command is taken (R206, R323) -/

/-- The job that a command's job becomes as it is taken. -/
def Job.taken (j : Job) : Job := { j with stage := .running }

theorem State.adminHead_spec (h : s.adminHead r op = some j) : s.jobAt r = some j ∧ r.ring = .admin := by
  unfold State.adminHead at h
  split at h
  · next k hj hr =>
    split at h
    · cases h
      exact ⟨hj, hr⟩
    · simp at h
  · simp at h

/-- A command that is taken runs. -/
theorem State.admin_taken (h : Taken s r op j) (f : State → Job → State) : s.admin r op f = f (s.adminTake r) j.taken := by
  obtain ⟨head, entropy⟩ := h
  simp only [State.admin, head, entropy, Job.taken]

theorem State.adminTake_job (h : s.jobAt r = some j) : (s.adminTake r).jobAt r = some j.taken := by
  have queued : (s.setQueue r.plate fun q => q.drop 1).jobAt r = some j := by
    rw [← h]
    exact State.job?_congr (by rw [State.setQueue, State.updMgt_sl]) _ _
  exact State.jobAt_updJob queued _ fun _ h1 h2 => ⟨h1, h2⟩

/-- Between `s` and `u` the command that is job `j` was taken and runs. -/
structure Running (s u : State) (r : JobRef) (j : Job) : Prop where
  work : AdminWork s u r.plate
  job : u.jobAt r = some j.taken
  ring : j.ring = r.ring
  index : j.index = r.index
  admin : r.ring = .admin

/-- The job of a command that runs completes. -/
theorem Running.fails (h : Running s u r j) (st : Status) : SameBut (adminParts r.plate) s (u.fail r.plate j.taken st) ∧
    Completes s (u.fail r.plate j.taken st) r.plate j { status := st } :=
  ⟨h.work.frame.step (by simp [adminParts]) ((State.fail_frame u r.plate j.taken st).mono (by simp [adminParts])),
    (h.work.completes (h.ring.trans h.admin)).mp (State.fail_completes u r.plate j.taken st)⟩

theorem running_of_taken (h : Taken s r op j) : Running s (s.adminTake r) r j := by
  obtain ⟨job, ring⟩ := State.adminHead_spec h.1
  obtain ⟨hr, hi⟩ := State.job_eq job
  exact ⟨State.adminTake_work s r, State.adminTake_job job, hr, hi, ring⟩

/-- Work that leaves the jobs keeps a command running. -/
theorem Running.after (h : Running s t r j) (k : AdminWork t u r.plate) (hj : (u.pl r.plate).sl.jobs = (t.pl r.plate).sl.jobs) :
    Running s u r j :=
  ⟨h.work.trans k, (State.job?_congr hj _ _).trans h.job, h.ring, h.index, h.admin⟩

/-! ## Its session (R247) -/

/-- Whether a session passes rests on no slice, and what it uses up is not of the slices. -/
theorem State.quorum_updSl (s : State) (p : Plate) (f : Slices → Slices) (d : Desc) (b : Bytes) :
    (s.updSl p f).quorum p d b = (s.quorum p d b).map (·.updSl p f) := by
  have optime : (s.updSl p f).optime p = s.optime p := by simp [State.optime]
  have session (n : Word) : (s.updSl p f).session p n = s.session p n := by
    rw [State.session, State.session, State.updSl_cus, optime]
  have digest (n : Bytes) : (s.updSl p f).approvalDigest p d b n = s.approvalDigest p d b n := by
    simp [State.approvalDigest, State.identityDigest, State.identityParts, State.seed]
  have approves (k : Nat) (h sig : Bytes) : (s.updSl p f).approves p k h sig = s.approves p k h sig := by
    simp [State.approves, State.custody]
  have enough (x : Session) : (s.updSl p f).enough p x = s.enough p x := by simp only [State.enough, approves]
  have cus (g : Custody → Custody) : (s.updSl p f).updCus p g = (s.updCus p g).updSl p f := by cases p <;> rfl
  unfold State.quorum
  rw [session]
  cases s.session p (BitVec.ofNat 32 d.param.toNat) with
  | none => rfl
  | some x =>
    simp only [digest, enough, State.updSession, State.endSession, cus]
    split
    · split <;> rfl
    · split
      · rfl
      · split <;> rfl

/-- The input of a command that was taken, and its session: either QUORUM, or `f` runs with the session used up (R247). -/
theorem State.session_cases (h : Taken s r op j) (n : Nat) (b : Bytes) (f : State → Bytes → State) :
    ∃ t, (s.adminTake r).withInput r.plate j.taken (.ok b) n (fun s w => s.withQuorum r.plate j.taken w fun s => f s w) = t ∧
      (((s.adminTake r).quorum r.plate j.desc (fit n b) = none ∧ SameBut (adminParts r.plate) s t ∧
        Completes s t r.plate j { status := .quorum }) ∨
      ∃ u v, (s.adminTake r).quorum r.plate j.desc (fit n b) = some v ∧ Running s u r j ∧ t = f u (fit n b)) := by
  have read (u : State) : AdminWork u (u.retireRead r.plate (.input j.ring j.index)) r.plate := State.retireRead_adminWork u _ _
  have jobs (u : State) : ((u.retireRead r.plate (.input j.ring j.index)).pl r.plate).sl.jobs = (u.pl r.plate).sl.jobs := by
    rw [State.retireRead, State.updSl_self]
  have taken := running_of_taken h
  refine ⟨_, rfl, ?_⟩
  simp only [State.withInput, State.withQuorum, State.retireRead, State.quorum_updSl, Job.taken]
  cases hq : (s.adminTake r).quorum r.plate j.desc (fit n b) with
  | none => exact .inl ⟨rfl, (taken.after (read _) (jobs _)).fails .quorum⟩
  | some v =>
    have used := State.quorum_frame hq
    have passed : Running s v r j := taken.after (.of_frame used (by simp)) (congrArg Slices.jobs (used (.sl r.plate) (by simp)))
    exact .inr ⟨_, v, rfl, passed.after (read v) (jobs v), rfl⟩

theorem afterQuorum_none {P : Prop} (hq : (s.adminTake r).quorum r.plate j.desc b = none)
    (h : Completes s t r.plate j { status := .quorum }) : AfterQuorum s t r j b P := by
  unfold AfterQuorum
  rwa [hq]

theorem afterQuorum_some {P : Prop} (hq : (s.adminTake r).quorum r.plate j.desc b = some u) (h : P) : AfterQuorum s t r j b P := by
  unfold AfterQuorum
  rwa [hq]

end Sys2Proof.Machine

/-! PROOFS. Slices created, resized and destroyed (O25). -/

namespace Sys2Proof.Machine

variable {s t u : State} {p : Plate} {r : JobRef} {i : Nat} {j : Job} {b : Bytes} {q : Quota} {o : SliceOp}

/-! ## What the checks of a slice command rest on -/

section
variable (h : AdminWork s u p)
include h

theorem AdminWork.refuses (ro : Bool) : u.refuses p ro = s.refuses p ro := by
  have wear : u.wear p = s.wear p := by simp only [State.wear, h.pr, h.nvm]
  unfold State.refuses
  rw [wear]
  dsimp only
  rw [h.vlt, h.pr]

theorem AdminWork.inPartition : u.inPartition p = s.inPartition p := by simp only [State.inPartition, h.pr]

theorem AdminWork.pasidTaken (i : Nat) (onA : Bool) (v : Option (BitVec 20)) : u.pasidTaken p i onA v = s.pasidTaken p i onA v := by
  simp only [State.pasidTaken, h.impo_tab]

theorem AdminWork.poolHolds (q own : Quota) : u.poolHolds p q own = s.poolHolds p q own := by
  have reserved (f : Quota → Nat) : u.reserved p f = s.reserved p f := by simp only [State.reserved, h.impo_tab]
  unfold State.poolHolds State.poolLines State.poolWindows State.poolLedger State.ledgerDead
  rw [h.vlt, reserved, reserved, reserved]

theorem AdminWork.newRecord (i : Nat) : u.newRecord p i = s.newRecord p i := by
  simp only [State.newRecord, h.vlt, State.drawn_congr (h.rng p) h.clock (h.optime p)]

theorem AdminWork.freeRuns (x : Plate) : u.freeRuns p x = s.freeRuns p x := by simp only [State.freeRuns, h.impo_tab]

theorem AdminWork.heldWindows (x : Plate) (i : Nat) : u.heldWindows x i = s.heldWindows x i := by
  have same := congrArg (List.filterMap id) (h.windows x fun q _ => ringSlice q == some i)
  rwa [List.filterMap_map, List.filterMap_map, Function.id_comp] at same

theorem AdminWork.winUsed (x : Plate) (i : Nat) : u.winUsed x i = s.winUsed x i := by
  have same := congrArg List.length (h.windows x fun q w => w.isSome && ringSlice q == some i)
  rwa [List.length_map, List.length_map] at same

theorem AdminWork.resizedSet (x : Plate) (i n : Nat) : u.resizedSet p x i n = s.resizedSet p x i n := by
  unfold State.resizedSet
  rw [h.impo, h.freeRuns, h.heldWindows]

theorem AdminWork.linesUsed (x : Plate) (i : Nat) : u.linesUsed x i = s.linesUsed x i := by simp only [State.linesUsed, h.vlt]

theorem AdminWork.belowUse (i : Nat) (q : Quota) : u.belowUse p i q = s.belowUse p i q := by
  have ring : u.ring = s.ring := funext fun x => funext (h.ring x)
  have slot : u.slotAt p i = s.slotAt p i := by unfold State.slotAt; rw [h.vlt]
  have ahead (x : Plate) : u.slotAhead x = s.slotAhead x := by unfold State.slotAhead State.pendingItem; rw [h.vlt]
  have used : u.ledgerUsed p i = s.ledgerUsed p i := by rw [State.ledgerUsed, State.ledgerUsed, h.vlt]
  have held (x : Plate) : u.linesHeld x i = s.linesHeld x i := by rw [State.linesHeld, State.linesHeld, h.vlt]
  have entry : u.ledgerAt p = s.ledgerAt p := by unfold State.ledgerAt; rw [h.vlt]
  have coming : u.ledgerComing p i = s.ledgerComing p i := by
    have a : u.pa.vlt = s.pa.vlt := h.vlt .a
    have b : u.pb.vlt = s.pb.vlt := h.vlt .b
    unfold State.ledgerComing
    rw [a, b, entry]
  unfold State.belowUse
  rw [h.impo, ring, slot, ahead, ahead, used, coming, held, held]

theorem AdminWork.impoChanging (i : Nat) : u.impoChanging i = s.impoChanging i := by
  have a : u.pa.vlt = s.pa.vlt := h.vlt .a
  have b : u.pb.vlt = s.pb.vlt := h.vlt .b
  simp only [State.impoChanging, a, b]

end

/-! ## The slice commands under way (R59, R68) -/

/-- With no change of an imposition entry under way, no slice's entry is changing, and every slice command in progress destroys. -/
theorem State.impoBusy_spec (h : s.impoBusy = false) : (∀ i, s.impoChanging i = false) ∧
    ∀ (x : Plate) (i : Nat) (o : SliceOp), (s.pl x).sl.ops.get none i = some o → o.destroy = true := by
  simp only [State.impoBusy, Bool.or_eq_false_iff, List.any_eq_false] at h
  obtain ⟨⟨changesA, opsA⟩, changesB, opsB⟩ := h
  refine ⟨fun i => Bool.eq_false_iff.mpr fun hc => ?_, fun x i o ho => ?_⟩
  · obtain ⟨c, hc, hi⟩ := List.any_eq_true.mp hc
    obtain ⟨v, hv, hk⟩ := List.any_eq_true.mp hi
    cases v with
    | impo k e =>
      rcases List.mem_append.mp hc with hc | hc
      · exact changesA c hc (List.any_eq_true.mpr ⟨_, hv, rfl⟩)
      · exact changesB c hc (List.any_eq_true.mpr ⟨_, hv, rfl⟩)
    | _ => simp at hk
  · have mem := Tab.mem_of_get _ none i _ ho (by simp)
    cases x with
    | a => simpa using opsA _ mem
    | b => simpa using opsB _ mem

/-- Where no resize commits, a slice's quotas are those of its entry. -/
theorem State.quotaNow_of_none (h : ∀ (x : Plate) (o : SliceOp), (s.pl x).sl.ops.get none i = some o → o.destroy = true ∨ o.step ≠ 2) :
    s.quotaNow p i = (s.impo p i).quota := by
  have own (x : Plate) (q : Quota) : (match (s.pl x).sl.ops.get none i with
      | some o => if o.destroy || o.step != 2 then q else q.least o.quota
      | none => q) = q := by
    cases ho : (s.pl x).sl.ops.get none i with
    | none => rfl
    | some o => exact if_pos (by simpa using h x o ho)
  exact (own .a _).trans (own .b _)

/-- A slice with that many unoccupied lines evicts nothing. -/
theorem State.evict_enough {n : Nat} (h : s.linesUsed p i + n ≤ (s.quotaNow p i).lines) (fuel : Nat) : s.evict p i n fuel = s := by
  cases fuel with
  | zero => rfl
  | succ m => simp [State.evict, h]

/-! ## SLICE_CREATE (R66) -/

/-- The PASID of an entry on its home's function. -/
def Impo.homePasid (e : Impo) : Option (BitVec 20) :=
  match e.home with
  | .a => e.pasidA
  | .b => e.pasidB

/-- A SLICE_CREATE record that is out of range, or names a slice or a binding that is in use (R66). -/
abbrev State.CreateRange (s : State) (p : Plate) (b : Bytes) : Prop :=
  createFields b = false ∨ (s.impo p (recSlice b)).st ≠ .free ∨ (recImpo b).homePasid = none ∨
    s.pasidTaken p (recSlice b) true (recImpo b).pasidA = true ∨ s.pasidTaken p (recSlice b) false (recImpo b).pasidB = true

/-- The imposition entry of a new slice, with window sets of the lowest free windows. -/
def State.createdImpo (s : State) (p : Plate) (b : Bytes) : Impo :=
  { recImpo b with winA := takeRuns (recQuota b).windows (s.freeRuns p .a), winB := takeRuns (recQuota b).windows (s.freeRuns p .b) }

theorem createRange_iff : (!createFields b || (s.impo p (recSlice b)).st != .free || (recImpo b).homePasid.isNone ||
    s.pasidTaken p (recSlice b) true (recImpo b).pasidA || s.pasidTaken p (recSlice b) false (recImpo b).pasidB) = true ↔
      s.CreateRange p b := by
  simp [State.CreateRange, or_assoc]

theorem State.createSlice_range (h : s.CreateRange p b) : s.createSlice p j b = s.fail p j .range :=
  if_pos (createRange_iff.mpr h)

theorem State.createSlice_quota (h : ¬s.CreateRange p b) (hp : s.poolHolds p (recQuota b) {} = false) :
    s.createSlice p j b = s.fail p j .quota :=
  (if_neg (createRange_iff.not.mpr h)).trans (if_pos (congrArg not hp))

theorem State.createSlice_refused {st : Status} (h : ¬s.CreateRange p b) (hp : s.poolHolds p (recQuota b) {} = true)
    (hr : s.refuses p false = some st) : s.createSlice p j b = s.fail p j st :=
  (if_neg (createRange_iff.not.mpr h)).trans ((if_neg (Bool.eq_false_iff.mp (congrArg not hp))).trans (by rw [hr]))

theorem State.createSlice_commits (h : ¬s.CreateRange p b) (hp : s.poolHolds p (recQuota b) {} = true)
    (hr : s.refuses p false = none) : s.createSlice p j b = (s.drew p vaultInst [32]).commitJob p j
      [.record (recSlice b) (s.newRecord p (recSlice b)), .impo (recSlice b) (s.createdImpo p b)]
      { info := BitVec.ofNat 32 (recSlice b) } 0 (.created (recSlice b) j.index) :=
  (if_neg (createRange_iff.not.mpr h)).trans ((if_neg (Bool.eq_false_iff.mp (congrArg not hp))).trans (by rw [hr]; rfl))

theorem AdminWork.createRange (h : AdminWork s u p) : u.CreateRange p b ↔ s.CreateRange p b := by
  simp only [State.CreateRange, h.impo, h.pasidTaken]

theorem AdminWork.createdImpo (h : AdminWork s u p) (b : Bytes) : u.createdImpo p b = s.createdImpo p b := by
  simp only [State.createdImpo, h.freeRuns]

/-- The commit of a new slice begins, under a nonce drawn for it. -/
theorem Running.creates (h : Running s u r j) (b : Bytes) (x : Result) (a : After) :
    let t := (u.drew r.plate vaultInst [32]).commitJob r.plate j.taken
      [.record (recSlice b) (u.newRecord r.plate (recSlice b)), .impo (recSlice b) (u.createdImpo r.plate b)] x 0 a
    SameBut (adminParts r.plate) s t ∧ CommitBegun s t r.plate r.ring r.index
      [.record (recSlice b) (s.newRecord r.plate (recSlice b)), .impo (recSlice b) (s.createdImpo r.plate b)] x := by
  have drew := State.drew_frame u r.plate vaultInst [32]
  have job : (u.drew r.plate vaultInst [32]).job? r.plate j.taken.ring j.taken.index = some j.taken := by
    rw [State.job?_congr (congrArg Slices.jobs (drew (.sl r.plate) (by simp)))]
    exact h.ring ▸ h.index ▸ h.job
  obtain ⟨⟨waits, begun⟩, frame⟩ := State.commitJob_begun (items := [.record (recSlice b) (u.newRecord r.plate (recSlice b)),
    .impo (recSlice b) (u.createdImpo r.plate b)]) job rfl x 0 a
  rw [← h.work.newRecord, ← h.work.createdImpo]
  refine ⟨h.work.frame.step (by simp [adminParts]) (drew.step (by simp [adminParts]) (frame.mono (by simp [adminParts, committing]))),
    ?_, h.work.changeBegun (changeBegun_before begun drew (by simp))⟩
  rwa [← h.ring, ← h.index]

/-! ## SLICE_RESIZE (R68) -/

/-- A SLICE_RESIZE record that is out of range, or names a slice that takes no resize. -/
abbrev State.ResizeRange (s : State) (p : Plate) (b : Bytes) : Prop :=
  resizeFields b = false ∨ (s.impo p (recSlice b)).st = .free ∨ (s.impo p (recSlice b)).st = .draining

/-- New quotas that the pool does not hold, or that lie below current use. -/
abbrev State.ResizeQuota (s : State) (p : Plate) (b : Bytes) : Prop :=
  s.poolHolds p (recQuota b) (s.impo p (recSlice b)).quota = false ∨ s.belowUse p (recSlice b) (recQuota b) = true

/-- A slice command in progress on slice `i`, noted. -/
def State.setOp (s : State) (p : Plate) (i : Nat) (o : SliceOp) : State :=
  s.updSl p fun x => { x with ops := x.ops.set none i (some o) }

theorem State.setOp_adminWork (s : State) (p : Plate) (i : Nat) (o : SliceOp) : AdminWork s (s.setOp p i o) p :=
  State.updSl_adminWork ⟨id, fun _ => ⟨rfl, rfl⟩, _, _, by rw [List.map_id]⟩

/-- The operation that SLICE_RESIZE notes (R68). -/
def resizeOp (r : JobRef) (q : Quota) : SliceOp := { index := r.index, by_ := r.plate, step := 1, quota := q }

/-- The entry of slice `i` with new quotas, and the window sets that go with them. -/
def State.resizedImpo (s : State) (p : Plate) (i : Nat) (q : Quota) : Impo :=
  { s.impo p i with quota := q, winA := s.resizedSet p .a i q.windows, winB := s.resizedSet p .b i q.windows }

/-- The windows that leave are scrubbed, and the resize is noted as committing. -/
def State.resizeReady (s : State) (p : Plate) (i : Nat) (e' : Impo) : State :=
  ((s.scrubWindows .a (leavingRuns (s.impo p i).winA e'.winA)).scrubWindows .b (leavingRuns (s.impo p i).winB e'.winB)).updSl p
    fun x => { x with ops := x.ops.mod none i fun o => o.map fun o => { o with step := 2, winA := e'.winA, winB := e'.winB } }

theorem resizeRange_iff : (!resizeFields b || (s.impo p (recSlice b)).st == .free || (s.impo p (recSlice b)).st == .draining) = true ↔
    s.ResizeRange p b := by
  simp [State.ResizeRange, or_assoc]

theorem resizeQuota_iff : (!s.poolHolds p (recQuota b) (s.impo p (recSlice b)).quota ||
    s.belowUse p (recSlice b) (recQuota b)) = true ↔ s.ResizeQuota p b := by
  simp [State.ResizeQuota]

theorem State.resizeSlice_range (h : s.ResizeRange p b) : s.resizeSlice p j b = s.fail p j .range :=
  if_pos (resizeRange_iff.mpr h)

theorem State.resizeSlice_quota (h : ¬s.ResizeRange p b) (hq : s.ResizeQuota p b) : s.resizeSlice p j b = s.fail p j .quota :=
  (if_neg (resizeRange_iff.not.mpr h)).trans (if_pos (resizeQuota_iff.mpr hq))

theorem State.resizeSlice_refused {st : Status} (h : ¬s.ResizeRange p b) (hq : ¬s.ResizeQuota p b)
    (hr : s.refuses p false = some st) : s.resizeSlice p j b = s.fail p j st :=
  (if_neg (resizeRange_iff.not.mpr h)).trans ((if_neg (resizeQuota_iff.not.mpr hq)).trans (by rw [hr]))

theorem State.resizeSlice_goes (h : ¬s.ResizeRange r.plate b) (hq : ¬s.ResizeQuota r.plate b)
    (hr : s.refuses r.plate false = none) (hj : j.index = r.index) :
    s.resizeSlice r.plate j b = (s.setOp r.plate (recSlice b) (resizeOp r (recQuota b))).resizeNext r.plate (recSlice b) :=
  (if_neg (resizeRange_iff.not.mpr h)).trans ((if_neg (resizeQuota_iff.not.mpr hq)).trans (by rw [hr, hj]; rfl))

/-- A resize waits while jobs hold more windows than its new quota gives. -/
theorem State.resizeNext_waits (ho : (s.pl p).sl.ops.get none i = some o)
    (hw : o.quota.windows < s.winUsed .a i ∨ o.quota.windows < s.winUsed .b i) : s.resizeNext p i = s := by
  have held : (decide (o.quota.windows < s.winUsed .a i) || decide (o.quota.windows < s.winUsed .b i)) = true := by simpa using hw
  unfold State.resizeNext
  rw [ho]
  exact if_pos (by simp only [Bool.or_assoc, held, Bool.or_true, Bool.true_or])

/-- A resize whose windows are free and which evicts nothing commits all quotas at once. -/
theorem State.resizeNext_commits (ho : (s.pl p).sl.ops.get none i = some o) (hd : o.destroy = false) (h1 : o.step = 1)
    (hw : ¬(o.quota.windows < s.winUsed .a i ∨ o.quota.windows < s.winUsed .b i)) (hm : (s.impo p i).st ≠ .moving)
    (hc : s.impoChanging i = false)
    (he : ∀ x : Plate, s.linesUsed x i + ((s.impo x i).quota.lines - o.quota.lines) ≤ (s.quotaNow x i).lines)
    (hl : ∀ x : Plate, s.linesUsed x i ≤ o.quota.lines) (hb : s.belowUse p i o.quota = false) (hr : s.refuses p false = none) :
    s.resizeNext p i = (s.resizeReady p i (s.resizedImpo p i o.quota)).beginChange p [.impo i (s.resizedImpo p i o.quota)]
      (some (opJournal o i)) (.resized i) false := by
  have goes : ¬(o.destroy || o.step != 1 || decide (o.quota.windows < s.winUsed .a i) ||
      decide (o.quota.windows < s.winUsed .b i) || (s.impo p i).st == .moving || s.impoChanging i) = true := by
    simpa [hd, h1, hm, hc] using hw
  have fits : ¬(o.quota.lines < s.linesUsed .a i ∨ o.quota.lines < s.linesUsed .b i) := by
    have a := hl .a
    have b := hl .b
    omega
  unfold State.resizeNext
  simp only [ho, if_neg goes, State.each, List.foldl_cons, List.foldl_nil, State.evict_enough (he .a), State.evict_enough (he .b), hb,
    if_neg fits, hr, Bool.false_eq_true, if_false]
  rfl

theorem State.resizeReady_frame (s : State) (p : Plate) (i : Nat) (e : Impo) : SameBut [.sl .a, .sl .b] s (s.resizeReady p i e) :=
  ((State.updSl_frame s .a _).step (by simp) ((State.updSl_frame _ .b _).mono (by simp))).trans
    ((State.updSl_frame _ p _).mono (by cases p <;> simp))

theorem State.resizeReady_sl (s : State) (p : Plate) (i : Nat) (e : Impo) :
    ((s.resizeReady p i e).pl p).sl.jobs = (s.pl p).sl.jobs ∧ ((s.resizeReady p i e).pl p).sl.ops =
      (s.pl p).sl.ops.mod none i fun o => o.map fun o => { o with step := 2, winA := e.winA, winB := e.winB } := by
  cases p <;> exact ⟨rfl, rfl⟩

section
variable (h : AdminWork s u p)
include h

theorem AdminWork.resizeRange : u.ResizeRange p b ↔ s.ResizeRange p b := by simp only [State.ResizeRange, h.impo]

theorem AdminWork.resizeQuota : u.ResizeQuota p b ↔ s.ResizeQuota p b := by
  simp only [State.ResizeQuota, h.impo, h.poolHolds, h.belowUse]

theorem AdminWork.resizedImpo (i : Nat) (q : Quota) : u.resizedImpo p i q = s.resizedImpo p i q := by
  simp only [State.resizedImpo, h.impo, h.resizedSet]

end

/-- A slice command of a command that runs, noted. -/
theorem Running.noted (h : Running s u r j) (i : Nat) (o : SliceOp) :
    Running s (u.setOp r.plate i o) r j ∧ ((u.setOp r.plate i o).pl r.plate).sl.ops.get none i = some o := by
  refine ⟨h.after (State.setOp_adminWork u r.plate i o) (by rw [State.setOp, State.updSl_self]), ?_⟩
  rw [State.setOp, State.updSl_self]
  exact Tab.get_set (u.pl r.plate).sl.ops none i (some o)

/-- What a resize of slice `i` to quotas `q` leaves: it waits for the windows that leave, or commits (R68). -/
def ResizeGoesOn (s t : State) (r : JobRef) (i : Nat) (q : Quota) : Prop :=
  (t.jobAt r).map Job.stage = some .running ∧
  if q.windows < s.winUsed .a i ∨ q.windows < s.winUsed .b i then
    ReadsOnly s t ∧ (t.pl r.plate).vlt = (s.pl r.plate).vlt ∧
    (t.pl r.plate).sl.ops.get none i = some { index := r.index, by_ := r.plate, step := 1, quota := q }
  else
    ChangeBegun s t r.plate [.impo i (s.resizedImpo r.plate i q)] ∧
    (t.pl r.plate).sl.ops.get none i = some { index := r.index, by_ := r.plate, step := 2, quota := q,
                                              winA := s.resizedSet r.plate .a i q.windows,
                                              winB := s.resizedSet r.plate .b i q.windows }

/-- A command that takes the next step of its sequence still runs. -/
theorem Running.stage {l : List Part} (h : Running s u r j) (f : SameBut l u t) (hl : Part.sl r.plate ∉ l) :
    (t.jobAt r).map Job.stage = some .running := by
  have job : t.jobAt r = u.jobAt r := State.job?_congr (congrArg Slices.jobs (f _ hl)) _ _
  rw [job, h.job]
  rfl

/-- While the first step of a resize is noted, no quota is lowered yet. -/
theorem AdminWork.quotaNow_noted (h : AdminWork s u p) (hb : s.impoBusy = false) (op : (u.pl p).sl.ops.get none i = some o)
    (ho : o.step ≠ 2) (x : Plate) : u.quotaNow x i = (s.impo x i).quota := by
  rw [State.quotaNow_of_none fun y o' ho' => ?_, h.impo]
  by_cases e : y = p
  · subst e
    obtain rfl := Option.some.inj (op.symm.trans ho')
    exact .inr ho
  · have same : (u.pl y).sl = (s.pl y).sl := h.frame (.sl y) (by simp [e])
    exact .inl ((State.impoBusy_spec hb).2 y i o' (same ▸ ho'))

theorem Running.resizeWaits (h : Running s u r j) (op : (u.pl r.plate).sl.ops.get none i = some (resizeOp r q))
    (hw : q.windows < s.winUsed .a i ∨ q.windows < s.winUsed .b i) :
    SameBut (adminParts r.plate) s (u.resizeNext r.plate i) ∧ ResizeGoesOn s (u.resizeNext r.plate i) r i q := by
  rw [State.resizeNext_waits op (by rwa [h.work.winUsed, h.work.winUsed])]
  refine ⟨h.work.frame.mono (by simp [adminParts]), h.stage (.refl [] u) (by simp), ?_⟩
  rw [if_pos hw]
  exact ⟨⟨[], by rw [List.append_nil, State.sent_congr h.work.out], by simp⟩, h.work.vlt r.plate, op⟩

theorem Running.resizeCommits (h : Running s u r j) (op : (u.pl r.plate).sl.ops.get none i = some (resizeOp r q))
    (hw : ¬(q.windows < s.winUsed .a i ∨ q.windows < s.winUsed .b i)) (hb : s.impoBusy = false)
    (hm : (s.impo r.plate i).st ≠ .moving)
    (hl : ∀ x : Plate, s.linesUsed x i ≤ q.lines ∧ s.linesUsed x i ≤ (s.impo x i).quota.lines)
    (hu : s.belowUse r.plate i q = false) (hr : s.refuses r.plate false = none) :
    SameBut (.sl r.plate.peer :: adminParts r.plate) s (u.resizeNext r.plate i) ∧
      ResizeGoesOn s (u.resizeNext r.plate i) r i q := by
  have work := h.work
  have room (x : Plate) : u.linesUsed x i + ((u.impo x i).quota.lines - q.lines) ≤ (u.quotaNow x i).lines := by
    obtain ⟨new, old⟩ := hl x
    rw [work.quotaNow_noted hb op (by simp [resizeOp]), work.linesUsed, work.impo]
    omega
  have commits := State.resizeNext_commits op rfl rfl (by rwa [work.winUsed, work.winUsed]) (by rwa [work.impo])
    (by rw [work.impoChanging]; exact (State.impoBusy_spec hb).1 i) room (fun x => by rw [work.linesUsed]; exact (hl x).1)
    (by rwa [work.belowUse]) (by rwa [work.refuses])
  rw [show (resizeOp r q).quota = q from rfl, work.resizedImpo] at commits
  have ready := State.resizeReady_frame u r.plate i (s.resizedImpo r.plate i q)
  obtain ⟨jobs, ops⟩ := State.resizeReady_sl u r.plate i (s.resizedImpo r.plate i q)
  obtain ⟨begun, frame⟩ := State.beginChange_begun (items := [.impo i (s.resizedImpo r.plate i q)])
    (u.resizeReady r.plate i (s.resizedImpo r.plate i q)) r.plate (some (opJournal (resizeOp r q) i)) (.resized i) rfl
  rw [← commits] at begun frame
  have sl := frame (.sl r.plate) (by simp)
  refine ⟨(work.frame.step (by simp [adminParts]) (ready.mono (by cases r.plate <;> simp [adminParts, Plate.peer]))).trans
    (frame.mono (by simp [adminParts])), ?_, ?_⟩
  · rw [State.jobAt, State.job?_congr ((congrArg Slices.jobs sl).trans jobs)]
    exact congrArg _ h.job
  · rw [if_neg hw]
    refine ⟨work.changeBegun (changeBegun_before begun ready (by simp)), ?_⟩
    rw [(congrArg Slices.ops sl).trans ops, Tab.get_mod, op]
    rfl

/-- SLICE_RESIZE that passes its checks goes on to wait or to commit (R68). -/
theorem Running.resizes (h : Running s u r j) (hb : s.impoBusy = false) (hm : (s.impo r.plate i).st ≠ .moving)
    (hl : ∀ x : Plate, s.linesUsed x i ≤ q.lines ∧ s.linesUsed x i ≤ (s.impo x i).quota.lines)
    (hu : s.belowUse r.plate i q = false) (hr : s.refuses r.plate false = none) :
    SameBut (.sl r.plate.peer :: adminParts r.plate) s ((u.setOp r.plate i (resizeOp r q)).resizeNext r.plate i) ∧
      ResizeGoesOn s ((u.setOp r.plate i (resizeOp r q)).resizeNext r.plate i) r i q := by
  obtain ⟨run, op⟩ := h.noted i (resizeOp r q)
  by_cases hw : q.windows < s.winUsed .a i ∨ q.windows < s.winUsed .b i
  · obtain ⟨frame, goes⟩ := run.resizeWaits op hw
    exact ⟨frame.mono (by simp +contextual), goes⟩
  · exact run.resizeCommits op hw hb hm hl hu hr

/-! ## SLICE_DESTROY (R69) -/

/-- A SLICE_DESTROY record that is out of range, or names a slice that takes no destroy. -/
abbrev State.DestroyRange (s : State) (p : Plate) (b : Bytes) : Prop :=
  destroyFields b = false ∨ (s.impo p (recSlice b)).st = .free ∨ (s.impo p (recSlice b)).st = .draining

theorem AdminWork.destroyRange (h : AdminWork s u p) : u.DestroyRange p b ↔ s.DestroyRange p b := by
  simp only [State.DestroyRange, h.impo]

/-- The operation that SLICE_DESTROY notes (Table 3.6 step 1). -/
def destroyOp (r : JobRef) : SliceOp := { index := r.index, by_ := r.plate, destroy := true, step := 1 }

theorem destroyRange_iff : (!destroyFields b || (s.impo p (recSlice b)).st == .free ||
    (s.impo p (recSlice b)).st == .draining) = true ↔ s.DestroyRange p b := by
  simp [State.DestroyRange, or_assoc]

theorem State.destroySlice_range (h : s.DestroyRange p b) : s.destroySlice p j b = s.fail p j .range :=
  if_pos (destroyRange_iff.mpr h)

theorem State.destroySlice_refused {st : Status} (h : ¬s.DestroyRange p b) (hr : s.refuses p false = some st) :
    s.destroySlice p j b = s.fail p j st :=
  (if_neg (destroyRange_iff.not.mpr h)).trans (by rw [hr])

theorem State.destroySlice_begins (h : ¬s.DestroyRange r.plate b) (hr : s.refuses r.plate false = none) (hj : j.index = r.index) :
    s.destroySlice r.plate j b = (s.setOp r.plate (recSlice b) (destroyOp r)).beginChange r.plate
      [.impo (recSlice b) { s.impo r.plate (recSlice b) with st := .draining }] (some (opJournal (destroyOp r) (recSlice b)))
      (.destroyStep (recSlice b) 1) false :=
  (if_neg (destroyRange_iff.not.mpr h)).trans (by rw [hr, hj]; rfl)

/-- A slice that leaves for DRAINING: its entry's commit begins, and the command runs on. -/
theorem Running.drains (h : Running s u r j) (i : Nat) (e : Impo) :
    let t := (u.setOp r.plate i (destroyOp r)).beginChange r.plate [.impo i e] (some (opJournal (destroyOp r) i)) (.destroyStep i 1) false
    SameBut (adminParts r.plate) s t ∧ ChangeBegun s t r.plate [.impo i e] ∧ (t.jobAt r).map Job.stage = some .running ∧
      (t.pl r.plate).sl.ops.get none i = some (destroyOp r) := by
  obtain ⟨run, op⟩ := h.noted i (destroyOp r)
  obtain ⟨begun, frame⟩ := State.beginChange_begun (items := [.impo i e]) (u.setOp r.plate i (destroyOp r)) r.plate
    (some (opJournal (destroyOp r) i)) (.destroyStep i 1) rfl
  exact ⟨run.work.frame.step (by simp [adminParts]) (frame.mono (by simp [adminParts])), run.work.changeBegun begun,
    run.stage frame (by simp), by rw [frame (.sl r.plate) (by simp), op]⟩

/-! ## The rows of this family -/

theorem exec_sliceCreate (h : Taken s r 0x80 j) (hb : s.impoBusy = false) (hd : s.drawWaits r.plate vaultInst 1 = false) :
    exec (.sliceCreate r (.ok b)) s = .next ((s.adminTake r).withInput r.plate j.taken (.ok b) 64 fun s w =>
      s.withQuorum r.plate j.taken w fun s => s.createSlice r.plate j.taken w) := by
  show execSliceCreate r (.ok b) s = _
  simp only [execSliceCreate, hb, hd, Bool.or_self, Bool.false_eq_true, if_false, State.admin_taken h]

/-- No slice command in progress is the one that is taken. -/
theorem ops_find_none {l : Tab (Option SliceOp)} {n : Word} (h : ∀ e ∈ l, e.2.map SliceOp.index ≠ some n) :
    (l.find? fun e => (e.2.map SliceOp.index) == some n) = none :=
  List.find?_eq_none.mpr fun e he => by simpa using h e he

/-- In PARTITION, or where nothing keeps it waiting, a slice command goes on. -/
theorem sliceCommand_goes {d : Dma} (h : s.inPartition p = true ∨ s.sliceWaits p d = false) :
    ¬(!s.inPartition p && s.sliceWaits p d) = true := by
  rcases h with h | h <;> simp [h]

theorem exec_sliceResize (h : Taken s r 0x81 j) (hw : s.inPartition r.plate = true ∨ s.sliceWaits r.plate (.ok b) = false)
    (ho : ∀ e ∈ (s.pl r.plate).sl.ops, e.2.map SliceOp.index ≠ some r.index) : exec (.sliceResize r (.ok b)) s = .next
      (if s.inPartition r.plate then (s.adminTake r).fail r.plate j.taken .partitioned
        else (s.adminTake r).withInput r.plate j.taken (.ok b) 64 fun s w =>
          s.withQuorum r.plate j.taken w fun s => s.resizeSlice r.plate j.taken w) := by
  show execSliceResize r (.ok b) s = _
  simp only [execSliceResize, ops_find_none ho, if_neg (sliceCommand_goes hw), State.admin_taken h, (State.adminTake_work s r).inPartition]

theorem exec_sliceDestroy (h : Taken s r 0x82 j) (hw : s.inPartition r.plate = true ∨ s.sliceWaits r.plate (.ok b) = false)
    (ho : ∀ e ∈ (s.pl r.plate).sl.ops, e.2.map SliceOp.index ≠ some r.index) : exec (.sliceDestroy r (.ok b)) s = .next
      (if s.inPartition r.plate then (s.adminTake r).fail r.plate j.taken .partitioned
        else (s.adminTake r).withInput r.plate j.taken (.ok b) 64 fun s w =>
          s.withQuorum r.plate j.taken w fun s => s.destroySlice r.plate j.taken w) := by
  show execSliceDestroy r (.ok b) s = _
  simp only [execSliceDestroy, ops_find_none ho, if_neg (sliceCommand_goes hw), State.admin_taken h, (State.adminTake_work s r).inPartition]

/-- A slice command outside PARTITION that does not wait: no change of an imposition entry is under way, and the slice is not in
MOVING. -/
theorem State.sliceWaits_none (hp : s.inPartition p = false) (hw : s.inPartition p = true ∨ s.sliceWaits p (.ok b) = false) :
    s.impoBusy = false ∧ (s.impo p (recSlice (fit 64 b))).st ≠ .moving := by
  have waits : s.sliceWaits p (.ok b) = false := hw.resolve_left (by simp [hp])
  simpa [State.sliceWaits] using waits

/-- A command that is refused, or of which `P` holds. -/
def RefusedOr (s t : State) (r : JobRef) (j : Job) (P : Prop) : Prop :=
  match s.refuses r.plate false with
  | some st => Completes s t r.plate j { status := st }
  | none => P

/-- SLICE_CREATE with its session used up (R66). -/
theorem Running.creation (h : Running s u r j) (b : Bytes) :
    let t := u.createSlice r.plate j.taken b
    SameBut (adminParts r.plate) s t ∧
      if s.CreateRange r.plate b then Completes s t r.plate j { status := .range }
      else if s.poolHolds r.plate (recQuota b) {} = false then Completes s t r.plate j { status := .quota }
      else RefusedOr s t r j (CommitBegun s t r.plate r.ring r.index
        [.record (recSlice b) (s.newRecord r.plate (recSlice b)), .impo (recSlice b) (s.createdImpo r.plate b)]
        { info := BitVec.ofNat 32 (recSlice b) }) := by
  dsimp only
  by_cases bad : s.CreateRange r.plate b
  · rw [if_pos bad, State.createSlice_range (h.work.createRange.mpr bad)]
    exact h.fails .range
  have good := h.work.createRange.not.mpr bad
  rw [if_neg bad]
  by_cases full : s.poolHolds r.plate (recQuota b) {} = false
  · rw [if_pos full, State.createSlice_quota good (by rwa [h.work.poolHolds])]
    exact h.fails .quota
  have room : u.poolHolds r.plate (recQuota b) {} = true := by simpa [h.work.poolHolds] using full
  rw [if_neg full, RefusedOr]
  cases hr : s.refuses r.plate false with
  | some st =>
    rw [State.createSlice_refused good room (by rwa [h.work.refuses])]
    exact h.fails st
  | none =>
    rw [State.createSlice_commits good room (by rwa [h.work.refuses])]
    exact h.creates b _ _

/-- SLICE_RESIZE with its session used up (R68). -/
theorem Running.resizing (h : Running s u r j) (b : Bytes) (hb : s.impoBusy = false)
    (hm : (s.impo r.plate (recSlice b)).st ≠ .moving)
    (hl : ∀ x : Plate, s.linesUsed x (recSlice b) ≤ (recQuota b).lines ∧
      s.linesUsed x (recSlice b) ≤ (s.impo x (recSlice b)).quota.lines) :
    let t := u.resizeSlice r.plate j.taken b
    SameBut (.sl r.plate.peer :: adminParts r.plate) s t ∧
      if s.ResizeRange r.plate b then Completes s t r.plate j { status := .range }
      else if s.ResizeQuota r.plate b then Completes s t r.plate j { status := .quota }
      else RefusedOr s t r j (ResizeGoesOn s t r (recSlice b) (recQuota b)) := by
  have fails (st : Status) : SameBut (.sl r.plate.peer :: adminParts r.plate) s (u.fail r.plate j.taken st) ∧
      Completes s (u.fail r.plate j.taken st) r.plate j { status := st } :=
    (h.fails st).imp_left fun f => f.mono fun _ => List.mem_cons_of_mem _
  dsimp only
  by_cases bad : s.ResizeRange r.plate b
  · rw [if_pos bad, State.resizeSlice_range (h.work.resizeRange.mpr bad)]
    exact fails .range
  have good := h.work.resizeRange.not.mpr bad
  rw [if_neg bad]
  by_cases beyond : s.ResizeQuota r.plate b
  · rw [if_pos beyond, State.resizeSlice_quota good (h.work.resizeQuota.mpr beyond)]
    exact fails .quota
  have within := h.work.resizeQuota.not.mpr beyond
  rw [if_neg beyond, RefusedOr]
  cases hr : s.refuses r.plate false with
  | some st =>
    rw [State.resizeSlice_refused good within (by rwa [h.work.refuses])]
    exact fails st
  | none =>
    rw [State.resizeSlice_goes (j := j.taken) good within (by rwa [h.work.refuses]) h.index]
    exact h.resizes hb hm hl (by simpa using (not_or.mp beyond).2) hr

/-- SLICE_DESTROY with its session used up (R69). -/
theorem Running.destruction (h : Running s u r j) (b : Bytes) :
    let t := u.destroySlice r.plate j.taken b
    SameBut (adminParts r.plate) s t ∧
      if s.DestroyRange r.plate b then Completes s t r.plate j { status := .range }
      else RefusedOr s t r j (
        ChangeBegun s t r.plate [.impo (recSlice b) { s.impo r.plate (recSlice b) with st := .draining }] ∧
        (t.jobAt r).map Job.stage = some .running ∧ (t.pl r.plate).sl.ops.get none (recSlice b) = some (destroyOp r)) := by
  dsimp only
  by_cases bad : s.DestroyRange r.plate b
  · rw [if_pos bad, State.destroySlice_range (h.work.destroyRange.mpr bad)]
    exact h.fails .range
  have good := h.work.destroyRange.not.mpr bad
  rw [if_neg bad, RefusedOr]
  cases hr : s.refuses r.plate false with
  | some st =>
    rw [State.destroySlice_refused good (by rwa [h.work.refuses])]
    exact h.fails st
  | none =>
    rw [State.destroySlice_begins (j := j.taken) good (by rwa [h.work.refuses]) h.index, h.work.impo]
    exact h.drains _ _

/-- Settles O25: under a session that passes (`session_cases`) each command is refused or begins its commit (`creation`, `resizing`,
`destruction`). -/
theorem sliceCommands : Obligations.SliceCommands := by
  refine ⟨?create, ?resize, ?destroy⟩
  case create =>
    intro r j b s ht hb hd
    obtain ⟨t, he, ⟨hq, frame, quorum⟩ | ⟨u, v, hq, run, rfl⟩⟩ :=
      State.session_cases ht 64 b fun s w => s.createSlice r.plate j.taken w
    · exact ⟨t, (exec_sliceCreate ht hb hd).trans (congrArg _ he), frame, afterQuorum_none hq quorum⟩
    · obtain ⟨frame, outcome⟩ := run.creation (fit 64 b)
      exact ⟨_, (exec_sliceCreate ht hb hd).trans (congrArg _ he), frame, afterQuorum_some hq outcome⟩
  case resize =>
    intro r j b s ht hw ho p w i e q hl
    rw [exec_sliceResize ht hw ho]
    cases hp : s.inPartition r.plate with
    | true =>
      obtain ⟨frame, partitioned⟩ := (running_of_taken ht).fails .partitioned
      exact ⟨_, rfl, frame.mono fun _ => List.mem_cons_of_mem _, partitioned⟩
    | false =>
      obtain ⟨busy, moving⟩ := State.sliceWaits_none hp hw
      obtain ⟨t, he, ⟨hq, frame, quorum⟩ | ⟨u, v, hq, run, rfl⟩⟩ :=
        State.session_cases ht 64 b fun s w => s.resizeSlice r.plate j.taken w
      · exact ⟨t, congrArg _ he, frame.mono fun _ => List.mem_cons_of_mem _, afterQuorum_none hq quorum⟩
      · obtain ⟨frame, outcome⟩ := run.resizing (fit 64 b) busy moving hl
        exact ⟨_, congrArg _ he, frame, afterQuorum_some hq outcome⟩
  case destroy =>
    intro r j b s ht hw ho
    rw [exec_sliceDestroy ht hw ho]
    cases hp : s.inPartition r.plate with
    | true =>
      obtain ⟨frame, partitioned⟩ := (running_of_taken ht).fails .partitioned
      exact ⟨_, rfl, frame, by rw [if_pos hp]; exact partitioned⟩
    | false =>
      obtain ⟨t, he, ⟨hq, frame, quorum⟩ | ⟨u, v, hq, run, rfl⟩⟩ :=
        State.session_cases ht 64 b fun s w => s.destroySlice r.plate j.taken w
      · exact ⟨t, congrArg _ he, frame, by rw [if_neg (by simp [hp])]; exact afterQuorum_none hq quorum⟩
      · obtain ⟨frame, outcome⟩ := run.destruction (fit 64 b)
        exact ⟨_, congrArg _ he, frame, by rw [if_neg (by simp [hp])]; exact afterQuorum_some hq outcome⟩

end Sys2Proof.Machine

/-! PROOFS. What no step takes back: the relation `Keeps`, and the updates that every operation is made of (O58). -/

namespace Sys2Proof.Machine

/-! ## The relation -/

/-- Between `s` and `t` nothing of the history was taken back: outputs, free values, blown fuses and volatile epochs stand, and the
queue and the clock are those of `s`. -/
structure Keeps (s t : State) : Prop where
  out     : s.out <+: t.out
  pending : t.pending = s.pending
  free    : s.free ≤ t.free
  clock   : t.clock = s.clock
  idf     : ∀ p, (s.pl p).cus.idf = 0x0F → (t.pl p).cus.idf = 0x0F
  rtf     : ∀ p, (s.pl p).cus.rtf = 0x66 → (t.pl p).cus.rtf = 0x66
  epoch   : ∀ p, (s.pl p).vlt.epoch ≤ (t.pl p).vlt.epoch

/-- What a plate becomes keeps its blown fuses, and its volatile epoch does not fall. -/
structure PlateState.Keeps (x y : PlateState) : Prop where
  idf   : x.cus.idf = 0x0F → y.cus.idf = 0x0F
  rtf   : x.cus.rtf = 0x66 → y.cus.rtf = 0x66
  epoch : x.vlt.epoch ≤ y.vlt.epoch

/-- A command answers a next state that keeps the history. -/
def Steps (s : State) (o : Host.Outcome State Fault Refusal) : Prop := ∃ t, o = .next t ∧ Keeps s t

variable {s t u : State}

theorem Keeps.refl (s : State) : Keeps s s := ⟨List.prefix_refl _, rfl, le_rfl, rfl, fun _ => id, fun _ => id, fun _ => le_rfl⟩

theorem Keeps.trans (h : Keeps s t) (k : Keeps t u) : Keeps s u :=
  ⟨h.out.trans k.out, k.pending.trans h.pending, h.free.trans k.free, k.clock.trans h.clock, fun p e => k.idf p (h.idf p e),
    fun p e => k.rtf p (h.rtf p e), fun p => (h.epoch p).trans (k.epoch p)⟩

theorem Keeps.ite {c : Prop} [Decidable c] (h : Keeps s t) (k : Keeps s u) : Keeps s (if c then t else u) := by
  split
  exacts [h, k]

theorem Keeps.next (h : Keeps s t) : Steps s (.next t) := ⟨t, rfl, h⟩

theorem Steps.ite {c : Prop} [Decidable c] {x y : Host.Outcome State Fault Refusal} (h : Steps s x) (k : Steps s y) :
    Steps s (if c then x else y) := by
  split
  exacts [h, k]

theorem Keeps.fst {α : Type} {x : State × α} {a : α} (h : Keeps s x.1) (e : x = (u, a)) : Keeps s u := by
  subst e
  exact h

theorem Keeps.snd {α : Type} {x : α × State} {a : α} (h : Keeps s x.2) (e : x = (a, u)) : Keeps s u := by
  subst e
  exact h

theorem Keeps.pair {α : Type} {a : α} (h : Keeps s u) : Keeps s (u, a).1 := h

/-! ## Updates -/

theorem PlateState.Keeps.of_eq {x y : PlateState} (hc : y.cus = x.cus) (hv : y.vlt = x.vlt) : x.Keeps y :=
  ⟨by rw [hc]; exact id, by rw [hc]; exact id, by rw [hv]⟩

theorem Keeps.upd {p f} (h : Keeps s t) (hf : ∀ x, PlateState.Keeps x (f x)) : Keeps s (t.upd p f) := by
  have plate (q : Plate) : (t.pl q).Keeps ((t.upd p f).pl q) :=
    match p, q with
    | .a, .a | .b, .b => hf _
    | .a, .b | .b, .a => .of_eq rfl rfl
  refine h.trans ⟨?_, ?_, ?_, ?_, fun q => (plate q).idf, fun q => (plate q).rtf, fun q => (plate q).epoch⟩ <;> simp [State.upd]

theorem Keeps.updPow {p f} (h : Keeps s t) : Keeps s (t.updPow p f) := h.upd fun _ => .of_eq rfl rfl
theorem Keeps.updSl {p f} (h : Keeps s t) : Keeps s (t.updSl p f) := h.upd fun _ => .of_eq rfl rfl
theorem Keeps.updRng {p f} (h : Keeps s t) : Keeps s (t.updRng p f) := h.upd fun _ => .of_eq rfl rfl
theorem Keeps.updPr {p f} (h : Keeps s t) : Keeps s (t.updPr p f) := h.upd fun _ => .of_eq rfl rfl
theorem Keeps.updMrg {p f} (h : Keeps s t) : Keeps s (t.updMrg p f) := h.upd fun _ => .of_eq rfl rfl
theorem Keeps.updTmp {p f} (h : Keeps s t) : Keeps s (t.updTmp p f) := h.upd fun _ => .of_eq rfl rfl
theorem Keeps.updFlt {p f} (h : Keeps s t) : Keeps s (t.updFlt p f) := h.upd fun _ => .of_eq rfl rfl
theorem Keeps.updMgt {p f} (h : Keeps s t) : Keeps s (t.updMgt p f) := h.upd fun _ => .of_eq rfl rfl
theorem Keeps.updNvm {p f} (h : Keeps s t) : Keeps s (t.updNvm p f) := h.upd fun _ => .of_eq rfl rfl

@[simp] theorem Vault.raisePage_epoch (x : Vault) (k q : Nat) : (x.raisePage k q).epoch = x.epoch := rfl
@[simp] theorem Vault.setLedger_epoch (x : Vault) (l : Tab Ledger) : (x.setLedger l).epoch = x.epoch := rfl
@[simp] theorem Vault.format_epoch (x : Vault) : x.format.epoch = x.epoch := rfl
@[simp] theorem Vault.adopt_epoch (x : Vault) (q recs slots ledger) : (x.adopt q recs slots ledger).epoch = x.epoch := rfl

theorem Keeps.updVlt {p f} (h : Keeps s t) (hf : ∀ x, x.epoch ≤ (f x).epoch) : Keeps s (t.updVlt p f) :=
  h.upd fun x => ⟨id, id, hf x.vlt⟩

/-- A retirement burns the retired fuse and another change leaves it. -/
theorem rtf_retired {retire : Bool} {x : Byte} (h : x = 0x66) : (if retire then 0x66 else x) = 0x66 := by
  split
  exacts [rfl, h]

theorem Keeps.updCus {p f} (h : Keeps s t) (hf : ∀ x, (x.idf = 0x0F → (f x).idf = 0x0F) ∧ (x.rtf = 0x66 → (f x).rtf = 0x66)) :
    Keeps s (t.updCus p f) :=
  h.upd fun x => ⟨(hf x.cus).1, (hf x.cus).2, le_rfl⟩

/-- A state that differs from `t` beside the plates, the queue and the clock, and sends no less. -/
theorem Keeps.beside (h : Keeps s t) (ha : u.pa = t.pa) (hb : u.pb = t.pb) (ho : t.out <+: u.out) (hp : u.pending = t.pending)
    (hf : t.free ≤ u.free) (hc : u.clock = t.clock) : Keeps s u := by
  have hpl (p : Plate) : u.pl p = t.pl p := by cases p <;> assumption
  exact h.trans ⟨ho, hp, hf, hc, fun p => by rw [hpl]; exact id, fun p => by rw [hpl]; exact id, fun p => by rw [hpl]⟩

theorem Keeps.updMargin {f} (h : Keeps s t) : Keeps s (t.updMargin f) := h.beside rfl rfl (List.prefix_refl _) rfl le_rfl rfl
theorem Keeps.emits {o} (h : Keeps s t) : Keeps s (t.emits o) := h.beside rfl rfl (List.prefix_append _ _) rfl le_rfl rfl
theorem Keeps.emit {o} (h : Keeps s t) : Keeps s (t.emit o) := h.emits
theorem Keeps.tick {k} (h : Keeps s t) : Keeps s (t.tick k) := h.beside rfl rfl (List.prefix_refl _) rfl (Nat.le_add_right _ _) rfl
theorem Keeps.setGut {p l} (h : Keeps s t) : Keeps s (t.setGut p l) := by
  cases p <;> exact h.beside rfl rfl (List.prefix_refl _) rfl le_rfl rfl

/-- A fold keeps what each of its steps keeps. -/
theorem Keeps.each {α : Type} {l : List α} {f} (h : Keeps s t) (hf : ∀ u a, Keeps s u → Keeps s (f u a)) : Keeps s (t.each l f) := by
  induction l generalizing t with
  | nil => exact h
  | cons a l ih => exact ih (hf t a h)

theorem Keeps.setQueue {p f} (h : Keeps s t) : Keeps s (t.setQueue p f) := by unfold State.setQueue; exact h.updMgt

end Sys2Proof.Machine

/-! PROOFS. The history kept by posting, faults, links, key-state changes and the cache (O58). -/

namespace Sys2Proof.Machine

variable {s t u : State}

/-! ## Rings, jobs, messages and random values -/

theorem Keeps.updRing {p q f} (h : Keeps s t) : Keeps s (t.updRing p q f) := by
  unfold State.updRing; split
  exacts [h.updSl, h.updSl]
theorem Keeps.updJob {p q i f} (h : Keeps s t) : Keeps s (t.updJob p q i f) := h.updSl
theorem Keeps.updJobAt {r f} (h : Keeps s t) : Keeps s (t.updJobAt r f) := h.updJob
theorem Keeps.dropJob {p q i} (h : Keeps s t) : Keeps s (t.dropJob p q i) := by
  unfold State.dropJob; exact (h.updVlt (by simp)).updSl
theorem Keeps.send {p m} (h : Keeps s t) : Keeps s (t.send p m) := .ite h.setGut h
theorem Keeps.receive {α : Type} {p} {f : GMsg → Option α} {x} (h : Keeps s t) (e : t.receive p f = some (x, u)) :
    Keeps s u := by
  unfold State.receive at e
  split at e
  · cases e
    exact h.setGut
  · cases e
theorem Keeps.setCustody {p c} (h : Keeps s t) : Keeps s (t.setCustody p c) := h.updCus (by simp)
theorem Keeps.setLcPage {p v} (h : Keeps s t) : Keeps s (t.setLcPage p v) := h.updCus (by simp)
theorem Keeps.updInst {p k f} (h : Keeps s t) : Keeps s (t.updInst p k f) := h.updRng
theorem Keeps.usedBlock {p} (h : Keeps s t) : Keeps s (t.usedBlock p) := h.updRng
theorem Keeps.reseed {p k} (h : Keeps s t) : Keeps s (t.reseed p k) := by
  unfold State.reseed; exact h.usedBlock.updInst.updRng
theorem Keeps.instantiate {p k} (h : Keeps s t) : Keeps s (t.instantiate p k) := h.usedBlock.usedBlock.updInst
theorem Keeps.readied {p k} (h : Keeps s t) : Keeps s (t.readied p k) := .ite h (.ite (.ite h.instantiate h) (.ite h.reseed h))
theorem Keeps.draws {p k l} (h : Keeps s t) : Keeps s (t.draws p k l).2 := by
  induction l generalizing t with
  | nil => exact h
  | cons n l ih => exact ih h.readied.updInst
theorem Keeps.drew {p k l} (h : Keeps s t) : Keeps s (t.drew p k l) := h.draws
theorem Keeps.sealIdentity {p seed} (h : Keeps s t) : Keeps s (t.sealIdentity p seed) := h.updVlt (by simp)

/-! ## Outputs of the collector -/

theorem Keeps.refreshOut {p} (h : Keeps s t) : Keeps s (t.refreshOut p) := h.updPow

/-! ## The recorder (R342) -/

theorem Keeps.record {p trigger profile detail} (h : Keeps s t) : Keeps s (t.record p trigger profile detail) :=
  .ite h (.ite h.updNvm (.ite h.updNvm h.updNvm))
theorem Keeps.fillLog {p} (h : Keeps s t) : Keeps s (t.fillLog p) := .ite h.updNvm h
theorem Keeps.putLog {p r} (h : Keeps s t) : Keeps s (t.putLog p r) := h.updNvm.fillLog
theorem Keeps.writeLog {p r priority} (h : Keeps s t) : Keeps s (t.writeLog p r priority) :=
  .ite h.updNvm (.ite h.updNvm h.putLog)
theorem Keeps.rollWindow {p} (h : Keeps s t) :
    Keeps s (t.rollWindow p) := .ite h (Keeps.updNvm (.ite h (.ite h.updNvm h.putLog)))
theorem execEventRecord_steps {p profile trigger detail} (h : Keeps s t) :
    Steps s (execEventRecord p profile trigger detail t) :=
  Keeps.next (.ite h.record h)
theorem execLogWindowEnd_steps {p} (h : Keeps s t) : Steps s (execLogWindowEnd p t) := h.rollWindow.next

/-! ## Posting (R41 to R45) -/

theorem Keeps.sendMsix {p v} (h : Keeps s t) : Keeps s (t.sendMsix p v) := .ite h.updPow h.emit
theorem Keeps.sendMsixN {p v n} (h : Keeps s t) : Keeps s (t.sendMsixN p v n) := by
  induction n generalizing t with
  | zero => exact h
  | succ n ih => exact ih h.sendMsix
theorem Keeps.flushRing {p q} (h : Keeps s t) : Keeps s (t.flushRing p q) := .ite h h.updRing.sendMsixN
theorem Keeps.translate {p pasid addr} (h : Keeps s t) : Keeps s (t.translate p pasid addr) := .ite h.updPow.emit h
theorem Keeps.sliceWrite {p i addr data relaxed} (h : Keeps s t) : Keeps s (t.sliceWrite p i addr data relaxed) := by
  unfold State.sliceWrite; split
  exacts [.ite h.translate.emit h, h]
theorem Keeps.writeProgress {p i} (h : Keeps s t) : Keeps s (t.writeProgress p i) :=
  h.sliceWrite.updSl.each fun _ _ k => k.flushRing
theorem Keeps.afterRecord {p q advanced batch} (h : Keeps s t) : Keeps s (t.afterRecord p q advanced batch) := by
  unfold State.afterRecord; split
  exacts [h.flushRing, .ite h.updSl (.ite h.writeProgress (.ite h h.flushRing))]
theorem Keeps.meter {p q f} (h : Keeps s t) : Keeps s (t.meter p q f) := by
  unfold State.meter; split
  exacts [h.updSl, h]
theorem Keeps.ringWrite {p q addr data relaxed} (h : Keeps s t) : Keeps s (t.ringWrite p q addr data relaxed) := by
  unfold State.ringWrite; split
  exacts [h.sliceWrite, .ite h.translate.emit h]
theorem Keeps.postAs {p q i d r parked moved batch} (h : Keeps s t) : Keeps s (t.postAs p q i d r parked moved batch) := by
  unfold State.postAs; extract_lets s₁ s₂
  have h₁ : Keeps s s₁ := .ite (h.each fun _ _ k => k.ringWrite) h
  have h₂ : Keeps s s₂ := by
    unfold s₂; split
    exacts [.ite h₁.ringWrite h₁, h₁]
  exact h₂.ringWrite.meter.updRing.afterRecord
theorem Keeps.post {p q i d r parked moved batch} (h : Keeps s t) : Keeps s (t.post p q i d r parked moved batch) := h.postAs
theorem Keeps.finish {p j r} (h : Keeps s t) : Keeps s (t.finish p j r) := .ite h.post.dropJob h
theorem Keeps.fail {p j st} (h : Keeps s t) : Keeps s (t.fail p j st) := h.finish
theorem Keeps.finishBatch {p j r} (h : Keeps s t) : Keeps s (t.finishBatch p j r) := .ite h.post.dropJob h
theorem Keeps.ringFault {p q reason pIndex} (h : Keeps s t) : Keeps s (t.ringFault p q reason pIndex) :=
  h.ringWrite.meter.updRing.updSl.afterRecord
theorem execProgressLineWrite_steps {p i} (h : Keeps s t) : Steps s (execProgressLineWrite p i t) :=
  Keeps.next (.ite h.writeProgress h)
theorem execIrqCoalTimeout_steps {p i r} (h : Keeps s t) : Steps s (execIrqCoalTimeout p i r t) := by
  unfold execIrqCoalTimeout; dsimp only; split
  exacts [.ite (.ite (Keeps.next (.ite h.writeProgress h)) ((Keeps.updRing (.ite h.writeProgress h)).sendMsix.next)) h.next,
      h.next]

/-! ## The fault collector (R300 to R303) -/

theorem Keeps.restartOn {p v} (h : Keeps s t) : Keeps s (t.restartOn p v) := h.updSl
theorem Keeps.withdraw {p v} (h : Keeps s t) : Keeps s (t.withdraw p v) := by
  unfold State.withdraw; split
  exacts [h.updSl.updFlt, h.updSl.updFlt, h.updSl.updFlt]
theorem Keeps.holdLane {p v} (h : Keeps s t) : Keeps s (t.holdLane p v) := by
  unfold State.holdLane; split
  exacts [h.updFlt, h, h]
theorem Keeps.restore {p v} (h : Keeps s t) : Keeps s (t.restore p v) := by
  unfold State.restore; split
  exacts [h.updSl.updFlt, h.updSl.updFlt, h.updSl.updFlt]
theorem Keeps.faultIrq {p} (h : Keeps s t) : Keeps s (t.faultIrq p) := .ite h.sendMsix h
theorem Keeps.latch {p k} (h : Keeps s t) : Keeps s (t.latch p k) :=
  .ite h ((Keeps.refreshOut (.ite h.updFlt.faultIrq h.updFlt)).record)
theorem Keeps.setPin {p k on} (h : Keeps s t) : Keeps s (t.setPin p k on) := .ite h.updFlt h
theorem Keeps.raise {p k} (h : Keeps s t) : Keeps s (t.raise p k) := .ite h.setPin.latch h
theorem Keeps.raiseUnit {p k v} (h : Keeps s t) : Keeps s (t.raiseUnit p k v) :=
  (Keeps.withdraw (.ite h h.restartOn.holdLane)).raise
theorem Keeps.tamper {p k by_ index} (h : Keeps s t) : Keeps s (t.tamper p k by_ index) := .ite h.updTmp.raise h
theorem Keeps.tamperForced {p k} (h : Keeps s t) : Keeps s (t.tamperForced p k) := .ite h.raise.updTmp.tick.record h

/-! ## The Bripa link (R258) -/

theorem Keeps.updLink {e p f} (h : Keeps s t) : Keeps s (t.updLink e p f) := by
  unfold State.updLink; split
  exacts [h.updMrg, h.updMargin, h.updMargin]
theorem Keeps.pumpLink {e p} (h : Keeps s t) : Keeps s (t.pumpLink e p) := .ite h h.updLink.emits
theorem Keeps.sendFrame {e p type res payload} (h : Keeps s t) : Keeps s (t.sendFrame e p type res payload) :=
  .ite h h.updLink.pumpLink
theorem Keeps.sendBare {e p type seq} (h : Keeps s t) : Keeps s (t.sendBare e p type seq) := h.emit
theorem Keeps.setLinkUp {p on} (h : Keeps s t) : Keeps s (t.setLinkUp p on) := by
  unfold State.setLinkUp; exact h.updMrg.updMrg.updMrg
theorem Keeps.noteOwner {p r on} (h : Keeps s t) : Keeps s (t.noteOwner p r on) := by
  unfold State.noteOwner; exact h.updMrg.updMrg
theorem Keeps.endPin {outcome status} (h : Keeps s t) : Keeps s (t.endPin outcome status) := by
  unfold State.endPin; split
  exacts [h.updMargin.sendFrame, h]
theorem Keeps.deactivate {r outcome} (h : Keeps s t) : Keeps s (t.deactivate r outcome) := .ite h.updMargin.endPin h.updMargin
theorem Keeps.freeResource {r} (h : Keeps s t) : Keeps s (t.freeResource r) := .ite h.deactivate (.ite h.updMargin h.updMargin)
theorem Keeps.blockIrq {p b} (h : Keeps s t) : Keeps s (t.blockIrq p b) := h.updMgt
theorem Keeps.disown {p r} (h : Keeps s t) : Keeps s (t.disown p r) := .ite h.updMargin.freeResource h
theorem Keeps.disownAll {p} (h : Keeps s t) : Keeps s (t.disownAll p) := h.each fun _ _ k => k.disown
theorem Keeps.giveUp {p r} (h : Keeps s t) : Keeps s (t.giveUp p r) := .ite h.noteOwner.updMrg h.noteOwner
theorem Keeps.noButton {p i} (h : Keeps s t) : Keeps s (t.noButton p i) := h.updCus (by simp)
theorem Keeps.endTry {p a card} (h : Keeps s t) : Keeps s (t.endTry p a card) := by
  unfold State.endTry; dsimp only; split
  exacts [(Keeps.tick (.ite ((h.updCus (by simp)).sendFrame) (h.updCus (by simp)))).noButton.fail,
      .ite ((h.updCus (by simp)).sendFrame) (h.updCus (by simp))]
theorem Keeps.endTries {p} (h : Keeps s t) : Keeps s (t.endTries p) := by
  unfold State.endTries; split
  exacts [h.endTry, h]
theorem Keeps.giveUpAll {p} (h : Keeps s t) : Keeps s (t.giveUpAll p) := (h.each (fun _ _ k => k.giveUp)).endTries
theorem Keeps.restartLink {e p asked} (h : Keeps s t) : Keeps s (t.restartLink e p asked) := by
  unfold State.restartLink; dsimp only; split
  exacts [h.updLink.giveUpAll, h.updLink.disownAll]
theorem Keeps.sendConfig {p} (h : Keeps s t) : Keeps s (t.sendConfig p) := h.updMrg.sendFrame

/-! ## Key-state changes (R210) -/

theorem Keeps.startGroup {p g} (h : Keeps s t) : Keeps s (t.startGroup p g) := h.updNvm
theorem Keeps.prepare {p items} (h : Keeps s t) : Keeps s (t.prepare p items) := .ite h ((h.drew.updVlt (by simp)).tick)
theorem Keeps.agree (h : Keeps s t) : Keeps s t.agree := h.drew.drew.each (fun _ _ k => k.updVlt (by simp))
theorem Keeps.sendChange {p c} (h : Keeps s t) : Keeps s (t.sendChange p c) := Keeps.send (.ite h.agree h)
theorem Keeps.enrol {p} (h : Keeps s t) : Keeps s (t.enrol p) := by
  unfold State.enrol; exact h.updTmp.updVlt (by simp)
theorem Keeps.sealRoot {p drk salt seq} (h : Keeps s t) : Keeps s (t.sealRoot p drk salt seq) := h.updVlt (by simp)
theorem Keeps.createRoot {p drk salt test seq} (h : Keeps s t) : Keeps s (t.createRoot p drk salt test seq) := by
  unfold State.createRoot; exact (h.enrol.sealRoot.updVlt (by simp)).updSl
theorem Keeps.latchMeters {p l} (h : Keeps s t) : Keeps s (t.latchMeters p l) := h.updSl.each fun _ _ k => k.updSl
theorem Keeps.finalLatch {p i v} (h : Keeps s t) : Keeps s (t.finalLatch p i v) := .ite h.latchMeters h
theorem Keeps.applyItem {p both q x} (h : Keeps s t) : Keeps s (t.applyItem p both q x) := by
  unfold State.applyItem; split
  exacts [h.updVlt (by simp), h.updVlt (by simp), h.updVlt (by simp), h.updVlt (by simp), h.finalLatch.updSl, h.setCustody,
      h.sealIdentity, h.setLcPage.refreshOut, h.createRoot, h.sealRoot.updVlt (by simp), h.updTmp, h.updNvm]
theorem Keeps.applyItems {p both q l} (h : Keeps s t) : Keeps s (t.applyItems p both q l) :=
  (h.each (fun _ _ k => k.applyItem)).updVlt (by simp)
theorem Keeps.addJournal {p j} (h : Keeps s t) : Keeps s (t.addJournal p j) := by
  unfold State.addJournal; split
  exacts [h.updVlt (by simp), h]
theorem Keeps.beginChange {p items j after grant} (h : Keeps s t) : Keeps s (t.beginChange p items j after grant) :=
  .ite ((h.prepare.updVlt (by simp)).sendChange) (.ite ((h.prepare.updVlt (by simp)).startGroup) (h.prepare.updVlt (by simp)))
theorem Keeps.commitJob {p j items r output after} (h : Keeps s t) : Keeps s (t.commitJob p j items r output after) :=
  h.updJob.beginChange
theorem Keeps.repair {p item copy} (h : Keeps s t) : Keeps s (t.repair p item copy) := by
  unfold State.repair; split
  exacts [.ite h ((h.updVlt (by simp)).record.startGroup), .ite h ((h.updVlt (by simp)).record)]

/-! ## Keys and the cache (R144 to R146) -/

theorem Keeps.readRepair {p item} (h : Keeps s t) : Keeps s (t.readRepair p item) := .ite h h.repair
theorem Keeps.readKey {p i k} (h : Keeps s t) : Keeps s (t.readKey p i k) := by
  unfold State.readKey; dsimp only; split
  exacts [h.readRepair.readRepair, h.readRepair]
theorem Keeps.resolveSlot {p i j} (h : Keeps s t) : Keeps s (t.resolveSlot p i j).1 := by
  unfold State.resolveSlot; dsimp only; split
  · exact h.readKey.pair
  · split
    · exact h.readRepair.pair
    · split
      · exact h
      · split
        exacts [h.readKey.pair, h]
theorem Keeps.remask {p} (h : Keeps s t) : Keeps s (t.remask p) := h.updVlt (by simp)
theorem Keeps.updEntry {p i pos f} (h : Keeps s t) : Keeps s (t.updEntry p i pos f) := h.updVlt (by simp)
theorem Keeps.evict {p i n fuel} (h : Keeps s t) : Keeps s (t.evict p i n fuel) := by
  induction fuel generalizing t with
  | zero => exact h
  | succ fuel ih =>
    unfold State.evict; split
    · exact h
    · split
      exacts [ih (h.updVlt (by simp)), h]
theorem Keeps.reserve {p i n again} (h : Keeps s t) : Keeps s (t.reserve p i n again).1 := by
  unfold State.reserve; dsimp only; split
  · exact h
  · split
    exacts [h, h.evict]
theorem Keeps.newEntry {p i lines key filled} (h : Keeps s t) : Keeps s (t.newEntry p i lines key filled).1 := by
  unfold State.newEntry; dsimp only; split
  exacts [(h.tick.updVlt (by simp)).pair, h]
theorem Keeps.issue {p i pos} (h : Keeps s t) : Keeps s (t.issue p i pos).1 := by
  unfold State.issue; exact (h.updEntry.updVlt (by simp)).pair
theorem Keeps.stepEpoch {p} (h : Keeps s t) : Keeps s (t.stepEpoch p) := (h.updVlt (by simp)).startGroup
theorem Keeps.wrapEpoch {p} (h : Keeps s t) : Keeps s (t.wrapEpoch p) := .ite ((h.updVlt (by simp)).stepEpoch.send) h
theorem Keeps.makeVolatile {p k} (h : Keeps s t) : Keeps s (t.makeVolatile p k).1 := by
  unfold State.makeVolatile; dsimp only; split
  · exact h
  · split
    exacts [h, (h.updVlt (by simp)).pair]
theorem Keeps.askLease {p k} (h : Keeps s t) : Keeps s (t.askLease p k) := .ite ((h.updVlt (by simp)).beginChange) h
theorem Keeps.noteExhausted {p k} (h : Keeps s t) : Keeps s (t.noteExhausted p k) :=
  .ite h ((h.each (fun _ _ k => k.updVlt (by simp))).record)
theorem Keeps.drawNumber {p i k pos n} (h : Keeps s t) (e : t.drawNumber p i k pos = some (u, n)) : Keeps s u := by
  unfold State.drawNumber at e
  split at e
  · split at e
    · cases e
      exact .ite (h.updVlt (by simp)).askLease (h.updVlt (by simp))
    · cases e
  · split at e
    · split at e
      · cases e
        exact h.updEntry
      · cases e
    · cases e
  · cases e

/-! ## Pages of a group (R332) -/

theorem Keeps.commitPages {p g} (h : Keeps s t) : Keeps s (t.commitPages p g) := h.updNvm.tick

end Sys2Proof.Machine

/-! PROOFS. The history kept by checks, rings and the scheduler (O58). -/

namespace Sys2Proof.Machine

variable {s t u : State}

/-! ## Checks of a descriptor (Table 2.7) -/

theorem Keeps.readUnder {p q addr len} (h : Keeps s t) : Keeps s (t.readUnder p q addr len) := .ite h.translate.emit h
theorem Keeps.issueRead {p q kind addr len} (h : Keeps s t) :
    Keeps s (t.issueRead p q kind addr len) := .ite h.readUnder.updSl h
theorem Keeps.retireRead {p kind} (h : Keeps s t) : Keeps s (t.retireRead p kind) := h.updSl
theorem Keeps.retireFirst {p kind} (h : Keeps s t) : Keeps s (t.retireFirst p kind) := h.updSl
theorem Keeps.fillWindow {p w q i} (h : Keeps s t) : Keeps s (t.fillWindow p w q i) := by
  unfold State.fillWindow; split
  exacts [h.updSl, h]
theorem Keeps.scrubWindows {p l} (h : Keeps s t) : Keeps s (t.scrubWindows p l) := h.updSl
theorem Keeps.setBuckets {p i b} (h : Keeps s t) : Keeps s (t.setBuckets p i b) := h.updSl
theorem Keeps.chargePk {p i n} (h : Keeps s t) : Keeps s (t.chargePk p i n) := h.setBuckets
theorem Keeps.targetSlot {p i j} (h : Keeps s t) : Keeps s (t.targetSlot p i j).1 := by
  unfold State.targetSlot; dsimp only; split
  · exact h
  · split
    exacts [h.readRepair.applyItems, h.readRepair]
theorem Keeps.freeTarget {p i j alg} (h : Keeps s t) : Keeps s (t.freeTarget p i j alg).1 := by
  unfold State.freeTarget; split
  · next hm => exact h.targetSlot.fst hm
  · next hm =>
      split
      · exact h.targetSlot.fst hm
      · split
        · split
          · next hm' => exact (h.targetSlot.fst hm).targetSlot.fst hm'
          · next hm' => exact (h.targetSlot.fst hm).targetSlot.fst hm'
        · exact h.targetSlot.fst hm
theorem Keeps.joinClass {p j cls} (h : Keeps s t) : Keeps s (t.joinClass p j cls) := .ite h h.updSl
theorem Keeps.nextStep {p j cls phase addOn d1} (h : Keeps s t) : Keeps s (t.nextStep p j cls phase addOn d1) :=
  h.joinClass.updJob
theorem Keeps.makeReady {p j} (h : Keeps s t) : Keeps s (t.makeReady p j) := h.joinClass.updJob.each fun _ _ k => k.issueRead
theorem Keeps.beginFill {p i j cost} (h : Keeps s t) : Keeps s (t.beginFill p i j cost) := by
  unfold State.beginFill; split
  exacts [.ite h.chargePk.fillWindow.updJob h.updJob, h.updJob]
theorem Keeps.waitLines {p j} (h : Keeps s t) : Keeps s (t.waitLines p j) := h.updJob
theorem Keeps.check7Ready {p j} (h : Keeps s t) : Keeps s (t.check7Ready p j) := by
  unfold State.check7Ready; dsimp only; split
  · exact h.finish
  · split
    exacts [.ite h.beginFill h.makeReady, h.makeReady]
theorem Keeps.checks67 {p j} (h : Keeps s t) : Keeps s (t.checks67 p j) := by
  unfold State.checks67; dsimp only; split
  · split
    · next hm => exact (h.reserve.fst hm).fail
    · next hm => exact (h.reserve.fst hm).waitLines
    · next hm =>
        split
        · next hm' => exact ((h.reserve.fst hm).newEntry.fst hm').updJob.check7Ready
        · next hm' => exact ((h.reserve.fst hm).newEntry.fst hm').waitLines
  · split
    · split
      exacts [h.updJob.check7Ready, h.fail]
    · exact h.check7Ready
theorem Keeps.checks567 {p j} (h : Keeps s t) : Keeps s (t.checks567 p j) := by
  unfold State.checks567; dsimp only; split
  exacts [.ite h.checks67 h.fail, h.checks67]
theorem Keeps.needEntry {p j second} (h : Keeps s t) : Keeps s (t.needEntry p j second).1 := by
  unfold State.needEntry; extract_lets i have_ setE byHandle
  clear_value byHandle
  split
  · exact h
  · split
    · split
      exacts [h, h.updJob.pair]
    · split
      · exact h.fail.pair
      · split
        · dsimp only; split
          exacts [h.updEntry.updJob.pair, h.updEntry.updJob.updJob.pair]
        · dsimp only; split
          · next hm => exact (h.reserve.fst hm).fail.pair
          · next hm => exact (h.reserve.fst hm).waitLines.pair
          · next hm =>
            have h := h.reserve.fst hm
            split
            · split
              · next hm => exact (h.newEntry.fst hm).updJob.pair
              · next hm => exact (h.newEntry.fst hm).waitLines.pair
            · split
              · split
                · next hm => exact (h.newEntry.fst hm).updJob.beginFill.pair
                · next hm => exact (h.newEntry.fst hm).waitLines.pair
              · exact h.waitLines.pair
theorem Keeps.afterResolve {p j} (h : Keeps s t) : Keeps s (t.afterResolve p j) := by
  unfold State.afterResolve; dsimp only; split
  · exact h.checks567
  · split
    · next hm => exact h.needEntry.fst hm
    · next hm =>
        split
        · split
          · exact (h.needEntry.fst hm).noteExhausted.fail
          · split
            · next hm' => exact (h.needEntry.fst hm).needEntry.fst hm'
            · next hm' => exact ((h.needEntry.fst hm).needEntry.fst hm').checks567
        · exact (h.needEntry.fst hm).checks567
theorem Keeps.askSlug {p j addr} (h : Keeps s t) : Keeps s (t.askSlug p j addr) := h.updJob.issueRead
theorem Keeps.resolveRef {p i ref} (h : Keeps s t) : Keeps s (t.resolveRef p i ref).1 := by
  unfold State.resolveRef; split
  · split
    · next hm => exact h.resolveSlot.fst hm
    · next hm => exact h.resolveSlot.fst hm
  · split
    exacts [h, h.readKey]
  · exact h
  · exact h
theorem Keeps.resolve2 {p j} (h : Keeps s t) : Keeps s (t.resolve2 p j) := by
  unfold State.resolve2; dsimp only; split
  · split
    · next hm => exact (h.resolveRef.fst hm).fail
    · next hm => exact (h.resolveRef.fst hm).askSlug
    · next hm => exact (h.resolveRef.fst hm).updJob.afterResolve
  · exact h.afterResolve
theorem Keeps.resolveErase {p j} (h : Keeps s t) : Keeps s (t.resolveErase p j) := by
  unfold State.resolveErase; dsimp only; split
  · split
    · next hm => exact (h.targetSlot.fst hm).checks567
    · next hm =>
        split
        · next hm' => exact ((h.targetSlot.fst hm).resolveSlot.fst hm').updJob.checks567
        · next hm' => exact ((h.targetSlot.fst hm).resolveSlot.fst hm').fail
  · split
    exacts [h.updJob.checks567, h.fail]
  · exact h.askSlug
  · exact h.fail
theorem Keeps.checks47 {p j} (h : Keeps s t) : Keeps s (t.checks47 p j) := by
  unfold State.checks47; dsimp only; split
  · exact h.resolveErase
  · split
    · split
      · split
        · next hm => exact (h.freeTarget.fst hm).fail
        · next hm => exact (h.freeTarget.fst hm).checks567
      · exact h.fail
    · split
      · exact .ite h.readKey.fail h.checks567
      · split
        · next hm => exact (h.resolveRef.fst hm).fail
        · next hm => exact (h.resolveRef.fst hm).askSlug
        · next hm => exact (h.resolveRef.fst hm).updJob.resolve2
theorem Keeps.slugResolved {p j k} (h : Keeps s t) : Keeps s (t.slugResolved p j k) :=
  .ite h.updJob.afterResolve h.updJob.resolve2
theorem Keeps.askMaterial {p j k mlen} (h : Keeps s t) : Keeps s (t.askMaterial p j k mlen) := h.updJob.issueRead
theorem Keeps.openSlug {p j k material} (h : Keeps s t) : Keeps s (t.openSlug p j k material) := by
  unfold State.openSlug; dsimp only; split
  · exact h.updJob.fail
  · split
    exacts [h.updJob.slugResolved, h.updJob.fail]
theorem Keeps.resolveSlug {p j header} (h : Keeps s t) : Keeps s (t.resolveSlug p j header) := by
  unfold State.resolveSlug; dsimp only; split
  · exact h.fail
  · split
    · exact h.readKey.fail
    · split
      · exact h.readKey.fail
      · split
        · exact h.updJob.checks567
        · split
          · exact h.fail
          · split
            exacts [h.slugResolved, h.askMaterial]

/-! ## Doorbells, fetches and rings (02) -/

theorem Keeps.readDoorbell {p i timer} (h : Keeps s t) : Keeps s (t.readDoorbell p i timer) := h.updSl.issueRead
theorem execDoorbellPoll_steps {p i} (h : Keeps s t) : Steps s (execDoorbellPoll p i t) :=
  Keeps.next (.ite h (.ite h.readDoorbell h.updSl))
theorem Keeps.takeP {p q v} (h : Keeps s t) : Keeps s (t.takeP p q v) :=
  .ite h.ringFault (.ite h.ringFault (.ite h (h.updRing.each (fun _ _ k => k.issueRead))))
theorem Keeps.doorbellFault {p i} (h : Keeps s t) : Keeps s (t.doorbellFault p i) := h.each fun _ _ k => .ite k.ringFault k
theorem Keeps.noteLine {p i b} (h : Keeps s t) : Keeps s (t.noteLine p i b) := h.each fun _ _ k => .ite k.updRing k
theorem Keeps.doorbellDone {p i line} (h : Keeps s t) : Keeps s (t.doorbellDone p i line) := by
  unfold State.doorbellDone; extract_lets changed s₁ s₂
  have h₁ : Keeps s s₁ := by
    unfold s₁; split
    exacts [h.noteLine, h]
  have h₂ : Keeps s s₂ := h₁.retireFirst.updSl
  refine .ite h₂ ?_
  split
  exacts [h₂.each fun _ _ k => .ite k.takeP k, h₂.doorbellFault]
theorem execDoorbellReadDone_steps {p i line} (h : Keeps s t) : Steps s (execDoorbellReadDone p i line t) :=
  Keeps.next (.ite h.doorbellDone h)
theorem Keeps.nudgeHome {p i} (h : Keeps s t) : Keeps s (t.nudgeHome p i) := .ite h.updSl.readDoorbell h.updSl
theorem execNudge_steps {p i offset size value} (h : Keeps s t) : Steps s (execNudge p i offset size value t) :=
  Keeps.next (.ite h (.ite h.nudgeHome h.send))
theorem execNudgeForwardArrive_steps {p} (h : Keeps s t) : Steps s (execNudgeForwardArrive p t) := by
  unfold execNudgeForwardArrive; split
  · next hm => exact Keeps.next (.ite ((h.receive hm).nudgeHome) (h.receive hm))
  · exact h.next
theorem Keeps.cancelNow {p q} (h : Keeps s t) : Keeps s (t.cancelNow p q) := h.each fun _ _ k => .ite k.fail k
theorem Keeps.arm {p q f} (h : Keeps s t) : Keeps s (t.arm p q f) := by
  unfold State.arm; dsimp only; split
  · exact h.updRing
  · split
    · exact h
    · split
      exacts [.ite h.updRing.cancelNow h, h.updRing.cancelNow]
theorem Keeps.keepCancel {p i r f} (h : Keeps s t) : Keeps s (t.keepCancel p i r f) := h.updSl
theorem execCancel_steps {p i offset size value} (h : Keeps s t) : Steps s (execCancel p i offset size value t) :=
  Keeps.next (.ite h (.ite (.ite (Keeps.send (.ite h h.arm)) (.ite h h.arm)) h.keepCancel.send))
theorem execCancelForwardArrive_steps {p} (h : Keeps s t) : Steps s (execCancelForwardArrive p t) := by
  unfold execCancelForwardArrive; split
  · next hm => exact Keeps.next (.ite ((h.receive hm).arm) ((h.receive hm).keepCancel))
  · exact h.next
theorem Keeps.acceptAdmin {p j} (h : Keeps s t) : Keeps s (t.acceptAdmin p j) :=
  .ite h.fail (.ite h.checks47 (.ite h.updJob (.ite h.fail ((h.each (fun _ _ k => k.issueRead)).updJob.setQueue))))
theorem Keeps.fetched {p q i d} (h : Keeps s t) : Keeps s (t.fetched p q i d) := by
  unfold State.fetched; dsimp only; split
  · exact h.updSl.finishBatch
  · split
    · exact h.updSl.fail
    · split
      · exact h.updSl.fail
      · split
        exacts [h.updSl.acceptAdmin, h.updSl.checks47]
theorem Keeps.fetchDone {p q data} (h : Keeps s t) : Keeps s (t.fetchDone p q data) := by
  unfold State.fetchDone; dsimp only; split
  exacts [h.retireRead.updRing.fetched, h.retireRead.updRing.post]
theorem Keeps.issueFetch {p q} (h : Keeps s t) : Keeps s (t.issueFetch p q) := h.each fun _ _ k => .ite k k.issueRead
theorem execDescriptorFetch_steps {r data} (h : Keeps s t) : Steps s (execDescriptorFetch r data t) :=
  Keeps.next (.ite h.fetchDone h)
theorem Keeps.slugRead {p j header material} (h : Keeps s t) : Keeps s (t.slugRead p j header material) := by
  unfold State.slugRead; dsimp only; split
  exacts [h.retireRead.openSlug, h.retireRead.resolveSlug]
theorem execSlugResolve_steps {r header material} (h : Keeps s t) : Steps s (execSlugResolve r header material t) := by
  unfold execSlugResolve; split
  exacts [Keeps.next (.ite h.slugRead h), h.next]
theorem execLineReserveRetry_steps {r} (h : Keeps s t) : Steps s (execLineReserveRetry r t) := by
  unfold execLineReserveRetry; split
  exacts [Keeps.next (.ite h.afterResolve h), h.next]
theorem execFillDone_steps {r} (h : Keeps s t) : Steps s (execFillDone r t) := by
  unfold execFillDone; split
  exacts [.ite h.updEntry.updJobAt.afterResolve.next h.next, h.next]
theorem Keeps.prefetched {p j d} (h : Keeps s t) : Keeps s (t.prefetched p j d) := by
  unfold State.prefetched; dsimp only; split
  exacts [h.retireRead.joinClass.updJob, h.retireRead.fail]
theorem execInputPrefetch_steps {r d} (h : Keeps s t) : Steps s (execInputPrefetch r d t) := by
  unfold execInputPrefetch; split
  exacts [Keeps.next (.ite h.prefetched h), h.next]
theorem execFence_steps {r} (h : Keeps s t) : Steps s (execFence r t) := by
  unfold execFence; split
  exacts [Keeps.next (.ite h.finish h), h.next]
theorem Keeps.disableRing {p q} (h : Keeps s t) : Keeps s (t.disableRing p q) :=
  Keeps.each (.ite h.updRing.issueFetch h.updRing) fun _ _ k => k.finishBatch
theorem Keeps.endDrain {p q} (h : Keeps s t) : Keeps s (t.endDrain p q) := .ite h.updRing h
theorem Keeps.enableRing {p q cfg} (h : Keeps s t) : Keeps s (t.enableRing p q cfg) := by
  unfold State.enableRing; dsimp only; split
  exacts [h.updRing.updSl.writeProgress, h.updRing]
theorem Keeps.applyRingCfg {p i r v} (h : Keeps s t) : Keeps s (t.applyRingCfg p i r v) :=
  .ite h (.ite (.ite h.updRing (.ite h (.ite h.enableRing h.updRing))) (.ite (.ite h.disableRing.updRing h.updRing) h.updRing))
theorem Keeps.copyOut {p offset size v} (h : Keeps s t) : Keeps s (t.copyOut p offset size v) := .ite h.send h.updPr
theorem execRingEnable_steps {p i r cfg} (h : Keeps s t) : Steps s (execRingEnable p i r cfg t) :=
  Keeps.next (.ite h.applyRingCfg.copyOut h)
theorem execRingDisable_steps {p i r cfg} (h : Keeps s t) : Steps s (execRingDisable p i r cfg t) :=
  Keeps.next (.ite h.applyRingCfg.copyOut h)
theorem Keeps.clearFault {p q} (h : Keeps s t) : Keeps s (t.clearFault p q) :=
  .ite h (.ite h.updRing.issueFetch.takeP h.updRing.issueFetch)
theorem Keeps.clearRing {p i r fault bad} (h : Keeps s t) : Keeps s (t.clearRing p i r fault bad) :=
  .ite h.updRing (.ite (Keeps.clearFault (.ite h.updRing h)) (.ite h.updRing h))
theorem execRingFaultClear_steps {p i r} (h : Keeps s t) : Steps s (execRingFaultClear p i r t) :=
  Keeps.next (.ite h.clearRing.copyOut h)
theorem Keeps.adminPi {p v} (h : Keeps s t) : Keeps s (t.adminPi p v) := .ite h.updSl.takeP h.updSl
theorem execAdminDoorbell_steps {p pi} (h : Keeps s t) : Steps s (execAdminDoorbell p pi t) := Keeps.next (.ite h.adminPi h)
theorem execAdminRingEnable_steps {p cfg} (h : Keeps s t) : Steps s (execAdminRingEnable p cfg t) :=
  Keeps.next (.ite h.enableRing.updSl h)
theorem execAdminRingDisable_steps {p cfg} (h : Keeps s t) : Steps s (execAdminRingDisable p cfg t) :=
  .ite h.disableRing.setQueue.updRing.next h.next
theorem execAdminFaultClear_steps {p} (h : Keeps s t) : Steps s (execAdminFaultClear p t) := Keeps.next (.ite h.clearFault h)

/-! ## The scheduler (R70, R127) -/

theorem Keeps.setSched {p c v} (h : Keeps s t) : Keeps s (t.setSched p c v) := h.updSl
theorem Keeps.charge {p c i n} (h : Keeps s t) : Keeps s (t.charge p c i n) := by
  unfold State.charge; dsimp only; split
  · exact h
  · split
    exacts [h.setBuckets, h.setBuckets, h.setBuckets, h]
theorem Keeps.choose {p c} (h : Keeps s t) : Keeps s (t.choose p c).1 := by
  unfold State.choose; dsimp only; split
  exacts [h.setSched, h.setSched]
theorem Keeps.issueInputs {p j l} (h : Keeps s t) : Keeps s (t.issueInputs p j l) := h.each fun _ _ k => k.issueRead
theorem Keeps.settle {p c i cost} (h : Keeps s t) : Keeps s (t.settle p c i cost) := by
  unfold State.settle; exact h.updSl
theorem Keeps.startReads {p j} (h : Keeps s t) : Keeps s (t.startReads p j) := .ite h.issueRead (.ite h.issueInputs h)
theorem Keeps.startOn {p j unit} (h : Keeps s t) : Keeps s (t.startOn p j unit) := h.charge.fillWindow.updJob.settle.startReads
theorem Keeps.sealStart {p j k f} (h : Keeps s t) (hf : ∀ u n, Keeps s u → Keeps s (f u n)) :
    Keeps s (t.sealStart p j k f) := by
  unfold State.sealStart; dsimp only; split
  · next hm => exact hf _ _ (h.drawNumber hm)
  · split
    · exact h.noteExhausted.fail
    · split
      · split
        · exact h.updJob
        · split
          exacts [h.fail, h.askLease.updJob]
      · exact h.fail
theorem Keeps.startStep {p j unit} (h : Keeps s t) : Keeps s (t.startStep p j unit) := by
  unfold State.startStep; split
  · exact h.startOn
  · split
    · exact h.fail
    · split
      · exact h.fail
      · exact h.fail
      · exact h
      · split
        exacts [.ite (h.sealStart (fun _ _ k => k.updJob.startOn)) h.startOn, h.startOn]
theorem Keeps.restartCipher {p j unit} (h : Keeps s t) : Keeps s (t.restartCipher p j unit) := by
  unfold State.restartCipher; dsimp only; split
  · split
    · split
      · next hm => exact (h.drawNumber hm).updJob.issueInputs
      · split
        · exact h.noteExhausted.fail
        · split
          · split
            · exact h
            · split
              exacts [h.fail, h.askLease]
          · exact h.fail
    · exact h.updJob.issueInputs
  · exact h.updJob.issueInputs
theorem Keeps.startLane {p} (h : Keeps s t) : Keeps s (t.startLane p) := by
  unfold State.startLane
  cases t.selectedJob p with
  | none =>
    have h := (h.updSl (p := p) (f := fun x => { x with selected := none })).choose (p := p) (c := .lane)
    dsimp only; split
    · exact h
    · split
      exacts [.ite h.updSl.startStep h.updSl, h.updSl]
  | some j =>
    dsimp only; split
    exacts [.ite h.updSl.startStep h.updSl, h.updSl]
theorem execJobStart_steps {p c} (h : Keeps s t) : Steps s (execJobStart p c t) := by
  unfold execJobStart; refine Keeps.next ?_
  split
  · exact h
  · split
    · exact h.startLane
    · split
      · exact h.restartCipher
      · split
        · next hm =>
            split
            exacts [(h.choose.fst hm).startStep, (h.choose.fst hm)]
        · next hm => exact h.choose.fst hm
    · split
      · next hm => exact (h.choose.fst hm).startStep
      · next hm => exact h.choose.fst hm
    · split
      · next hm => exact (h.choose.fst hm).startStep
      · next hm => exact h.choose.fst hm
theorem execParkSelect_steps {p} (h : Keeps s t) : Steps s (execParkSelect p t) := by
  unfold execParkSelect; split
  · refine Keeps.next ?_
    split
    · split
      exacts [h.updJob.updJob, h]
    · exact h
  · exact h.next
theorem Keeps.parkJob {p j} (h : Keeps s t) : Keeps s (t.parkJob p j) := by
  unfold State.parkJob; extract_lets queued lane s₁ s₂
  have h₁ : Keeps s s₁ := h.updJob
  have h₂ : Keeps s s₂ := by
    refine .ite ?_ h₁.updSl
    split
    exacts [h₁.fail, h₁]
  split
  exacts [.ite h₂ h₂.updSl.startStep, h₂]
theorem execPark_steps {r} (h : Keeps s t) : Steps s (execPark r t) := by
  unfold execPark; split
  exacts [Keeps.next (.ite h.parkJob h), h.next]
theorem Keeps.readRest {p j} (h : Keeps s t) : Keeps s (t.readRest p j) := .ite h.issueRead h
theorem execJobResume_steps {p} (h : Keeps s t) : Steps s (execJobResume p t) := by
  unfold execJobResume; split
  · split
    · exact h.next
    · dsimp only; split
      exacts [h.updSl.updJob.readRest.next, h.updSl.next]
  · exact h.next

end Sys2Proof.Machine

/-! PROOFS. The history kept by engines, key commands, lanes and random values (O58). -/

namespace Sys2Proof.Machine

variable {s t u : State}

/-! ## The cipher engines (04) -/

theorem Keeps.computed {r x} (h : Keeps s t) : Keeps s (t.computed r x) := h.retireRead.updJobAt
theorem Keeps.readAgain {r j} (h : Keeps s t) : Keeps s (t.readAgain r j) := h.issueInputs
theorem execAeadSeal_steps {r d} (h : Keeps s t) : Steps s (execAeadSeal r d t) := by
  unfold execAeadSeal; split
  exacts [h.computed.next, h.next]
theorem Keeps.openPass {r j x f} (h : Keeps s t) : Keeps s (t.openPass r j x f) := by
  unfold State.openPass; split
  exacts [h.computed, Keeps.computed (.ite h.updJobAt h)]
theorem execAeadOpen_steps {r d} (h : Keeps s t) : Steps s (execAeadOpen r d t) := by
  unfold execAeadOpen; split
  exacts [h.openPass.next, h.next]
theorem execSivOpen_steps {r d} (h : Keeps s t) : Steps s (execSivOpen r d t) := by
  unfold execSivOpen; split
  exacts [h.openPass.next, h.next]
theorem execOpenFirstPassDone_steps {r} (h : Keeps s t) : Steps s (execOpenFirstPassDone r t) := by
  unfold execOpenFirstPassDone; split
  · split
    exacts [.ite (Keeps.next (.ite h.updJobAt.readAgain h.finish)) h.next, h.next]
  · exact h.next
theorem execSivSeal_steps {r d} (h : Keeps s t) : Steps s (execSivSeal r d t) := by
  unfold execSivSeal; split
  · exact h.next
  · dsimp only; split
    exacts [h.computed.next, .ite h.tick.computed.next (.ite h.retireRead.updJobAt.issueInputs.next (Keeps.next (.ite
        h.tick.computed h.computed)))]
theorem execMacGen_steps {r d} (h : Keeps s t) : Steps s (execMacGen r d t) := by
  unfold execMacGen; split
  exacts [h.computed.next, h.next]
theorem execMacVerify_steps {r d} (h : Keeps s t) : Steps s (execMacVerify r d t) := by
  unfold execMacVerify; split
  exacts [h.computed.next, h.next]
theorem execWrap_steps {r d} (h : Keeps s t) : Steps s (execWrap r d t) := by
  unfold execWrap; split
  exacts [h.computed.next, h.next]
theorem execUnwrap_steps {r d} (h : Keeps s t) : Steps s (execUnwrap r d t) := by
  unfold execUnwrap; split
  exacts [h.computed.next, h.next]
theorem execDigest_steps {r d} (h : Keeps s t) : Steps s (execDigest r d t) := by
  unfold execDigest; split
  exacts [h.computed.next, h.next]
theorem Keeps.placeKey {p j k} (h : Keeps s t) : Keeps s (t.placeKey p j k) := by
  unfold State.placeKey; split
  exacts [h.updEntry, h]
theorem Keeps.issueFor {p j x} (h : Keeps s t) : Keeps s (t.issueFor p j x).1 := by
  unfold State.issueFor; dsimp only; split
  · exact h
  · split
    · exact h
    · split
      · split
        · next hm => exact (h.makeVolatile.fst hm).updEntry.issue
        · next hm => exact h.makeVolatile.fst hm
      · exact h.issue
theorem execDerive_steps {r d} (h : Keeps s t) : Steps s (execDerive r d t) := by
  unfold execDerive; split
  · refine Keeps.next ?_
    split
    exacts [h.placeKey.computed, h.computed]
  · exact h.next
theorem execKeyExportWrapped_steps {r} (h : Keeps s t) : Steps s (execKeyExportWrapped r t) := by
  unfold execKeyExportWrapped; split
  exacts [h.computed.next, h.next]
theorem Keeps.engineDone {p j x} (h : Keeps s t) : Keeps s (t.engineDone p j x) :=
  .ite h.wrapEpoch (.ite h.issueFor.finish h.finish)
theorem execEngineJobDone_steps {r} (h : Keeps s t) : Steps s (execEngineJobDone r t) := by
  unfold execEngineJobDone; split
  · split
    exacts [Keeps.next (.ite h.engineDone h), h.next]
  · exact h.next

/-! ## Keys made, imported and erased (07) -/

theorem Keeps.vaultDone {p q i r} (h : Keeps s t) : Keeps s (t.vaultDone p q i r) := h.updJob
theorem Keeps.laneNext {r op} (h : Keeps s t) : Keeps s (t.laneNext r op) := by
  unfold State.laneNext; split
  exacts [.ite h.updJobAt h, h]
theorem execVaultJobDone_steps {r} (h : Keeps s t) : Steps s (execVaultJobDone r t) := by
  unfold execVaultJobDone; split
  · split
    exacts [Keeps.next (.ite h.finish h), h.next]
  · exact h.next
theorem execKeyLoad_steps {r} (h : Keeps s t) : Steps s (execKeyLoad r t) := by
  unfold execKeyLoad; split
  exacts [.ite h.wrapEpoch.next h.placeKey.issueFor.vaultDone.next, h.next]
theorem execKeyInfo_steps {r} (h : Keeps s t) : Steps s (execKeyInfo r t) := by
  unfold execKeyInfo; split
  exacts [h.vaultDone.next, h.next]
theorem Keeps.freshEntry {p e} (h : Keeps s t) : Keeps s (t.freshEntry p e) := by
  unfold State.freshEntry; split
  exacts [h.updVlt (by simp), h]
theorem Keeps.commitGenerated {p j mat attempts work} (h : Keeps s t) : Keeps s (t.commitGenerated p j mat attempts work) := by
  unfold State.commitGenerated; dsimp only; split
  · exact h.fail
  · split
    · exact h.drew.freshEntry.commitJob
    · split
      exacts [h.drew.freshEntry.commitJob, h.fail]
theorem execKeyGenerate_steps {r} (h : Keeps s t) : Steps s (execKeyGenerate r t) := by
  unfold execKeyGenerate; split
  · exact Keeps.next (.ite h.drew.tick.updJobAt h)
  · split
    exacts [Keeps.next (.ite h (.ite h.commitGenerated h.drew.commitGenerated)), h.laneNext.next]
theorem Keeps.importTarget {p i n alg} (h : Keeps s t) : Keeps s (t.importTarget p i n alg).1 := by
  unfold State.importTarget; dsimp only; split
  · exact h
  · split
    · exact h
    · split
      · next hm => exact h.targetSlot.fst hm
      · next hm =>
          split
          · exact h.targetSlot.fst hm
          · split
            · split
              · exact h.targetSlot.fst hm
              · split
                · next hm' => exact (h.targetSlot.fst hm).targetSlot.fst hm'
                · next hm' => exact (h.targetSlot.fst hm).targetSlot.fst hm'
            · exact h.targetSlot.fst hm
theorem Keeps.importCommit {p j v bind items r output after} (h : Keeps s t) :
    Keeps s (t.importCommit p j v bind items r output after) := by
  unfold State.importCommit; dsimp only; split
  · exact h.fail
  · split
    exacts [h.fail, h.commitJob]
theorem Keeps.importSlug {p j v mat} (h : Keeps s t) : Keeps s (t.importSlug p j v mat) := by
  unfold State.importSlug; dsimp only; split
  exacts [h.fail, h.drew.freshEntry.updJob.importCommit]
theorem Keeps.importSlot {p j v mat} (h : Keeps s t) : Keeps s (t.importSlot p j v mat) := by
  unfold State.importSlot; dsimp only; split
  · next hm => exact (h.importTarget.fst hm).fail
  · next hm => exact .ite ((h.importTarget.fst hm).fail) ((h.importTarget.fst hm).drew.freshEntry.updJob.importCommit)
theorem Keeps.importBody {p j v body} (h : Keeps s t) : Keeps s (t.importBody p j v body) :=
  .ite (.ite h.importCommit h.fail) (.ite h.fail (.ite h.importSlug h.importSlot))
theorem Keeps.importChecked {p j v rec} (h : Keeps s t) : Keeps s (t.importChecked p j v rec) :=
  .ite h.fail (.ite h.fail h.updJob.nextStep)
theorem Keeps.importRead {p j msg} (h : Keeps s t) : Keeps s (t.importRead p j msg) := by
  unfold State.importRead; dsimp only; split
  · exact h.fail
  · split
    · exact h.fail
    · split
      exacts [h.finish, h.importChecked]
theorem Keeps.importStepped {p j x} (h : Keeps s t) : Keeps s (t.importStepped p j x) :=
  .ite h.finish (.ite (.ite h.fail h.nextStep) h.nextStep)
theorem execKeyImport_steps {r msg} (h : Keeps s t) : Steps s (execKeyImport r msg t) := by
  unfold execKeyImport; split
  · exact Keeps.next (.ite h.retireRead.fail (.ite (.ite h.retireRead h.retireRead.importBody) h.retireRead.importRead))
  · refine Keeps.next ?_
    split
    exacts [.ite h.updJobAt h, h]
theorem Keeps.freeEnded {p i pos} (h : Keeps s t) : Keeps s (t.freeEnded p i pos) := by
  unfold State.freeEnded; split
  exacts [.ite (h.updVlt (by simp)) h, h]
theorem execKeyErase_steps {r} (h : Keeps s t) : Steps s (execKeyErase r t) := by
  unfold execKeyErase; split
  · refine Keeps.next ?_
    split
    exacts [h.fail, h.updEntry.freeEnded.vaultDone, h.tick.commitJob, h.fail]
  · exact h.next
theorem Keeps.eraseFinal {p j} (h : Keeps s t) : Keeps s (t.eraseFinal p j) := by
  unfold State.eraseFinal; split
  exacts [h, .ite h.fail (.ite h h.commitJob)]
theorem Keeps.drainNext {p j} (h : Keeps s t) : Keeps s (t.drainNext p j) := .ite h (.ite h.eraseFinal h.vaultDone)
theorem execRefcountZero_steps {p item} (h : Keeps s t) : Steps s (execRefcountZero p item t) := by
  unfold execRefcountZero; extract_lets s₁
  have h₁ : Keeps s s₁ := by
    unfold s₁; split
    exacts [h.freeEnded, h]
  exact (h₁.each fun _ _ k => k.drainNext).next
theorem Keeps.eraseDone {p q i gen} (h : Keeps s t) : Keeps s (t.eraseDone p q i gen) := by
  unfold State.eraseDone; extract_lets same s₁
  have h₁ : Keeps s s₁ := by
    unfold s₁; split
    exacts [h.updVlt (by simp), h]
  exact h₁.vaultDone
theorem Keeps.rewriteDone {p q idx i n r} (h : Keeps s t) : Keeps s (t.rewriteDone p q idx i n r) := by
  unfold State.rewriteDone; dsimp only; split
  exacts [(h.updJob.updVlt (by simp)).freshEntry.drainNext, (h.updJob.updVlt (by simp)).freshEntry]

/-! ## The lanes and the justifier (05) -/

theorem Keeps.laneDone {r a x} (h : Keeps s t) : Keeps s (t.laneDone r a x) := h.updJobAt
theorem execSign_steps {r} (h : Keeps s t) : Steps s (execSign r t) := by
  unfold execSign; split
  exacts [Keeps.next (.ite h (Keeps.laneDone (.ite h h.drew))), h.laneNext.next]
theorem execVerify_steps {r} (h : Keeps s t) : Steps s (execVerify r t) := by
  unfold execVerify; split
  exacts [h.laneDone.next, h.laneNext.next]
theorem Keeps.secretDone {r j ss addr x} (h : Keeps s t) : Keeps s (t.secretDone r j ss addr x) :=
  .ite h.laneDone h.placeKey.laneDone
theorem execKemDecaps_steps {r} (h : Keeps s t) : Steps s (execKemDecaps r t) := by
  unfold execKemDecaps; split
  exacts [h.secretDone.next, h.laneNext.next]
theorem execKemEncaps_steps {r} (h : Keeps s t) : Steps s (execKemEncaps r t) := by
  unfold execKemEncaps; split
  exacts [Keeps.next (.ite h.laneDone (.ite h h.drew.secretDone)), h.laneNext.next]
theorem execEcdh_steps {r} (h : Keeps s t) : Steps s (execEcdh r t) := by
  unfold execEcdh; split
  · refine Keeps.next ?_
    split
    exacts [h.secretDone, h.laneDone]
  · exact h.laneNext.next
theorem execRsaDecrypt_steps {r} (h : Keeps s t) : Steps s (execRsaDecrypt r t) := by
  unfold execRsaDecrypt; split
  · refine Keeps.next ?_
    split
    exacts [h.laneDone, h.laneDone]
  · exact h.laneNext.next
theorem Keeps.statementDone {r j head} (h : Keeps s t) : Keeps s (t.statementDone r j head) := .ite h h.drew.laneDone
theorem execKeyAttest_steps {r} (h : Keeps s t) : Steps s (execKeyAttest r t) := by
  unfold execKeyAttest; split
  exacts [h.statementDone.next, h.laneNext.next]
theorem execDeviceAttest_steps {r} (h : Keeps s t) : Steps s (execDeviceAttest r t) := by
  unfold execDeviceAttest; split
  exacts [h.statementDone.next, h.laneNext.next]
theorem Keeps.messageFails {r} (h : Keeps s t) : Keeps s (t.messageFails r) := h.retireRead.updJobAt
theorem execMessageDataArrive_steps {r data} (h : Keeps s t) : Steps s (execMessageDataArrive r data t) := by
  unfold execMessageDataArrive; split
  · split
    · dsimp only; split
      exacts [Keeps.next (.ite h.retireRead.updJobAt h.updJobAt), h.messageFails.next]
    · exact h.next
  · exact h.next
theorem execLaneResultReady_steps {r} (h : Keeps s t) : Steps s (execLaneResultReady r t) := by
  unfold execLaneResultReady; split
  exacts [Keeps.next (.ite h.updJobAt h), h.next]
theorem Keeps.timingFault {p j} (h : Keeps s t) : Keeps s (t.timingFault p j) := by
  unfold State.timingFault; dsimp only; split
  exacts [h.updSl.fail.raiseUnit, h.updSl.fail.raise]
theorem Keeps.release {p j x} (h : Keeps s t) : Keeps s (t.release p j x) :=
  .ite h.importStepped (.ite h.joinClass.updJob (.ite h.wrapEpoch (.ite h.issueFor.finish h.finish)))
theorem execAttemptBoundary_steps {r} (h : Keeps s t) : Steps s (execAttemptBoundary r t) := by
  unfold execAttemptBoundary; split
  exacts [.ite (.ite h.timingFault.next (.ite ((Keeps.updJobAt (.ite h.charge h)).next) (.ite h.next h.timingFault.next)))
      h.next, h.next]
theorem Keeps.reachTarget {p j} (h : Keeps s t) : Keeps s (t.reachTarget p j) := by
  unfold State.reachTarget; split
  exacts [h.fail, h.release, h.timingFault]

/-! ## Random values (08) -/

theorem Keeps.haltJobs {p} (h : Keeps s t) : Keeps s (t.haltJobs p) := h.each fun _ _ k => .ite k.updJob k.fail
theorem Keeps.stallsFail {p} (h : Keeps s t) : Keeps s (t.stallsFail p) := h.updRng.emits
theorem Keeps.entropyHalt {p cell cause} (h : Keeps s t) : Keeps s (t.entropyHalt p cell cause) :=
  .ite h h.updRng.stallsFail.haltJobs.raise
theorem Keeps.condition {p raw} (h : Keeps s t) : Keeps s (t.condition p raw) := by
  unfold State.condition; dsimp only; split
  exacts [h.updRng.entropyHalt, .ite h.updRng.updRng h.updRng]
theorem execConditionerBlock_steps {p raw} (h : Keeps s t) : Steps s (execConditionerBlock p raw t) :=
  Keeps.next (.ite h h.condition)
theorem Keeps.startCell {p k bits} (h : Keeps s t) : Keeps s (t.startCell p k bits) := by
  unfold State.startCell; split
  · exact h
  · dsimp only; split
    exacts [h.updRng.entropyHalt, h.updRng.updRng]
theorem Keeps.fillPool {p l} (h : Keeps s t) : Keeps s (t.fillPool p l).1 := by
  induction l generalizing t with
  | nil => exact h
  | cons b l ih =>
    unfold State.fillPool; split
    exacts [h, ih h.condition]
theorem Keeps.startInstances {p l bs} (h : Keeps s t) : Keeps s (t.startInstances p l bs) := by
  induction l generalizing t bs with
  | nil => exact h
  | cons k l ih =>
    have drawn : Keeps s (if ((t.fillPool p bs).1.pl p).rng.pool.length < 2 then (t.fillPool p bs).1.entropyHalt p 0 0
      else (t.fillPool p bs).1) := .ite h.fillPool.entropyHalt h.fillPool
    exact .ite (ih drawn.updInst) (ih drawn.instantiate)
theorem Keeps.startRandom {p x} (h : Keeps s t) : Keeps s (t.startRandom p x) := by
  unfold State.startRandom; extract_lets mine s₁ s₂
  have h₁ : Keeps s s₁ := .ite h h.entropyHalt
  have h₂ : Keeps s s₂ := h₁.each fun _ _ k => k.startCell
  have h₃ : Keeps s (s₂.fillPool p x.blocks).1 := h₂.fillPool
  exact .ite (Keeps.startInstances (.ite h₃.entropyHalt h₃)) (Keeps.startInstances (.ite h₃.entropyHalt h₃)).updRng
theorem execHealthTestFail_steps {p cell cause} (h : Keeps s t) : Steps s (execHealthTestFail p cell cause t) :=
  Keeps.next (.ite h.entropyHalt h)
theorem execReseedDue_steps {p k} (h : Keeps s t) : Steps s (execReseedDue p k t) := Keeps.next (.ite h.readied h)
theorem execRandom_steps {r d} (h : Keeps s t) : Steps s (execRandom r d t) := by
  unfold execRandom; split
  · refine Keeps.next ?_
    split
    · exact h
    · split
      exacts [h.computed, (Keeps.updInst (.ite h.reseed h)).computed]
  · exact h.next
theorem execRngDataRead_steps {p w width} (h : Keeps s t) : Steps s (execRngDataRead p w width t) :=
  Keeps.next (.ite h (.ite h.emit h.updRng))
theorem execRngDataReady_steps {p w} (h : Keeps s t) : Steps s (execRngDataReady p w t) := by
  unfold execRngDataReady; split
  exacts [Keeps.next (.ite h h.drew.updRng.emit), h.next]

end Sys2Proof.Machine

/-! PROOFS. The history kept by admin commands on custody, slices and the lifecycle (O58). -/

namespace Sys2Proof.Machine

variable {s t u : State}

/-! ## Admin commands, sessions and custodians (10) -/

theorem Keeps.adminTake {r} (h : Keeps s t) : Keeps s (t.adminTake r) := h.setQueue.updJobAt
theorem Keeps.admin {r op f} (h : Keeps s t) (hf : ∀ u j, Keeps s u → Keeps s (f u j)) : Keeps s (t.admin r op f) := by
  unfold State.admin; split
  · split
    exacts [h.adminTake.fail, h, hf _ _ h.adminTake]
  · exact h
theorem Keeps.readAdmin {p addr n} (h : Keeps s t) : Keeps s (t.readAdmin p addr n) := .ite h h.translate.emit
theorem Keeps.withData {p j a d n f} (h : Keeps s t) (hf : ∀ u b, Keeps s u → Keeps s (f u b)) :
    Keeps s (t.withData p j a d n f) := by
  unfold State.withData; split
  exacts [hf _ _ h.readAdmin, h.readAdmin.fail]
theorem Keeps.withInput {p j d n f} (h : Keeps s t) (hf : ∀ u b, Keeps s u → Keeps s (f u b)) :
    Keeps s (t.withInput p j d n f) := by
  unfold State.withInput; split
  exacts [hf _ _ h.retireRead, h.retireRead.fail]
theorem Keeps.updSession {p n f} (h : Keeps s t) : Keeps s (t.updSession p n f) := h.updCus (by simp)
theorem Keeps.endSession {p n} (h : Keeps s t) : Keeps s (t.endSession p n) := h.updCus (by simp)
theorem Keeps.endSessions {p} (h : Keeps s t) : Keeps s (t.endSessions p) := h.updCus (by simp)
theorem Keeps.quorum {p d b} (h : Keeps s t) (e : t.quorum p d b = some u) : Keeps s u := by
  unfold State.quorum at e
  split at e
  · cases e
  · split at e
    · split at e
      · cases e
        exact h
      · cases e
    · split at e
      · cases e
      · split at e
        · cases e
          exact h.updSession
        · cases e
          exact h.endSession
theorem Keeps.withQuorum {p j b f} (h : Keeps s t) (hf : ∀ u, Keeps s u → Keeps s (f u)) : Keeps s (t.withQuorum p j b f) := by
  unfold State.withQuorum; split
  · next hm => exact hf _ (h.quorum hm)
  · exact h.fail
theorem execQuorumOpen_steps {r intended input} (h : Keeps s t) : Steps s (execQuorumOpen r intended input t) :=
  Keeps.next (.ite h (h.admin (fun _ _ k => .ite k.finish (k.withInput (fun _ _ k1 => .ite k1.fail (.ite k1.fail (.ite k1.fail
      (k1.withData (fun _ _ k2 => (k2.drew.updCus (by simp)).finish)))))))))
theorem execQuorumApprove_steps {r approval} (h : Keeps s t) : Steps s (execQuorumApprove r approval t) := by
  refine (h.admin fun _ _ k => k.withInput fun _ _ k => ?_).next
  dsimp only; split
  · exact k.fail
  · split
    exacts [k.fail, .ite k.fail (.ite k.fail k.updSession.finish)]
theorem execQuorumSessionExpire_steps {p n} (h : Keeps s t) : Steps s (execQuorumSessionExpire p n t) := by
  unfold execQuorumSessionExpire; refine Keeps.next ?_
  split
  exacts [.ite h.endSession h, h]
theorem Keeps.commitPage {p j c r after} (h : Keeps s t) : Keeps s (t.commitPage p j c r after) := by
  unfold State.commitPage; split
  · exact h.fail
  · split
    exacts [h.fail, h.commitJob]
theorem Keeps.askCard {p a step b} (h : Keeps s t) : Keeps s (t.askCard p a step b) := (h.updCus (by simp)).sendFrame
theorem Keeps.askPin {p a} (h : Keeps s t) : Keeps s (t.askPin p a) := (h.updCus (by simp)).sendFrame
theorem Keeps.beginEnrol {p j label h' e} (h : Keeps s t) : Keeps s (t.beginEnrol p j label h' e) :=
  .ite h.noButton.fail (.ite h.noButton.fail h.askCard)
theorem Keeps.enrolCommit {p j e} (h : Keeps s t) : Keeps s (t.enrolCommit p j e) := h.commitPage
theorem Keeps.enrolDone {p a e j sig} (h : Keeps s t) : Keeps s (t.enrolDone p a e j sig) :=
  .ite ((h.updCus (by simp)).noButton.fail) (.ite h.endTry (.ite (h.updCus (by simp)) ((h.updCus (by simp)).enrolCommit)))
theorem Keeps.unenroll {p j} (h : Keeps s t) : Keeps s (t.unenroll p j) := .ite h.fail h.commitPage
theorem Keeps.waitButton {p j input} (h : Keeps s t) : Keeps s (t.waitButton p j input) := h.updCus (by simp)
theorem execCustodianEnroll_steps {r label card} (h : Keeps s t) : Steps s (execCustodianEnroll r label card t) := by
  unfold execCustodianEnroll; dsimp only; split
  exacts [h.next, .ite h.next ((h.admin (fun _ _ k => k.withInput (fun _ _ k1 => .ite k1.drew.waitButton.beginEnrol
      (k1.withQuorum (fun _ k2 => k2.beginEnrol))))).next)]
theorem execCustodianRemove_steps {r} (h : Keeps s t) : Steps s (execCustodianRemove r t) := by
  unfold execCustodianRemove; dsimp only; split
  exacts [h.next, .ite h.next ((h.admin (fun _ _ k => .ite k.waitButton (k.withQuorum (fun _ k1 => k1.unenroll)))).next)]
theorem execImporterBind_steps {r key} (h : Keeps s t) : Steps s (execImporterBind r key t) := by
  refine (h.admin fun _ _ k => k.withInput fun _ _ k => k.withQuorum fun _ k => .ite k.fail ?_).next
  split
  exacts [k.fail, k.commitJob]

/-! ## Slices (R66 to R69) -/

theorem Keeps.newInstance {p i} (h : Keeps s t) : Keeps s (t.newInstance p i) := .ite h.instantiate h.updInst
theorem Keeps.openSlice {p i} (h : Keeps s t) : Keeps s (t.openSlice p i) := h.updSl.newInstance
theorem Keeps.createSlice {p j b} (h : Keeps s t) : Keeps s (t.createSlice p j b) := by
  refine .ite h.fail (.ite h.fail ?_)
  split
  exacts [h.fail, h.drew.commitJob]
theorem execSliceCreate_steps {r rec} (h : Keeps s t) : Steps s (execSliceCreate r rec t) :=
  Keeps.next (.ite h (h.admin (fun _ _ k => k.withInput (fun _ _ k1 => k1.withQuorum (fun _ k2 => k2.createSlice)))))
theorem Keeps.endOp {p i r} (h : Keeps s t) : Keeps s (t.endOp p i r) := by
  unfold State.endOp; split
  · dsimp only; split
    · exact h.updSl
    · split
      exacts [h.updSl.finish, h.updSl]
  · exact h
theorem Keeps.opStep {p i n} (h : Keeps s t) : Keeps s (t.opStep p i n) := h.updSl
theorem Keeps.resizeNext {p i} (h : Keeps s t) : Keeps s (t.resizeNext p i) := by
  unfold State.resizeNext; split
  · split
    · exact h
    · dsimp only; split
      · exact (h.each (fun _ _ k => k.evict)).endOp
      · split
        · exact h.each fun _ _ k => k.evict
        · split
          exacts [(h.each (fun _ _ k => k.evict)).endOp, (h.each (fun _ _ k =>
              k.evict)).scrubWindows.scrubWindows.updSl.beginChange]
  · exact h
theorem Keeps.resizeSlice {p j b} (h : Keeps s t) : Keeps s (t.resizeSlice p j b) := by
  unfold State.resizeSlice; dsimp only; split
  · exact h.fail
  · split
    · exact h.fail
    · split
      exacts [h.fail, h.updSl.resizeNext]
theorem execSliceResize_steps {r rec} (h : Keeps s t) : Steps s (execSliceResize r rec t) := by
  unfold execSliceResize; refine Keeps.next ?_
  split
  exacts [.ite h.resizeNext h, .ite h (h.admin (fun _ _ k => .ite k.fail (k.withInput (fun _ _ k1 => k1.withQuorum (fun _ k2 =>
      k2.resizeSlice)))))]
theorem Keeps.disableRings {i home} (h : Keeps s t) : Keeps s (t.disableRings i home) :=
  h.each (fun _ _ k => (Keeps.updRing (.ite k.disableRing k)).endDrain)
theorem Keeps.scrubSlice {p i} (h : Keeps s t) : Keeps s (t.scrubSlice p i) := (h.updVlt (by simp)).scrubWindows.updInst
theorem Keeps.dropTrk {p i} (h : Keeps s t) : Keeps s (t.dropTrk p i) := h.updVlt (by simp)
theorem Keeps.destroyNext {p i} (h : Keeps s t) : Keeps s (t.destroyNext p i) := by
  unfold State.destroyNext; dsimp only; split
  · exact h
  · have h₁ {c : Prop} [Decidable c] {q} : Keeps s (if c then (t.disableRings i q).opStep p i 3 else t) :=
      .ite h.disableRings.opStep h
    exact .ite h (.ite h₁ (.ite h₁ (.ite h₁.dropTrk.dropTrk.scrubSlice.scrubSlice.latchMeters.endOp (.ite h₁
      (.ite h₁.opStep.beginChange (.ite h₁.scrubSlice.scrubSlice.opStep.beginChange h₁.opStep.beginChange))))))
theorem Keeps.destroyCommitted {p i step} (h : Keeps s t) : Keeps s (t.destroyCommitted p i step) :=
  .ite ((h.each (fun _ _ k => k.updSl)).endOp) h.opStep.destroyNext
theorem Keeps.destroySlice {p j b} (h : Keeps s t) : Keeps s (t.destroySlice p j b) := by
  unfold State.destroySlice; dsimp only; split
  · exact h.fail
  · split
    exacts [h.fail, h.updSl.beginChange]
theorem execSliceDestroy_steps {r rec} (h : Keeps s t) : Steps s (execSliceDestroy r rec t) := by
  unfold execSliceDestroy; refine Keeps.next ?_
  split
  exacts [.ite h.destroyNext h, .ite h (h.admin (fun _ _ k => .ite k.fail (k.withInput (fun _ _ k1 => k1.withQuorum (fun _ k2
      => k2.destroySlice)))))]
theorem Keeps.sliceOpNext {i} (h : Keeps s t) : Keeps s (t.sliceOpNext i) := h.each fun _ _ k => k.resizeNext.destroyNext
theorem Keeps.sliceOpsNext (h : Keeps s t) : Keeps s t.sliceOpsNext := h.each fun _ _ k => k.sliceOpNext
theorem execRingDrainEnd_steps {p q} (h : Keeps s t) : Steps s (execRingDrainEnd p q t) := by
  unfold execRingDrainEnd; refine Keeps.next ?_
  split
  exacts [h.endDrain.sliceOpNext, h.endDrain]
theorem execJustifierRelease_steps {r} (h : Keeps s t) : Steps s (execJustifierRelease r t) := by
  unfold execJustifierRelease; split
  · split
    · refine Keeps.next ?_
      split
      exacts [h.reachTarget.sliceOpNext, h.reachTarget]
    · exact h.next
  · exact h.next

/-! ## The lifecycle (R248 to R254) -/

theorem Keeps.applyPolicy {p j b} (h : Keeps s t) : Keeps s (t.applyPolicy p j b) := .ite h.fail h.commitPage
theorem execPolicySet_steps {r rec} (h : Keeps s t) : Steps s (execPolicySet r rec t) :=
  Keeps.next (.ite h (h.admin (fun _ _ k => k.withInput (fun _ _ k1 => .ite k1.waitButton (k1.withQuorum (fun _ k2 =>
      k2.applyPolicy))))))
theorem Keeps.commitLifecycle {p j items code r} (h : Keeps s t) : Keeps s (t.commitLifecycle p j items code r) := by
  unfold State.commitLifecycle; split
  exacts [h.fail, h.commitJob]
theorem Keeps.dealLifecycle {p j dest code f} (h : Keeps s t) : Keeps s (t.dealLifecycle p j dest code f) := by
  unfold State.dealLifecycle; split
  exacts [h.fail, h.drew.commitLifecycle]
theorem Keeps.knockoutBy {p j retire} (h : Keeps s t) : Keeps s (t.knockoutBy p j retire) :=
  .ite (h.each fun _ _ k => (k.updCus (by exact fun _ => ⟨id, rtf_retired⟩)).refreshOut).finish
    (h.each fun _ _ k => k.updCus (by simp)).tamper
theorem Keeps.newDebugNonce {p} (h : Keeps s t) : Keeps s (t.newDebugNonce p) := by
  unfold State.newDebugNonce; exact h.drew.updCus (by simp)
theorem Keeps.lifecycleAct {p j b} (h : Keeps s t) : Keeps s (t.lifecycleAct p j b) :=
  .ite h.knockoutBy (.ite h.knockoutBy (.ite (.ite h.finish h.dealLifecycle) (.ite (.ite ((h.each (fun _ _ k => k.updCus
      (by simp))).finish) h.fail) (.ite h.commitLifecycle (.ite h.dealLifecycle (.ite (Keeps.dealLifecycle (.ite
      h.newDebugNonce h)) h.fail))))))
theorem Keeps.lifecycleSet {p j b} (h : Keeps s t) : Keeps s (t.lifecycleSet p j b) := by
  unfold State.lifecycleSet; dsimp only; split
  · exact h.fail
  · split
    · exact h.fail
    · split
      exacts [h.lifecycleAct, h.withQuorum (fun _ k => k.lifecycleAct), h.waitButton, h.withQuorum (fun _ k => k.waitButton)]
theorem execLifecycleSet_steps {r material} (h : Keeps s t) : Steps s (execLifecycleSet r material t) :=
  Keeps.next (.ite h (h.admin (fun _ _ k => k.withInput (fun _ _ k1 => k1.lifecycleSet))))
theorem Keeps.lifecycleDone {p code} (h : Keeps s t) : Keeps s (t.lifecycleDone p code) :=
  .ite (h.each fun _ _ k => (k.updCus (by simp)).refreshOut) (.ite (h.each fun _ _ k => k.sendConfig) h)
theorem execKnockoutCmd_steps {r} (h : Keeps s t) : Steps s (execKnockoutCmd r t) :=
  (h.admin (fun _ _ k => .ite (k.withQuorum (fun _ k1 => k1.knockoutBy)) k.fail)).next
theorem Keeps.buttonOne {p} (h : Keeps s t) : Keeps s (t.buttonOne p) := by
  unfold State.buttonOne; split
  · exact h
  · dsimp only; split
    · exact h.updCus (by simp)
    · split
      · exact h
      · split
        · exact (h.updCus (by simp)).applyPolicy
        · split
          · exact (h.updCus (by simp)).lifecycleAct
          · split
            · exact (h.updCus (by simp)).unenroll
            · split
              exacts [(h.updCus (by simp)).enrolCommit, h]
theorem execButtonWaitTimeout_steps {p} (h : Keeps s t) : Steps s (execButtonWaitTimeout p t) := by
  unfold execButtonWaitTimeout; refine Keeps.next ?_
  split
  · split
    · dsimp only; split
      exacts [(h.updCus (by simp)).fail, h.updCus (by simp)]
    · exact h
  · exact h

end Sys2Proof.Machine

/-! PROOFS. The history kept by the Margin (O58). -/

namespace Sys2Proof.Machine

variable {s t u : State}

/-! ## The Margin (11) -/

theorem Keeps.countDrop {e p} (h : Keeps s t) : Keeps s (t.countDrop e p) := by
  unfold State.countDrop; split
  exacts [h.updMrg, h.updMargin]
theorem Keeps.frameArrives {e p f} (h : Keeps s t) : Keeps s (t.frameArrives e p f) := by
  unfold State.frameArrives; extract_lets bare s₁ s₂ deliver
  have h₁ : Keeps s s₁ := by
    unfold s₁; split
    exacts [h.setLinkUp, h]
  have h₂ : Keeps s s₂ := .ite h₁ h₁.countDrop
  have delivers {v} (k : Keeps s v) : Keeps s (deliver v) := .ite k.updLink k
  exact .ite (delivers h₂) (Keeps.sendBare (.ite (delivers h₂.updLink) h₂))
theorem execBripaFrameRecv_steps {e p bytes idle} (h : Keeps s t) : Steps s (execBripaFrameRecv e p bytes idle t) := by
  unfold execBripaFrameRecv; refine Keeps.next ?_
  split
  · exact h
  · split
    · exact .ite h h.frameArrives
    · split
      exacts [h.updMrg, h]
theorem Keeps.takeBare {e p n f} (h : Keeps s t) (hm : t.takeBare e p n = some (f, u)) : Keeps s u := by
  unfold State.takeBare at hm
  split at hm
  · cases hm
    exact h.updLink
  · cases hm
theorem Keeps.takeNext {e p n f} (h : Keeps s t) (hm : t.takeNext e p n = some (f, u)) : Keeps s u := by
  unfold State.takeNext at hm
  split at hm
  · split at hm
    · cases hm
      exact h.updLink
    · cases hm
  · cases hm
theorem Keeps.toMailbox {p f} (h : Keeps s t) : Keeps s (t.toMailbox p f) := h.updMrg.blockIrq
theorem Keeps.fromMailbox {p type r b} (h : Keeps s t) : Keeps s (t.fromMailbox p type r b) := by
  unfold State.fromMailbox; dsimp only; split
  · exact h.sendFrame
  · split
    exacts [.ite h.sendFrame.giveUp.endTry h.sendFrame.giveUp, h.sendFrame.giveUp]
theorem Keeps.mailboxRow {c n f} (h : Keeps s t) (hf : ∀ u, Keeps s u → Keeps s (f u)) : Keeps s (t.mailboxRow c n f) := by
  unfold State.mailboxRow; split
  exacts [.ite h.fromMailbox h, hf _ h]
theorem Keeps.owned {p n f} (h : Keeps s t) (hf : ∀ u x r, Keeps s u → Keeps s (f u x r)) : Keeps s (t.owned p n f) := by
  unfold State.owned; split
  · next hm => exact .ite (hf _ _ _ (h.takeNext hm)) (h.takeNext hm).sendFrame
  · exact h
theorem execAck_steps {e p} (h : Keeps s t) : Steps s (execAck e p t) := by
  unfold execAck; split
  · next hm => exact Keeps.next (.ite ((h.takeBare hm).updLink.pumpLink.updMrg) ((h.takeBare hm).updLink.pumpLink))
  · exact h.next
theorem Keeps.giveUpLink {e p} (h : Keeps s t) : Keeps s (t.giveUpLink e p) := by
  unfold State.giveUpLink; dsimp only; split
  exacts [h.restartLink.sendBare.setLinkUp.raise, h.restartLink.sendBare]
theorem execBripaRetransmit_steps {e p} (h : Keeps s t) : Steps s (execBripaRetransmit e p t) := by
  unfold execBripaRetransmit; refine Keeps.next ?_
  split
  exacts [.ite h (.ite h.giveUpLink h.updLink.emits), h]
theorem execLinkReset_steps {e p} (h : Keeps s t) : Steps s (execLinkReset e p t) := by
  unfold execLinkReset; split
  · next hm =>
      split
      · exact (h.takeBare hm).updLink.pumpLink.next
      · refine Keeps.next ?_
        split
        exacts [(h.takeBare hm).restartLink.sendBare.pumpLink.raise, (h.takeBare hm).restartLink.sendBare.pumpLink]
  · exact h.next
theorem execHello_steps {p} (h : Keeps s t) : Steps s (execHello p t) := by
  unfold execHello; split
  · next hm => exact (h.takeNext hm).giveUpAll.updMrg.sendConfig.next
  · exact h.next
theorem Keeps.decideTamper {i cause} (h : Keeps s t) : Keeps s (t.decideTamper i cause) := h.updMargin
theorem Keeps.closeDisc {i} (h : Keeps s t) : Keeps s (t.closeDisc i) := h.updMargin
theorem Keeps.endDisc {i e} (h : Keeps s t) : Keeps s (t.endDisc i e) := .ite h.closeDisc.decideTamper h.closeDisc.updMargin
theorem Keeps.openDisc {i t'} (h : Keeps s t) : Keeps s (t.openDisc i t') := by
  unfold State.openDisc; exact h.tick.updMargin
theorem Keeps.judge {i t'} (h : Keeps s t) : Keeps s (t.judge i t') := by
  unfold State.judge; dsimp only; split
  · exact h
  · split
    · exact h.closeDisc.decideTamper
    · split
      · split
        exacts [h, .ite h.updMargin h.endDisc.openDisc, h.openDisc]
      · exact h
theorem Keeps.reconfigure {old i} (h : Keeps s t) : Keeps s (t.reconfigure old i) := .ite h h.closeDisc.judge
theorem execConfig_steps {p} (h : Keeps s t) : Steps s (execConfig p t) := by
  unfold execConfig; split
  · next hm => exact .ite ((h.takeNext hm).next) (((h.takeNext hm).updMargin.each (fun _ _ k1 => k1.reconfigure)).next)
  · exact h.next
theorem Keeps.takeClaim {p} (h : Keeps s t) : Keeps s (t.takeClaim p) := by
  unfold State.takeClaim; split
  · next hm =>
      dsimp only; split
      · exact h
      · split
        · exact h.takeNext hm
        · split
          exacts [(h.takeNext hm).updMargin.sendFrame, (h.takeNext hm).sendFrame]
  · exact h
theorem execClaim_steps {p} (h : Keeps s t) : Steps s (execClaim p t) := (h.mailboxRow (fun _ k => k.takeClaim)).next
theorem execGrant_steps {p} (h : Keeps s t) : Steps s (execGrant p t) := by
  unfold execGrant; split
  · next hm => exact .ite ((h.takeNext hm).next) ((Keeps.toMailbox (.ite ((h.takeNext hm).noteOwner) ((h.takeNext
      hm).giveUp))).next)
  · exact h.next
theorem execReleaseFrame_steps {p} (h : Keeps s t) : Steps s (execReleaseFrame p t) :=
  (h.mailboxRow (fun _ k => k.owned (fun _ _ _ k1 => k1.disown))).next
theorem Keeps.toCard {r b} (h : Keeps s t) : Keeps s (t.toCard r b) := h.updMargin.emits
theorem Keeps.cardToOwner {r body} (h : Keeps s t) : Keeps s (t.cardToOwner r body) := by
  unfold State.cardToOwner; split
  exacts [h.sendFrame, h]
theorem Keeps.toBoth {type res body} (h : Keeps s t) : Keeps s (t.toBoth type res body) := h.sendFrame.sendFrame
theorem execCardCtrl_steps {p atr} (h : Keeps s t) : Steps s (execCardCtrl p atr t) := by
  refine (h.mailboxRow fun _ k => k.owned fun _ _ _ k => .ite k (.ite ?_ (.ite k.deactivate k))).next
  split
  exacts [k.updMargin.emits.cardToOwner, k.deactivate.cardToOwner]
theorem Keeps.abandon {p r} (h : Keeps s t) : Keeps s (t.abandon p r) := by
  unfold State.abandon; split
  exacts [.ite h.endTry h, h]
theorem execCardEvent_steps {p} (h : Keeps s t) : Steps s (execCardEvent p t) := by
  unfold execCardEvent; split
  · next hm =>
    extract_lets r b s₁ s₂
    have h₁ : Keeps s s₁ := .ite (h.takeNext hm).updMrg (.ite (h.takeNext hm).updMrg (h.takeNext hm))
    have h₂ : Keeps s s₂ := .ite h₁.abandon h₁
    exact h₂.toMailbox.next
  · exact h.next
theorem execApdu_steps {p} (h : Keeps s t) : Steps s (execApdu p t) :=
  (h.mailboxRow (fun _ k => k.owned (fun _ _ _ k1 => .ite k1 (.ite k1.updMargin (.ite k1.updMargin.toCard k1.updMargin))))).next
theorem Keeps.countLocal {p a sig} (h : Keeps s t) : Keeps s (t.countLocal p a sig) := by
  unfold State.countLocal; dsimp only; split
  · split
    exacts [.ite (h.updCus (by simp)) ((h.updCus (by simp)).updSession), h.updCus (by simp)]
  · exact h.updCus (by simp)
theorem Keeps.cardAnswers {p a b} (h : Keeps s t) : Keeps s (t.cardAnswers p a b) := by
  unfold State.cardAnswers; dsimp only; split
  · exact h.endTry
  · split
    · exact h.askCard
    · exact h.askPin
    · exact .ite h.endTry h.askPin
    · split
      exacts [.ite h.endTry h.enrolDone, h.endTry]
    · exact .ite h.endTry h.countLocal
    · exact h
theorem execResp_steps {c} (h : Keeps s t) : Steps s (execResp c t) := by
  unfold execResp; dsimp only; split
  · exact Keeps.next (.ite (h.updMargin.each (fun _ _ k => k.sendFrame)) h)
  · split
    · next hm =>
        refine Keeps.next ?_
        split
        exacts [.ite ((h.takeNext hm).toMailbox) (.ite ((h.takeNext hm).toMailbox.cardAnswers) ((h.takeNext
            hm).toMailbox.updCus (by simp))), (h.takeNext hm).toMailbox]
    · exact h.next
theorem execCardPresence_steps {r present} (h : Keeps s t) : Steps s (execCardPresence r present t) :=
  Keeps.next (.ite h (.ite h.updMargin (.ite h.updMargin.toBoth h.updMargin.deactivate.toBoth)))
theorem execCardOvercurrent_steps {r} (h : Keeps s t) : Steps s (execCardOvercurrent r t) :=
  Keeps.next (.ite h.deactivate.toBoth h)
theorem execCardResponseTimeout_steps {p r} (h : Keeps s t) : Steps s (execCardResponseTimeout p r t) := by
  unfold execCardResponseTimeout; refine Keeps.next ?_
  split
  exacts [.ite (Keeps.endTry (.ite h.deactivate h)) (.ite h.deactivate h), .ite h.deactivate h]
theorem Keeps.showApproval {p x} (h : Keeps s t) : Keeps s (t.showApproval p x) := h.each fun _ _ k => k.sendFrame
theorem execPinCollect_steps {c} (h : Keeps s t) : Steps s (execPinCollect c t) := by
  unfold execPinCollect; dsimp only; split
  · refine Keeps.next ?_
    split
    exacts [.ite h h.showApproval.askCard, h]
  · exact (h.owned (fun _ _ _ k => .ite k.sendFrame (.ite k k.updMargin))).next
theorem execPinResult_steps {p} (h : Keeps s t) : Steps s (execPinResult p t) := by
  unfold execPinResult; split
  · next hm =>
      refine Keeps.next ?_
      split
      · split
        · exact (h.takeNext hm).toMailbox
        · split
          · exact (h.takeNext hm).toMailbox.endTry
          · split
            exacts [(h.takeNext hm).toMailbox.askCard, (h.takeNext hm).toMailbox.updCus (by simp)]
      · exact (h.takeNext hm).toMailbox
  · exact h.next
theorem Keeps.toConsole {type body} (h : Keeps s t) : Keeps s (t.toConsole type body) := by
  unfold State.toConsole; split
  exacts [h.sendFrame, h]
theorem execKeypadPress_steps {ch status} (h : Keeps s t) : Steps s (execKeypadPress ch status t) := by
  unfold execKeypadPress; refine Keeps.next ?_
  split
  · exact h
  · split
    exacts [h.toConsole, .ite (.ite h.updMargin.toConsole h) (.ite h.updMargin (.ite h.toCard.endPin h))]
theorem execButtonPress_steps {n pressed} (h : Keeps s t) : Steps s (execButtonPress n pressed t) :=
  Keeps.next (.ite h (Keeps.toConsole (.ite h.endPin h)))
theorem execKey_steps {p} (h : Keeps s t) : Steps s (execKey p t) := by
  unfold execKey; split
  · next hm => exact ((h.takeNext hm).toMailbox.updCus (by simp)).next
  · exact h.next
theorem Keeps.approveNow {p a} (h : Keeps s t) : Keeps s (t.approveNow p a) := by
  unfold State.approveNow; split
  exacts [h.askCard, h.endTry]
theorem execButton_steps {p} (h : Keeps s t) : Steps s (execButton p t) := by
  unfold execButton; split
  · next hm =>
      dsimp only; split
      · exact (h.takeNext hm).toMailbox.next
      · split
        exacts [Keeps.next (.ite ((h.takeNext hm).toMailbox.endTry) (.ite ((h.takeNext hm).toMailbox.approveNow) ((h.takeNext
            hm).toMailbox))), Keeps.next (.ite ((h.takeNext hm).toMailbox) ((h.takeNext hm).toMailbox.buttonOne))]
  · exact h.next
theorem execLocalApprovalTimeout_steps {p} (h : Keeps s t) : Steps s (execLocalApprovalTimeout p t) := by
  unfold execLocalApprovalTimeout; refine Keeps.next ?_
  split
  exacts [.ite h.endTry h, h]
theorem execDisplay_steps {p} (h : Keeps s t) : Steps s (execDisplay p t) :=
  (h.mailboxRow (fun _ k => k.owned (fun _ _ _ k1 => .ite k1.updMargin.emit k1))).next
theorem execLed_steps {p} (h : Keeps s t) : Steps s (execLed p t) :=
  (h.mailboxRow (fun _ k => k.owned (fun _ _ _ k1 => .ite k1.updMargin k1))).next
theorem Keeps.sdDone {p status done capacity} (h : Keeps s t) : Keeps s (t.sdDone p status done capacity) := h.sendFrame
theorem Keeps.sdCommand {p card locked} (h : Keeps s t) : Keeps s (t.sdCommand p card locked) := by
  refine h.owned fun v f r k => .ite k (.ite (.ite k.sdDone ?_) (.ite k ?_))
  · dsimp only; split
    exacts [k.updMargin.emits.sdDone, k.updMargin.emits.sdDone]
  · have k : Keeps s (if f.at_ 0 == 2 && v.margin.sdPresent then v.updMargin fun g => { g with sdLocked := locked } else v) :=
      .ite k.updMargin k
    dsimp only; split
    exacts [k.sdDone, k.updMargin.emit]
theorem Keeps.writeBlocks {p lba b} (h : Keeps s t) : Keeps s (t.writeBlocks p lba b) :=
  h.sendFrame.each fun _ _ k => k.sendFrame
theorem Keeps.spoolGo {p} (h : Keeps s t) : Keeps s (t.spoolGo p) := by
  unfold State.spoolGo; split
  · split
    exacts [h.writeBlocks, h.updMrg]
  · exact h
theorem Keeps.spoolAppend {p kind payload} (h : Keeps s t) : Keeps s (t.spoolAppend p kind payload) :=
  .ite h ((Keeps.updMrg (.ite h h.drew)).spoolGo)
theorem Keeps.spoolDone {p status done} (h : Keeps s t) : Keeps s (t.spoolDone p status done) := by
  unfold State.spoolDone; split
  exacts [.ite h (.ite h.updMrg.spoolGo h.updMrg), h]
theorem execSdCmd_steps {p use} (h : Keeps s t) : Steps s (execSdCmd p use t) := by
  unfold execSdCmd; refine Keeps.next ?_
  split
  exacts [h.sdCommand, .ite h.updMrg h, .ite h.spoolAppend h]
theorem Keeps.sdRead {p data} (h : Keeps s t) : Keeps s (t.sdRead p data) := by
  unfold State.sdRead; split
  exacts [.ite h.updMargin.sendFrame h, h]
theorem execSdData_steps {e p} (h : Keeps s t) : Steps s (execSdData e p t) := by
  unfold execSdData; dsimp only; split
  · split
    · next hm => exact (h.takeNext hm).toMailbox.next
    · exact h.next
  · refine .ite h.sdRead.next (h.owned fun _ _ _ k => ?_).next
    split
    exacts [.ite k.updMargin.emits k, k]
theorem execSdDone_steps {x} (h : Keeps s t) : Steps s (execSdDone x t) := by
  unfold execSdDone; dsimp only; split
  · refine Keeps.next ?_
    split
    exacts [.ite h (.ite h.updMargin.sdDone (.ite h (.ite (.ite h.emits h) ((Keeps.updMargin (.ite h.emits h)).sdDone)))), h]
  · split
    · next hm => exact (h.takeNext hm).toMailbox.spoolDone.next
    · exact h.next
theorem execSdBusyTimeout_steps (h : Keeps s t) : Steps s (execSdBusyTimeout t) := by
  unfold execSdBusyTimeout; refine Keeps.next ?_
  split
  · split
    exacts [.ite h.updMargin.sdDone h, h]
  · exact h
theorem execSdRemoval_steps (h : Keeps s t) : Steps s (execSdRemoval t) := by
  refine Keeps.next (.ite h (.ite h.updMargin.updMargin (Keeps.toBoth (Keeps.updMargin ?_))))
  split
  exacts [h.updMargin.sdDone, h.updMargin]
theorem execSdInsertion_steps {locked card} (h : Keeps s t) : Steps s (execSdInsertion locked card t) := by
  unfold execSdInsertion; refine Keeps.next ?_
  split
  · exact h
  · dsimp only; split
    · exact h.updMargin
    · split
      exacts [h.updMargin.toBoth.emits.sdDone, h.updMargin.toBoth.emits.sdDone, h.updMargin.toBoth.emits]
theorem execSdEvent_steps {p} (h : Keeps s t) : Steps s (execSdEvent p t) := by
  unfold execSdEvent; split
  · next hm => exact (h.takeNext hm).toMailbox.updMrg.next
  · exact h.next
theorem execLoopDeglitch_steps {i loop st} (h : Keeps s t) : Steps s (execLoopDeglitch i loop st t) :=
  Keeps.next (.ite h (.ite h.updMargin.updMargin h.updMargin.judge))
theorem execDiscrepancyExpire_steps {i} (h : Keeps s t) : Steps s (execDiscrepancyExpire i t) := by
  unfold execDiscrepancyExpire; refine Keeps.next ?_
  split
  exacts [.ite h.closeDisc.decideTamper h, h]
theorem execDiscrepancyEnd_steps {i} (h : Keeps s t) : Steps s (execDiscrepancyEnd i t) := by
  unfold execDiscrepancyEnd; refine Keeps.next ?_
  split
  exacts [.ite h.endDisc h, h]
theorem execKoChannelAssert_steps (h : Keeps s t) : Steps s (execKoChannelAssert t) := by
  unfold execKoChannelAssert; refine Keeps.next ?_
  split
  exacts [(h.updMargin.each (fun _ _ k => .ite k k.updTmp)).toBoth, h]
theorem execTamper_steps {p} (h : Keeps s t) : Steps s (execTamper p t) := by
  unfold execTamper; split
  · next hm => exact (h.takeNext hm).next
  · exact h.next
theorem execLoopStatusPeriod_steps (h : Keeps s t) : Steps s (execLoopStatusPeriod t) :=
  Keeps.next (.ite h (.ite h.updMargin h.updMargin.toBoth))
theorem execLoopStatus_steps {p} (h : Keeps s t) : Steps s (execLoopStatus p t) := by
  unfold execLoopStatus; split
  · next hm => exact (h.takeNext hm).updMrg.record.next
  · exact h.next
theorem execFieldPowerUp_steps (h : Keeps s t) : Steps s (execFieldPowerUp t) := .ite h.next h.updMargin.toBoth.next
theorem execBrownOut_steps (h : Keeps s t) : Steps s (execBrownOut t) := h.updMargin.next
theorem execAllClearValid_steps {p} (h : Keeps s t) : Steps s (execAllClearValid p t) := Keeps.next (.ite h.updMrg h)
theorem Keeps.clearLost {x} (h : Keeps s t) (e : t.clearLost x = some u) : Keeps s u := by
  unfold State.clearLost at e
  split at e
  · split at e
    · cases e
      exact h.updMargin
    · split at e
      · cases e
        exact h
      · cases e
  · split at e
    · cases e
    · cases e
      exact h
theorem execAllClearLost_steps {c} (h : Keeps s t) : Steps s (execAllClearLost c t) := by
  unfold execAllClearLost; refine Keeps.next ?_
  split
  · exact h
  · split
    · exact h
    · next hm => exact .ite ((h.clearLost hm).giveUpAll.updMrg.setLinkUp.tamper) ((h.clearLost
        hm).giveUpAll.updMrg.setLinkUp.raise)

end Sys2Proof.Machine

/-! PROOFS. The history kept by resets, takeover, hand-over, commits and the gutter (O58). -/

namespace Sys2Proof.Machine

variable {s t u : State}

/-! ## Plate reset, token and class C (R279, R225) -/

theorem Keeps.saveWindows {p} (h : Keeps s t) : Keeps s (t.saveWindows p) := by
  unfold State.saveWindows; exact h.updVlt (by simp)
theorem Keeps.applyContent {p both g} (h : Keeps s t) : Keeps s (t.applyContent p both g) := h.applyItems.addJournal
theorem Keeps.applyGroup {p both g} (h : Keeps s t) : Keeps s (t.applyGroup p both g) := h.applyContent.commitPages
theorem Keeps.cutGroup {v p g bits} (h : Keeps s t) : Keeps s (t.cutGroup v p g bits) := (h.each fun _ _ k => k.updNvm).tick
theorem Keeps.cutEach {v p old l} (h : Keeps s t) : Keeps s (t.cutEach v p old l) := by
  induction l generalizing t v old with
  | nil => exact h
  | cons g l ih => exact .ite (ih h) (ih h.tick.cutGroup)
theorem Keeps.cutGroups {p} (h : Keeps s t) : Keeps s (t.cutGroups p) := h.cutEach.updNvm.each fun _ _ k => k.applyContent
theorem Keeps.dropFence {p} (h : Keeps s t) : Keeps s (t.dropFence p) := h.updPr
theorem Keeps.dropGut {p} (h : Keeps s t) : Keeps s (t.dropGut p) := .ite h.setGut.updPr h.setGut
theorem Keeps.endDrill {p} (h : Keeps s t) : Keeps s (t.endDrill p) := h.updTmp.updFlt.record
theorem PlateState.Keeps.afterReset {x : PlateState} {now ph fenced keep} : x.Keeps (x.afterReset now ph fenced keep) := ⟨id,
    id, le_rfl⟩
theorem Keeps.resetPlate {p fenced keep} (h : Keeps s t) : Keeps s (t.resetPlate p fenced keep) := by
  unfold State.resetPlate; extract_lets s₁ s₂ s₃
  have h₁ : Keeps s s₁ := h.cutGroups.dropFence.setLinkUp
  have h₂ : Keeps s s₂ := .ite h₁.endDrill h₁
  have h₃ : Keeps s s₃ := .ite h₂.saveWindows h₂
  exact (h₃.upd fun _ => .afterReset).dropGut.refreshOut
theorem Keeps.enterReset {p detail fenced keep} (h : Keeps s t) : Keeps s (t.enterReset p detail fenced keep) :=
  Keeps.resetPlate (.ite h h.record)
theorem Keeps.enterPlannedReset {p} (h : Keeps s t) : Keeps s (t.enterPlannedReset p) := h.resetPlate
theorem Keeps.writeBeat {p state} (h : Keeps s t) : Keeps s (t.writeBeat p state) := .ite h.emit h
theorem Keeps.stopJobs {p} (h : Keeps s t) : Keeps s (t.stopJobs p) := h.updSl
theorem Keeps.isolate {p} (h : Keeps s t) : Keeps s (t.isolate p) := by
  unfold State.isolate; exact h.writeBeat.stopJobs.updFlt.send.updPr
theorem Keeps.useToken {p} (h : Keeps s t) : Keeps s (t.useToken p) :=
  .ite h (.ite h.updPr.send.enterReset (.ite h.updPr.enterPlannedReset (.ite h.isolate (.ite h h.enterReset))))
theorem Keeps.askToken {p} (h : Keeps s t) : Keeps s (t.askToken p) := .ite h.dropFence.useToken h.dropFence.updPr.send
theorem Keeps.passToken {p} (h : Keeps s t) : Keeps s (t.passToken p) := .ite h.updPr.send h
theorem Keeps.classC {p} (h : Keeps s t) : Keeps s (t.classC p) := .ite h h.updFlt.askToken
theorem execTokenRequestRecv_steps {p} (h : Keeps s t) : Steps s (execTokenRequestRecv p t) := by
  unfold execTokenRequestRecv; split
  · next hm => exact Keeps.next (.ite ((h.receive hm).passToken) ((h.receive hm).updPr))
  · exact h.next
theorem execTokenReceived_steps {p} (h : Keeps s t) : Steps s (execTokenReceived p t) := by
  unfold execTokenReceived; split
  · next hm => exact (h.receive hm).updPr.useToken.next
  · exact h.next
theorem execTokenPassTimeout_steps {p} (h : Keeps s t) : Steps s (execTokenPassTimeout p t) := Keeps.next (.ite h.passToken h)
theorem execIsolationTimeout_steps {p} (h : Keeps s t) : Steps s (execIsolationTimeout p t) := Keeps.next (.ite h.enterReset h)

/-! ## Rings resolved (R225) -/

theorem Keeps.commitNow {p items} (h : Keeps s t) : Keeps s (t.commitNow p items) := .ite h ((h.updVlt (by simp)).applyItems)
theorem Keeps.finishErasing {p f} (h : Keeps s t) : Keeps s (t.finishErasing p f) := .ite h h.commitNow
theorem Keeps.journalResult {p i e d} (h : Keeps s t) : Keeps s (t.journalResult p i e d).1 := by
  unfold State.journalResult; dsimp only; split
  · exact h.commitNow.pair
  · split
    · split
      · exact h
      · split
        exacts [h, h]
    · exact h
theorem Keeps.slugLost {p q i d by_ k} (h : Keeps s t) : Keeps s (t.slugLost p q i d by_ k) := h.updSl.commitJob
theorem Keeps.resolveOne {p q x by_ i fetched moved} (h : Keeps s t) : Keeps s (t.resolveOne p q x by_ i fetched moved) := by
  unfold State.resolveOne; dsimp only; split
  exacts [.ite h.readUnder.slugLost h.readUnder.journalResult.post, .ite h.readUnder.post h]
theorem Keeps.readRecords {p q w x} (h : Keeps s t) : Keeps s (t.readRecords p q w x) := h.each fun _ _ k => k.readUnder
theorem Keeps.resolveRing {p q w x by_ moved} (h : Keeps s t) : Keeps s (t.resolveRing p q w x by_ moved) := by
  unfold State.resolveRing; dsimp only; split
  exacts [(h.readRecords.updRing.each (fun _ _ k => .ite k k.resolveOne)).updRing.ringFault,
      (h.readRecords.updRing.each (fun _ _ k => .ite k k.resolveOne)).updRing.issueFetch]
theorem Keeps.armKept {p i r} (h : Keeps s t) : Keeps s (t.armKept p i r) := h.updSl.each fun _ _ k => .ite k.arm k
theorem Keeps.resolveSlice {p i wins scans by_ moved} (h : Keeps s t) : Keeps s (t.resolveSlice p i wins scans by_ moved) :=
  (h.readUnder.each (fun _ _ k => .ite k.resolveRing.armKept k)).writeProgress

/-! ## Wear (R333 to R341) -/

theorem Keeps.retirePage {p part x} (h : Keeps s t) : Keeps s (t.retirePage p part x) :=
  Keeps.record (.ite h.updNvm h.updNvm.startGroup)
theorem Keeps.setWear {p state trigger} (h : Keeps s t) : Keeps s (t.setWear p state trigger) :=
  (Keeps.record (.ite h.updNvm.raise h.updNvm)).send
theorem Keeps.wearNext {p was} (h : Keeps s t) : Keeps s (t.wearNext p was) := by
  unfold State.wearNext; extract_lets n s₁ s₂
  have h₁ : Keeps s s₁ := .ite h.setWear (.ite h.setWear h)
  have h₂ : Keeps s s₂ := .ite h₁.setWear h₁
  exact .ite h₂.setWear h₂
theorem Keeps.wearOut {p part x} (h : Keeps s t) : Keeps s (t.wearOut p part x) := h.retirePage.wearNext
theorem Keeps.retireVault {p x} (h : Keeps s t) : Keeps s (t.retireVault p x) := h.updNvm.wearOut
theorem Keeps.wearFirmware {p} (h : Keeps s t) : Keeps s (t.wearFirmware p) := h.tick.wearOut
theorem Keeps.programPages {p n pulses l} (h : Keeps s t) : Keeps s (t.programPages p n pulses l).1 := by
  induction n generalizing t pulses l with
  | zero => exact h
  | succ n ih =>
    cases l with
    | nil => exact h
    | cons x l =>
      unfold State.programPages; dsimp only; split
      · split
        exacts [ih h.updNvm.retireVault.updNvm, h.updNvm.retireVault]
      · exact ih h.updNvm
theorem Keeps.logProgrammed {p k} (h : Keeps s t) : Keeps s (t.logProgrammed p k) :=
  .ite (.ite h.updNvm.wearOut.updNvm.fillLog h.updNvm.wearOut.updNvm) h.updNvm

/-! ## Takeover (R221 to R225) -/

theorem Keeps.fence {p} (h : Keeps s t) : Keeps s (t.fence p) := h.updPr
theorem Keeps.beginTakeover {p index} (h : Keeps s t) : Keeps s (t.beginTakeover p index) := by
  unfold State.beginTakeover; dsimp only; split
  · exact h
  · split
    exacts [h.updPr, .ite h.updPr.emit h.updPr.fence]
theorem Keeps.triggerTakeover {p} (h : Keeps s t) : Keeps s (t.triggerTakeover p) := .ite h.beginTakeover h
theorem execLeaveRecv_steps {p} (h : Keeps s t) : Steps s (execLeaveRecv p t) := by
  unfold execLeaveRecv; split
  · next hm => exact (h.receive hm).triggerTakeover.next
  · exact h.next
theorem execTakeover_steps {r} (h : Keeps s t) : Steps s (execTakeover r t) := by
  unfold execTakeover; dsimp only; split
  exacts [Keeps.next (.ite h.fail (.ite h.finish h.beginTakeover)), h.next]
theorem execWitnessBeat_steps {p written} (h : Keeps s t) : Steps s (execWitnessBeat p written t) :=
  Keeps.next (.ite h (.ite h.updPr.issueRead h.updPr.writeBeat.issueRead))
theorem Keeps.yieldNow {p} (h : Keeps s t) : Keeps s (t.yieldNow p) := h.updPr.stopJobs.writeBeat
theorem Keeps.witnessFails {p} (h : Keeps s t) : Keeps s (t.witnessFails p) := h.updPr
theorem Keeps.witnessLine {p b} (h : Keeps s t) : Keeps s (t.witnessLine p b) :=
  .ite h.updPr (.ite (.ite h.updPr.stopJobs h.updPr.yieldNow) (.ite h.updPr.triggerTakeover h.updPr.updPr))
theorem execWitnessRead_steps {p line} (h : Keeps s t) : Steps s (execWitnessRead p line t) := by
  unfold execWitnessRead; refine Keeps.next ?_
  split
  · exact h
  · dsimp only; split
    exacts [h.retireRead.witnessLine, h.retireRead.witnessFails]
theorem execWitnessError_steps {p} (h : Keeps s t) : Steps s (execWitnessError p t) := Keeps.next (.ite h.updPr.raise h)
theorem execPeerStale_steps {p} (h : Keeps s t) : Steps s (execPeerStale p t) :=
  Keeps.next (.ite (.ite h.updPr.triggerTakeover h.updPr) h)
theorem execWitnessEnable_steps {p cfg} (h : Keeps s t) : Steps s (execWitnessEnable p cfg t) := Keeps.next (.ite h.updPr h)
theorem execTakeoverCasDone_steps {p old} (h : Keeps s t) : Steps s (execTakeoverCasDone p old t) := by
  unfold execTakeoverCasDone; refine Keeps.next ?_
  split
  exacts [.ite h (.ite h.updPr.fence h.yieldNow), .ite h h.updPr, h]
theorem Keeps.flushMirrors {p} (h : Keeps s t) : Keeps s (t.flushMirrors p) := by
  unfold State.flushMirrors; exact (h.each (fun _ _ k => k.applyGroup)).updNvm
theorem Keeps.commitOwn {p c} (h : Keeps s t) : Keeps s (t.commitOwn p c) := h.startGroup
theorem Keeps.commitHeld {p f} (h : Keeps s t) : Keeps s (t.commitHeld p f) := h.each fun _ _ k => k.commitOwn
theorem Keeps.takeItems {p} (h : Keeps s t) : Keeps s (t.takeItems p) := by
  unfold State.takeItems; exact (h.updVlt (by simp)).updNvm
theorem Keeps.takeHomes {p} (h : Keeps s t) : Keeps s (t.takeHomes p) := .ite h.updSl.applyItems h.commitNow
theorem Keeps.freshSlice {p i} (h : Keeps s t) : Keeps s (t.freshSlice p i) := (h.updSl.updVlt (by simp)).updInst
theorem Keeps.takeOps {p} (h : Keeps s t) : Keeps s (t.takeOps p) := h.updSl.updSl.each fun _ _ k => k.updSl
theorem Keeps.takeAdmin {p scans} (h : Keeps s t) : Keeps s (t.takeAdmin p scans) := by
  unfold State.takeAdmin; split
  exacts [(h.updRing.each (fun _ _ k => .ite k k.resolveOne)).updRing.updPr, h]
theorem Keeps.unparkAll {p} (h : Keeps s t) : Keeps s (t.unparkAll p) :=
  h.updSl.each (fun _ _ k => .ite ((k.each (fun _ _ k1 => .ite k1 k1.issueRead)).updRing) k)
theorem Keeps.resolveTaken {p l scans} (h : Keeps s t) : Keeps s (t.resolveTaken p l scans) :=
  h.each fun _ _ k => k.resolveSlice.updPr
theorem Keeps.drainAll {p} (h : Keeps s t) : Keeps s (t.drainAll p) := h.each fun _ _ k => k.drainNext
theorem Keeps.becomeHome {p l} (h : Keeps s t) : Keeps s (t.becomeHome p l) := by
  unfold State.becomeHome; extract_lets s₁ s₂ s₃ s₄ raise s₅ s₆
  have h₂ : Keeps s s₂ := .ite h.flushMirrors.updPr h.flushMirrors
  have h₄ : Keeps s s₄ := h₂.setGut.dropGut.takeItems.takeHomes
  have h₅ : Keeps s s₅ := .ite h₄ h₄.commitNow
  exact (h₅.each fun _ _ k => k.freshSlice).finishErasing.updPr.commitHeld.drainAll.unparkAll.takeOps
theorem execTakeoverQuietEnd_steps {p scans} (h : Keeps s t) : Steps s (execTakeoverQuietEnd p scans t) := by
  unfold execTakeoverQuietEnd; dsimp only; split
  · refine .ite h.next (Keeps.next (Keeps.sliceOpsNext ?_))
    split
    · exact h.becomeHome.takeAdmin.resolveTaken.record.updPr.finish
    · exact h.becomeHome.takeAdmin.resolveTaken.record.updPr
  · exact h.next
theorem execFenceHoldEnd_steps {p} (h : Keeps s t) : Steps s (execFenceHoldEnd p t) := by
  unfold execFenceHoldEnd; refine Keeps.next ?_
  split
  exacts [.ite h.dropFence.updPr h, h]
theorem execFenceAsserted_steps {p} (h : Keeps s t) : Steps s (execFenceAsserted p t) :=
  Keeps.next (.ite h (.ite h.updPow h.enterReset))
theorem execFenceReleased_steps {p} (h : Keeps s t) : Steps s (execFenceReleased p t) := Keeps.next (.ite h.updPow h)

/-! ## Hand-over and makeready (R226 to R229) -/

theorem Keeps.beginHandover {o i} (h : Keeps s t) : Keeps s (t.beginHandover o i) := h.beginChange
theorem Keeps.dropUnstarted {o i} (h : Keeps s t) : Keeps s (t.dropUnstarted o i) := h.each fun _ _ k => k.dropJob
theorem execRebalance_steps {r} (h : Keeps s t) : Steps s (execRebalance r t) := by
  unfold execRebalance; dsimp only; split
  exacts [Keeps.next (.ite h.fail (.ite h.fail (.ite h.fail (.ite h h.updJobAt.beginHandover)))), h.next]
theorem Keeps.cancelParked {p i} (h : Keeps s t) : Keeps s (t.cancelParked p i) := h.each fun _ _ k => .ite k.fail k
theorem execHandoverDrainDone_steps {o i} (h : Keeps s t) : Steps s (execHandoverDrainDone o i t) :=
  Keeps.next (.ite h h.updSl.cancelParked.send)
theorem execHandoverStateRecv_steps {n i scans} (h : Keeps s t) : Steps s (execHandoverStateRecv n i scans t) := by
  unfold execHandoverStateRecv; split
  · next hm => exact (h.receive hm).updPr.beginChange.next
  · exact h.next
theorem Keeps.placeRing {n i r g held} (h : Keeps s t) : Keeps s (t.placeRing n i r g held) :=
  .ite h.updRing.updRing h.updRing.updRing.issueFetch
theorem Keeps.leaveSlice {o i} (h : Keeps s t) : Keeps s (t.leaveSlice o i) := by
  unfold State.leaveSlice; exact (h.updSl.updVlt (by simp)).updPr
theorem Keeps.ringChanged {n i r} (h : Keeps s t) : Keeps s (t.ringChanged n i r) := .ite h.disableRing (.ite h.enableRing h)
theorem Keeps.arriveSlice {n m} (h : Keeps s t) : Keeps s (t.arriveSlice n m) :=
  ((((h.freshSlice.updSl.updVlt (by simp)).updPr.each (fun _ _ k => k.fillWindow.updJob)).each (fun _ _ k => k.placeRing)).each
      (fun _ _ k => k.ringChanged)).cancelParked
theorem Keeps.rebalanced {i} (h : Keeps s t) : Keeps s (t.rebalanced i) := by
  refine h.each fun _ _ k => ?_
  split
  exacts [k.finish, k]
theorem Keeps.makereadyEnd {x k} (h : Keeps s t) : Keeps s (t.makereadyEnd x k) := by
  unfold State.makereadyEnd; extract_lets s₁ old s₂ k' s₃ same s₄
  have h₁ : Keeps s s₁ := h.updPr
  refine .ite ?_ ?_
  · split
    exacts [h₁.fail, h₁]
  · have h₂ : Keeps s s₂ := .ite h₁.updMgt h₁
    have h₃ : Keeps s s₃ := .ite h₂ h₂.updMgt
    have h₄ : Keeps s s₄ := h₃.each fun _ _ k => k.updPr
    split
    exacts [h₄.finish, h₄]
theorem Keeps.moveOut {o l} (h : Keeps s t) : Keeps s (t.moveOut o l) := .ite h (h.each (fun _ _ k => .ite k.beginHandover k))
theorem Keeps.makereadyReturn {x k} (h : Keeps s t) : Keeps s (t.makereadyReturn x k) :=
  .ite h.updPr.moveOut.makereadyEnd h.updPr.moveOut
theorem Keeps.writeImages {y k} (h : Keeps s t) : Keeps s (t.writeImages y k).1 := by
  unfold State.writeImages; dsimp only; split
  · exact (h.each fun _ _ k => k.wearFirmware).updMgt.pair
  · exact (h.each fun _ _ k => k.wearFirmware).updMgt.pair
theorem Keeps.makereadyNext {x} (h : Keeps s t) : Keeps s (t.makereadyNext x) := by
  unfold State.makereadyNext; split
  · dsimp only; split
    · split
      · split
        · next hm => exact (h.moveOut.writeImages.fst hm).updPr.updMgt.record.askToken
        · next hm => exact (h.moveOut.writeImages.fst hm).record.makereadyReturn
      · exact h.moveOut
    · exact .ite h.makereadyReturn h
  · exact h
theorem Keeps.makereadyBack {x} (h : Keeps s t) : Keeps s (t.makereadyBack x) := by
  unfold State.makereadyBack; split
  exacts [.ite h.updPr.record.makereadyNext h, h]
theorem Keeps.handedOver {n i} (h : Keeps s t) : Keeps s (t.handedOver n i) := by
  unfold State.handedOver; split
  · extract_lets s₁ s₂ s₃
    have h₂ : Keeps s s₂ := h.updPr.leaveSlice.arriveSlice
    have h₃ : Keeps s s₃ := .ite (h₂.each fun _ _ k => k.armKept) h₂.resolveSlice
    exact h₃.nudgeHome.record.rebalanced.sliceOpNext.makereadyNext.makereadyNext
  · exact h

/-! ## Commits and their ends (R210) -/

theorem Keeps.leaseGranted {p k lo hi} (h : Keeps s t) : Keeps s (t.leaseGranted p k lo hi) :=
  (h.updVlt (by simp)).each fun _ _ k => k.updJob
theorem Keeps.failWaiters {p k st} (h : Keeps s t) : Keeps s (t.failWaiters p k st) :=
  (h.updVlt (by simp)).each fun _ _ k => k.fail
theorem Keeps.wakeWaiters {p} (h : Keeps s t) : Keeps s (t.wakeWaiters p) := h.each fun _ _ k => k.updJob
theorem Keeps.adminDone {p i r} (h : Keeps s t) : Keeps s (t.adminDone p i r) := by
  unfold State.adminDone; split
  exacts [h.finish, h]
theorem Keeps.jobDone {p q i r} (h : Keeps s t) : Keeps s (t.jobDone p q i r) := by
  unfold State.jobDone; split
  exacts [h.vaultDone, h.adminDone]
theorem Keeps.policyDone {old p} (h : Keeps s t) : Keeps s (t.policyDone old p) :=
  h.endSessions.endSessions.each fun _ _ k => .ite k.sendConfig k.sendConfig.updMgt
theorem Keeps.runAfter {old p a} (h : Keeps s t) : Keeps s (t.runAfter old p a) := by
  unfold State.runAfter; split
  · exact h
  · exact h.jobDone
  · exact h.leaseGranted
  · dsimp only; split
    exacts [h.wakeWaiters.updJob.drainNext, h.wakeWaiters.updJob]
  · exact h.eraseDone
  · exact h.rewriteDone.wakeWaiters
  · exact h.destroyCommitted.makereadyNext.makereadyNext
  · exact (h.each fun _ _ k => k.openSlice).adminDone
  · exact h.endOp.makereadyNext.makereadyNext
  · exact .ite h.dropUnstarted h
  · exact h.handedOver
  · exact h.policyDone.adminDone
  · exact (h.lifecycleDone.each fun _ _ k => k.record).adminDone
theorem Keeps.setPages {p c v} (h : Keeps s t) : Keeps s (t.setPages p c v) := by
  unfold State.setPages; dsimp only; split
  exacts [.ite (Keeps.setLcPage (.ite h.setCustody h)) (.ite h.setCustody h), .ite h.setCustody h]
theorem Keeps.spoil {p x} (h : Keeps s t) : Keeps s (t.spoil p x) := by
  unfold State.spoil; split
  exacts [h.updVlt (by simp), h.updVlt (by simp), h.updVlt (by simp), h, h.updCus (by simp), (h.updCus (by simp)).refreshOut]
theorem Keeps.mergeItem {x} (h : Keeps s t) : Keeps s (t.mergeItem x) := by
  unfold State.mergeItem; split
  · exact h.each fun _ _ k => k.updVlt (by simp)
  · exact h.each fun _ _ k => k.updVlt (by simp)
  · exact h.each fun _ _ k => k.updVlt (by simp)
  · exact h.each fun _ _ k => k.updSl
  · exact h.each fun _ _ k => k.setPages
  · refine h.each fun _ _ k => Keeps.refreshOut ?_
    split
    exacts [k.setLcPage, k]
theorem Keeps.reconcileItem {p item} (h : Keeps s t) : Keeps s (t.reconcileItem p item) := h.mergeItem.updPr.record
theorem Keeps.compareRepaired {p item} (h : Keeps s t) : Keeps s (t.compareRepaired p item) := .ite h.reconcileItem h
theorem Keeps.ownDone {old p id} (h : Keeps s t) : Keeps s (t.ownDone old p id) := by
  unfold State.ownDone; split
  exacts [(h.updVlt (by simp)).runAfter, h]
theorem Keeps.groupDone {p g} (h : Keeps s t) : Keeps s (t.groupDone p g) := by
  unfold State.groupDone; dsimp only; split
  exacts [h.applyGroup.updNvm.send, h.applyGroup.updNvm.ownDone, h.applyGroup.updNvm.compareRepaired,
      h.applyGroup.updNvm.updVlt (by simp), h.applyGroup.updNvm]
theorem execNvmCommitDone_steps {p pulses} (h : Keeps s t) : Steps s (execNvmCommitDone p pulses t) := by
  unfold execNvmCommitDone; split
  exacts [Keeps.next (.ite h.programPages.groupDone h), h.next]
theorem Keeps.notePage {p x} (h : Keeps s t) : Keeps s (t.notePage p x) := by
  unfold State.notePage; split
  exacts [(h.updVlt (by simp)).record, h]
theorem execMirrorWriteRecv_steps {p} (h : Keeps s t) : Steps s (execMirrorWriteRecv p t) := by
  unfold execMirrorWriteRecv; split
  · next hm => exact Keeps.next (.ite h ((((h.receive hm).each (fun _ _ k1 => k1.notePage)).prepare.updVlt
      (by simp)).startGroup))
  · exact h.next
theorem execMirrorAckRecv_steps {p} (h : Keeps s t) : Steps s (execMirrorAckRecv p t) := by
  unfold execMirrorAckRecv; split
  · next hm =>
      refine Keeps.next ?_
      split
      exacts [.ite (h.receive hm) (((h.receive hm).updVlt (by simp)).commitOwn), (h.receive hm)]
  · exact h.next

/-! ## Gutter, scrub and resync (R214, R231) -/

theorem execGutterHeartbeatSend_steps {p} (h : Keeps s t) : Steps s (execGutterHeartbeatSend p t) :=
  Keeps.next (.ite h.updPr.setGut h)
theorem Keeps.gutterReturn {p} (h : Keeps s t) : Keeps s (t.gutterReturn p) :=
  .ite ((h.updPr.each (fun _ _ k => k.send)).send.send.send) ((h.updPr.each (fun _ _ k => k.send)).send.send)
theorem execGutterHeartbeatRecv_steps {p link} (h : Keeps s t) : Steps s (execGutterHeartbeatRecv p link t) := by
  unfold execGutterHeartbeatRecv; split
  · next hm => exact Keeps.next (.ite (h.receive hm) (.ite ((h.receive hm).updPr) (.ite ((h.receive
      hm).updPr.updPr.gutterReturn) ((h.receive hm).updPr.updPr))))
  · exact h.next
theorem Keeps.dropLink {p k} (h : Keeps s t) : Keeps s (t.dropLink p k) := .ite h.updPr.raise h
theorem execSublinkDown_steps {p link} (h : Keeps s t) : Steps s (execSublinkDown p link t) := Keeps.next (.ite h.dropLink h)
theorem Keeps.enterPartition {p} (h : Keeps s t) : Keeps s (t.enterPartition p) :=
  (h.updPr.commitHeld.each (fun _ _ k => k.failWaiters)).record
theorem Keeps.enterSole {p} (h : Keeps s t) : Keeps s (t.enterSole p) := h.updPr.commitHeld.drainAll.updPow.sliceOpsNext
theorem Keeps.onLost {p} (h : Keeps s t) : Keeps s (t.onLost p) := by
  unfold State.onLost; dsimp only; split
  exacts [.ite h.enterSole (.ite h (.ite h.beginTakeover h.enterPartition)), .ite h h.enterSole, h]
theorem execGutterLost_steps {p} (h : Keeps s t) : Steps s (execGutterLost p t) :=
  Keeps.next (.ite h.dropLink.dropLink.updPr.dropGut.onLost.useToken h)
theorem execInflightMirrorCopy_steps {p} (h : Keeps s t) : Steps s (execInflightMirrorCopy p t) := Keeps.next (.ite h.updPr h)
theorem Keeps.takeRoot {p} (h : Keeps s t) : Keeps s (t.takeRoot p) :=
  .ite ((Keeps.sealRoot (.ite h.agree.prepare h.agree.prepare.enrol)).updVlt (by simp)) h
theorem Keeps.mergeVaults (h : Keeps s t) : Keeps s t.mergeVaults :=
  h.takeRoot.takeRoot.each (fun _ _ k => .ite ((k.updVlt (by simp)).updSl.setPages.refreshOut) ((k.updVlt
      (by simp)).updSl.setPages.refreshOut.sendConfig))
theorem Keeps.resume {p c has} (h : Keeps s t) : Keeps s (t.resume p c has) :=
  .ite ((h.updVlt (by simp)).commitOwn) ((h.updVlt (by simp)).sendChange)
theorem Keeps.reconcileBoth (h : Keeps s t) : Keeps s t.reconcileBoth :=
  (((h.flushMirrors.flushMirrors.mergeVaults.each (fun _ _ k => k.updPr)).each (fun _ _ k => k.resume)).each (fun _ _ k =>
      k.resume)).drainAll.drainAll.sliceOpsNext
theorem execReconcileDone_steps {p} (h : Keeps s t) : Steps s (execReconcileDone p t) := Keeps.next (.ite h.reconcileBoth h)
theorem execPeerRejoin_steps {p} (h : Keeps s t) : Steps s (execPeerRejoin p t) := Keeps.next (.ite h.updPr h)
theorem Keeps.missingInstances {p} (h : Keeps s t) : Keeps s (t.missingInstances p) := h.each fun _ _ k => k.newInstance
theorem Keeps.resyncCopy {p} (h : Keeps s t) : Keeps s (t.resyncCopy p) :=
  .ite (((h.updVlt (by simp)).updVlt (by simp)).updSl.takeRoot.setPages.refreshOut.missingInstances) (((h.updVlt
      (by simp)).updVlt (by simp)).updSl.takeRoot.setPages.refreshOut.missingInstances.sendConfig)
theorem execResyncComplete_steps {p old} (h : Keeps s t) : Steps s (execResyncComplete p old t) :=
  Keeps.next (.ite h (.ite (.ite h.emit h) (((Keeps.resyncCopy (.ite (Keeps.updPr (.ite h.emit h)) (.ite h.emit h))).each (fun
      _ _ k => k.updPr)).makereadyBack.useToken.useToken)))
theorem Keeps.scrubbed {p x} (h : Keeps s t) : Keeps s (t.scrubbed p x) := by
  unfold State.scrubbed; split
  exacts [h.spoil.readRepair, h.each (fun _ _ k => k.spoil.repair), h.reconcileItem, .ite h h.startGroup,
      (h.updPr.record.each (fun _ _ k => .ite k k.startGroup)).raise]
theorem execScrubStart_steps {p findings} (h : Keeps s t) : Steps s (execScrubStart p findings t) :=
  Keeps.next (.ite ((h.each (fun _ _ k => k.scrubbed)).each (fun _ _ k => k.updPr)) h)
theorem Keeps.raiseTimebase {p} (h : Keeps s t) : Keeps s (t.raiseTimebase p) := .ite h.updPr.raise h
theorem execTimebaseCompare_steps {p diff ownOff} (h : Keeps s t) : Steps s (execTimebaseCompare p diff ownOff t) :=
  Keeps.next (.ite h (.ite (.ite (Keeps.raiseTimebase (.ite h.updPr h)) (.ite h.updPr h)) (.ite ((Keeps.raiseTimebase (.ite
      h.updPr h)).raiseTimebase) (.ite h.updPr h))))
theorem Keeps.raiseSkew {p} (h : Keeps s t) : Keeps s (t.raiseSkew p) := .ite h.updPr.raise h
theorem execRegionSkew_steps {p dt} (h : Keeps s t) : Steps s (execRegionSkew p dt t) :=
  Keeps.next (.ite (.ite ((h.each (fun _ _ k => k.updPr)).raiseSkew.raiseSkew) (h.each (fun _ _ k => k.updPr))) h)
theorem execPeerWearStateReport_steps {p} (h : Keeps s t) : Steps s (execPeerWearStateReport p t) := by
  unfold execPeerWearStateReport; split
  · next hm => exact (h.receive hm).updNvm.next
  · exact h.next
theorem execPeerEpochReport_steps {p} (h : Keeps s t) : Steps s (execPeerEpochReport p t) := by
  unfold execPeerEpochReport; split
  · next hm => exact ((h.receive hm).updVlt (by simp)).next
  · exact h.next

end Sys2Proof.Machine

/-! PROOFS. The history kept by faults, tamper, management, migration and NVM (O58). -/

namespace Sys2Proof.Machine

variable {s t u : State}

/-! ## Grace, drill and expiry (13) -/

theorem Keeps.rsaFails {p n} (h : Keeps s t) : Keeps s (t.rsaFails p n) := by
  unfold State.rsaFails; split
  exacts [h.updJob.raiseUnit, h]
theorem Keeps.logHeader {p} (h : Keeps s t) : Keeps s (t.logHeader p) := .ite h h.updPow.tick
theorem execFaultSourceAssert_steps {p src unit level} (h : Keeps s t) :
    Steps s (execFaultSourceAssert p src unit level t) := by
  unfold execFaultSourceAssert; refine Keeps.next ?_
  split
  · exact .ite h.tamper h
  · split
    · exact h
    · split
      · exact .ite h (.ite h.holdLane.raise h.raiseUnit)
      · split
        · split
          exacts [.ite h.rsaFails h, h]
        · exact .ite (.ite h.raise h) (.ite (.ite h.raise.emit (.ite h.raise.logHeader h.raise)) h.setPin)
theorem execUnitResetDone_steps {p v pass} (h : Keeps s t) : Steps s (execUnitResetDone p v pass t) :=
  Keeps.next (.ite (.ite h.updFlt.restore h.updFlt) h)
theorem Keeps.expireS {p} (h : Keeps s t) : Keeps s (t.expireS p) :=
  (Keeps.updFlt (.ite ((Keeps.faultIrq (.ite h.updFlt.updPr h.updFlt)).record.updFlt.latch) ((Keeps.faultIrq (.ite
      h.updFlt.updPr h.updFlt)).record.updFlt))).refreshOut
theorem Keeps.expire {p} (h : Keeps s t) : Keeps s (t.expire p) := by
  unfold State.expire; dsimp only; split
  exacts [.ite h (.ite h.updFlt.faultIrq.record.classC h.expireS), h]
theorem execGraceExpire_steps {p} (h : Keeps s t) : Steps s (execGraceExpire p t) := h.expire.next
theorem execFaultClear_steps {p value} (h : Keeps s t) : Steps s (execFaultClear p value t) :=
  Keeps.next (.ite h.expire.updFlt.refreshOut h.expire)
theorem Keeps.forcedAlarm {p} (h : Keeps s t) : Keeps s (t.forcedAlarm p) := .ite h (.ite h.updTmp.tamperForced h.updTmp)
theorem Keeps.forceOn {p k} (h : Keeps s t) : Keeps s (t.forceOn p k) := .ite h.tamperForced (.ite h.latch.forcedAlarm h.latch)
theorem execFaultForce_steps {p value} (h : Keeps s t) : Steps s (execFaultForce p value t) :=
  Keeps.next (.ite (h.updFlt.each (fun _ _ k => k.forceOn)) h)
theorem Keeps.enterDrill {p} (h : Keeps s t) : Keeps s (t.enterDrill p) := .ite h h.updTmp.record
theorem execDrillEnter_steps {p w} (h : Keeps s t) : Steps s (execDrillEnter p w t) := Keeps.next (.ite h.enterDrill h)
theorem execDrillExit_steps {p w} (h : Keeps s t) : Steps s (execDrillExit p w t) := Keeps.next (.ite h.endDrill h)
theorem execDrillTimeout_steps {p} (h : Keeps s t) : Steps s (execDrillTimeout p t) := Keeps.next (.ite h.endDrill h)

/-! ## Harts and caches (R312, R316) -/

theorem Keeps.updHart {p c f} (h : Keeps s t) : Keeps s (t.updHart p c f) := h.updMgt
theorem Keeps.l2Access {p w a} (h : Keeps s t) : Keeps s (t.l2Access p w a) := .ite h h.tick.updMgt
theorem Keeps.cacheAccess {p c fetch a} (h : Keeps s t) : Keeps s (t.cacheAccess p c fetch a) := .ite h h.tick.updMgt.l2Access

/-! ## The tamper monitor and KNOCKOUT (12) -/

theorem Keeps.foldl {α : Type} {l : List α} {f} (h : Keeps s t) (hf : ∀ u a, Keeps s u → Keeps s (f u a)) :
    Keeps s (l.foldl f t) :=
  h.each hf
theorem Keeps.singleMismatch {p k} (h : Keeps s t) : Keeps s (t.singleMismatch p k) := h.updTmp.record
theorem execChaseCompare_steps {p mismatch} (h : Keeps s t) : Steps s (execChaseCompare p mismatch t) := by
  refine Keeps.next (.ite h ?_)
  extract_lets last s₁ s₂ s₃
  have h₂ : Keeps s s₂ := (h.each fun _ _ k => k.singleMismatch).updTmp
  have h₃ : Keeps s s₃ := .ite h₂ h₂.drew.updTmp
  split
  exacts [h₃.tamper, h₃]
theorem Keeps.logicAlarm {p src} (h : Keeps s t) : Keeps s (t.logicAlarm p src) :=
  .ite h (.ite h.updTmp.raise.tamper h.updTmp.raise)
theorem execLogicAlarm_steps {p src} (h : Keeps s t) : Steps s (execLogicAlarm p src t) := h.logicAlarm.next
theorem Keeps.follow {p k present} (h : Keeps s t) : Keeps s (t.follow p k present) := .ite h (.ite h.raise h.setPin)
theorem Keeps.envSource {p cond present} (h : Keeps s t) : Keeps s (t.envSource p cond present) := by
  unfold State.envSource; split
  exacts [h.follow, h.follow, h.follow, .ite h h.follow, .ite h.tamper h, .ite h.tamper h, .ite h.tamper h, .ite h.logicAlarm h]
theorem execEnvThreshold_steps {p cond present} (h : Keeps s t) : Steps s (execEnvThreshold p cond present t) :=
  Keeps.next (.ite (.ite h.envSource h) (.ite h h.envSource))
theorem Keeps.newMedian {p first} (h : Keeps s t) : Keeps s (t.newMedian p first) := .ite h h.tick.updTmp
theorem Keeps.sampleVolt {p} (h : Keeps s t) : Keeps s (t.sampleVolt p) := h.updTmp.tick
theorem execSensorSample_steps {p k sample} (h : Keeps s t) : Steps s (execSensorSample p k sample t) := by
  unfold execSensorSample; extract_lets on s₁ v x y others
  have h₁ : Keeps s s₁ := .ite h.sampleVolt h
  refine Keeps.next (.ite h₁ (.ite ?_ ?_))
  · exact .ite h₁.tick.updTmp.raise.newMedian.raise h₁.tick.updTmp.raise.newMedian
  · split
    exacts [h₁.updTmp.newMedian, h₁]
theorem execKnockoutCauseRecv_steps {p} (h : Keeps s t) : Steps s (execKnockoutCauseRecv p t) := by
  unfold execKnockoutCauseRecv; split
  · next hm => exact (h.receive hm).updTmp.next
  · exact h.next
theorem Keeps.koRecord {p x} (h : Keeps s t) : Keeps s (t.koRecord p x) := by
  unfold State.koRecord; split
  exacts [h, h.raise, h.raise]
theorem Keeps.eraseRoot {p} (h : Keeps s t) : Keeps s (t.eraseRoot p) := (h.cutGroups.updNvm.updVlt (by simp)).updTmp
theorem Keeps.knockedOutPage {p} (h : Keeps s t) : Keeps s (t.knockedOutPage p) := h.commitNow
theorem Keeps.koLifecycle {p} (h : Keeps s t) : Keeps s (t.koLifecycle p) := by
  unfold State.koLifecycle; extract_lets c s₁ lc s₂
  have h₂ : Keeps s s₂ := .ite h.updTmp.knockedOutPage.record h.updTmp
  exact (h₂.updCus (by exact fun _ => ⟨id, rtf_retired⟩)).refreshOut
theorem Keeps.koOne {p q i d parked moved} (h : Keeps s t) : Keeps s (t.koOne p q i d parked moved) := h.post
theorem Keeps.koRing {p q x} (h : Keeps s t) : Keeps s (t.koRing p q x) := by
  refine Keeps.updRing (h.each fun _ _ k => .ite k ?_)
  split
  exacts [k.koOne, k.readUnder.koOne]
theorem Keeps.koMirrored {p q w x bound} (h : Keeps s t) : Keeps s (t.koMirrored p q w x bound) :=
  h.each fun _ _ k => .ite k k.readUnder.koOne
theorem Keeps.koOwn {p scans} (h : Keeps s t) : Keeps s (t.koOwn p scans) := by
  unfold State.koOwn; exact (h.each (fun _ _ k => (k.each (fun _ _ k1 => .ite k1.koRing k1)).writeProgress)).koRing
theorem Keeps.koPeer {p scans} (h : Keeps s t) : Keeps s (t.koPeer p scans) := by
  unfold State.koPeer; dsimp only; split
  exacts [(h.each (fun _ _ k => (k.readUnder.each (fun _ _ k1 =>
      k1.readRecords.updRing.koMirrored)).writeProgress)).updRing.readRecords.updRing.koMirrored.updRing,
      h.each (fun _ _ k => (k.readUnder.each (fun _ _ k1 => k1.readRecords.updRing.koMirrored)).writeProgress)]
theorem Keeps.koClear {p} (h : Keeps s t) : Keeps s (t.koClear p) :=
  ((h.updVlt (by simp)).updRng.updSl.updPr.dropFence.setQueue.updMgt.updFlt.endSessions.updCus (by simp)).giveUpAll.disownAll
theorem execKnockoutLineAssert_steps {p by_ scans} (h : Keeps s t) : Steps s (execKnockoutLineAssert p by_ scans t) := by
  refine Keeps.next (.ite h ?_)
  extract_lets s₁ s₂ s₃ s₄ s₅ s₆
  have h₂ : Keeps s s₂ := h.koRecord.updTmp.updFlt
  have h₃ : Keeps s s₃ := by
    unfold s₃; split
    exacts [h₂.send, h₂]
  have h₄ : Keeps s s₄ := h₃.eraseRoot.koLifecycle
  have h₆ : Keeps s s₆ := .ite h₄.koOwn h₄.koOwn.koPeer
  exact .ite h₆.koClear.record h₄.koClear

/-! ## Worlds and calls of the monitor (14) -/

theorem Keeps.loadSecure {p st} (h : Keeps s t) : Keeps s (t.loadSecure p st) := h.updMgt
theorem Keeps.loadNormal {p st} (h : Keeps s t) : Keeps s (t.loadNormal p st) := h.updMgt
theorem Keeps.bootImages {p st} (h : Keeps s t) :
    Keeps s (t.bootImages p st) := .ite h.loadSecure.updMgt h.loadSecure.loadNormal
theorem Keeps.answer {p c e l} (h : Keeps s t) : Keeps s (t.answer p c e l) := h.updMgt
theorem Keeps.interrupt {p w n} (h : Keeps s t) : Keeps s (t.interrupt p w n) := h.updMgt
theorem Keeps.signal {p w value} (h : Keeps s t) : Keeps s (t.signal p w value) := .ite h.interrupt h
theorem execWorldSignal_steps {p w value} (h : Keeps s t) : Steps s (execWorldSignal p w value t) := h.signal.next
theorem Keeps.endCall {p c} (h : Keeps s t) : Keeps s (t.endCall p c) := h.updMgt
theorem Keeps.endCalls {p} (h : Keeps s t) : Keeps s (t.endCalls p) := h.each fun _ _ k => k.endCall.answer
theorem Keeps.stopBlock {p b} (h : Keeps s t) : Keeps s (t.stopBlock p b) := .ite h.sendFrame h
theorem Keeps.resetBlock {p b} (h : Keeps s t) : Keeps s (t.resetBlock p b) := .ite h.updMgt h.updMgt.updMrg
theorem Keeps.resetBlocks {p w} (h : Keeps s t) : Keeps s (t.resetBlocks p w) := h.each fun _ _ k => k.resetBlock
theorem Keeps.discard {p c} (h : Keeps s t) : Keeps s (t.discard p c) := by
  unfold State.discard; exact h.setGut.updNvm.updVlt (by simp)
theorem Keeps.dropAdmin {p j} (h : Keeps s t) : Keeps s (t.dropAdmin p j) :=
  ((h.each (fun _ _ k => k.discard)).updSl.updCus (by simp)).fail
theorem Keeps.stallSecure {p} (h : Keeps s t) : Keeps s (t.stallSecure p) :=
  ((h.updMgt.setQueue.each (fun _ _ k => k.fail)).each (fun _ _ k => k.dropAdmin)).endCalls
theorem execSecStallTimeout_steps {p} (h : Keeps s t) : Steps s (execSecStallTimeout p t) := Keeps.next (.ite h.stallSecure h)
theorem Keeps.restartSecure {p} (h : Keeps s t) : Keeps s (t.restartSecure p) :=
  (Keeps.endSessions (.ite h.stallSecure h)).resetBlocks.updMgt.loadSecure
theorem execSecRestartTimeout_steps {p} (h : Keeps s t) : Steps s (execSecRestartTimeout p t) :=
  Keeps.next (.ite h.restartSecure.updMgt.record h)
theorem Keeps.restartNormal {p} (h : Keeps s t) : Keeps s (t.restartNormal p) :=
  (h.each (fun _ _ k => k.endCall)).resetBlocks.updMgt.loadNormal
theorem execNrmRestartTimeout_steps {p} (h : Keeps s t) : Steps s (execNrmRestartTimeout p t) :=
  Keeps.next (.ite h.restartNormal h)
theorem Keeps.secAlive {p w} (h : Keeps s t) : Keeps s (t.secAlive p w) := .ite h.updMgt.updPr h
theorem execSecAliveWrite_steps {p w} (h : Keeps s t) : Steps s (execSecAliveWrite p w t) := h.secAlive.next
theorem Keeps.nrmAlive {p w} (h : Keeps s t) : Keeps s (t.nrmAlive p w) := .ite h.updMgt h
theorem execNrmAliveWrite_steps {p w} (h : Keeps s t) : Steps s (execNrmAliveWrite p w t) := h.nrmAlive.next
theorem Keeps.resetCluster {p} (h : Keeps s t) : Keeps s (t.resetCluster p) := by
  unfold State.resetCluster; exact (Keeps.endSessions (.ite h.stallSecure h)).resetBlocks.resetBlocks.updMgt.bootImages.updPr
theorem execClusterWatchdogExpire_steps {p} (h : Keeps s t) : Steps s (execClusterWatchdogExpire p t) :=
  Keeps.next (.ite h.raise.resetCluster.updPr h)
theorem execSequencerWaitExpire_steps {p} (h : Keeps s t) : Steps s (execSequencerWaitExpire p t) :=
  Keeps.next (.ite h (.ite h.updPr.askToken h.updPr))
theorem Keeps.info {p core} (h : Keeps s t) : Keeps s (t.info p core) := .ite h.answer h
theorem execInfo_steps {p core} (h : Keeps s t) : Steps s (execInfo p core t) := h.info.next
theorem Keeps.call {p core args} (h : Keeps s t) : Keeps s (t.call p core args) := by
  unfold State.call; dsimp only; split
  · exact h
  · split
    · exact h.answer
    · split
      · exact h.answer
      · split
        exacts [h.tick.answer, h.updMgt]
theorem execCall_steps {p core args} (h : Keeps s t) : Steps s (execCall p core args t) := h.call.next
theorem Keeps.ret {p core results} (h : Keeps s t) : Keeps s (t.ret p core results) := .ite h (.ite h.endCall.answer h.answer)
theorem execRet_steps {p core results} (h : Keeps s t) : Steps s (execRet p core results t) := h.ret.next
theorem execCallTimeout_steps {p core} (h : Keeps s t) : Steps s (execCallTimeout p core t) :=
  Keeps.next (.ite h.endCall.answer h)
theorem Keeps.setEntry {p core addr} (h : Keeps s t) :
    Keeps s (t.setEntry p core addr) := .ite h (.ite h.answer h.updMgt.answer)
theorem execSetEntry_steps {p core addr} (h : Keeps s t) : Steps s (execSetEntry p core addr t) := h.setEntry.next
theorem Keeps.wmGive {p core mem new} (h : Keeps s t) : Keeps s (t.wmGive p core mem new) :=
  .ite h (.ite h.answer (.ite h.answer h.updMgt))
theorem execWmGive_steps {p core mem new} (h : Keeps s t) : Steps s (execWmGive p core mem new t) := h.wmGive.next
theorem execWmScrubDone_steps {p} (h : Keeps s t) : Steps s (execWmScrubDone p t) := by
  unfold execWmScrubDone; refine Keeps.next ?_
  split
  exacts [.ite h.updMgt h, h]
theorem Keeps.releaseBlock {p core block} (h : Keeps s t) : Keeps s (t.releaseBlock p core block) :=
  .ite h (.ite h.answer (.ite h.answer (.ite h.tick.answer ((Keeps.stopBlock (.ite h.tick
      h)).resetBlock.updMgt.interrupt.answer))))
theorem execRelease_steps {p core block} (h : Keeps s t) : Steps s (execRelease p core block t) := h.releaseBlock.next
theorem execShedLevelChange_steps {p} (h : Keeps s t) : Steps s (execShedLevelChange p t) := Keeps.next (.ite h.updMgt.updNvm h)
theorem execNvmRawSelect_steps {p w page} (h : Keeps s t) :
    Steps s (execNvmRawSelect p w page t) := Keeps.next (.ite h.updNvm h)

/-! ## Migration (R181 to R188) -/

theorem Keeps.writeChunks {p j h'} (h : Keeps s t) : Keeps s (t.writeChunks p j h') :=
  .ite h.fail (.ite h.finish ((h.drew.each (fun _ _ k => k.updVlt (by simp))).finish))
theorem Keeps.packageNext {p j} (h : Keeps s t) : Keeps s (t.packageNext p j) := by
  unfold State.packageNext; split
  · exact h
  · split
    · exact h.fail
    · dsimp only; split
      exacts [h.fail, (h.drew.each (fun _ _ k => k.updVlt (by simp))).writeChunks]
theorem Keeps.packageStart {p j b} (h : Keeps s t) : Keeps s (t.packageStart p j b) := by
  unfold State.packageStart; split
  · exact h.fail
  · split
    · exact .ite h.writeChunks h.fail
    · dsimp only; split
      · exact h.fail
      · split
        exacts [h.fail, .ite h.finish ((h.each (fun _ _ k => k.disableRings)).updJob.packageNext)]
theorem execMigrateOutPackage_steps {r colophon} (h : Keeps s t) : Steps s (execMigrateOutPackage r colophon t) := by
  unfold execMigrateOutPackage; refine Keeps.next ?_
  split
  exacts [.ite h (.ite h.packageNext (.ite h (h.admin (fun _ _ k => k.withInput (fun _ _ k1 => k1.withQuorum (fun _ k2 =>
      k2.packageStart)))))), h]
theorem Keeps.confirmed {p j outcome} (h : Keeps s t) : Keeps s (t.confirmed p j outcome) :=
  .ite ((h.each (fun _ _ k => (k.eraseRoot.updVlt (by simp)).knockedOutPage.record)).finish) (.ite ((h.each (fun _ _ k =>
      k.updVlt (by simp))).finish) h.fail)
theorem Keeps.confirm {p j b} (h : Keeps s t) : Keeps s (t.confirm p j b) := by
  unfold State.confirm; split
  exacts [h.fail, .ite h.fail (.ite h.fail (.ite h.fail (.ite h.fail h.confirmed)))]
theorem execMigrateOutConfirm_steps {r receipt} (h : Keeps s t) : Steps s (execMigrateOutConfirm r receipt t) := by
  unfold execMigrateOutConfirm; refine Keeps.next ?_
  split
  exacts [.ite h (h.admin (fun _ _ k => k.withInput (fun _ _ k1 => k1.withQuorum (fun _ k2 => k2.confirm)))), h]
theorem Keeps.applyLast {p j a payload} (h : Keeps s t) : Keeps s (t.applyLast p j a payload) := by
  unfold State.applyLast; dsimp only; split
  · exact h.finish
  · split
    · exact h.fail
    · split
      · exact h.fail
      · split
        exacts [h.fail, h.drew.commitJob]
theorem Keeps.applyChunk {p j b} (h : Keeps s t) : Keeps s (t.applyChunk p j b) := by
  unfold State.applyChunk; dsimp only; split
  · exact h.fail
  · split
    · exact h.fail
    · split
      exacts [h.fail, .ite h.applyLast ((h.each (fun _ _ k => k.updVlt (by simp))).finish)]
theorem execMigrateInApply_steps {r chunk} (h : Keeps s t) : Steps s (execMigrateInApply r chunk t) := by
  unfold execMigrateInApply; refine Keeps.next ?_
  split
  · refine .ite h (.ite h (h.admin fun _ _ k => k.withInput fun _ _ k => k.withQuorum fun _ k => ?_))
    split
    exacts [k.fail, k.applyChunk]
  · exact h
theorem Keeps.abandonPackage {p j} (h : Keeps s t) : Keeps s (t.abandonPackage p j) := by
  unfold State.abandonPackage; split
  · exact h.finish
  · split
    exacts [h.fail, (h.drew.tick.each (fun _ _ k => k.updVlt (by simp))).finish]
theorem execMigrateInAbandon_steps {r} (h : Keeps s t) : Steps s (execMigrateInAbandon r t) := by
  unfold execMigrateInAbandon; refine Keeps.next ?_
  split
  exacts [.ite (h.admin (fun _ _ k => k.withQuorum (fun _ k1 => k1.abandonPackage))) h, h]

/-! ## The log (15) -/

theorem Keeps.setLogMode {p j b} (h : Keeps s t) : Keeps s (t.setLogMode p j b) := by
  unfold State.setLogMode; dsimp only; split
  · exact h.fail
  · split
    · exact h.fail
    · split
      exacts [h.fail, Keeps.commitJob (.ite (h.each (fun _ _ k => k.updNvm)) h)]
theorem execLogMode_steps {r rec} (h : Keeps s t) : Steps s (execLogMode r rec t) :=
  (h.admin (fun _ _ k => k.withInput (fun _ _ k1 => k1.withQuorum (fun _ k2 => k2.setLogMode)))).next
theorem Keeps.exportLog {p j challenge} (h : Keeps s t) :
    Keeps s (t.exportLog p j challenge) := .ite h.finish h.drew.tick.finish
theorem execLogExport_steps {r challenge} (h : Keeps s t) : Steps s (execLogExport r challenge t) :=
  Keeps.next (.ite h (h.admin (fun _ _ k => .ite k.exportLog (k.withInput (fun _ _ k1 => k1.exportLog)))))

/-! ## Makeready (R227) -/

theorem Keeps.beginMakeready {x j swap i n bad} (h : Keeps s t) : Keeps s (t.beginMakeready x j swap i n bad) :=
  .ite h.fail h.updPr.record.makereadyNext
theorem execFwMakeready_steps {r bundle} (h : Keeps s t) : Steps s (execFwMakeready r bundle t) := by
  refine Keeps.next (.ite h (h.admin fun _ _ k => k.withInput fun _ _ k => k.withQuorum fun _ k => .ite k.fail ?_))
  split
  exacts [k.fail, k.beginMakeready]
theorem execFwSwap_steps {r} (h : Keeps s t) : Steps s (execFwSwap r t) :=
  Keeps.next (.ite h (h.admin (fun _ _ k => .ite k.fail k.beginMakeready)))
theorem execMakereadyBootTimeout_steps {p} (h : Keeps s t) : Steps s (execMakereadyBootTimeout p t) := by
  unfold execMakereadyBootTimeout; refine Keeps.next ?_
  split
  exacts [.ite (.ite h.updPr.updMgt.askToken h.updPr.updMgt) h, h]
theorem execMixedFwTimeout_steps {p} (h : Keeps s t) : Steps s (execMixedFwTimeout p t) :=
  Keeps.next (.ite (h.each (fun _ _ k => k.updPr.raise)) h)

/-! ## Operating time and records (R339) -/

theorem Keeps.storeOptime {p clean} (h : Keeps s t) : Keeps s (t.storeOptime p clean) := .ite h h.updNvm
theorem execOptimeStore_steps {p} (h : Keeps s t) :
    Steps s (execOptimeStore p t) := Keeps.next (.ite h.storeOptime.startGroup h)
theorem execWearLevelRewrite_steps {p lpn} (h : Keeps s t) : Steps s (execWearLevelRewrite p lpn t) :=
  Keeps.next (.ite h.startGroup h)
theorem Keeps.recordOut {p r priority k} (h : Keeps s t) : Keeps s (t.recordOut p r priority k) :=
  Keeps.writeLog (.ite h h.logProgrammed)
theorem execRecordWrite_steps {x} (h : Keeps s t) : Steps s (execRecordWrite x t) := by
  unfold execRecordWrite; refine Keeps.next ?_
  split
  · exact h.rollWindow.updNvm.recordOut
  · split
    exacts [.ite h.rollWindow h.rollWindow.updNvm.recordOut, h.rollWindow]
theorem execCoalesceFlush_steps {x} (h : Keeps s t) : Steps s (execCoalesceFlush x t) := by
  unfold execCoalesceFlush; refine Keeps.next ?_
  split
  exacts [.ite h.rollWindow.updNvm.recordOut h.rollWindow, h.rollWindow]
theorem execMaskEpochAdvance_steps {p} (h : Keeps s t) : Steps s (execMaskEpochAdvance p t) :=
  Keeps.next (.ite ((h.updVlt (by simp)).remask) h)

end Sys2Proof.Machine

/-! PROOFS. The history kept by power, cores and registers, and by a step (O58). -/

namespace Sys2Proof.Machine

variable {s t u : State}

/-! ## Start-up, loss of power and the PCIe island (16) -/

theorem Keeps.withPwrgood {b c} (h : Keeps s t) : Keeps s { t with pwrgood := b, clkreqLow := c } :=
  h.beside rfl rfl (List.prefix_refl _) rfl le_rfl rfl
theorem Keeps.risePwrgood (h : Keeps s t) : Keeps s t.risePwrgood := .ite h (h.each fun _ _ k => k.updNvm.updPr).withPwrgood
theorem Keeps.fromOff {p} (h : Keeps s t) : Keeps s (t.fromOff p) := by
  unfold State.fromOff; exact h.risePwrgood.updPow.updNvm.updTmp
theorem Keeps.drawBoot {p} (h : Keeps s t) : Keeps s (t.drawBoot p) := by
  unfold State.drawBoot; exact (Keeps.updVlt (.ite h.drew h.tick) (by simp)).updCus (by simp)
theorem Keeps.measureChase {p c} (h : Keeps s t) : Keeps s (t.measureChase p c) := by
  unfold State.measureChase; dsimp only; split
  exacts [.ite ((h.updTmp.updVlt (by simp)).startGroup) (h.updTmp.updVlt (by simp)), h.updTmp.updVlt (by simp)]
theorem Keeps.raiseEpoch {p} (h : Keeps s t) : Keeps s (t.raiseEpoch p) := .ite (h.updVlt (by simp)) h.stepEpoch
theorem Keeps.startRejoin {p} (h : Keeps s t) : Keeps s (t.startRejoin p) := h.updPr.updSl.updVlt (by simp)
theorem Keeps.startRelation {p cold} (h : Keeps s t) : Keeps s (t.startRelation p cold) :=
  .ite h.updPr (.ite h.updPr.mergeVaults (.ite h.updPr h.updPr))
theorem Keeps.startSlices {p} (h : Keeps s t) : Keeps s (t.startSlices p) := by
  unfold State.startSlices; exact h.updSl
theorem Keeps.mountVault {p} (h : Keeps s t) : Keeps s (t.mountVault p) := .ite h.finishErasing h
theorem Keeps.resolveSaved {p scans} (h : Keeps s t) : Keeps s (t.resolveSaved p scans) := by
  unfold State.resolveSaved; exact Keeps.updVlt (.ite ((h.each (fun _ _ k => k.resolveSlice)).resolveRing) (h.each (fun _ _ k
      => k.resolveSlice))) (by simp)
theorem Keeps.startServing {p} (h : Keeps s t) : Keeps s (t.startServing p) :=
  .ite h (.ite h (.ite h (.ite h.updPow.updPow h.updPow)))
theorem Keeps.linkStart {p x} (h : Keeps s t) : Keeps s (t.linkStart p x) := h.updPow
theorem Keeps.bringUp {p x scans} (h : Keeps s t) : Keeps s (t.bringUp p x scans) :=
  h.linkStart.updPow.refreshOut.record.resolveSaved.startServing
theorem Keeps.startClocks {p} (h : Keeps s t) : Keeps s (t.startClocks p) := h.updPr.updMgt
theorem Keeps.exchange {p} (h : Keeps s t) : Keeps s (t.exchange p) := h.each fun _ _ k => .ite k.send.send k
theorem Keeps.startCore {p chase rand cold} (h : Keeps s t) : Keeps s (t.startCore p chase rand cold) := by
  unfold State.startCore; extract_lets lost s₁ s₂ s₃ s₄ s₅ s₆ s₇ s₈
  have h₂ : Keeps s s₂ := h.startRandom.drawBoot.measureChase.raiseEpoch
  have h₃ : Keeps s s₃ := .ite h₂.startRejoin h₂.startRelation.mountVault.startSlices
  have h₇ : Keeps s s₇ := h₃.updMgt.bootImages.updPow.updTmp.startClocks.exchange.refreshOut.useToken
  have h₈ : Keeps s s₈ := .ite h₇.raise h₇
  exact .ite h₈.tamper h₈
theorem execPowerUp_steps {p chase scans} (h : Keeps s t) : Steps s (execPowerUp p chase scans t) :=
  Keeps.next (.ite h (.ite (Keeps.startCore (.ite h.fromOff h)) ((Keeps.startCore (.ite h.fromOff h)).bringUp)))
theorem Keeps.flushStaged {p} (h : Keeps s t) : Keeps s (t.flushStaged p) := by
  unfold State.flushStaged; exact (h.tick.each (fun _ _ k => k.writeLog)).updNvm
theorem Keeps.fallPwrgood (h : Keeps s t) : Keeps s t.fallPwrgood := (h.each fun _ _ k => k.updNvm).withPwrgood
theorem PlateState.Keeps.afterPower {x y : PlateState} (h : x.Keeps y) : x.Keeps y.afterPower := ⟨h.idf, h.rtf, h.epoch⟩
theorem execPowerDown_steps {p} (h : Keeps s t) : Steps s (execPowerDown p t) := by
  refine Keeps.next (.ite h ?_)
  extract_lets s₁ s₂ s₃
  have h₁ : Keeps s s₁ := .ite h.fallPwrgood h
  have h₃ : Keeps s s₃ := h₁.rollWindow.flushStaged.storeOptime.cutGroups.dropFence.setLinkUp.dropGut
  exact (h₃.upd fun _ => PlateState.Keeps.afterReset.afterPower).refreshOut.useToken
theorem Keeps.resetIsland {p} (h : Keeps s t) : Keeps s (t.resetIsland p) := h.updPow
theorem execPerstAssert_steps {p} (h : Keeps s t) : Steps s (execPerstAssert p t) :=
  Keeps.next (.ite h (.ite ((Keeps.updFlt (.ite h.updPow h.updPow.resetIsland)).record.classC) (.ite h.updPow
      h.updPow.resetIsland)))
theorem execPerstRelease_steps {x} (h : Keeps s t) : Steps s (execPerstRelease x t) :=
  Keeps.next (.ite h (.ite h.updPow (.ite h.updPow.linkStart h.updPow.bringUp)))
theorem execHotReset_steps {x} (h : Keeps s t) : Steps s (execHotReset x t) := Keeps.next (.ite h.resetIsland.updPow h)
theorem Keeps.sendPending {p} (h : Keeps s t) : Keeps s (t.sendPending p) := h.each fun _ _ k => .ite k k.updPow.emit
theorem Keeps.cfgWrite {p x} (h : Keeps s t) : Keeps s (t.cfgWrite p x) := by
  unfold State.cfgWrite; split
  exacts [h.updPow.sendPending, h.updPow, h.updPow, h.updPow, h, h, h, h, h, h]
theorem execConfigRequest_steps {p req} (h : Keeps s t) : Steps s (execConfigRequest p req t) :=
  Keeps.next (.ite h.cfgWrite.emit (.ite h.emit h))
theorem execAtsInvalidateRequest_steps {p page} (h : Keeps s t) : Steps s (execAtsInvalidateRequest p page t) :=
  Keeps.next (.ite h.updPow.emit h)
theorem execMsixVectorUnmask_steps {p vector} (h : Keeps s t) : Steps s (execMsixVectorUnmask p vector t) := by
  unfold execMsixVectorUnmask; refine Keeps.next ?_
  split
  · exact h
  · split
    exacts [.ite h h.updPow.sendPending, h.updPow.sendPending]
theorem execTimebaseSelect_steps {p timerefHz refclk corr} (h : Keeps s t) :
    Steps s (execTimebaseSelect p timerefHz refclk corr t) :=
  Keeps.next (.ite h h.updPow)
theorem execTimebaseRefLost_steps {p} (h : Keeps s t) : Steps s (execTimebaseRefLost p t) := Keeps.next (.ite h.updPow h)
theorem execAvsTransactionDone_steps {p kind ok} (h : Keeps s t) : Steps s (execAvsTransactionDone p kind ok t) :=
  Keeps.next (.ite h h.updPow.emit)
theorem execMctpMessage_steps {p req} (h : Keeps s t) : Steps s (execMctpMessage p req t) :=
  Keeps.next (.ite h.updMgt.emit.tick.blockIrq h.emit)
theorem execTapInstruction_steps {reset code} (h : Keeps s t) : Steps s (execTapInstruction reset code t) :=
  Keeps.next (h.beside rfl rfl (List.prefix_refl _) rfl le_rfl rfl)

/-! ## The cores (14) -/

theorem Keeps.randomLoad {p w n} (h : Keeps s t) : Keeps s (t.randomLoad p w n).1 := by
  unfold State.randomLoad; split
  · exact h
  · split
    exacts [h, h.drew]
theorem Keeps.blockLoad {p w a n} (h : Keeps s t) : Keeps s (t.blockLoad p w a n).1 := by
  unfold State.blockLoad; split
  · split
    exacts [h, h.randomLoad]
  · split
    exacts [h, h.tick]
theorem Keeps.blockStore {p w a v} (h : Keeps s t) : Keeps s (t.blockStore p w a v) := by
  unfold State.blockStore; split
  exacts [h.signal, h.secAlive, h.nrmAlive, .ite h.updNvm h, .ite h.updFlt h, .ite h.enterDrill (.ite h.endDrill h), h]
theorem Keeps.physAccess {p c k va a n d} (h : Keeps s t) : Keeps s (t.physAccess p c k va a n d).1 := by
  unfold State.physAccess; dsimp only; split
  · exact h
  · split
    · split
      · split
        exacts [h.cacheAccess.updMgt.pair, h.cacheAccess.pair]
      · split
        exacts [h.cacheAccess.pair, h.cacheAccess.pair]
    · split
      · exact h.tick.pair
      · split
        · split
          · exact h.blockStore.pair
          · split
            exacts [h.blockStore.blockStore.pair, h]
        · exact h.blockLoad
theorem Keeps.coreAccess {p c k va n d} (h : Keeps s t) : Keeps s (t.coreAccess p c k va n d).1 := by
  unfold State.coreAccess; extract_lets m tagFault
  have tags {u} (h : Keeps s u) : Keeps s (tagFault u).1 := h.raise.pair
  split
  · exact h
  · split
    · exact tags h
    · exact h
    · extract_lets s₁
      have h₁ : Keeps s s₁ := by
        unfold s₁; split
        exacts [h.updMgt, h]
      split
      · next hm => exact tags (h₁.physAccess.fst hm)
      · exact h₁.physAccess
theorem Keeps.monitor {p c} (h : Keeps s t) : Keeps s (t.monitor p c) := by
  unfold State.monitor; dsimp only; split
  · exact h.answer
  · split
    exacts [h.info, h.call, h.ret, h.releaseBlock, h.wmGive, h.setEntry, h.answer]
theorem Keeps.runRv {p c i n} (h : Keeps s t) : Keeps s (t.runRv p c i n).1 := by
  unfold State.runRv; extract_lets m hart next ends jumps illegal goes
  have ended {f} : Keeps s (ends f).1 := h.updHart.pair
  have jumped {f a} : Keeps s (jumps f a).1 := h.updHart.pair
  have went {x f} (k : Keeps s x.1) : Keeps s (goes x f).1 := by
    unfold goes; split
    exacts [k.updHart.pair, k]
  split
  · exact ended
  · exact ended
  · exact jumped
  · exact jumped
  · split
    exacts [jumped, ended]
  · exact ended
  · exact ended
  · exact ended
  · exact went h.coreAccess
  · exact went h.coreAccess
  · exact went h.coreAccess
  · dsimp only; split
    exacts [went h.coreAccess, ended]
  · extract_lets w
    clear_value w
    split
    · exact h
    · split
      · exact h.raise.pair
      · exact h
      · split
        · exact h
        · split
          · next hm => exact went (h.physAccess.fst hm).coreAccess
          · next hm => exact (h.physAccess.fst hm).raise.pair
          · next hm => exact h.physAccess.fst hm
          · exact h.physAccess
  · dsimp only; split
    · split
      exacts [h, h.tick.updHart.pair]
    · exact h
  · split
    exacts [h, ended]
  · split
    exacts [h.monitor.pair, h, h]
  · exact h
  · split
    exacts [h.updHart.pair, h]
  · exact h
theorem Keeps.fetchRv {p c} (h : Keeps s t) : Keeps s (t.fetchRv p c).1 := by
  unfold State.fetchRv; dsimp only; split
  · next hm =>
      split
      · exact h.coreAccess.fst hm
      · split
        · next hm' => exact (h.coreAccess.fst hm).coreAccess.fst hm'
        · next hm' => exact (h.coreAccess.fst hm).coreAccess.fst hm'
  · next hm => exact h.coreAccess.fst hm
theorem Keeps.setHalt {p core halt mmode} (h : Keeps s t) : Keeps s (t.setHalt p core halt mmode) := by
  unfold State.setHalt; exact h.updMgt.updPr
theorem Keeps.runBuffer {p c l} (h : Keeps s t) : Keeps s (t.runBuffer p c l) := by
  induction l generalizing t with
  | nil => exact h
  | cons k l ih =>
    unfold State.runBuffer; split
    · next hm => exact ih (h.runRv.fst hm)
    · next hm => exact h.runRv.fst hm
theorem Keeps.debugOp {p c x} (h : Keeps s t) : Keeps s (t.debugOp p c x) := by
  unfold State.debugOp; split
  exacts [h.emit.tick, h.updHart, .ite h.updMgt h, h.updHart.runBuffer.updHart, .ite h.updMgt h, h]
theorem execDebugHalt_steps {p core halt} (h : Keeps s t) : Steps s (execDebugHalt p core halt t) := by
  unfold execDebugHalt; refine Keeps.next ?_
  split
  · exact h
  · split
    exacts [.ite h.setHalt h, .ite h.tick.emit h, .ite h.debugOp h]
theorem Keeps.trapRv {p c cause tval} (h : Keeps s t) : Keeps s (t.trapRv p c cause tval) := h.updHart
theorem Keeps.fireTrigger {p c debug a} (h : Keeps s t) :
    Keeps s (t.fireTrigger p c debug a) := .ite (.ite h.setHalt h) h.trapRv
theorem Keeps.runCore {p c} (h : Keeps s t) : Keeps s (t.runCore p c) := by
  unfold State.runCore; dsimp only; split
  · exact h
  · split
    · exact h.updMgt.trapRv
    · split
      · exact h.fireTrigger
      · split
        · next hm => exact (h.fetchRv.fst hm).trapRv
        · next hm => exact h.fetchRv.fst hm
        · next hm =>
            split
            · exact (h.fetchRv.fst hm).fireTrigger
            · split
              · next hm' => exact ((h.fetchRv.fst hm).runRv.fst hm').trapRv
              · next hm' => exact (h.fetchRv.fst hm).runRv.fst hm'
theorem Keeps.runCores (h : Keeps s t) : Keeps s t.runCores := h.each (fun _ _ k => k.each (fun _ _ k1 => k1.runCore))

/-! ## Register accesses (17) -/

theorem Keeps.writeSlice {p i o v} (h : Keeps s t) : Keeps s (t.writeSlice p i o v) :=
  .ite h (.ite h.updSl (.ite h.setBuckets.updSl (.ite h.updSl h)))
theorem Keeps.writeRing {p i r o v} (h : Keeps s t) : Keeps s (t.writeRing p i r o v) :=
  .ite h (.ite h.updRing (.ite h.applyRingCfg (.ite h.updRing (.ite h.clearRing h))))
theorem Keeps.writeCopied {p o v} (h : Keeps s t) : Keeps s (t.writeCopied p o v) := .ite h.writeSlice h.writeRing
theorem Keeps.hostCopied {p i offset size value} (h : Keeps s t) : Keeps s (t.hostCopied p i offset size value) :=
  .ite (h.foldl fun _ _ k => k.writeCopied).copyOut h
theorem Keeps.writeAdmCfg {p v} (h : Keeps s t) : Keeps s (t.writeAdmCfg p v) :=
  .ite h (.ite (.ite h.updRing (.ite h h.enableRing.updSl)) (.ite h.disableRing.setQueue.updRing h.updRing))
theorem Keeps.writePlain {p o v} (h : Keeps s t) : Keeps s (t.writePlain p o v) := by
  unfold State.writePlain; split
  exacts [h.updFlt, h.updFlt.refreshOut, h.updFlt.refreshOut, .ite h.updPow h, h.updSl, .ite h.updSl h, h.updPr, h.updPr,
      h.updPr, h.updRing, h.updRing, h.updRing, h.updRing, h.writeAdmCfg, h.adminPi, .ite h.clearFault h, h.updSl, h]
theorem Keeps.broadcastWord {p o v} (h : Keeps s t) : Keeps s (t.broadcastWord p o v) :=
  .ite (.ite h.latchMeters h) (.ite (h.foldl fun _ _ k => k.hostCopied) h)
theorem Keeps.latchOne {p i v} (h : Keeps s t) : Keeps s (t.latchOne p i v) := .ite h.latchMeters h
theorem Keeps.writeAccess {p offset size value} (h : Keeps s t) : Keeps s (t.writeAccess p offset size value) := by
  unfold State.writeAccess; split
  exacts [h.hostCopied, h.foldl (fun _ _ k => .ite k.broadcastWord (.ite k.latchOne k.writePlain))]
theorem Keeps.writeBar0 {p offset size value} (h : Keeps s t) : Keeps s (t.writeBar0 p offset size value) :=
  h.foldl fun _ _ k => k.writeAccess
theorem Keeps.writeBar4 {p offset size value} (h : Keeps s t) : Keeps s (t.writeBar4 p offset size value) :=
  (h.foldl fun _ _ k => .ite k.updPow k).sendPending
theorem Keeps.writeGrace {p v} (h : Keeps s t) : Keeps s (t.writeGrace p v) := .ite h.updFlt h
theorem execRegisterWrite_steps {p bar offset size value} (h : Keeps s t) :
    Steps s (execRegisterWrite p bar offset size value t) := by
  unfold execRegisterWrite; refine Keeps.next ?_
  split
  exacts [.ite h.writeBar0 h, .ite h.writeBar4 h, .ite h.writeGrace h, h]
theorem Keeps.copyArrives {p offset size value} (h : Keeps s t) : Keeps s (t.copyArrives p offset size value) := by
  unfold State.copyArrives; dsimp only; split
  exacts [.ite h (.ite (.ite h (h.foldl (fun _ _ k => k.writeCopied))) (h.setGut.foldl (fun _ _ k => k.writeCopied))), h]
theorem execRegisterCopyArrive_steps {p} (h : Keeps s t) : Steps s (execRegisterCopyArrive p t) := by
  unfold execRegisterCopyArrive; split
  · next hm => exact (h.receive hm).copyArrives.next
  · exact h.next
theorem execBroadcastWrite_steps {p offset size value} (h : Keeps s t) : Steps s (execBroadcastWrite p offset size value t) :=
  Keeps.next (.ite (h.foldl fun _ _ k => k.broadcastWord) h)
theorem execMeterLatch_steps {p i value} (h : Keeps s t) :
    Steps s (execMeterLatch p i value t) := Keeps.next (.ite h.latchOne h)
theorem execTimebaseRead_steps {p} (h : Keeps s t) : Steps s (execTimebaseRead p t) := Keeps.next (.ite h.updPow.emit h)
theorem Keeps.readTimesOut {p x} (h : Keeps s t) : Keeps s (t.readTimesOut p x) := by
  unfold State.readTimesOut; split
  · exact .ite h.doorbellDone h
  · exact .ite h.fetchDone h
  · split
    exacts [.ite h.slugRead h, h]
  · split
    exacts [.ite h.fail (.ite h.setQueue.fail h), h]
  · split
    exacts [.ite h.messageFails h, h]
  · exact h.retireRead.witnessFails
theorem execDmaReadTimeout_steps {p kind} (h : Keeps s t) : Steps s (execDmaReadTimeout p kind t) :=
  Keeps.next (.ite h.readTimesOut h)

/-! ## A step -/

/-- Every command answers a next state and takes nothing back. -/
theorem exec_steps (c : Instr) (h : Keeps s t) : Steps s (exec c t) := by
  cases c
  exacts [execAeadSeal_steps h, execAeadOpen_steps h, execSivSeal_steps h, execSivOpen_steps h, execMacGen_steps h,
    execMacVerify_steps h, execWrap_steps h, execUnwrap_steps h, execDigest_steps h, execSign_steps h, execVerify_steps h,
    execKemDecaps_steps h, execKemEncaps_steps h, execEcdh_steps h, execRsaDecrypt_steps h, execDerive_steps h,
    execKeyLoad_steps h, execKeyGenerate_steps h, execKeyImport_steps h, execKeyErase_steps h, execKeyAttest_steps h,
    execKeyInfo_steps h, execKeyExportWrapped_steps h, execRandom_steps h, execFence_steps h, execDeviceAttest_steps h,
    execSliceCreate_steps h, execSliceResize_steps h, execSliceDestroy_steps h, execImporterBind_steps h,
    execQuorumOpen_steps h, execQuorumApprove_steps h, execCustodianEnroll_steps h, execCustodianRemove_steps h,
    execPolicySet_steps h, execLifecycleSet_steps h, execKnockoutCmd_steps h, execFwMakeready_steps h, execFwSwap_steps h,
    execMigrateOutPackage_steps h, execMigrateOutConfirm_steps h, execMigrateInApply_steps h, execMigrateInAbandon_steps h,
    execLogMode_steps h, execLogExport_steps h, execTakeover_steps h, execRebalance_steps h, execDoorbellPoll_steps h,
    execDoorbellReadDone_steps h, execNudge_steps h, execCancel_steps h, execNudgeForwardArrive_steps h,
    execCancelForwardArrive_steps h, execDescriptorFetch_steps h, execDmaReadTimeout_steps h, execSlugResolve_steps h,
    execLineReserveRetry_steps h, execFillDone_steps h, execInputPrefetch_steps h, execJobStart_steps h,
    execLaneResultReady_steps h, execMessageDataArrive_steps h, execAttemptBoundary_steps h, execJustifierRelease_steps h,
    execEngineJobDone_steps h, execOpenFirstPassDone_steps h, execVaultJobDone_steps h, execProgressLineWrite_steps h,
    execIrqCoalTimeout_steps h, execParkSelect_steps h, execPark_steps h, execJobResume_steps h, execRefcountZero_steps h,
    execRingEnable_steps h, execRingDisable_steps h, execRingDrainEnd_steps h, execRingFaultClear_steps h,
    execAdminDoorbell_steps h, execAdminRingEnable_steps h, execAdminRingDisable_steps h, execAdminFaultClear_steps h,
    execRegisterWrite_steps h, execRegisterCopyArrive_steps h, execBroadcastWrite_steps h, execMeterLatch_steps h,
    execWitnessEnable_steps h, execTimebaseRead_steps h, execRngDataRead_steps h, execRngDataReady_steps h,
    execFaultClear_steps h, execFaultForce_steps h, execDrillEnter_steps h, execDrillExit_steps h, execDrillTimeout_steps h,
    execWorldSignal_steps h, execSecAliveWrite_steps h, execNrmAliveWrite_steps h, execSecStallTimeout_steps h,
    execSecRestartTimeout_steps h, execNrmRestartTimeout_steps h, execNvmRawSelect_steps h, execInfo_steps h,
    execCall_steps h, execRet_steps h, execCallTimeout_steps h, execRelease_steps h, execWmGive_steps h,
    execWmScrubDone_steps h, execSetEntry_steps h, execConditionerBlock_steps h, execHealthTestFail_steps h,
    execReseedDue_steps h, execGutterHeartbeatSend_steps h, execGutterHeartbeatRecv_steps h, execSublinkDown_steps h,
    execGutterLost_steps h, execMirrorWriteRecv_steps h, execMirrorAckRecv_steps h, execNvmCommitDone_steps h,
    execInflightMirrorCopy_steps h, execWitnessBeat_steps h, execWitnessRead_steps h, execPeerStale_steps h,
    execWitnessError_steps h, execLeaveRecv_steps h, execTakeoverCasDone_steps h, execTakeoverQuietEnd_steps h,
    execFenceHoldEnd_steps h, execFenceAsserted_steps h, execFenceReleased_steps h, execPeerRejoin_steps h,
    execResyncComplete_steps h, execReconcileDone_steps h, execHandoverDrainDone_steps h, execHandoverStateRecv_steps h,
    execMakereadyBootTimeout_steps h, execMixedFwTimeout_steps h, execScrubStart_steps h, execTimebaseCompare_steps h,
    execRegionSkew_steps h, execClusterWatchdogExpire_steps h, execSequencerWaitExpire_steps h, execTokenRequestRecv_steps h,
    execTokenReceived_steps h, execTokenPassTimeout_steps h, execIsolationTimeout_steps h, execFaultSourceAssert_steps h,
    execUnitResetDone_steps h, execGraceExpire_steps h, execChaseCompare_steps h, execEnvThreshold_steps h,
    execSensorSample_steps h, execLogicAlarm_steps h, execKnockoutLineAssert_steps h, execKnockoutCauseRecv_steps h,
    execPowerUp_steps h, execPowerDown_steps h, execPerstAssert_steps h, execPerstRelease_steps h, execHotReset_steps h,
    execTimebaseSelect_steps h, execTimebaseRefLost_steps h, execAvsTransactionDone_steps h, execOptimeStore_steps h,
    execMaskEpochAdvance_steps h, execWearLevelRewrite_steps h, execEventRecord_steps h, execRecordWrite_steps h,
    execLogWindowEnd_steps h, execCoalesceFlush_steps h, execShedLevelChange_steps h, execQuorumSessionExpire_steps h,
    execLocalApprovalTimeout_steps h, execButtonWaitTimeout_steps h, execBripaFrameRecv_steps h, execBripaRetransmit_steps h,
    execHello_steps h, execConfig_steps h, execAck_steps h, execLinkReset_steps h, execClaim_steps h, execGrant_steps h,
    execReleaseFrame_steps h, execCardCtrl_steps h, execCardEvent_steps h, execApdu_steps h, execResp_steps h,
    execPinCollect_steps h, execPinResult_steps h, execSdCmd_steps h, execSdData_steps h, execSdDone_steps h,
    execSdEvent_steps h, execKey_steps h, execButton_steps h, execDisplay_steps h, execLed_steps h, execTamper_steps h,
    execLoopStatus_steps h, execLoopStatusPeriod_steps h, execFieldPowerUp_steps h, execBrownOut_steps h,
    execAllClearLost_steps h, execAllClearValid_steps h, execLoopDeglitch_steps h, execDiscrepancyExpire_steps h,
    execDiscrepancyEnd_steps h, execKoChannelAssert_steps h, execCardPresence_steps h, execCardOvercurrent_steps h,
    execCardResponseTimeout_steps h, execSdBusyTimeout_steps h, execSdRemoval_steps h, execKeypadPress_steps h,
    execButtonPress_steps h, execSdInsertion_steps h, execMctpMessage_steps h, execTapInstruction_steps h,
    execDebugHalt_steps h, execConfigRequest_steps h, execAtsInvalidateRequest_steps h, execMsixVectorUnmask_steps h,
    execPeerWearStateReport_steps h, execPeerEpochReport_steps h]

/-- Settles O58: the command at the front runs on the state with the queue's rest (`exec_steps`), and on an empty queue the cores
run one microsecond later (`Keeps.runCores`). -/
theorem stepsKeepHistory : Obligations.StepsKeepHistory := by
  intro s
  cases hs : s.pending with
  | nil =>
    have k := (Keeps.refl { s with clock := s.clock + 1 }).runCores
    exact ⟨_, by rw [step, hs], k.out, k.pending.trans hs, k.free, k.clock, fun p => ⟨k.idf p, k.rtf p, k.epoch p⟩⟩
  | cons c l =>
    obtain ⟨t, ht, k⟩ := exec_steps c (Keeps.refl { s with pending := l })
    exact ⟨t, by rw [step, hs]; exact ht, k.out, k.pending, k.free, k.clock, fun p => ⟨k.idf p, k.rtf p, k.epoch p⟩⟩

end Sys2Proof.Machine

/-! PROOFS. What the cipher engines and the hash path compute (O14). -/

namespace Sys2Proof.Machine

variable {s u : State} {r : JobRef} {j k : Job} {op n : Nat} {d : Desc} {x : Inputs}

/-! ## The unit's work -/

theorem op_of_working (h : Working s r op j) : j.desc.op = op := by
  obtain ⟨-, -, -, ho, -⟩ := h
  exact ho

theorem State.working_of (h : Working s r op j) : s.working r op = some j := by
  obtain ⟨hj, hs, hu, ho, hr⟩ := h
  simp [State.working, hj, hs, hu, ho, hr]

/-- A unit's outcome is seen from any earlier state from which only its job changed. -/
theorem State.computed_after (hj : u.jobAt r = some k) (hr : (u.pl r.plate).sl.rings = (s.pl r.plate).sl.rings)
    (hl : (u.pl r.plate).sl.jobs.length = (s.pl r.plate).sl.jobs.length) (hf : SameBut [.sl r.plate] s u) (y : Result) :
    Computed s (u.computed r y) r k y := by
  have job : (u.retireRead r.plate (.input r.ring r.index)).jobAt r = some k := by
    rw [← hj]
    exact State.job?_updSl u r.plate (fun x => { x with reads := x.reads.filter fun e => e.1 != .input r.ring r.index })
      (fun _ => rfl) r.ring r.index
  have frame : SameBut [.sl r.plate] s (u.computed r y) :=
    hf.trans ((State.updSl_frame u _ _).trans (State.updJobAt_frame _ r _))
  refine ⟨State.jobAt_updJob job _ fun _ h1 h2 => ⟨h1, h2⟩, ?_, ?_, frame .out (by simp), frame⟩
  · rw [← hr, State.computed, State.updJobAt, State.updJob, State.updSl_self, State.retireRead, State.updSl_self]
  · simp [← hl, State.computed, State.updJobAt, State.updJob, State.retireRead]

theorem State.computed_spec (hj : s.jobAt r = some j) (y : Result) : Computed s (s.computed r y) r j y :=
  State.computed_after hj rfl rfl (SameBut.refl _ s) y

/-- The outcome of a job that changed first. -/
theorem State.computed_updJobAt (hj : s.jobAt r = some j) (f : Job → Job)
    (hf : ∀ k, (f k).ring = k.ring ∧ (f k).index = k.index) (y : Result) :
    Computed s ((s.updJobAt r f).computed r y) r (f j) y :=
  State.computed_after (State.jobAt_updJob hj f fun k h1 h2 => ⟨(hf k).1.trans h1, (hf k).2.trans h2⟩)
    (by simp [State.updJob]) (by simp [State.updJob]) (State.updJobAt_frame s r f) y

theorem cipherResult_read {a b c : Bytes} (h : cipherReads d x n = some (a, b, c)) (f : Bytes → Bytes → Bytes → Result) :
    cipherResult d x n f = f a b c := by simp only [cipherResult, h]

theorem cipherResult_fault (h : cipherReads d x n = none) (f : Bytes → Bytes → Bytes → Result) :
    cipherResult d x n f = { status := .dmaFault } := by simp only [cipherResult, h]

theorem Job.mat_of_key {k : Key} (h : j.key = some k) : j.mat = k.material := by simp [Job.mat, h]

/-! ## Seals (R87, R101) -/

theorem exec_aeadSeal (h : Working s r 0x10 j) : exec (.aeadSeal r x) s = .next (s.computed r (aeadSealResult j x)) := by
  show execAeadSeal r x s = _
  simp only [execAeadSeal, State.working_of h]

theorem aeadSealResult_read {k : Key} {pt aad o : Bytes} (hk : j.key = some k) (hn : j.inv = some n)
    (hx : cipherReads j.desc x 0 = some (pt, aad, o)) :
    aeadSealResult j x = { status := .ok, outLen := j.desc.inLen.toNat + 16, info := BitVec.ofNat 32 n,
                           info2 := BitVec.ofNat 32 (n / 2 ^ 32),
                           writes := (j.desc.outAddr, fit (j.desc.inLen.toNat + 16)
                               (Config.gcmSeal k.material (beBytes 4 k.kit.toNat ++ beBytes 8 n) aad pt)) ::
                             (if j.desc.param = 0 then [] else [(j.desc.param, beBytes 4 k.kit.toNat ++ beBytes 8 n)]) } := by
  rw [aeadSealResult, cipherResult_read hx]
  simp [hk, hn, invInfo, deviceIv, Job.mat_of_key hk, fit_length]

/-- A SIV_SEAL that reads its plaintext once and has its invocation number. -/
theorem exec_sivSeal {pt aad nonce : Bytes} (h : Working s r 0x12 j) (hn : j.inv = some n)
    (hx : cipherReads j.desc x 12 = some (pt, aad, nonce)) (hl : j.desc.inLen.toNat ≤ 65536) :
    exec (.sivSeal r x) s = .next (s.computed r (sivSealed j (sivSealOf j pt aad nonce) n)) := by
  show execSivSeal r x s = _
  simp only [execSivSeal, State.working_of h, hx, if_pos hl, hn, sivSealed]
  rfl

/-! ## Opens (R98, R99) -/

theorem exec_aeadOpen (h : Working s r 0x11 j) : exec (.aeadOpen r x) s = .next (s.openPass r j x Config.gcmOpen) := by
  show execAeadOpen r x s = _
  simp only [execAeadOpen, State.working_of h]

theorem exec_sivOpen (h : Working s r 0x13 j) : exec (.sivOpen r x) s = .next (s.openPass r j x Config.sivOpen) := by
  show execSivOpen r x s = _
  simp only [execSivOpen, State.working_of h]

theorem twoPass_of_open (h : j.desc.op = 0x11 ∨ j.desc.op = 0x13) : twoPass j.desc = decide (65552 < j.desc.inLen.toNat) := by
  rcases h with h | h <;> simp [twoPass, h]

/-- The outcome of an open after `n` passes, with the fields of Table 4.4. -/
theorem computed_opened {t : State} {m : Option Bytes} (hp : j.passes = n) :
    Computed s t r k (openResult j m) → Computed s t r k (match m with
      | some m => { status := .ok, outLen := j.desc.inLen.toNat - 16, info := BitVec.ofNat 32 n,
                    writes := [(j.desc.outAddr, fit (j.desc.inLen.toNat - 16) m)] }
      | none => { status := .authFail, info := BitVec.ofNat 32 n }) := by
  intro h
  cases m with
  | some m => simpa [openResult, hp, fit_length] using h
  | none => simpa [openResult, hp] using h

/-- The first pass of an open: one of two keeps the tag and the IV that it read. -/
theorem State.openPass_first {k : Key} {ct aad iv : Bytes} (f : Bytes → Bytes → Bytes → Bytes → Option Bytes)
    (hj : s.jobAt r = some j) (ho : j.desc.op = 0x11 ∨ j.desc.op = 0x13) (hk : j.key = some k) (hp : j.passes = 1)
    (hx : cipherReads j.desc x 12 = some (ct, aad, iv)) :
    Computed s (s.openPass r j x f) r (if 65552 < j.desc.inLen.toNat then { j with inp := sealTag ct, par := iv } else j)
      (openResult j (f k.material iv aad ct)) := by
  rw [State.openPass, openStrings, if_pos hp, hx]
  simp only [twoPass_of_open ho, beq_iff_eq.mpr hp, Job.mat_of_key hk, Bool.and_true, decide_eq_true_eq]
  by_cases hl : 65552 < j.desc.inLen.toNat
  · simp only [if_pos hl]
    exact State.computed_updJobAt hj (fun j => { j with inp := sealTag ct, par := iv }) (fun _ => ⟨rfl, rfl⟩) _
  · simp only [if_neg hl]
    exact State.computed_spec hj _

/-- The second pass of an open: the ciphertext and the additional data again, with the tag and the IV of the first. -/
theorem State.openPass_second {k : Key} {ct aad o : Bytes} (f : Bytes → Bytes → Bytes → Bytes → Option Bytes)
    (hj : s.jobAt r = some j) (hk : j.key = some k) (hp : j.passes = 2)
    (hx : cipherReads { j.desc with inLen := j.desc.inLen - 16 } x 0 = some (ct, aad, o)) :
    Computed s (s.openPass r j x f) r j (openResult j (f k.material j.par aad (ct ++ j.inp))) := by
  have one : j.passes ≠ 1 := by omega
  rw [State.openPass, openStrings, if_neg one, hx]
  simp only [Option.map_some, Job.mat_of_key hk, beq_false_of_ne one, Bool.and_false, Bool.false_eq_true, if_false]
  exact State.computed_spec hj _

/-! ## Wraps, MACs and digests (R82, R83, R97, R98) -/

theorem exec_wrap (h : Working s r 0x16 j) {m a o : Bytes} (hx : cipherReads j.desc x 0 = some (m, a, o)) :
    exec (.wrap r x) s = .next (s.computed r {
      outLen := kwpLen j.desc.inLen.toNat
      writes := [(j.desc.outAddr, fit (kwpLen j.desc.inLen.toNat) (Config.kwpWrap j.mat m))] }) := by
  show execWrap r x s = _
  simp only [execWrap, State.working_of h, cipherResult_read hx, fit_length]

theorem exec_unwrap (h : Working s r 0x17 j) {m a o : Bytes} (hx : cipherReads j.desc x 0 = some (m, a, o)) :
    exec (.unwrap r x) s = .next (s.computed r (match Config.kwpUnwrap j.mat m with
      | some v => { outLen := (v.take (j.desc.inLen.toNat - 8)).length,
                    writes := [(j.desc.outAddr, v.take (j.desc.inLen.toNat - 8))] }
      | none => { status := .authFail })) := by
  show execUnwrap r x s = _
  simp only [execUnwrap, State.working_of h, cipherResult_read hx] <;> rfl

theorem macOf_length (j : Job) (m c : Bytes) : (macOf j m c).length = macLen j.desc.al (j.desc.fl 8 8) := fit_length _ _

theorem exec_macGen (h : Working s r 0x14 j) {m a o : Bytes} (hx : cipherReads j.desc x 0 = some (m, a, o)) :
    exec (.macGen r x) s = .next (s.computed r { outLen := macLen j.desc.al (j.desc.fl 8 8),
                                                 writes := [(j.desc.outAddr, macOf j m a)] }) := by
  show execMacGen r x s = _
  simp only [execMacGen, State.working_of h, cipherResult_read hx, macOf_length]

theorem exec_macVerify (h : Working s r 0x15 j) {m a tag : Bytes}
    (hx : cipherReads j.desc x (macLen j.desc.al (j.desc.fl 8 8)) = some (m, a, tag)) :
    exec (.macVerify r x) s = .next (s.computed r { status := if macOf j m a = tag then .ok else .authFail }) := by
  show execMacVerify r x s = _
  simp only [execMacVerify, State.working_of h, cipherResult_read hx]

theorem exec_digest (h : Working s r 0x18 j) {m a o : Bytes} (hx : cipherReads j.desc x 0 = some (m, a, o)) :
    exec (.digest r x) s = .next (s.computed r {
      outLen := digestLen j.desc.al
      writes := [(j.desc.outAddr, fit (digestLen j.desc.al) (Config.hash j.desc.al m))] }) := by
  show execDigest r x s = _
  simp only [execDigest, State.working_of h, cipherResult_read hx, fit_length]

/-- Settles O14: each row stores the outcome that its strings give (`computed_spec`), an open as `openPass_first` and
`openPass_second` say. -/
theorem cipherJobs : Obligations.CipherJobs := by
  unfold Obligations.CipherJobs
  refine ⟨?aeadSeal, ?sivSeal, ?wrap, ?macGen, ?digest, ?readFails, ?aeadFirst, ?aeadSecond, ?sivFirst, ?sivSecond, ?unwrap,
    ?macVerify⟩
  case aeadSeal =>
    intro r j k d n pt aad o s h hk hn hx
    refine ⟨_, exec_aeadSeal h, ?_⟩
    rw [aeadSealResult_read hk hn hx]
    exact State.computed_spec h.1 _
  case sivSeal =>
    intro r j k d n pt aad nonce s h hk hn hx hl
    refine ⟨_, exec_sivSeal h hn hx hl, ?_⟩
    simp only [sivSealed, hn, sivSealOf, fit_length, Job.mat_of_key hk]
    exact State.computed_spec h.1 _
  case wrap =>
    intro r j k d m a o s h hk hx
    refine ⟨_, exec_wrap h hx, ?_⟩
    rw [Job.mat_of_key hk]
    exact State.computed_spec h.1 _
  case macGen => exact fun r j d m a o s h hx => ⟨_, exec_macGen h hx, State.computed_spec h.1 _⟩
  case digest => exact fun r j d m a o s h hx => ⟨_, exec_digest h hx, State.computed_spec h.1 _⟩
  case readFails =>
    intro r j d s h hx
    refine ⟨_, exec_aeadSeal h, ?_⟩
    rw [aeadSealResult, cipherResult_fault hx]
    exact State.computed_spec h.1 _
  case aeadFirst =>
    intro r j k d ct aad iv s h hk hp hx
    exact ⟨_, exec_aeadOpen h, computed_opened hp (State.openPass_first _ h.1 (.inl (op_of_working h)) hk hp hx)⟩
  case aeadSecond =>
    intro r j k d ct aad o s h hk hp hx
    exact ⟨_, exec_aeadOpen h, computed_opened hp (State.openPass_second _ h.1 hk hp hx)⟩
  case sivFirst =>
    intro r j k d ct aad iv s h hk hp hx
    exact ⟨_, exec_sivOpen h, computed_opened hp (State.openPass_first _ h.1 (.inr (op_of_working h)) hk hp hx)⟩
  case sivSecond =>
    intro r j k d ct aad o s h hk hp hx
    exact ⟨_, exec_sivOpen h, computed_opened hp (State.openPass_second _ h.1 hk hp hx)⟩
  case unwrap =>
    intro r j k d m a o s h hk hx
    refine ⟨_, exec_unwrap h hx, ?_⟩
    rw [Job.mat_of_key hk]
    exact State.computed_spec h.1 _
  case macVerify => exact fun r j d m a tag s h hx => ⟨_, exec_macVerify h hx, State.computed_spec h.1 _⟩

end Sys2Proof.Machine

/-! PROOFS. Handles issued and epochs awaited (R90, R91, R146). -/

namespace Sys2Proof.Machine

variable {s t u : State} {p : Plate} {i pos : Nat} {j : Job} {k : Key} {e : CacheEntry} {x : Result} {h : DWord}

/-! ## Entries of the cache -/

/-- A changed entry reads as the change of what it read before, masked, where the change keeps its place. -/
theorem State.entryAt_updEntry (he : s.entryAt p i pos = some e) {f : CacheEntry → CacheEntry}
    (hf : ∀ x, (f x).slice = x.slice ∧ (f x).pos = x.pos) :
    (s.updEntry p i pos f).entryAt p i pos = some (s.masked p (f e)) := by
  have keeps : (fun x : CacheEntry => x.slice == i && x.pos == pos) ∘
      (fun x => if x.slice == i && x.pos == pos then s.masked p (f x) else x) = fun x => x.slice == i && x.pos == pos := by
    funext x
    dsimp only [Function.comp]
    split
    · simp only [State.masked, hf]
    · rfl
  have place : (e.slice == i && e.pos == pos) = true :=
    List.find?_some (p := fun x : CacheEntry => x.slice == i && x.pos == pos) he
  rw [State.entryAt] at he
  rw [State.entryAt, State.updEntry, State.updVlt_self]
  dsimp only
  rw [List.find?_map, keeps, he, Option.map_some, if_pos place]

theorem State.entryAt_congr (hv : (t.pl p).vlt.cache = (s.pl p).vlt.cache) : t.entryAt p i pos = s.entryAt p i pos := by
  rw [State.entryAt, State.entryAt, hv]

theorem State.updEntry_frame (s : State) (p : Plate) (i pos : Nat) (f : CacheEntry → CacheEntry) :
    SameBut [.vlt p] s (s.updEntry p i pos f) := State.updVlt_frame s p _

/-- A change of the cache alone leaves what a handle's value comes from. -/
theorem State.handleSource_updEntry (s : State) (p : Plate) (i n pos : Nat) (f : CacheEntry → CacheEntry) :
    (s.updEntry p n pos f).era p i = s.era p i ∧ (s.updEntry p n pos f).nextSeq p i pos = s.nextSeq p i pos ∧
      ∃ c, ((s.updEntry p n pos f).pl p).vlt = { (s.pl p).vlt with cache := c } := by
  have era : (s.updEntry p n pos f).era p i = s.era p i := by cases p <;> rfl
  exact ⟨era, by cases p <;> rfl, _, State.updVlt_self s p _⟩

/-- The entry that a completing job leaves behind: one with a handle, and filled, stays. -/
theorem State.entryAt_dropJob {q : RingRef} {n : Word} (he : s.entryAt p i pos = some e) (hh : e.handle = some h)
    (hf : e.filled = true) : (s.dropJob p q n).entryAt p i pos = some e := by
  rw [State.entryAt, List.find?_eq_some_iff_append] at he
  obtain ⟨place, as, bs, hc, before⟩ := he
  rw [State.entryAt, State.dropJob, State.updSl_vlt, State.updVlt_self]
  dsimp only
  generalize hk : (fun e : CacheEntry => !(s.pl p).sl.jobs.any fun j => (j.ring == q && j.index == n) &&
    (j.reservedEntry e || j.fillsEntry e)) = keep
  have stays : keep e = true := by simp [← hk, Job.reservedEntry, Job.fillsEntry, hh, hf]
  rw [hc, List.filter_append, List.filter_cons_of_pos stays, List.find?_eq_some_iff_append]
  exact ⟨place, _, _, rfl, fun a ha => before a (List.mem_of_mem_filter ha)⟩

/-! ## The key made ready, and its handle issued -/

/-- Between `s` and `u` the entry at a position of slice `i` came to hold the key `k`, made for this plate, and nothing moved that
its handle's value comes from (R90, R91). -/
structure KeyReady (s u : State) (p : Plate) (i pos : Nat) (k : Key) : Prop where
  entry : ∃ e, u.entryAt p i pos = some e ∧ e.key.alg = k.alg ∧ e.key.attr = k.attr ∧ e.key.material = k.material ∧
    (k.src ≠ .volatileKey → e.key = k) ∧ (k.src = .volatileKey ∧ needsVinst k = true →
      e.key.vinst = some (s.pl p).vlt.nextV ∧ e.key.kit = s.volatileT p ∧ (u.pl p).vlt.nextV = (s.pl p).vlt.nextV + 1)
  era : u.era p i = s.era p i
  seq : u.nextSeq p i pos = s.nextSeq p i pos
  epoch : (u.pl p).vlt.epoch = (s.pl p).vlt.epoch
  frame : SameBut [.vlt p] s u

theorem KeyReady.before_updEntry {f : CacheEntry → CacheEntry} (h : KeyReady (s.updEntry p i pos f) u p i pos k) :
    KeyReady s u p i pos k := by
  obtain ⟨era, seq, c, vlt⟩ := State.handleSource_updEntry s p i i pos f
  obtain ⟨⟨e, he, ha, hb, hm, hk, hv⟩, hera, hseq, hep, hf⟩ := h
  rw [State.volatileT, vlt] at hv
  exact ⟨⟨e, he, ha, hb, hm, hk, hv⟩, hera.trans era, hseq.trans seq, by rw [hep, vlt],
    (State.updEntry_frame s p i pos f).trans hf⟩

theorem State.issue_frame (s : State) (p : Plate) (i pos : Nat) : SameBut [.vlt p] s (s.issue p i pos).1 :=
  (State.updEntry_frame s p i pos _).trans (State.updVlt_frame _ p _)

/-- The handle of a key made ready is issued. -/
theorem KeyReady.issued (h : KeyReady s u p i pos k) : HandleIssued s (u.issue p i pos).1 p i pos k (u.issue p i pos).2 := by
  obtain ⟨⟨e, he, ha, hb, hm, hk, hv⟩, hera, hseq, hep, hf⟩ := h
  have entry := State.entryAt_updEntry he (f := fun e => { e with
    handle := some (makeHandle p (u.era p i) (u.nextSeq p i pos) pos), filled := true }) fun _ => ⟨rfl, rfl⟩
  have vlt : ∃ c, ((u.issue p i pos).1.pl p).vlt = { (u.pl p).vlt with
      cache := c, seqs := (u.pl p).vlt.seqs.set 0 (seqKey i pos) (u.nextSeq p i pos + 1)
      issued := (u.pl p).vlt.issued.set 0 (seqKey (u.era p i) pos) (u.nextSeq p i pos + 1) } :=
    ⟨_, (State.updVlt_self _ p _).trans (by rw [State.updEntry, State.updVlt_self])⟩
  obtain ⟨c, vlt⟩ := vlt
  refine ⟨_, (State.entryAt_congr (by rw [State.issue, State.updVlt_self])).trans entry, rfl, rfl, ha, hb, hm, hk, ?_, ?_, ?_,
    fun fresh => ?_⟩
  · rw [← hera, ← hseq]
    rfl
  · simp only [vlt, ← hera, ← hseq, Tab.get_set]
  · rw [vlt, ← hep]
  · obtain ⟨hvi, hki, hnext⟩ := hv fresh
    exact ⟨hvi, hki, by rw [vlt, ← hnext]⟩

/-- What follows an issue keeps the handle where the vault's counts and the entry stay. -/
theorem HandleIssued.after (hi : HandleIssued s t p i pos k h) (he : ∀ e, t.entryAt p i pos = some e → e.handle = some h →
    e.filled = true → u.entryAt p i pos = some e) (hs : (u.pl p).vlt.issued = (t.pl p).vlt.issued)
    (hp : (u.pl p).vlt.epoch = (t.pl p).vlt.epoch) (hn : (u.pl p).vlt.nextV = (t.pl p).vlt.nextV) :
    HandleIssued s u p i pos k h := by
  obtain ⟨f, hf, hh, hfill, ha, hb, hm, hk, hv, hc, hep, hfresh⟩ := hi
  refine ⟨f, he f hf hh hfill, hh, hfill, ha, hb, hm, hk, hv, by rw [hs]; exact hc, hp.trans hep, fun fresh => ?_⟩
  obtain ⟨h1, h2, h3⟩ := hfresh fresh
  exact ⟨h1, h2, hn.trans h3⟩

theorem State.post_vlt (s : State) (p : Plate) (q : RingRef) (n : Word) (d : Option Desc) (r : Result) (a b c : Bool) :
    ((s.post p q n d r a b c).pl p).vlt = (s.pl p).vlt := State.post_frame s p q n d r a b c (.vlt p) (by simp)

theorem HandleIssued.finish {n : Job} (hi : HandleIssued s t p i pos k h) (r : Result) :
    HandleIssued s (t.finish p n r) p i pos k h := by
  unfold State.finish
  split
  · have vlt := State.post_vlt t p n.ring n.index (some n.desc) r n.wasParked (n.fetchedBy != p) false
    refine HandleIssued.after hi (fun e he hh hf =>
      State.entryAt_dropJob ((State.entryAt_congr (by rw [vlt])).trans he) hh hf) ?_ ?_ ?_
    all_goals rw [State.dropJob, State.updSl_vlt, State.updVlt_self, ← vlt]
  · exact hi

/-! ## Volatile keys -/

/-- Plate `p` takes the next V of its epoch. -/
def State.takeV (s : State) (p : Plate) : State := s.updVlt p fun v => { v with nextV := v.nextV + 1 }

/-- What a volatile key `m`, made of `k`, has of it; a key that seals under GCM has T and the next V (R90). -/
structure MadeOf (s : State) (p : Plate) (k m : Key) : Prop where
  alg : m.alg = k.alg
  attr : m.attr = k.attr
  material : m.material = k.material
  vinst : needsVinst k = true → m.vinst = some (s.pl p).vlt.nextV ∧ m.kit = s.volatileT p

/-- A volatile key that can be made is made: one that seals under GCM takes T and the next V. -/
theorem State.makeVolatile_can (hs : k.src = .volatileKey) (hc : CanIssue s p k) :
    ∃ m, s.makeVolatile p k = (if needsVinst k then s.takeV p else s, some m) ∧ MadeOf s p k m := by
  cases hn : needsVinst k with
  | false =>
    refine ⟨{ k with src := .volatileKey, gen := 0, ledger := none, created := s.optime p, kit := 0, vinst := none }, ?_,
      rfl, rfl, rfl, fun h => absurd (hn.symm.trans h) (by simp)⟩
    simp only [State.makeVolatile, needsVinst] at hn ⊢
    simp [hn]
  | true =>
    obtain ⟨up, next⟩ := hc hs hn
    refine ⟨{ k with src := .volatileKey, gen := 0, ledger := none, created := s.optime p, kit := s.volatileT p
                     vinst := some (s.pl p).vlt.nextV }, ?_, rfl, rfl, rfl, fun _ => ⟨rfl, rfl⟩⟩
    simp only [State.makeVolatile, needsVinst] at hn ⊢
    rw [if_neg (by simp [hn]), if_neg (by simpa [up] using next)]
    rfl

/-- The entry of a volatile key that was made holds it, and its V is taken. -/
theorem MadeOf.ready {m : Key} (h : MadeOf s p e.key m) (hs : e.key.src = .volatileKey) (he : s.entryAt p i pos = some e)
    (now : Nat) : KeyReady s ((if needsVinst e.key then s.takeV p else s).updEntry p i pos fun e =>
      { e with key := m, lastUse := now }) p i pos e.key := by
  obtain ⟨ha, hb, hm, hv⟩ := h
  obtain ⟨era, seq, c, vlt⟩ := State.handleSource_updEntry (if needsVinst e.key then s.takeV p else s) p i i pos
    fun e => { e with key := m, lastUse := now }
  cases hn : needsVinst e.key with
  | false =>
    simp only [hn, Bool.false_eq_true, if_false] at era seq vlt ⊢
    exact ⟨⟨_, State.entryAt_updEntry he fun _ => ⟨rfl, rfl⟩, ha, hb, hm, fun hne => absurd hs hne,
      fun fresh => absurd (hn.symm.trans fresh.2) (by simp)⟩, era, seq, by rw [vlt], State.updEntry_frame _ _ _ _ _⟩
  | true =>
    simp only [hn, if_true] at era seq vlt ⊢
    obtain ⟨hvi, hki⟩ := hv hn
    have taken : ((s.takeV p).pl p).vlt = { (s.pl p).vlt with nextV := (s.pl p).vlt.nextV + 1 } := State.updVlt_self s p _
    refine ⟨⟨_, State.entryAt_updEntry ((State.entryAt_congr (by rw [taken])).trans he) fun _ => ⟨rfl, rfl⟩, ha, hb, hm,
      fun hne => absurd hs hne, fun _ => ⟨hvi, hki, by rw [vlt, taken]⟩⟩, era.trans ?_, seq.trans ?_, by rw [vlt, taken],
      (State.updVlt_frame s p _).trans (State.updEntry_frame _ _ _ _ _)⟩
    all_goals cases p <;> rfl

theorem State.makeVolatile_cannot (hc : ¬CanIssue s p k) : s.makeVolatile p k = (s, none) := by
  obtain ⟨hn, hv⟩ : needsVinst k = true ∧ ¬((s.pl p).vlt.epochUp = true ∧ (s.pl p).vlt.nextV < 2 ^ 40) := by
    by_contra h
    exact hc fun _ hn => by_contra fun hv => h ⟨hn, hv⟩
  simp only [State.makeVolatile, needsVinst] at hn ⊢
  simp only [hn]
  rw [if_neg (by simp), if_pos]
  by_contra hshort
  exact hv (by simpa using hshort)

/-- A key that can be made now does not wait for an epoch. -/
theorem State.waitsEpoch_can (hc : CanIssue s p k) : s.waitsEpoch p j k = false := by
  by_contra hw
  simp only [State.waitsEpoch, State.epochShort, Bool.not_eq_false, Bool.and_eq_true, Bool.or_eq_true, Bool.not_eq_true',
    beq_iff_eq, decide_eq_true_eq] at hw
  obtain ⟨⟨⟨-, hs⟩, hn⟩, -, hv⟩ := hw
  obtain ⟨up, next⟩ := hc hs hn
  rcases hv with hv | hv
  · simp [up] at hv
  · omega

/-- Where NVM stores no epoch, no key waits for one (R341). -/
theorem State.waitsEpoch_noWrite (hw : (s.pl p).nvm.state = 3) : s.waitsEpoch p j k = false := by
  simp [State.waitsEpoch, State.epochShort, Nvm.noWrite, hw]

theorem State.waitsEpoch_awaits (hn : j.newPos = some pos) (ha : AwaitsEpoch s p k) : s.waitsEpoch p j k = true := by
  obtain ⟨hs, hv, hw, hshort⟩ := ha
  simpa [State.waitsEpoch, State.epochShort, Nvm.noWrite, hn, hs, hv, hw] using hshort

/-- The vault of a plate whose volatile epoch rises while it is in service (R91). -/
def Vault.nextEpoch (v : Vault) : Vault := { v with seqs := [], epoch := v.epoch + 1, nextV := 0, epochUp := false }

theorem State.wrapEpoch_up (hu : (s.pl p).vlt.epochUp = true) : s.wrapEpoch p =
    ((s.updVlt p Vault.nextEpoch).startGroup p { pages := [systemLpn 5], kind := .epoch }).send p
      (.epoch ((s.pl p).vlt.epoch + 1)) := by
  rw [State.wrapEpoch, if_pos hu]
  cases p <;> rfl

/-- What a key that waits begins: at 2^40 values the next epoch (R91). -/
theorem State.wrapEpoch_awaited (s : State) (p : Plate) : EpochAwaited s (s.wrapEpoch p) p := by
  unfold EpochAwaited
  split
  · next hu =>
    rw [State.wrapEpoch_up hu]
    generalize hv : (s.updVlt p Vault.nextEpoch).startGroup p { pages := [systemLpn 5], kind := .epoch } = v
    have frame : SameBut [.vlt p, .nvm p] s v :=
      hv ▸ (State.updVlt_frame s p _).step (by simp) ((State.updNvm_frame _ p _).mono (by simp))
    have sent := State.send_frame v p (.epoch ((s.pl p).vlt.epoch + 1))
    have all := frame.step (by simp) (sent.mono (m := [.vlt p, .nvm p, .gut p.peer]) (by simp))
    have vlt : ((v.send p (.epoch ((s.pl p).vlt.epoch + 1))).pl p).vlt = (s.pl p).vlt.nextEpoch := by
      have kept : ((v.send p (.epoch ((s.pl p).vlt.epoch + 1))).pl p).vlt = (v.pl p).vlt := sent (.vlt p) (by simp)
      rw [kept, ← hv, State.startGroup, State.updNvm_vlt, State.updVlt_self]
    rw [vlt]
    exact ⟨rfl, rfl, rfl, rfl, all (.sl p) (by simp), rfl, all .out (by simp), all⟩
  · next hu => rw [State.wrapEpoch, if_neg hu]

/-! ## A job's handle -/

/-- The outcome with a handle in info and info2 (R162). -/
def Result.withHandle (x : Result) (h : DWord) : Result := { x with info := wordOf h 0, info2 := wordOf h 1 }

/-- A job whose key can be made now takes the handle of its position. -/
theorem State.issueFor_can (hn : j.newPos = some pos) (he : s.entryAt p ((ringSlice j.ring).getD 0) pos = some e)
    (hc : CanIssue s p e.key) (x : Result) : ∃ u, KeyReady s u p ((ringSlice j.ring).getD 0) pos e.key ∧
      s.issueFor p j x = ((u.issue p ((ringSlice j.ring).getD 0) pos).1,
        x.withHandle (u.issue p ((ringSlice j.ring).getD 0) pos).2) := by
  by_cases hs : e.key.src = .volatileKey
  · obtain ⟨m, hm, made⟩ := State.makeVolatile_can hs hc
    exact ⟨_, made.ready hs he _, by simp only [State.issueFor, hn, he, if_pos hs, hm]; rfl⟩
  · exact ⟨s, ⟨⟨e, he, rfl, rfl, rfl, fun _ => rfl, fun fresh => absurd fresh.1 hs⟩, rfl, rfl, rfl, SameBut.refl _ s⟩,
      by simp only [State.issueFor, hn, he, if_neg hs]; rfl⟩

/-- A job whose volatile key cannot be made completes with VAULT_RO (R341). -/
theorem State.issueFor_cannot (hn : j.newPos = some pos) (he : s.entryAt p ((ringSlice j.ring).getD 0) pos = some e)
    (hc : ¬CanIssue s p e.key) (x : Result) : s.issueFor p j x = (s, { status := .vaultRo }) := by
  have hs : e.key.src = .volatileKey := by
    by_contra hs
    exact hc fun h => absurd h hs
  simp only [State.issueFor, hn, he, if_pos hs, State.makeVolatile_cannot hc]

/-- A completion is seen from before a change of the vault part. -/
theorem Completes.before_vault {n : Job} {r : Result} (h : Completes u t p n r) (f : SameBut [.vlt p] s u) :
    Completes s t p n r := by
  have sl : (u.pl p).sl = (s.pl p).sl := f (.sl p) (by simp)
  have pow : (u.pl p).pow = (s.pl p).pow := f (.pow p) (by simp)
  have pr : (u.pl p).pr = (s.pl p).pr := f (.pr p) (by simp)
  have tmp : (u.pl p).tmp = (s.pl p).tmp := f (.tmp p) (by simp)
  have flt : (u.pl p).flt = (s.pl p).flt := f (.flt p) (by simp)
  have out : u.out = s.out := f .out (by simp)
  have pasid (n : Nat) : u.pasid p n = s.pasid p n := by simp only [State.pasid, State.impo, sl]
  exact h.from_ (State.ring_congr _ sl) (State.ringTag_congr _ sl) (by simp only [State.mayWrite, pow, pr, tmp, flt])
    (by rw [out]) (by simp only [State.translated, pasid, pow])

end Sys2Proof.Machine

/-! PROOFS. Derived keys, wrapped exports, engine outcomes and two-pass opens (O15). -/

namespace Sys2Proof.Machine

variable {s : State} {p : Plate} {r : JobRef} {pos : Nat} {j : Job} {k : Key} {e : CacheEntry} {x : Result} {d : Inputs}

/-! ## Keys made and exported (R163, R182) -/

/-- The key that a DERIVE makes of these strings (R163). -/
def derivedKey (j : Job) (ctx label : Bytes) : Key :=
  { alg := j.desc.al, attr := deriveAttr j.desc
    material := kdf j.mat (ascii "derive:" ++ label) ctx (materialLen j.desc.al (j.desc.fl 8 8)) }

theorem exec_derive (h : Working s r 0x26 j) {ctx label o : Bytes} (hx : cipherReads j.desc d 0 = some (ctx, label, o)) :
    exec (.derive r d) s = .next ((s.placeKey r.plate j (derivedKey j ctx label)).computed r {}) := by
  show execDerive r d s = _
  simp only [execDerive, State.working_of h, hx, derivedKey]

theorem State.placeKey_eq (hn : j.newPos = some pos) (k : Key) : s.placeKey p j k =
    s.updEntry p ((ringSlice j.ring).getD 0) pos fun e => { e with key := k, filled := true } := by
  simp only [State.placeKey, hn]

theorem State.placeKey_frame (hn : j.newPos = some pos) (k : Key) : SameBut [.vlt p] s (s.placeKey p j k) := by
  rw [State.placeKey_eq hn]
  exact State.updEntry_frame s p _ _ _

/-- A key placed in its reserved lines stands there. -/
theorem State.entryAt_placeKey (hn : j.newPos = some pos) (he : s.entryAt p ((ringSlice j.ring).getD 0) pos = some e) (k : Key) :
    ∃ f, (s.placeKey p j k).entryAt p ((ringSlice j.ring).getD 0) pos = some f ∧ f.key = k := by
  rw [State.placeKey_eq hn]
  exact ⟨_, State.entryAt_updEntry he (f := fun e => { e with key := k, filled := true }) fun _ => ⟨rfl, rfl⟩, rfl⟩

/-- The outcome of a job whose key stands in its reserved lines. -/
theorem State.computed_placeKey (hj : s.jobAt r = some j) (hn : j.newPos = some pos)
    (he : s.entryAt r.plate ((ringSlice j.ring).getD 0) pos = some e) (k : Key) (x : Result) :
    ((s.placeKey r.plate j k).computed r x).jobAt r = some { j with result := some x } ∧
      (((s.placeKey r.plate j k).computed r x).entryAt r.plate ((ringSlice j.ring).getD 0) pos).map CacheEntry.key = some k ∧
      SameBut [.sl r.plate, .vlt r.plate] s ((s.placeKey r.plate j k).computed r x) := by
  have placed : SameBut [.vlt r.plate] s (s.placeKey r.plate j k) := State.placeKey_frame hn k
  have sl : ((s.placeKey r.plate j k).pl r.plate).sl = (s.pl r.plate).sl := placed (.sl r.plate) (by simp)
  obtain ⟨f, hf, hk⟩ := State.entryAt_placeKey hn he k
  obtain ⟨hjob, -, -, -, frame⟩ := State.computed_spec ((State.job?_congr (by rw [sl]) _ _).trans hj) x
  have vlt := frame (.vlt r.plate) (by simp)
  refine ⟨hjob, ?_, placed.step (by simp) (frame.mono (by simp))⟩
  rw [State.entryAt_congr (congrArg Vault.cache vlt), hf, Option.map_some, hk]

theorem exec_keyExportWrapped {w : Key} (h : Working s r 0x36 j) (hk : j.key = some k) (hw : j.key2 = some w) :
    exec (.keyExportWrapped r) s = .next (s.computed r {
      outLen := kwpLen (16 + k.material.length)
      writes := [(j.desc.outAddr, fit (kwpLen (16 + k.material.length))
        (Config.kwpWrap w.material (exportHeader k ++ k.material)))] }) := by
  show execKeyExportWrapped r s = _
  simp only [execKeyExportWrapped, State.working_of h, hk, hw, Option.getD_some, Option.map_some, fit_length]

/-! ## The end of a job on an engine (R84, R91) -/

theorem exec_engineJobDone (hj : s.jobAt r = some j) (hs : j.stage = .started) (hc : j.cls = .cipher ∨ j.cls = .random)
    (hx : j.result = some x) (hend : j.engineEnds x = true) :
    exec (.engineJobDone r) s = .next (s.engineDone r.plate j x) := by
  show execEngineJobDone r s = _
  simp [execEngineJobDone, hj, hs, hx, hend, hc]

theorem State.newKey_eq (hn : j.newPos = some pos) (he : s.entryAt p ((ringSlice j.ring).getD 0) pos = some e) :
    s.newKey p j = e.key := by simp [State.newKey, hn, he]

/-- A job that made no key is posted. -/
theorem State.engineDone_keyless (hn : j.newPos = none) (x : Result) : s.engineDone p j x = s.finish p j x := by
  simp [State.engineDone, State.waitsEpoch, hn]

/-- A key that was made and need not wait takes its handle, and the job is posted. -/
theorem State.engineDone_issues (hn : j.newPos = some pos) (he : s.entryAt p ((ringSlice j.ring).getD 0) pos = some e)
    (hw : s.waitsEpoch p j e.key = false) (hok : x.status = .ok) :
    s.engineDone p j x = (s.issueFor p j x).1.finish p j (s.issueFor p j x).2 := by
  simp [State.engineDone, State.newKey_eq hn he, hw, hok, hn]

theorem State.engineDone_waits (hn : j.newPos = some pos) (he : s.entryAt p ((ringSlice j.ring).getD 0) pos = some e)
    (ha : AwaitsEpoch s p e.key) (hok : x.status = .ok) : s.engineDone p j x = s.wrapEpoch p := by
  simp [State.engineDone, State.newKey_eq hn he, State.waitsEpoch_awaits hn ha, hok]

/-- The posted outcome of a job with a key made ready carries the handle issued to it. -/
theorem KeyReady.finishes {u t : State} (h : KeyReady s u p ((ringSlice j.ring).getD 0) pos k) (x : Result)
    (ht : t = (u.issue p ((ringSlice j.ring).getD 0) pos).1.finish p j
      (x.withHandle (u.issue p ((ringSlice j.ring).getD 0) pos).2)) :
    ∃ h, HandleIssued s t p ((ringSlice j.ring).getD 0) pos k h ∧ Completes s t p j (x.withHandle h) ∧
      SameBut (issuing p ++ completing p) s t := by
  subst ht
  have frame := h.frame.trans (State.issue_frame u p ((ringSlice j.ring).getD 0) pos)
  exact ⟨_, HandleIssued.finish h.issued _, (State.finish_completes _ p j _).before_vault frame,
    frame.step (by simp [issuing]) ((State.finish_frame _ p j _).mono (by simp [issuing, completing]))⟩

/-! ## The first pass of an open (R99, R100) -/

/-- Reads of a ring are sent in order, and none where its slice has no binding (R24). -/
theorem State.issueInputs_sent (l : List (DWord × Nat)) (s : State) (p : Plate) (j : Job) :
    ReadsIssued s (s.issueInputs p j l) p j.ring l := by
  unfold ReadsIssued
  induction l generalizing s with
  | nil => cases s.ringTag p j.ring <;> simp [State.issueInputs, State.each]
  | cons x l ih =>
    have tag (q : RingRef) : (s.issueRead p j.ring (.input j.ring j.index) x.1 x.2).ringTag p q = s.ringTag p q := by
      obtain ⟨m, h⟩ := State.issueRead_sl s p j.ring (.input j.ring j.index) x.1 x.2
      cases q <;> simp only [State.ringTag, State.pasid, State.impo, h]
    have rest := ih (s.issueRead p j.ring (.input j.ring j.index) x.1 x.2)
    rw [tag] at rest
    refine rest.trans ?_
    cases hv : s.ringTag p j.ring with
    | none =>
      have unreached : s.reaches p j.ring = false := by
        cases hq : j.ring <;> simp_all [State.ringTag, State.reaches]
      simp [State.issueRead, unreached]
    | some v => simp [State.issueRead_sent _ _ _ hv]

theorem exec_openFirstPassDone (hj : s.jobAt r = some j) (hs : j.stage = .started) (h2 : twoPass j.desc = true)
    (hp : j.passes = 1) (hx : j.result = some x) : exec (.openFirstPassDone r) s = .next (if x.status = .ok then
      (s.updJobAt r fun j => { j with passes := 2, result := none }).readAgain r j else s.finish r.plate j x) := by
  show execOpenFirstPassDone r s = _
  simp only [execOpenFirstPassDone, hj, hx, hs, h2, hp]
  rfl

/-- The second pass of a matched open starts with its reads. -/
theorem State.readAgain_spec (hj : s.jobAt r = some j) :
    let t := (s.updJobAt r fun j => { j with passes := 2, result := none }).readAgain r j
    t.jobAt r = some { j with passes := 2, result := none } ∧
      ReadsIssued s t r.plate j.ring (dataReads { j.desc with inLen := j.desc.inLen - 16 }) ∧
      SameBut [.sl r.plate, .pow r.plate, .out] s t := by
  have job := State.jobAt_updJob hj (fun j => { j with passes := 2, result := none }) fun _ h1 h2 => ⟨h1, h2⟩
  obtain ⟨work, jobs⟩ := State.issueInputs_work (dataReads { j.desc with inLen := j.desc.inLen - 16 })
    (s.updJobAt r fun j => { j with passes := 2, result := none }) r.plate j
  have sent := State.issueInputs_sent (dataReads { j.desc with inLen := j.desc.inLen - 16 })
    (s.updJobAt r fun j => { j with passes := 2, result := none }) r.plate j
  have tag : (s.updJobAt r fun j => { j with passes := 2, result := none }).ringTag r.plate j.ring =
      s.ringTag r.plate j.ring := by
    cases hr : r.plate <;> cases j.ring <;> rw [State.updJobAt, hr] <;> rfl
  refine ⟨(State.job?_congr jobs _ _).trans job, ?_, (State.updJobAt_frame s r _).step (by simp) work.frame⟩
  unfold ReadsIssued at sent ⊢
  rw [tag, State.sent_congr (State.updJobAt_frame s r _ .out (by simp))] at sent
  exact sent

/-- Settles O15: DERIVE and the export store what `computed_spec` says; an engine's outcome is posted as `engineDone_…` say, a
key's handle by `KeyReady.finishes`; a matched first pass reads again by `readAgain_spec`. -/
theorem engineOutcomes : Obligations.EngineOutcomes := by
  unfold Obligations.EngineOutcomes
  refine ⟨?derive, ?exportWrapped, ?posted, ?issued, ?readOnly, ?awaited, ?matched, ?mismatched⟩
  case derive =>
    intro r j k d ctx label o pos e s h hk hn he hx
    obtain ⟨job, key, frame⟩ := State.computed_placeKey h.1 hn he (derivedKey j ctx label) {}
    refine ⟨_, exec_derive h hx, job, key.trans ?_, frame⟩
    rw [derivedKey, Job.mat_of_key hk]
    rfl
  case exportWrapped => exact fun r j k w s h hk hw => ⟨_, exec_keyExportWrapped h hk hw, State.computed_spec h.1 _⟩
  case posted =>
    intro r j x s hj hs hc hx hend hn
    refine ⟨_, exec_engineJobDone hj hs hc hx hend, ?_⟩
    rw [State.engineDone_keyless hn]
    exact ⟨State.finish_completes s _ j x, State.finish_frame s _ j x⟩
  case issued =>
    intro r j x pos e s hj hs hc hx hok hend hn he hcan
    obtain ⟨u, ready, hu⟩ := State.issueFor_can hn he hcan x
    obtain ⟨h, hi, hcomp, frame⟩ := ready.finishes x rfl
    refine ⟨_, h, exec_engineJobDone hj hs (.inl hc) hx hend, ?_⟩
    rw [State.engineDone_issues hn he (State.waitsEpoch_can hcan) hok, hu]
    exact ⟨hi, hcomp, frame⟩
  case readOnly =>
    intro r j x pos e s hj hs hc hx hok hend hn he hcan hw
    refine ⟨_, exec_engineJobDone hj hs (.inl hc) hx hend, ?_⟩
    rw [State.engineDone_issues hn he (State.waitsEpoch_noWrite hw) hok, State.issueFor_cannot hn he hcan]
    exact ⟨State.finish_completes s _ j _, State.finish_frame s _ j _⟩
  case awaited =>
    intro r j x pos e s hj hs hc hx hok hend hn he ha
    refine ⟨_, exec_engineJobDone hj hs (.inl hc) hx hend, ?_⟩
    rw [State.engineDone_waits hn he ha hok]
    exact State.wrapEpoch_awaited s _
  case matched =>
    intro r j x s hj hs h2 hp hx hok
    refine ⟨_, exec_openFirstPassDone hj hs h2 hp hx, ?_⟩
    rw [if_pos hok]
    exact State.readAgain_spec hj
  case mismatched =>
    intro r j x s hj hs h2 hp hx hok
    refine ⟨_, exec_openFirstPassDone hj hs h2 hp hx, ?_⟩
    rw [if_neg hok]
    exact ⟨State.finish_completes s _ j x, State.finish_frame s _ j x⟩

end Sys2Proof.Machine

/-! PROOFS. KEY_INFO, KEY_LOAD and the posting of vault outcomes (O19). -/

namespace Sys2Proof.Machine

variable {s u : State} {r : JobRef} {pos : Nat} {j : Job} {k : Key} {e : CacheEntry} {x : Result}

theorem State.accepted_of {op : Nat} (h : Accepted s r op j) : s.accepted r op = some j := by
  obtain ⟨hj, hs, ho, hr⟩ := h
  simp [State.accepted, hj, hs, ho, hr]

/-- A job that the vault controller has accepted gets its outcome. -/
theorem State.vaultDone_spec (hj : u.jobAt r = some j) (hs : j.stage = .accepted) (x : Result) :
    (u.vaultDone r.plate r.ring r.index x).jobAt r = some { j with unit := none, result := some x } ∧
      (u.vaultDone r.plate r.ring r.index x).out = u.out ∧
      SameBut [.sl r.plate] u (u.vaultDone r.plate r.ring r.index x) := by
  have job : (u.vaultDone r.plate r.ring r.index x).jobAt r =
      some { j with stage := .accepted, unit := none, result := some x } :=
    State.jobAt_updJob hj _ fun _ h1 h2 => ⟨h1, h2⟩
  have frame := State.updJob_frame u r.plate r.ring r.index fun j => { j with stage := .accepted, unit := none, result := some x }
  exact ⟨job.trans (by rw [← hs]), frame .out (by simp), frame⟩

theorem exec_keyInfo (h : Accepted s r 0x35 j) (hk : j.key = some k) :
    exec (.keyInfo r) s = .next (s.vaultDone r.plate r.ring r.index {
      outLen := (s.keyRecord r.plate ((ringSlice j.ring).getD 0) k j.entry).length
      writes := [(j.desc.outAddr, s.keyRecord r.plate ((ringSlice j.ring).getD 0) k j.entry)] }) := by
  show execKeyInfo r s = _
  simp only [execKeyInfo, State.accepted_of h, hk, Option.getD_some]

theorem exec_keyLoad (h : Accepted s r 0x33 j) (hk : j.key = some k) (hw : s.waitsEpoch r.plate j k = false) :
    exec (.keyLoad r) s = .next (((s.placeKey r.plate j k).issueFor r.plate j {}).1.vaultDone r.plate r.ring r.index
      ((s.placeKey r.plate j k).issueFor r.plate j {}).2) := by
  show execKeyLoad r s = _
  simp only [execKeyLoad, State.accepted_of h, hk, Option.getD_some, hw]
  rfl

theorem exec_keyLoad_waits (h : Accepted s r 0x33 j) (hk : j.key = some k) (hw : s.waitsEpoch r.plate j k = true) :
    exec (.keyLoad r) s = .next (s.wrapEpoch r.plate) := by
  show execKeyLoad r s = _
  simp only [execKeyLoad, State.accepted_of h, hk, Option.getD_some, hw]
  rfl

theorem KeyReady.before_placeKey {p : Plate} (hn : j.newPos = some pos)
    (h : KeyReady (s.placeKey p j k) u p ((ringSlice j.ring).getD 0) pos k) :
    KeyReady s u p ((ringSlice j.ring).getD 0) pos k := by
  rw [State.placeKey_eq hn] at h
  exact h.before_updEntry

theorem State.canIssue_placeKey {p : Plate} (hn : j.newPos = some pos) (k : Key) :
    CanIssue (s.placeKey p j k) p k ↔ CanIssue s p k := by
  rw [State.placeKey_eq hn]
  obtain ⟨-, -, c, vlt⟩ := State.handleSource_updEntry s p ((ringSlice j.ring).getD 0) ((ringSlice j.ring).getD 0) pos
    fun e => { e with key := k, filled := true }
  simp only [CanIssue, vlt]

theorem State.jobAt_of_vault (f : SameBut [.vlt r.plate] s u) (hj : s.jobAt r = some j) : u.jobAt r = some j :=
  (State.job?_congr (congrArg Slices.jobs (f (.sl r.plate) (by simp))) _ _).trans hj

/-- Settles O19: `vaultDone_spec` stores an outcome; KEY_LOAD's handle is issued as `issueFor_can` and `KeyReady.issued` say. -/
theorem vaultControllerAnswers : Obligations.VaultControllerAnswers := by
  unfold Obligations.VaultControllerAnswers
  refine ⟨?keyInfo, ?issued, ?readOnly, ?awaited, ?posted⟩
  case keyInfo => exact fun r j k s h hk => ⟨_, exec_keyInfo h hk, State.vaultDone_spec h.1 h.2.1 _⟩
  case issued =>
    intro r j k pos e s h hk hcan hn he
    obtain ⟨f, hf, rfl⟩ := State.entryAt_placeKey hn he k
    obtain ⟨u, ready, hu⟩ := State.issueFor_can hn hf ((State.canIssue_placeKey hn _).mpr hcan) {}
    have ready := ready.before_placeKey hn
    have vault := ready.frame.trans (State.issue_frame u r.plate ((ringSlice j.ring).getD 0) pos)
    obtain ⟨job, out, frame⟩ := State.vaultDone_spec (State.jobAt_of_vault vault h.1) h.2.1
      (Result.withHandle {} (u.issue r.plate ((ringSlice j.ring).getD 0) pos).2)
    have vlt := frame (.vlt r.plate) (by simp)
    refine ⟨_, (u.issue r.plate ((ringSlice j.ring).getD 0) pos).2, exec_keyLoad h hk (State.waitsEpoch_can hcan), ?_⟩
    rw [hu]
    exact ⟨HandleIssued.after ready.issued (fun _ he _ _ => (State.entryAt_congr (congrArg Vault.cache vlt)).trans he)
      (congrArg Vault.issued vlt) (congrArg Vault.epoch vlt) (congrArg Vault.nextV vlt), job, out.trans (vault .out (by simp)),
      vault.step (by simp [issuing]) (frame.mono (by simp [issuing]))⟩
  case readOnly =>
    intro r j k pos e s h hk hcan hw hn he
    obtain ⟨f, hf, rfl⟩ := State.entryAt_placeKey hn he k
    have placed : SameBut [.vlt r.plate] s (s.placeKey r.plate j f.key) := State.placeKey_frame hn _
    obtain ⟨job, out, frame⟩ := State.vaultDone_spec (State.jobAt_of_vault placed h.1) h.2.1 { status := .vaultRo }
    refine ⟨_, exec_keyLoad h hk (State.waitsEpoch_noWrite hw), ?_⟩
    rw [State.issueFor_cannot hn hf (mt (State.canIssue_placeKey hn _).mp hcan)]
    exact ⟨job, out.trans (placed .out (by simp)), placed.step (by simp) (frame.mono (by simp))⟩
  case awaited =>
    intro r j k pos s h hk ha hn
    exact ⟨_, exec_keyLoad_waits h hk (State.waitsEpoch_awaits hn ha), State.wrapEpoch_awaited s _⟩
  case posted =>
    intro r j x s hj hs hx
    refine ⟨s.finish r.plate j x, ?_, State.finish_completes s _ j x, State.finish_frame s _ j x⟩
    show execVaultJobDone r s = _
    simp [execVaultJobDone, hj, hs, hx]

end Sys2Proof.Machine

/-! PROOFS. What the stop of a plate leaves of the state: groups cut short, staged records and the token (O47). -/

namespace Sys2Proof.Machine

variable {s t u : State} {p : Plate}

/-! ## Operating time and wear through the NVM's bookkeeping -/

/-- What NVM counts of power and operating time, and its wear state (R339, R341). -/
def Nvm.times (n : Nvm) : Word × Nat × Nat × Bool × Nat := (n.pcycle, n.optime, n.stored, n.clean, n.state)

@[simp] theorem Nvm.updPage_times (n : Nvm) (x : Nat) (f : NvmPage → NvmPage) : (n.updPage x f).times = n.times := rfl
@[simp] theorem Nvm.mount_times (n : Nvm) : n.mount.times = n.times := rfl
@[simp] theorem Nvm.put_times (n : Nvm) (r : Record) : (n.put r).times = n.times := rfl

theorem Nvm.noWrite_of_times {m n : Nvm} (h : m.times = n.times) : m.noWrite = n.noWrite := by
  simp only [times, Prod.mk.injEq] at h
  unfold noWrite
  rw [h.2.2.2.2]

@[simp] theorem Nvm.takePages_times (n : Nvm) (b : Bool) (l : List Nat) : (n.takePages b l).1.times = n.times := by
  induction l generalizing n with
  | nil => rfl
  | cons k l ih =>
    unfold takePages
    split
    · exact (ih _).trans (Nvm.updPage_times n _ _)
    · rfl

theorem Nvm.begin_times (n : Nvm) (g : Group) : (n.begin_ g).times = n.times := n.takePages_times _ _

theorem Nvm.enter_times (n : Nvm) (g : Group) : (n.enter g).times = n.times := by
  have ends (m : Nvm) (g : Group) : (if m.canStart g && !(m.waiting.any fun w => w.blocks g) then m.begin_ g
      else { m with waiting := m.waiting ++ [g] }).times = m.times := by
    split
    exacts [m.begin_times g, rfl]
  refine (ends _ _).trans ?_
  split <;> rfl

@[simp] theorem Nvm.startGroup_times (n : Nvm) (g : Group) : (n.startGroup g).times = n.times := by
  unfold startGroup
  generalize g.split = l
  induction l generalizing n with
  | nil => rfl
  | cons x l ih => exact (ih _).trans (n.enter_times x)

/-! ## The relation -/

/-- What the groups and records that a stop cuts short may touch on their plate. -/
def stopParts (p : Plate) : List Part := [.pow p, .sl p, .vlt p, .cus p, .tmp p, .flt p, .nvm p, .free]

/-- Between `s` and `t` plate `p` settled what its stop cut short, and its counts of power and operating time stand. -/
structure Stops (p : Plate) (s t : State) : Prop where
  frame : SameBut (stopParts p) s t
  times : (t.pl p).nvm.times = (s.pl p).nvm.times

namespace Stops

theorem refl (s : State) : Stops p s s := ⟨.refl _ s, rfl⟩

theorem trans (h : Stops p s t) (k : Stops p t u) : Stops p s u := ⟨h.frame.trans k.frame, k.times.trans h.times⟩

theorem ite {c : Prop} [Decidable c] (h : Stops p s t) (k : Stops p s u) : Stops p s (if c then t else u) := by
  split
  exacts [h, k]

theorem each {α : Type} {l : List α} {f} (h : Stops p s t) (hf : ∀ u a, Stops p s u → Stops p s (f u a)) :
    Stops p s (t.each l f) := by
  induction l generalizing t with
  | nil => exact h
  | cons a l ih => exact ih (hf t a h)

/-- A change within the frame that leaves NVM alone. -/
theorem within {l : List Part} (h : Stops p s t) (k : SameBut l t u) (hl : ∀ x ∈ l, x ∈ stopParts p) (hn : Part.nvm p ∉ l) :
    Stops p s u :=
  h.trans ⟨k.mono hl, congrArg Nvm.times (k (.nvm p) hn)⟩

theorem updPow {f} (h : Stops p s t) : Stops p s (t.updPow p f) :=
  h.within (State.updPow_frame t p f) (by simp [stopParts]) (by simp)
theorem updSl {f} (h : Stops p s t) : Stops p s (t.updSl p f) :=
  h.within (State.updSl_frame t p f) (by simp [stopParts]) (by simp)
theorem updVlt {f} (h : Stops p s t) : Stops p s (t.updVlt p f) :=
  h.within (State.updVlt_frame t p f) (by simp [stopParts]) (by simp)
theorem updCus {f} (h : Stops p s t) : Stops p s (t.updCus p f) :=
  h.within (State.updCus_frame t p f) (by simp [stopParts]) (by simp)
theorem updTmp {f} (h : Stops p s t) : Stops p s (t.updTmp p f) :=
  h.within (State.updTmp_frame t p f) (by simp [stopParts]) (by simp)
theorem updFlt {f} (h : Stops p s t) : Stops p s (t.updFlt p f) :=
  h.within (State.updFlt_frame t p f) (by simp [stopParts]) (by simp)
theorem tick {k} (h : Stops p s t) : Stops p s (t.tick k) := h.within (State.tick_frame t k) (by simp [stopParts]) (by simp)
theorem updNvm {f} (h : Stops p s t) (hf : ∀ n, (f n).times = n.times) : Stops p s (t.updNvm p f) :=
  h.trans ⟨(State.updNvm_frame t p f).mono (by simp [stopParts]), by simpa using hf _⟩

/-! ## Records (R342, R344) -/

theorem record {trigger profile detail} (h : Stops p s t) : Stops p s (t.record p trigger profile detail) :=
  .ite h (.ite (h.updNvm fun _ => rfl) (.ite (h.updNvm fun _ => rfl) (h.updNvm fun _ => rfl)))
theorem fillLog (h : Stops p s t) : Stops p s (t.fillLog p) := .ite (h.updNvm fun n => by split <;> rfl) h
theorem putLog {r} (h : Stops p s t) : Stops p s (t.putLog p r) := (h.updNvm fun _ => by simp).fillLog
theorem writeLog {r priority} (h : Stops p s t) : Stops p s (t.writeLog p r priority) :=
  .ite (h.updNvm fun _ => rfl) (.ite (h.updNvm fun _ => rfl) h.putLog)
theorem rollWindow (h : Stops p s t) : Stops p s (t.rollWindow p) :=
  .ite h (updNvm (.ite h (.ite (h.updNvm fun _ => rfl) h.putLog)) fun _ => rfl)
theorem flushStaged (h : Stops p s t) : Stops p s (t.flushStaged p) := by
  unfold State.flushStaged
  exact updNvm (each h.tick fun _ _ k => k.writeLog) fun _ => rfl

/-! ## Groups cut short (R336) -/

theorem refreshOut (h : Stops p s t) : Stops p s (t.refreshOut p) := h.updPow
theorem finalLatch {i v} (h : Stops p s t) : Stops p s (t.finalLatch p i v) :=
  .ite (h.within (State.latchMeters_frame t p _) (by simp [stopParts]) (by simp)) h
theorem enrol (h : Stops p s t) : Stops p s (t.enrol p) := by
  unfold State.enrol
  exact h.updTmp.updVlt
theorem sealRoot {drk salt seq} (h : Stops p s t) : Stops p s (t.sealRoot p drk salt seq) := h.updVlt
theorem createRoot {drk salt test seq} (h : Stops p s t) : Stops p s (t.createRoot p drk salt test seq) := by
  unfold State.createRoot
  exact h.enrol.sealRoot.updVlt.updSl
theorem applyItem {both q x} (h : Stops p s t) : Stops p s (t.applyItem p both q x) := by
  unfold State.applyItem
  split
  exacts [h.updVlt, h.updVlt, h.updVlt, h.updVlt, h.finalLatch.updSl, h.updCus, h.updVlt, updPow (updCus h), h.createRoot,
    h.sealRoot.updVlt, h.updTmp, h.updNvm fun n => by split <;> rfl]
theorem applyContent {both g} (h : Stops p s t) : Stops p s (t.applyContent p both g) := by
  have items : Stops p s (t.applyItems p both g.comSeq g.items) := (each h fun _ _ k => k.applyItem).updVlt
  unfold State.applyContent State.addJournal
  split
  exacts [items.updVlt, items]
theorem cutGroup {v g bits} (h : Stops p s t) : Stops p s (t.cutGroup v p g bits) :=
  (each h fun _ _ k => k.updNvm fun _ => by simp).tick
theorem cutEach {v old l} (h : Stops p s t) : Stops p s (t.cutEach v p old l) := by
  induction l generalizing t v old with
  | nil => exact h
  | cons g l ih => exact .ite (ih h) (ih h.tick.cutGroup)
theorem cutGroups (h : Stops p s t) : Stops p s (t.cutGroups p) :=
  each (h.cutEach.updNvm fun _ => rfl) fun _ _ k => k.applyContent

end Stops

/-! ## Loss of power (R288) -/

theorem State.upd_frame (s : State) (p : Plate) (f : PlateState → PlateState) :
    SameBut [.pow p, .sl p, .vlt p, .rng p, .pr p, .cus p, .mrg p, .tmp p, .flt p, .mgt p, .nvm p] s (s.upd p f) := by
  intro x hx
  cases p <;> cases x <;> (try rename_i q; cases q) <;> first | rfl | simp at hx

theorem State.setLinkUp_frame (s : State) (p : Plate) (on : Bool) : SameBut [.mrg .a, .mrg .b] s (s.setLinkUp p on) := by
  unfold State.setLinkUp
  exact (State.updMrg_frame s p _).step (by cases p <;> simp) ((State.updMrg_frame _ .a _).step (by simp)
    ((State.updMrg_frame _ .b _).mono (by simp)))

/-- The peer takes the token back where it was under way (R235). -/
def tokenBack (s : State) (p : Plate) : List Part := if (s.gut p).contains .token then [.pr p.peer] else []

theorem State.dropGut_frame (s : State) (p : Plate) : SameBut (.gut p :: tokenBack s p) s (s.dropGut p) := by
  unfold State.dropGut tokenBack
  dsimp only
  split
  · exact (State.setGut_frame s p []).step (by simp) ((State.updPr_frame _ p.peer _).mono (by simp))
  · exact State.setGut_frame s p []

end Sys2Proof.Machine

/-! PROOFS. POWER_DOWN (O47). -/

namespace Sys2Proof.Machine

variable {s t u : State} {p : Plate}

theorem State.fallPwrgood_frame (s : State) : SameBut [.nvm .a, .nvm .b, .pwrgood, .clkreqLow] s s.fallPwrgood := by
  intro x hx
  cases x <;> (try rename_i q; cases q) <;> first | rfl | simp at hx

theorem State.fallPwrgood_nvm (s : State) (p : Plate) :
    (s.fallPwrgood.pl p).nvm = { (s.pl p).nvm with optime := s.optime p, optimeUs := s.clock } := by cases p <;> rfl

/-- Operating time stands still without PWRGOOD. -/
theorem State.optime_of_fallen (h : s.pwrgood = false) : s.optime p = (s.pl p).nvm.optime := by simp [State.optime, h]

theorem State.storeOptime_frame (s : State) (p : Plate) (clean : Bool) : SameBut [.nvm p] s (s.storeOptime p clean) :=
  .ite (.refl _ s) (State.updNvm_frame s p _)

/-- The operating time is stored and marked clean, short of NO_WRITE (R339). -/
theorem State.storeOptime_nvm (s : State) (p : Plate) : ((s.storeOptime p true).pl p).nvm.optime = (s.pl p).nvm.optime ∧
    ((s.pl p).nvm.noWrite = false → ((s.storeOptime p true).pl p).nvm.stored = s.optime p ∧
      ((s.storeOptime p true).pl p).nvm.clean = true) := by
  unfold State.storeOptime
  split
  · next h => exact ⟨rfl, fun k => absurd (k.symm.trans h) Bool.false_ne_true⟩
  · exact ⟨by simp, fun _ => by simp⟩

/-- A power-down as far as the records, the operating time and the groups cut short (R336, R339, R344). -/
def State.stopped (s : State) (p : Plate) : State :=
  (((s.fallPwrgood.rollWindow p).flushStaged p).storeOptime p true).cutGroups p

/-- What a power-down has settled. -/
structure Stopped (s t : State) (p : Plate) : Prop where
  frame   : SameBut ([.nvm .a, .nvm .b, .pwrgood, .clkreqLow] ++ stopParts p) s t
  pwrgood : t.pwrgood = false
  clkreq  : t.clkreqLow = false
  optime  : (t.pl p).nvm.optime = s.optime p
  stored  : (s.pl p).nvm.noWrite = false → (t.pl p).nvm.stored = s.optime p ∧ (t.pl p).nvm.clean = true

theorem State.stopped_spec (s : State) (p : Plate) : Stopped s (s.stopped p) p := by
  have written : Stops p s.fallPwrgood ((s.fallPwrgood.rollWindow p).flushStaged p) := (Stops.refl _).rollWindow.flushStaged
  unfold State.stopped
  generalize (s.fallPwrgood.rollWindow p).flushStaged p = a at written ⊢
  have cut : Stops p (a.storeOptime p true) ((a.storeOptime p true).cutGroups p) := (Stops.refl _).cutGroups
  have frame : SameBut (stopParts p) s.fallPwrgood ((a.storeOptime p true).cutGroups p) :=
    written.frame.trans ((State.storeOptime_frame a p true).step (by simp [stopParts]) cut.frame)
  have times := written.times
  rw [State.fallPwrgood_nvm] at times
  have noWrite : (a.pl p).nvm.noWrite = (s.pl p).nvm.noWrite := (Nvm.noWrite_of_times times).trans rfl
  have fallen : a.pwrgood = false := written.frame .pwrgood (by simp [stopParts])
  obtain ⟨optime, stored⟩ := a.storeOptime_nvm p
  have cutTimes := cut.times
  simp only [Nvm.times, Prod.mk.injEq] at times cutTimes
  obtain ⟨-, ho, -⟩ := times
  obtain ⟨-, ko, ks, kc, -⟩ := cutTimes
  rw [State.optime_of_fallen fallen, ho, noWrite] at stored
  exact ⟨(s.fallPwrgood_frame.mono (by simp)).trans (frame.mono fun _ h => List.mem_append_right _ h),
    frame .pwrgood (by simp [stopParts]), frame .clkreqLow (by simp [stopParts]), by rw [ko, optime, ho], fun h => by
    rw [ks, kc]
    exact stored h⟩

/-- A power-down up to the reset of plate `p`. -/
def State.fallen (s : State) (p : Plate) : State := (((s.stopped p).dropFence p).setLinkUp p false).dropGut p

theorem State.fallen_frame (s : State) (p : Plate) :
    SameBut ([.pwrgood, .clkreqLow, .free, .mrg p.peer, .nvm p.peer] ++ plateParts p ++ tokenBack s p) s (s.fallen p) := by
  have wound := (s.stopped_spec p).frame
  have fenced : SameBut [.pr p] (s.stopped p) ((s.stopped p).dropFence p) := State.updPr_frame _ p _
  have linked := ((s.stopped p).dropFence p).setLinkUp_frame p false
  have dropped := (((s.stopped p).dropFence p).setLinkUp p false).dropGut_frame p
  have gut : (((s.stopped p).dropFence p).setLinkUp p false).gut p = s.gut p :=
    ((wound (.gut p) (by simp [stopParts])).trans (fenced (.gut p) (by simp))).trans (linked (.gut p) (by simp))
  have token : tokenBack (((s.stopped p).dropFence p).setLinkUp p false) p = tokenBack s p := by
    unfold tokenBack
    rw [gut]
  rw [token] at dropped
  refine .trans (wound.mono ?_) (.trans (fenced.mono ?_) (.trans (linked.mono ?_) (dropped.mono ?_)))
  · cases p <;> simp [plateParts, stopParts, Plate.peer]
  · simp [plateParts]
  · cases p <;> simp [plateParts, Plate.peer]
  · exact List.cons_subset.mpr ⟨by simp [plateParts], List.subset_append_right _ _⟩

/-- What stands of NVM's counts and of the peer's wish for the token once the plate's link is down. -/
theorem State.fallen_same (s : State) (p : Plate) : ((s.fallen p).pl p).nvm = ((s.stopped p).pl p).nvm ∧
    (s.fallen p).pwrgood = (s.stopped p).pwrgood ∧ (s.fallen p).clkreqLow = (s.stopped p).clkreqLow ∧
    ((s.fallen p).pl p.peer).pr.seqSt = (s.pl p.peer).pr.seqSt := by
  have fenced : SameBut [.pr p] (s.stopped p) ((s.stopped p).dropFence p) := State.updPr_frame _ p _
  have linked := ((s.stopped p).dropFence p).setLinkUp_frame p false
  have dropped := (((s.stopped p).dropFence p).setLinkUp p false).dropGut_frame p
  have here (x : Part) (h : x ≠ .pr p) (hm : x ≠ .mrg .a ∧ x ≠ .mrg .b) (hg : x ≠ .gut p) (hp : x ≠ .pr p.peer) :
      Same (s.stopped p) (s.fallen p) x :=
    (fenced x (by simpa using h)).trans ((linked x (by simpa using hm)).trans (dropped x (by
      unfold tokenBack; split <;> simp [hg, hp])))
  refine ⟨here (.nvm p) (by simp) (by simp) (by simp) (by simp), here .pwrgood (by simp) (by simp) (by simp) (by simp),
    here .clkreqLow (by simp) (by simp) (by simp) (by simp), ?_⟩
  have before : Same s (((s.stopped p).dropFence p).setLinkUp p false) (.pr p.peer) :=
    ((s.stopped_spec p).frame _ (by simp [stopParts])).trans ((fenced _ (by simp)).trans (linked _ (by simp)))
  have seqSt : ((((s.stopped p).dropFence p).setLinkUp p false).pl p.peer).pr.seqSt = (s.pl p.peer).pr.seqSt :=
    congrArg Pair.seqSt before
  unfold State.fallen State.dropGut
  dsimp only
  split
  · rwa [State.updPr_self, State.setGut_frame _ p [] (.pr p.peer) (by simp)]
  · rwa [State.setGut_frame _ p [] (.pr p.peer) (by simp)]

/-- A plate whose peer waits for nothing keeps the token. -/
theorem State.useToken_idle (h : s.needsToken p = false) : s.useToken p = s := by simp [State.useToken, h]

theorem exec_powerDown (p : Plate) (s : State) (hph : (s.pl p).pow.phase ≠ .off) (hp : s.pwrgood = true)
    (hn : s.needsToken p.peer = false) : exec (.powerDown p) s = .next
      (((s.fallen p).upd p fun x => (x.afterReset (s.fallen p).clock .off false false).afterPower).refreshOut p) := by
  have run : exec (.powerDown p) s = .next ((((s.fallen p).upd p fun x =>
      (x.afterReset (s.fallen p).clock .off false false).afterPower).refreshOut p).useToken p.peer) := by
    have unfolded : exec (.powerDown p) s = execPowerDown p s := rfl
    rw [unfolded, execPowerDown, if_neg hph, if_pos hp]
    rfl
  rw [run, State.useToken_idle]
  have same : SameBut _ s (s.fallen p) := s.fallen_frame p
  have react : ((s.fallen p).pl p.peer).flt = (s.pl p.peer).flt := same (.flt p.peer) (by
    unfold tokenBack; split <;> simp [plateParts])
  obtain ⟨-, -, -, seqSt⟩ := s.fallen_same p
  simp only [State.needsToken, State.makereadyReset, Plate.peer_peer, Bool.or_eq_false_iff] at hn
  obtain ⟨⟨idle, waits⟩, -⟩ := hn
  rw [← react] at idle
  rw [← seqSt] at waits
  generalize s.fallen p = t at idle waits ⊢
  cases p <;> simp_all [State.needsToken, State.makereadyReset, State.refreshOut, State.updPow, State.upd,
    PlateState.afterReset, PlateState.afterPower, Pair.afterReset, Plate.peer, State.setPl, State.pl]

/-- What a plate is after its loss of power, and what of it the reset and FAULT_OUT# leave alone (R288, R339). -/
structure Unpowered (s t : State) (p : Plate) : Prop where
  phase  : (t.pl p).pow.phase = .off
  armed  : (t.pl p).tmp.armed = false
  ko     : (t.pl p).tmp.ko = false
  keys   : (t.pl p).vlt.keys = false
  cache  : (t.pl p).vlt.cache = []
  rng    : (t.pl p).rng = {}
  status : (t.pl p).flt.status = 0
  token  : (t.pl p).pr.token = false
  optime : (t.pl p).nvm.optime = (s.pl p).nvm.optime
  stored : (t.pl p).nvm.stored = (s.pl p).nvm.stored
  clean  : (t.pl p).nvm.clean = (s.pl p).nvm.clean

theorem State.unpowered (s : State) (p : Plate) (n : Nat) :
    Unpowered s ((s.upd p fun x => (x.afterReset n .off false false).afterPower).refreshOut p) p := by
  cases p <;> constructor <;> rfl

/-- POWER_DOWN (R288, R339). -/
theorem powerDown_spec (p : Plate) (s : State) (hph : (s.pl p).pow.phase ≠ .off) (hp : s.pwrgood = true)
    (hn : s.needsToken p.peer = false) : ∃ t, exec (.powerDown p) s = .next t ∧ t.pwrgood = false ∧ t.clkreqLow = false ∧
      Unpowered (s.stopped p) t p ∧
      SameBut ([.pwrgood, .clkreqLow, .free, .mrg p.peer, .nvm p.peer] ++ plateParts p ++ tokenBack s p) s t := by
  have settled := s.stopped_spec p
  obtain ⟨nvm, pwrgood, clkreq, -⟩ := s.fallen_same p
  have off := (s.fallen p).unpowered p (s.fallen p).clock
  have frame : SameBut (plateParts p) (s.fallen p)
      (((s.fallen p).upd p fun x => (x.afterReset (s.fallen p).clock .off false false).afterPower).refreshOut p) :=
    ((State.upd_frame _ p _).mono (by simp [plateParts])).trans ((State.refreshOut_frame _ p).mono (by simp [plateParts]))
  refine ⟨_, exec_powerDown p s hph hp hn, ?_, ?_, { off with optime := ?_, stored := ?_, clean := ?_ }, ?_⟩
  · exact Eq.trans (frame .pwrgood (by simp [plateParts])) (pwrgood.trans settled.pwrgood)
  · exact Eq.trans (frame .clkreqLow (by simp [plateParts])) (clkreq.trans settled.clkreq)
  · rw [off.optime, nvm]
  · rw [off.stored, nvm]
  · rw [off.clean, nvm]
  · exact (s.fallen_frame p).trans (frame.mono fun _ h => List.mem_append_left _ (List.mem_append_right _ h))

/-! ## What the reset token brings about (R235) -/

/-- The parts that a reset of plate `p` with the token, or its isolation, may touch. -/
def tokenParts (p : Plate) : List Part := plateParts p ++ [.pr p.peer, .mrg p.peer, .gut p.peer, .free, .out]

theorem Stops.tokenFrame (h : Stops p s t) : SameBut (tokenParts p) s t :=
  h.frame.mono (by simp [stopParts, tokenParts, plateParts])

theorem State.endDrill_stops (s : State) (p : Plate) : Stops p s (s.endDrill p) := by
  unfold State.endDrill
  exact (Stops.refl s).updTmp.updFlt.record

theorem State.saveWindows_stops (s : State) (p : Plate) : Stops p s (s.saveWindows p) := by
  unfold State.saveWindows
  exact (Stops.refl s).updVlt

theorem State.resetPlate_frame (s : State) (p : Plate) (fenced keep : Bool) :
    SameBut (tokenParts p) s (s.resetPlate p fenced keep) := by
  unfold State.resetPlate
  extract_lets a b c
  have ha : SameBut (tokenParts p) s a :=
    (Stops.refl s).cutGroups.tokenFrame.trans (((State.updPr_frame _ p _).mono (by simp [tokenParts, plateParts])).trans
      ((State.setLinkUp_frame _ p false).mono (by cases p <;> simp [tokenParts, plateParts, Plate.peer])))
  have hb : SameBut (tokenParts p) a b := .ite (a.endDrill_stops p |>.tokenFrame) (.refl _ a)
  have hc : SameBut (tokenParts p) b c := .ite (b.saveWindows_stops p |>.tokenFrame) (.refl _ b)
  refine ha.trans (hb.trans (hc.trans (((State.upd_frame c p _).mono ?_).trans (((State.dropGut_frame _ p).mono ?_).trans
    ((State.refreshOut_frame _ p).mono ?_)))))
  · simp [tokenParts, plateParts]
  · unfold tokenBack
    split <;> simp [tokenParts, plateParts]
  · simp [tokenParts, plateParts]

theorem State.enterReset_frame (s : State) (p : Plate) (d : Nat) (fenced keep : Bool) :
    SameBut (tokenParts p) s (s.enterReset p d fenced keep) :=
  .trans (.ite (.refl _ s) (Stops.refl s).record.tokenFrame) (State.resetPlate_frame _ p fenced keep)

theorem State.isolate_frame (s : State) (p : Plate) : SameBut (tokenParts p) s (s.isolate p) := by
  unfold State.isolate
  have beat : SameBut (tokenParts p) s (s.writeBeat p 5) :=
    .ite ((State.emit_frame s _).mono (by simp [tokenParts])) (.refl _ s)
  exact beat.trans (((State.updSl_frame _ p _).mono (by simp [tokenParts, plateParts])).trans
    (((State.updFlt_frame _ p _).mono (by simp [tokenParts, plateParts])).trans
      (((State.send_frame _ p .leave).mono (by simp [tokenParts])).trans
        ((State.updPr_frame _ p _).mono (by simp [tokenParts, plateParts])))))

/-- The token's use touches its plate, and of the other one its pair part, its view of the Margin and what is under way to
it. -/
theorem State.useToken_frame (s : State) (p : Plate) : SameBut (tokenParts p) s (s.useToken p) := by
  have counted : SameBut (tokenParts p) s ((s.updPr p fun r => { r with seqResets := satAdd 8 r.seqResets 1 }).send p .leave) :=
    ((State.updPr_frame s p _).mono (by simp [tokenParts, plateParts])).trans
      ((State.send_frame _ p .leave).mono (by simp [tokenParts]))
  have noted (f : Pair → Pair) : SameBut (tokenParts p) s (s.updPr p.peer f) :=
    (State.updPr_frame s p.peer f).mono (by simp [tokenParts])
  exact .ite (.refl _ s) (.ite (counted.trans (State.enterReset_frame _ p 3 false true)) (.ite
    ((noted _).trans (State.resetPlate_frame _ p false false)) (.ite (s.isolate_frame p) (.ite (.refl _ s)
      (s.enterReset_frame p 1 false true)))))

end Sys2Proof.Machine

/-! PROOFS. What the operations of a start-up leave of both plates: the relation `Boots` (O47). -/

namespace Sys2Proof.Machine

/-! ## The relation -/

/-- What no operation of a start-up moves but those that Table 16.7 names for it. -/
structure BootView where
  phase     : Phase
  ready     : Bool
  perst     : Bool
  times     : Word × Nat × Nat × Bool × Nat
  armed     : Bool
  corrected : Nat
  epoch     : Nat
  makeready : Option Makeready

def PlateState.bootView (x : PlateState) : BootView where
  phase     := x.pow.phase
  ready     := x.pow.ready
  perst     := x.pow.perst
  times     := x.nvm.times
  armed     := x.tmp.armed
  corrected := x.tmp.corrected
  epoch     := x.vlt.epoch
  makeready := x.pr.makeready

/-- The root, whether it is open, and the helper data that it opens with. -/
def PlateState.rootView (x : PlateState) : Bool × Bool × Option RootPage × Option Bytes :=
  (x.vlt.mounted, x.vlt.keys, x.vlt.root, x.tmp.helper)

/-- What a plate keeps while its peer starts. -/
def PlateState.farView (x : PlateState) : Phase × Faults × Mgmt × SeqSt := (x.pow.phase, x.flt, x.mgt, x.pr.seqSt)

/-- What the plate that starts keeps; `halts` allows its random service to change state, `merges` a root to come from its
peer. -/
structure PlateState.Starts (halts merges : Prop) (x y : PlateState) : Prop where
  view   : y.bootView = x.bootView
  mount  : x.vlt.mounted = true → x.vlt.keys = true → y.vlt.mounted = true ∧ y.vlt.keys = true
  root   : merges ∨ y.rootView = x.rootView
  status : ∀ k, hasSrc x.flt.status k = true → hasSrc y.flt.status k = true
  halted : x.rng.st = .halted → y.rng.st = .halted ∧ y.rng.cause = x.rng.cause ∧ y.rng.pool = x.rng.pool
  st     : halts ∨ y.rng.st = x.rng.st

/-- What the peer of the plate that starts keeps. -/
structure PlateState.Stays (merges : Prop) (x y : PlateState) : Prop where
  view   : y.farView = x.farView
  random : merges ∨ y.rng = x.rng ∧ y.tmp = x.tmp

/-- Between `s` and `t` plate `p` went on with its start-up. -/
structure Boots (halts merges : Prop) (p : Plate) (s t : State) : Prop where
  own    : (s.pl p).Starts halts merges (t.pl p)
  far    : (s.pl p.peer).Stays merges (t.pl p.peer)
  beside : (t.margin, t.tapIr, t.pwrgood, t.clkreqLow) = (s.margin, s.tapIr, s.pwrgood, s.clkreqLow)

variable {h m : Prop} {s t u : State} {p r : Plate}

namespace PlateState

variable {x y z : PlateState}

theorem Starts.of_eq (hv : y.bootView = x.bootView) (hr : y.rootView = x.rootView) (hf : y.flt.status = x.flt.status)
    (hg : y.rng = x.rng) : x.Starts h m y where
  view   := hv
  mount  := fun a b => by
    simp only [rootView, Prod.mk.injEq] at hr
    exact ⟨hr.1.trans a, hr.2.1.trans b⟩
  root   := .inr hr
  status := fun k => by rw [hf]; exact id
  halted := fun e => by rw [hg]; exact ⟨e, rfl, rfl⟩
  st     := .inr (by rw [hg])

/-- A plate with its random part replaced by `g`. -/
theorem Starts.ofRng {g : Rng} (hh : x.rng.st = .halted → g.st = .halted ∧ g.cause = x.rng.cause ∧ g.pool = x.rng.pool)
    (hs : h ∨ g.st = x.rng.st) : x.Starts h m { x with rng := g } :=
  ⟨rfl, fun a b => ⟨a, b⟩, .inr rfl, fun _ => id, hh, hs⟩

theorem Starts.trans (a : x.Starts h m y) (b : y.Starts h m z) : x.Starts h m z where
  view   := b.view.trans a.view
  mount  := fun i j => b.mount (a.mount i j).1 (a.mount i j).2
  root   := a.root.elim .inl fun i => b.root.imp_right fun j => j.trans i
  status := fun k e => b.status k (a.status k e)
  halted := fun e => by
    obtain ⟨i, j, k⟩ := a.halted e
    obtain ⟨i', j', k'⟩ := b.halted i
    exact ⟨i', j'.trans j, k'.trans k⟩
  st     := a.st.elim .inl fun i => b.st.imp_right fun j => j.trans i

theorem Stays.of_eq (hv : y.farView = x.farView) (hg : y.rng = x.rng) (ht : y.tmp = x.tmp) : x.Stays m y := ⟨hv, .inr ⟨hg, ht⟩⟩

theorem Stays.trans (a : x.Stays m y) (b : y.Stays m z) : x.Stays m z :=
  ⟨b.view.trans a.view, a.random.elim .inl fun i => b.random.imp_right fun j => ⟨j.1.trans i.1, j.2.trans i.2⟩⟩

end PlateState

namespace Boots

theorem refl (s : State) : Boots h m p s s := ⟨.of_eq rfl rfl rfl rfl, .of_eq rfl rfl rfl, rfl⟩

theorem trans (a : Boots h m p s t) (b : Boots h m p t u) : Boots h m p s u :=
  ⟨a.own.trans b.own, a.far.trans b.far, b.beside.trans a.beside⟩

theorem cond {c : Prop} [Decidable c] (a : c → Boots h m p s t) (b : ¬c → Boots h m p s u) :
    Boots h m p s (if c then t else u) := by
  split
  · next e => exact a e
  · next e => exact b e

theorem ite {c : Prop} [Decidable c] (a : Boots h m p s t) (b : Boots h m p s u) : Boots h m p s (if c then t else u) :=
  cond (fun _ => a) fun _ => b

theorem foldl {α : Type} {l : List α} {f : State → α → State} (a : Boots h m p s t)
    (hf : ∀ u x, Boots h m p s u → Boots h m p s (f u x)) : Boots h m p s (l.foldl f t) := by
  induction l generalizing t with
  | nil => exact a
  | cons x l ih => exact ih (hf t x a)

theorem each {α : Type} {l : List α} {f : State → α → State} (a : Boots h m p s t)
    (hf : ∀ u x, Boots h m p s u → Boots h m p s (f u x)) : Boots h m p s (t.each l f) := a.foldl hf

/-! ## Updates -/

/-- A change on one plate. -/
theorem upd {f} (a : Boots h m p s t) (ho : r = p → (t.pl r).Starts h m (f (t.pl r)))
    (hf : r = p.peer → (t.pl r).Stays m (f (t.pl r))) : Boots h m p s (t.upd r f) := by
  refine a.trans ⟨?_, ?_, by cases r <;> rfl⟩
  · by_cases e : r = p
    · subst e
      have new : (t.upd r f).pl r = f (t.pl r) := by cases r <;> rfl
      rw [new]
      exact ho rfl
    · have old : (t.upd r f).pl p = t.pl p := by cases r <;> cases p <;> first | rfl | exact absurd rfl e
      rw [old]
      exact .of_eq rfl rfl rfl rfl
  · by_cases e : r = p.peer
    · subst e
      have new : (t.upd p.peer f).pl p.peer = f (t.pl p.peer) := by cases p <;> rfl
      rw [new]
      exact hf rfl
    · have old : (t.upd r f).pl p.peer = t.pl p.peer := by cases r <;> cases p <;> first | rfl | exact absurd rfl e
      rw [old]
      exact .of_eq rfl rfl rfl

/-- A change on either plate that no view shows. -/
theorem updAny {f} (a : Boots h m p s t) (hv : ∀ x : PlateState, (f x).bootView = x.bootView ∧ (f x).rootView = x.rootView ∧
    (f x).farView = x.farView) (hr : ∀ x : PlateState, (f x).rng = x.rng ∧ (f x).tmp = x.tmp) : Boots h m p s (t.upd r f) := by
  obtain ⟨hb, hg, hf⟩ := hv (t.pl r)
  obtain ⟨hrng, htmp⟩ := hr (t.pl r)
  have hflt : (f (t.pl r)).flt = (t.pl r).flt := congrArg (fun v => v.2.1) hf
  exact a.upd (fun _ => .of_eq hb hg (congrArg Faults.status hflt) hrng) fun _ => .of_eq hf hrng htmp

/-- A change on the plate that starts. -/
theorem updOwn {f} (a : Boots h m p s t) (ho : (t.pl p).Starts h m (f (t.pl p))) : Boots h m p s (t.upd p f) :=
  a.upd (fun _ => ho) fun e => absurd e (Plate.ne_peer p)

theorem updSl {f} (a : Boots h m p s t) : Boots h m p s (t.updSl r f) :=
  a.updAny (fun _ => ⟨rfl, rfl, rfl⟩) fun _ => ⟨rfl, rfl⟩
theorem updCus {f} (a : Boots h m p s t) : Boots h m p s (t.updCus r f) :=
  a.updAny (fun _ => ⟨rfl, rfl, rfl⟩) fun _ => ⟨rfl, rfl⟩
theorem updMrg {f} (a : Boots h m p s t) : Boots h m p s (t.updMrg r f) :=
  a.updAny (fun _ => ⟨rfl, rfl, rfl⟩) fun _ => ⟨rfl, rfl⟩
theorem updPow {f} (a : Boots h m p s t) (hf : ∀ w, (f w).phase = w.phase ∧ (f w).ready = w.ready ∧ (f w).perst = w.perst) :
    Boots h m p s (t.updPow r f) :=
  a.updAny (fun x => by simp [PlateState.bootView, PlateState.rootView, PlateState.farView, hf]) fun _ => ⟨rfl, rfl⟩
theorem updVlt {f} (a : Boots h m p s t) (he : ∀ v, (f v).epoch = v.epoch)
    (hf : ∀ v, (f v).mounted = v.mounted ∧ (f v).keys = v.keys ∧ (f v).root = v.root) : Boots h m p s (t.updVlt r f) :=
  a.updAny (fun x => by simp [PlateState.bootView, PlateState.rootView, PlateState.farView, he, hf]) fun _ => ⟨rfl, rfl⟩
theorem updPr {f} (a : Boots h m p s t) (hf : ∀ x, (f x).seqSt = x.seqSt ∧ (f x).makeready = x.makeready) :
    Boots h m p s (t.updPr r f) :=
  a.updAny (fun x => by simp [PlateState.bootView, PlateState.rootView, PlateState.farView, hf]) fun _ => ⟨rfl, rfl⟩
theorem updNvm {f} (a : Boots h m p s t) (hf : ∀ n, (f n).times = n.times) : Boots h m p s (t.updNvm r f) :=
  a.updAny (fun x => by simp [PlateState.bootView, PlateState.rootView, PlateState.farView, hf]) fun _ => ⟨rfl, rfl⟩
theorem updTmp {f} (a : Boots h m p s t)
    (hf : ∀ x, (f x).armed = x.armed ∧ (f x).corrected = x.corrected ∧ (f x).helper = x.helper) :
    Boots h m p s (t.updTmp p f) :=
  a.updOwn (.of_eq (by simp [PlateState.bootView, hf]) (by simp [PlateState.rootView, hf]) rfl rfl)
theorem updMgt {f} (a : Boots h m p s t) : Boots h m p s (t.updMgt p f) := a.updOwn (.of_eq rfl rfl rfl rfl)
theorem updFlt {f} (a : Boots h m p s t) (hf : ∀ x k, hasSrc x.status k = true → hasSrc (f x).status k = true) :
    Boots h m p s (t.updFlt p f) :=
  a.updOwn { PlateState.Starts.of_eq rfl rfl rfl rfl with status := hf _ }
theorem updRng {f} (a : Boots h m p s t) (hf : ∀ x, (f x).st = x.st ∧ (f x).cause = x.cause ∧ (f x).pool = x.pool) :
    Boots h m p s (t.updRng p f) :=
  a.updOwn (.ofRng (fun e => ⟨(hf _).1.trans e, (hf _).2⟩) (.inr (hf _).1))

/-- The random part of a plate whose random service runs. -/
theorem updRunning {f} (a : Boots h m p s t) (hr : (t.pl p).rng.st ≠ .halted) (hf : ∀ x, h ∨ (f x).st = x.st) :
    Boots h m p s (t.updRng p f) :=
  a.updOwn (.ofRng (fun e => absurd e hr) (hf _))

/-- A state that differs beside the plates in what was sent, what is under way and the free values. -/
theorem apart (a : Boots h m p s t) (ha : u.pa = t.pa) (hb : u.pb = t.pb)
    (hc : (u.margin, u.tapIr, u.pwrgood, u.clkreqLow) = (t.margin, t.tapIr, t.pwrgood, t.clkreqLow)) : Boots h m p s u := by
  have hpl (q : Plate) : u.pl q = t.pl q := by cases q <;> assumption
  exact a.trans ⟨by rw [hpl]; exact .of_eq rfl rfl rfl rfl, by rw [hpl]; exact .of_eq rfl rfl rfl, hc⟩

theorem emits {o} (a : Boots h m p s t) : Boots h m p s (t.emits o) := a.apart rfl rfl rfl
theorem emit {o} (a : Boots h m p s t) : Boots h m p s (t.emit o) := a.emits
theorem tick {k} (a : Boots h m p s t) : Boots h m p s (t.tick k) := a.apart rfl rfl rfl
theorem setGut {q l} (a : Boots h m p s t) : Boots h m p s (t.setGut q l) := by cases q <;> exact a.apart rfl rfl rfl
theorem send {q x} (a : Boots h m p s t) : Boots h m p s (t.send q x) := .ite a.setGut a

end Boots

end Sys2Proof.Machine

/-! PROOFS. The operations of a start-up (O47). -/

namespace Sys2Proof.Machine

variable {h m : Prop} {s t u : State} {p r : Plate}

namespace Boots

/-! ## Rings, messages, faults -/

/-- A change that leaves these parts whole, and of the plate's link whether it runs and answers. -/
theorem of_same (a : Boots h m p s t) (k : ∀ x ∈ [Part.vlt p, .pr p, .tmp p, .nvm p, .flt p, .rng p, .pow p.peer, .flt p.peer,
      .mgt p.peer, .pr p.peer, .rng p.peer, .tmp p.peer, .margin, .tapIr, .pwrgood, .clkreqLow], Same t u x)
    (hp : (u.pl p).pow.phase = (t.pl p).pow.phase ∧ (u.pl p).pow.ready = (t.pl p).pow.ready ∧
      (u.pl p).pow.perst = (t.pl p).pow.perst) : Boots h m p s u := by
  simp only [List.mem_cons, List.not_mem_nil, or_false, forall_eq_or_imp, forall_eq, Same] at k
  obtain ⟨vlt, pr, tmp, nvm, flt, rng, powF, fltF, mgtF, prF, rngF, tmpF, margin, tapIr, pwrgood, clkreq⟩ := k
  obtain ⟨phase, ready, perst⟩ := hp
  refine a.trans ⟨.of_eq ?_ ?_ (congrArg Faults.status flt) rng, .of_eq ?_ rngF tmpF, ?_⟩
  · rw [PlateState.bootView, phase, ready, perst, nvm, tmp, vlt, pr]
    rfl
  · rw [PlateState.rootView, vlt, tmp]
    rfl
  · rw [PlateState.farView, powF, fltF, mgtF, prF]
    rfl
  · rw [margin, tapIr, pwrgood, clkreq]

/-- Work that touches the rings, what the function holds of its link, and what was sent. -/
theorem traffic (a : Boots h m p s t) (k : Traffic t u p) (f : SameBut [.sl p, .pow p, .out] t u) : Boots h m p s u := by
  obtain ⟨_, _, pow⟩ := k.pow
  refine a.of_same (fun x hx => f x ?_) (by rw [pow]; exact ⟨rfl, rfl, rfl⟩)
  revert x
  simp

/-- What a start-up neither reads nor reports. -/
def calm : List Part :=
  [.sl .a, .sl .b, .cus .a, .cus .b, .mrg .a, .mrg .b, .gut .a, .gut .b, .clock, .free, .out, .pending]

theorem calmly {l : List Part} (a : Boots h m p s t) (f : SameBut l t u) (hl : l ⊆ calm) : Boots h m p s u := by
  have pow : (u.pl p).pow = (t.pl p).pow := f (.pow p) fun e => by simpa [calm] using hl e
  refine a.of_same (fun x hx => f x fun e => ?_) (by rw [pow]; exact ⟨rfl, rfl, rfl⟩)
  have c := hl e
  revert x
  simp [calm]

theorem post {q i d x b₁ b₂ b₃} (a : Boots h m p s t) : Boots h m p s (t.post p q i d x b₁ b₂ b₃) :=
  a.traffic (State.post_traffic t p q i d x b₁ b₂ b₃) (State.post_frame t p q i d x b₁ b₂ b₃)
theorem ringFault {q k v} (a : Boots h m p s t) : Boots h m p s (t.ringFault p q k v) :=
  a.traffic (State.ringFault_traffic t p q k v) (State.ringFault_frame t p q k v)
theorem writeProgress {i} (a : Boots h m p s t) : Boots h m p s (t.writeProgress p i) :=
  a.traffic (State.writeProgress_traffic t p i) (State.writeProgress_frame t p i)
theorem issueRead {q k d n} (a : Boots h m p s t) : Boots h m p s (t.issueRead p q k d n) :=
  a.traffic (State.issueRead_traffic t p q k d n) (State.issueRead_frame t p q k d n)
theorem readUnder {q d n} (a : Boots h m p s t) : Boots h m p s (t.readUnder p q d n) :=
  a.traffic (State.readUnder_traffic t p q d n) (.ite (((State.translate_frame t p _ d).step (by simp)
    ((State.emit_frame _ _).mono (by simp)))) (.refl _ t))
theorem updRing {q f} (a : Boots h m p s t) : Boots h m p s (t.updRing p q f) := by
  unfold State.updRing
  split
  exacts [a.updSl, a.updSl]
theorem updJob {q i f} (a : Boots h m p s t) : Boots h m p s (t.updJob p q i f) := a.updSl
theorem dropJob {q i} (a : Boots h m p s t) : Boots h m p s (t.dropJob p q i) := by
  unfold State.dropJob
  exact (a.updVlt (by simp) (by simp)).updSl
theorem fail {j st} (a : Boots h m p s t) : Boots h m p s (t.fail p j st) := .ite a.post.dropJob a
theorem refreshOut (a : Boots h m p s t) : Boots h m p s (t.refreshOut r) := a.updPow (by simp)
theorem record {k₁ k₂ d} (a : Boots h m p s t) : Boots h m p s (t.record p k₁ k₂ d) :=
  .ite a (.ite (a.updNvm fun _ => rfl) (.ite (a.updNvm fun _ => rfl) (a.updNvm fun _ => rfl)))
theorem sendMsix {v} (a : Boots h m p s t) : Boots h m p s (t.sendMsix p v) := .ite (a.updPow (by simp)) a.emit
theorem faultIrq (a : Boots h m p s t) : Boots h m p s (t.faultIrq p) := .ite a.sendMsix a

/-- A status that takes on a further source keeps the others. -/
theorem hasSrc_or {w : DWord} {b : DWord} {k : Nat} (e : hasSrc w k = true) : hasSrc (w ||| b) k = true := by
  simp only [hasSrc] at e ⊢
  simp [e]

theorem latch {k} (a : Boots h m p s t) : Boots h m p s (t.latch p k) := by
  have set (u : State) (b : Boots h m p s u) : Boots h m p s (u.updFlt p fun f =>
      { (f.onSet f.status k u.clock) with status := f.status ||| srcBit k }) := b.updFlt fun _ _ e => hasSrc_or e
  exact .ite a (record (refreshOut (.ite (set t a).faultIrq (set t a))))
theorem setPin {k on} (a : Boots h m p s t) : Boots h m p s (t.setPin p k on) := .ite (a.updFlt fun _ _ => id) a
theorem raise {k} (a : Boots h m p s t) : Boots h m p s (t.raise p k) := .ite a.setPin.latch a
theorem tamper {k b i} (a : Boots h m p s t) : Boots h m p s (t.tamper p k b i) := .ite (raise (a.updTmp (by simp))) a

/-! ## Random start-up (R196) -/

theorem haltJobs (a : Boots h m p s t) : Boots h m p s (t.haltJobs p) := a.each fun _ _ b => .ite b.updJob b.fail
theorem stallsFail (a : Boots h m p s t) : Boots h m p s (t.stallsFail p) := (a.updRng (by simp)).emits
theorem entropyHalt {c k} (a : Boots h m p s t) (hh : h) : Boots h m p s (t.entropyHalt p c k) := by
  unfold State.entropyHalt
  split
  · exact a
  · next hr => exact (a.updRunning hr fun _ => .inl hh).stallsFail.haltJobs.raise
/-- A step that finds fewer than `n` blocks halts the plate. -/
theorem shortPool {n} (a : Boots h m p s t) (hh : h) :
    Boots h m p s (if (t.pl p).rng.pool.length < n then t.entropyHalt p 0 0 else t) := .ite (a.entropyHalt hh) a
theorem updInst {k f} (a : Boots h m p s t) : Boots h m p s (t.updInst p k f) := a.updRng (by simp)
theorem condition {b} (a : Boots h m p s t) (hh : h) (hr : (t.pl p).rng.st ≠ .halted) : Boots h m p s (t.condition p b) := by
  unfold State.condition
  dsimp only
  split
  · exact (a.updRng (by simp)).entropyHalt hh
  · refine .ite (updRunning (a.updRng (by simp)) ?_ (by simp)) (a.updRng (by simp))
    rwa [State.updRng_self]
theorem startCell {k l} (a : Boots h m p s t) (hh : h) : Boots h m p s (t.startCell p k l) := by
  unfold State.startCell
  split
  · exact a
  · dsimp only
    split
    exacts [(a.updRng (by simp)).entropyHalt hh, (a.updRng (by simp)).updRng (by simp)]
theorem fillPool {l} (a : Boots h m p s t) (hh : h) : Boots h m p s (t.fillPool p l).1 := by
  induction l generalizing t with
  | nil => exact a
  | cons b l ih =>
    unfold State.fillPool
    split
    · exact a
    · next hr => exact ih (a.condition hh (by simp only [Bool.or_eq_true, beq_iff_eq, not_or] at hr; exact hr.1))
theorem usedBlock (a : Boots h m p s t) (hr : (t.pl p).rng.st ≠ .halted) : Boots h m p s (t.usedBlock p) :=
  a.updRunning hr (by simp)
theorem instantiate {k} (a : Boots h m p s t) (hr : (t.pl p).rng.st ≠ .halted) : Boots h m p s (t.instantiate p k) :=
  ((a.usedBlock hr).usedBlock (by rwa [State.usedBlock, State.updRng_self])).updInst
theorem reseed {k} (a : Boots h m p s t) (hr : (t.pl p).rng.st ≠ .halted) : Boots h m p s (t.reseed p k) := by
  unfold State.reseed
  exact (a.usedBlock hr).updInst.updRng (by simp)
theorem startInstances {l bs} (a : Boots h m p s t) (hh : h) : Boots h m p s (t.startInstances p l bs) := by
  induction l generalizing t bs with
  | nil => exact a
  | cons k l ih =>
    unfold State.startInstances
    dsimp only
    have filled := (a.fillPool (l := bs) hh).shortPool (n := 2) hh
    exact .cond (fun _ => ih filled.updInst) fun hr => ih (filled.instantiate fun e => hr (beq_iff_eq.mpr e))

/-- The steps of random start-up that follow the known-answer tests. -/
theorem startRandom {x} (a : Boots h m p s (if x.kat then t else t.entropyHalt p 0 5)) (hh : h) :
    Boots h m p s (t.startRandom p x) := by
  unfold State.startRandom
  extract_lets mine s₁ s₂
  have h₂ : Boots h m p s s₂ := a.each fun _ _ b => b.startCell hh
  have filled := (h₂.fillPool (l := x.blocks) hh).shortPool (n := 64) hh
  dsimp only
  exact .cond (fun _ => filled.startInstances hh) fun hr =>
    (filled.startInstances hh).updRunning (fun e => hr (beq_iff_eq.mpr e)) fun _ => .inl hh

end Boots

/-- A halt of a service that runs leaves its cause and an empty pool (Table 8.6). -/
theorem State.entropyHalt_rng (s : State) (p : Plate) (c k : Nat) (hr : (s.pl p).rng.st ≠ .halted) :
    ((s.entropyHalt p c k).pl p).rng.st = .halted ∧ ((s.entropyHalt p c k).pl p).rng.cause = k ∧
      ((s.entropyHalt p c k).pl p).rng.pool = [] := by
  have after (u : State) : Boots True False p u (((u.stallsFail p).haltJobs p).raise p 27) :=
    (Boots.refl u).stallsFail.haltJobs.raise
  have halted {u : State} (e : (u.pl p).rng.st = .halted ∧ (u.pl p).rng.cause = k ∧ (u.pl p).rng.pool = []) :
      ((((u.stallsFail p).haltJobs p).raise p 27).pl p).rng.st = .halted ∧
        ((((u.stallsFail p).haltJobs p).raise p 27).pl p).rng.cause = k ∧
        ((((u.stallsFail p).haltJobs p).raise p 27).pl p).rng.pool = [] := by
    obtain ⟨st, cause, pool⟩ := (after u).own.halted e.1
    exact ⟨st, cause.trans e.2.1, pool.trans e.2.2⟩
  unfold State.entropyHalt
  rw [if_neg hr]
  exact halted (by rw [State.updRng_self]; exact ⟨rfl, rfl, rfl⟩)

/-- A failed known-answer test halts random start-up with cause 5 and no block (R196, Table 8.6). -/
theorem State.startRandom_kat (s : State) (p : Plate) (x : RandomStart) (hr : (s.pl p).rng.st ≠ .halted) (hk : x.kat = false) :
    ((s.startRandom p x).pl p).rng.st = .halted ∧ ((s.startRandom p x).pl p).rng.cause = 5 ∧
      ((s.startRandom p x).pl p).rng.pool = [] := by
  have failed : Boots True False p (s.entropyHalt p 0 5) (if x.kat then s else s.entropyHalt p 0 5) := by
    rw [hk]
    exact .refl _
  obtain ⟨st, cause, pool⟩ := s.entropyHalt_rng p 0 5 hr
  obtain ⟨st', cause', pool'⟩ := (failed.startRandom trivial).own.halted st
  exact ⟨st', cause'.trans cause, pool'.trans pool⟩

namespace Boots

/-! ## Draws -/

theorem readied {k} (a : Boots h m p s t) : Boots h m p s (t.readied p k) := by
  unfold State.readied
  dsimp only
  split
  · exact a
  · next hg =>
    have hr : (t.pl p).rng.st ≠ .halted := fun e => hg (by simp [State.gives, e])
    exact .ite (.ite (a.instantiate hr) a) (.ite (a.reseed hr) a)
theorem drew {k l} (a : Boots h m p s t) : Boots h m p s (t.drew p k l) := by
  unfold State.drew
  induction l generalizing t with
  | nil => exact a
  | cons n l ih => exact ih a.readied.updInst
theorem drawBoot (a : Boots h m p s t) : Boots h m p s (t.drawBoot p) := by
  unfold State.drawBoot
  exact (updVlt (.ite a.drew a.tick) (by simp) (by simp)).updCus

end Boots

end Sys2Proof.Machine

/-! PROOFS. The vault, the relation and the rings in a start-up (O47). -/

namespace Sys2Proof.Machine

variable {h m : Prop} {s t u : State} {p r : Plate}

namespace Boots

/-! ## A root that comes from the peer (R226) -/

/-- A change of either plate's tamper monitor, where vaults may merge. -/
theorem updTmpAny {f} (a : Boots h m p s t) (hm : m) (hf : ∀ x, (f x).armed = x.armed ∧ (f x).corrected = x.corrected) :
    Boots h m p s (t.updTmp r f) :=
  a.upd (fun _ => ⟨by simp [PlateState.bootView, hf], fun i j => ⟨i, j⟩, .inl hm, fun _ => id, fun e => ⟨e, rfl, rfl⟩,
    .inr rfl⟩) fun _ => ⟨rfl, .inl hm⟩

/-- A change of either plate's vault that leaves an open root open, where vaults may merge. -/
theorem updVltAny {f} (a : Boots h m p s t) (hm : m) (he : ∀ v, (f v).epoch = v.epoch)
    (hf : ∀ v, v.mounted = true → v.keys = true → (f v).mounted = true ∧ (f v).keys = true) : Boots h m p s (t.updVlt r f) :=
  a.upd (fun _ => ⟨by simp [PlateState.bootView, he], hf _, .inl hm, fun _ => id, fun e => ⟨e, rfl, rfl⟩, .inr rfl⟩)
    fun _ => ⟨rfl, .inl hm⟩

theorem updRngPeer {f} (a : Boots h m p s t) (hm : m) : Boots h m p s (t.updRng p.peer f) :=
  a.upd (fun e => absurd e (Plate.peer_ne p)) fun _ => ⟨rfl, .inl hm⟩
theorem reseedPeer {k} (a : Boots h m p s t) (hm : m) : Boots h m p s (t.reseed p.peer k) := by
  unfold State.reseed State.updInst
  exact ((a.updRngPeer hm).updRngPeer hm).updRngPeer hm
theorem instantiatePeer {k} (a : Boots h m p s t) (hm : m) : Boots h m p s (t.instantiate p.peer k) := by
  unfold State.instantiate State.usedBlock State.updInst
  exact ((a.updRngPeer hm).updRngPeer hm).updRngPeer hm
theorem readiedPeer {k} (a : Boots h m p s t) (hm : m) : Boots h m p s (t.readied p.peer k) :=
  .ite a (.ite (.ite (a.instantiatePeer hm) a) (.ite (a.reseedPeer hm) a))
theorem drewPeer {k l} (a : Boots h m p s t) (hm : m) : Boots h m p s (t.drew p.peer k l) := by
  unfold State.drew
  induction l generalizing t with
  | nil => exact a
  | cons n l ih => exact ih ((a.readiedPeer hm).updRngPeer hm)
theorem drewAny {k l} (a : Boots h m p s t) (hm : m) : Boots h m p s (t.drew r k l) := by
  by_cases e : r = p
  · subst e
    exact a.drew
  · have peer : r = p.peer := by cases r <;> cases p <;> first | rfl | exact absurd rfl e
    subst peer
    exact a.drewPeer hm
theorem takeRoot (a : Boots h m p s t) (hm : m) : Boots h m p s (t.takeRoot r) := by
  have agreed : Boots h m p s t.agree := ((a.drewAny hm).drewAny hm).each fun _ _ b => b.updVlt (by simp) (by simp)
  have prepared {l} : Boots h m p s (t.agree.prepare r l) :=
    .ite agreed ((updVlt (agreed.drewAny hm) (by simp) (by simp)).tick)
  have enrolled {l} : Boots h m p s ((t.agree.prepare r l).enrol r) := by
    unfold State.enrol
    exact (prepared.updTmpAny hm (by simp)).updVlt (by simp) (by simp)
  have sealed {v drk salt q} (b : Boots h m p s v) : Boots h m p s (v.sealRoot r drk salt q) :=
    b.updVltAny hm (by simp) (by intro _ i _; exact ⟨i, rfl⟩)
  unfold State.takeRoot
  exact .ite ((sealed (.ite prepared enrolled)).updVltAny hm (by simp) fun _ _ k => ⟨rfl, k⟩) a
theorem setPages {c v} (a : Boots h m p s t) : Boots h m p s (t.setPages r c v) := by
  unfold State.setPages
  dsimp only
  split
  exacts [.ite (updCus (.ite a.updCus a)) (.ite a.updCus a), .ite a.updCus a]
theorem sendConfig (a : Boots h m p s t) : Boots h m p s (t.sendConfig r) := by
  unfold State.sendConfig
  exact a.updMrg.calmly (State.sendFrame_frame _ .plate r _ _ _) (by cases r <;> simp [calm, endPart])
theorem mergeVaults (a : Boots h m p s t) (hm : m) : Boots h m p s t.mergeVaults := by
  unfold State.mergeVaults
  exact ((a.takeRoot hm).takeRoot hm).each fun _ _ b => .ite ((b.updVlt (by simp) (by simp)).updSl.setPages.refreshOut)
    ((b.updVlt (by simp) (by simp)).updSl.setPages.refreshOut.sendConfig)

/-! ## The vault mounted, its items and changes -/

end Boots

/-- A slot or a ledger entry: what holds no root, no page and no secret. -/
def VItem.entry : VItem → Bool
  | .slot .. | .ledger .. => true
  | _ => false

theorem State.erasingLeft_entry (s : State) (p : Plate) (f : Nat → Bool) : ∀ i ∈ s.erasingLeft p f, i.entry = true := by
  intro i hi
  simp only [State.erasingLeft, List.mem_append, List.mem_map] at hi
  obtain ⟨e, -, rfl⟩ | ⟨e, -, rfl⟩ := hi <;> rfl

namespace Boots

theorem applyEntry {i both q} (a : Boots h m p s t) (hi : VItem.entry i = true) : Boots h m p s (t.applyItem p both q i) := by
  unfold State.applyItem
  split
  · exact a.updVlt (by simp) (by simp)
  · exact a.updVlt (by intro; rfl) (by intro; exact ⟨rfl, rfl, rfl⟩)
  all_goals cases hi

theorem commitNow {l} (a : Boots h m p s t) (hl : ∀ i ∈ l, VItem.entry i = true) : Boots h m p s (t.commitNow p l) := by
  have stamped (q : Nat) : ∀ i ∈ l.map (VItem.stamp q), i.entry = true := by
    intro i hi
    obtain ⟨j, hj, rfl⟩ := List.mem_map.mp hi
    have e := hl j hj
    revert e
    cases j <;> exact id
  have applied {l} {q} (hl : ∀ i ∈ l, VItem.entry i = true) {u : State} (b : Boots h m p s u) :
      Boots h m p s (u.each l fun v i => v.applyItem p false q i) := by
    induction l generalizing u with
    | nil => exact b
    | cons i l ih => exact ih (fun j hj => hl j (List.mem_cons_of_mem _ hj)) (b.applyEntry (hl i List.mem_cons_self))
  exact .ite a ((applied (stamped _) (a.updVlt (by simp) (by simp))).updVlt (by simp) (by simp))

theorem commitLedger {k v} (a : Boots h m p s t) : Boots h m p s (t.commitNow p [.ledger k v]) :=
  a.commitNow (by simp [VItem.entry])
theorem finishErasing {f} (a : Boots h m p s t) : Boots h m p s (t.finishErasing p f) :=
  .ite a (a.commitNow (State.erasingLeft_entry t p f))
theorem mountVault (a : Boots h m p s t) : Boots h m p s (t.mountVault p) := .ite a.finishErasing a
theorem startGroup {g} (a : Boots h m p s t) : Boots h m p s (t.startGroup p g) := a.updNvm (by simp)

/-- A change of a ledger entry draws nothing (R138). -/
theorem changeLedger {k v j x} (a : Boots h m p s t) : Boots h m p s (t.beginChange p [.ledger k v] j x false) := by
  have prepared : t.prepare p [.ledger k v] = t := rfl
  have sent {u : State} {c : Change} (hc : itemDraws c.items = []) (b : Boots h m p s u) :
      Boots h m p s (u.sendChange p c) := by
    unfold State.sendChange
    rw [hc]
    exact b.send
  unfold State.beginChange
  dsimp only
  rw [prepared]
  have entered {f} (hf : ∀ x : Vault, (f x).epoch = x.epoch)
      (hg : ∀ x : Vault, (f x).mounted = x.mounted ∧ (f x).keys = x.keys ∧ (f x).root = x.root) :
      Boots h m p s (t.updVlt p f) := a.updVlt hf hg
  exact .ite (sent rfl (entered (by simp) (by simp)))
    (.ite (startGroup (entered (by simp) (by simp))) (entered (by simp) (by simp)))

/-! ## Rings left by a reset alone (R225, R308) -/

theorem slugLost {q i d by_ k} (a : Boots h m p s t) : Boots h m p s (t.slugLost p q i d by_ k) := by
  unfold State.slugLost State.commitJob
  exact a.updSl.updJob.changeLedger
theorem journalResult {i e d} (a : Boots h m p s t) : Boots h m p s (t.journalResult p i e d).1 := by
  unfold State.journalResult
  dsimp only
  split
  · exact a.commitLedger
  · split
    · split
      · exact a
      · split <;> exact a
    · exact a
theorem resolveOne {q x by_ i v₁ v₂} (a : Boots h m p s t) : Boots h m p s (t.resolveOne p q x by_ i v₁ v₂) := by
  unfold State.resolveOne
  dsimp only
  split
  exacts [.ite a.readUnder.slugLost a.readUnder.journalResult.post, .ite a.readUnder.post a]
theorem issueFetch {q} (a : Boots h m p s t) : Boots h m p s (t.issueFetch p q) := a.each fun _ _ b => .ite b b.issueRead
theorem resolveRing {q w x by_ v} (a : Boots h m p s t) : Boots h m p s (t.resolveRing p q w x by_ v) := by
  have read : Boots h m p s (t.readRecords p q w x) := a.each fun _ _ b => b.readUnder
  unfold State.resolveRing
  dsimp only
  split
  · exact ((read.updRing.each fun _ _ b => .ite b b.resolveOne).updRing).ringFault
  · exact ((read.updRing.each fun _ _ b => .ite b b.resolveOne).updRing).issueFetch
theorem cancelNow {q} (a : Boots h m p s t) : Boots h m p s (t.cancelNow p q) := a.each fun _ _ b => .ite b.fail b
theorem arm {q f} (a : Boots h m p s t) : Boots h m p s (t.arm p q f) := by
  unfold State.arm
  dsimp only
  refine .ite a.updRing (.ite a ?_)
  split
  exacts [.ite a.updRing.cancelNow a, a.updRing.cancelNow]
theorem armKept {i k} (a : Boots h m p s t) : Boots h m p s (t.armKept p i k) := a.updSl.each fun _ _ b => .ite b.arm b
theorem resolveSlice {i w x by_ v} (a : Boots h m p s t) : Boots h m p s (t.resolveSlice p i w x by_ v) :=
  (a.readUnder.each fun _ _ b => .ite b.resolveRing.armKept b).writeProgress
theorem resolveSaved {l} (a : Boots h m p s t) : Boots h m p s (t.resolveSaved p l) := by
  unfold State.resolveSaved
  exact updVlt (.ite (a.each fun _ _ b => b.resolveSlice).resolveRing (a.each fun _ _ b => b.resolveSlice)) (by simp) (by simp)
theorem startServing (a : Boots h m p s t) : Boots h m p s (t.startServing p) :=
  .ite a (.ite a (.ite a (.ite ((a.updPow (by simp)).updPow (by simp)) (a.updPow (by simp)))))

/-! ## The relation to the peer, images and clocks -/

theorem startRejoin (a : Boots h m p s t) : Boots h m p s (t.startRejoin p) :=
  ((a.updPr (by simp)).updSl).updVlt (by simp) (by simp)
theorem startSlices (a : Boots h m p s t) : Boots h m p s (t.startSlices p) := by
  unfold State.startSlices
  exact a.updSl
theorem startRelation {c} (a : Boots h m p s t) (hm : t.up p.peer = true → c = true → m) :
    Boots h m p s (t.startRelation p c) := by
  refine .cond (fun _ => a.updPr (by simp)) fun up => .cond (fun cold => mergeVaults (a.updPr (by simp)) ?_)
    fun _ => .ite (a.updPr (by simp)) (a.updPr (by simp))
  simp only [Bool.not_eq_true, Bool.not_eq_false', Bool.and_eq_true] at up cold
  exact hm up cold.1
theorem bootImages {st} (a : Boots h m p s t) : Boots h m p s (t.bootImages p st) := .ite a.updMgt.updMgt a.updMgt.updMgt
theorem startClocks (a : Boots h m p s t) : Boots h m p s (t.startClocks p) := (a.updPr (by simp)).updMgt
theorem exchange (a : Boots h m p s t) : Boots h m p s (t.exchange p) := a.each fun _ _ b => .ite b.send.send b

end Boots

end Sys2Proof.Machine

/-! PROOFS. Steps 1 to 5 of Table 16.7 (O47). -/

namespace Sys2Proof.Machine

variable {h m : Prop} {s t u : State} {p : Plate}

/-! ## What every part of a start-up carries on -/

/-- What stands between `s` and `t` of the start-up of plate `p`, whatever it reports: its sources and its random service, and
its peer. -/
structure Carries (halts merges : Prop) (p : Plate) (s t : State) : Prop where
  status : ∀ k, hasSrc (s.pl p).flt.status k = true → hasSrc (t.pl p).flt.status k = true
  halted : (s.pl p).rng.st = .halted →
    (t.pl p).rng.st = .halted ∧ (t.pl p).rng.cause = (s.pl p).rng.cause ∧ (t.pl p).rng.pool = (s.pl p).rng.pool
  st     : halts ∨ (t.pl p).rng.st = (s.pl p).rng.st
  far    : (s.pl p.peer).Stays merges (t.pl p.peer)
  beside : (t.margin, t.tapIr, t.pwrgood, t.clkreqLow) = (s.margin, s.tapIr, s.pwrgood, s.clkreqLow)

theorem Boots.carries (a : Boots h m p s t) : Carries h m p s t := ⟨a.own.status, a.own.halted, a.own.st, a.far, a.beside⟩

namespace Carries

theorem trans (a : Carries h m p s t) (b : Carries h m p t u) : Carries h m p s u where
  status := fun k e => b.status k (a.status k e)
  halted := fun e => by
    obtain ⟨i, j, k⟩ := a.halted e
    obtain ⟨i', j', k'⟩ := b.halted i
    exact ⟨i', j'.trans j, k'.trans k⟩
  st     := a.st.elim .inl fun i => b.st.imp_right fun j => j.trans i
  far    := a.far.trans b.far
  beside := b.beside.trans a.beside

theorem mono {h' m' : Prop} (a : Carries h m p s t) (hh : h → h') (hm : m → m') : Carries h' m' p s t :=
  ⟨a.status, a.halted, a.st.imp_left hh, ⟨a.far.view, a.far.random.imp_left hm⟩, a.beside⟩

/-- A step of the plate's own that touches its vault, NVM, tamper monitor and phase. -/
theorem of_frame (f : SameBut [.pow p, .tmp p, .vlt p, .nvm p] s t) : Carries h m p s t := by
  have flt : (t.pl p).flt = (s.pl p).flt := f (.flt p) (by simp)
  have rng : (t.pl p).rng = (s.pl p).rng := f (.rng p) (by simp)
  have powF : (t.pl p.peer).pow = (s.pl p.peer).pow := f (.pow p.peer) (by simp)
  have fltF : (t.pl p.peer).flt = (s.pl p.peer).flt := f (.flt p.peer) (by simp)
  have mgtF : (t.pl p.peer).mgt = (s.pl p.peer).mgt := f (.mgt p.peer) (by simp)
  have prF : (t.pl p.peer).pr = (s.pl p.peer).pr := f (.pr p.peer) (by simp)
  have margin : t.margin = s.margin := f .margin (by simp)
  have tapIr : t.tapIr = s.tapIr := f .tapIr (by simp)
  have pwrgood : t.pwrgood = s.pwrgood := f .pwrgood (by simp)
  have clkreq : t.clkreqLow = s.clkreqLow := f .clkreqLow (by simp)
  exact ⟨fun k => by rw [flt]; exact id, fun e => by rw [rng]; exact ⟨e, rfl, rfl⟩, .inr (by rw [rng]),
    .of_eq (by simp only [PlateState.farView, powF, fltF, mgtF, prF]) (f (.rng p.peer) (by simp)) (f (.tmp p.peer) (by simp)),
    by rw [margin, tapIr, pwrgood, clkreq]⟩

end Carries

/-! ## The chase and the volatile epoch -/

theorem State.chaseDecoded_congr (e : (t.pl p).rootView = (s.pl p).rootView) (c : ChaseReading) :
    t.chaseDecoded p c = s.chaseDecoded p c := by
  simp only [PlateState.rootView, Prod.mk.injEq] at e
  obtain ⟨-, -, -, helper⟩ := e
  simp only [State.chaseDecoded, helper]

theorem State.chaseCorrected_congr (e : (t.pl p).rootView = (s.pl p).rootView) (c : ChaseReading) :
    t.chaseCorrected p c = s.chaseCorrected p c := by rw [chaseCorrected, chaseCorrected, chaseDecoded_congr e]

theorem State.rootOpens_congr (e : (t.pl p).rootView = (s.pl p).rootView) (c : ChaseReading) :
    t.rootOpens p c = s.rootOpens p c := by
  have root : (t.pl p).vlt.root = (s.pl p).vlt.root := congrArg (fun v => v.2.2.1) e
  rw [rootOpens, rootOpens, rootOpened, rootOpened, sbkFrom, sbkFrom, chaseDecoded_congr e, root]

/-- Steps 2 and 3 of Table 16.7 with the epoch of step 4. -/
def State.opened (s : State) (p : Plate) (c : ChaseReading) : State := (s.measureChase p c).raiseEpoch p

/-- The chase measured on plate `p` (R281, R288). -/
structure Measured (s t : State) (p : Plate) (c : ChaseReading) : Prop where
  frame : SameBut [.tmp p, .vlt p, .nvm p] s t
  view  : (t.pl p).bootView = { (s.pl p).bootView with armed := true, corrected := s.chaseCorrected p c }
  root  : (t.pl p).vlt.mounted = s.rootOpens p c ∧ (t.pl p).vlt.keys = s.rootOpens p c

theorem State.measureChase_spec (s : State) (p : Plate) (c : ChaseReading) : Measured s (s.measureChase p c) p c := by
  have set : Measured s ((s.updTmp p fun t => { t with armed := true, corrected := s.chaseCorrected p c }).updVlt p fun v =>
      { v with
        keys := s.rootOpens p c
        kr := s.registers p c
        mounted := s.rootOpens p c, testRoot := s.rootOpens p c && s.lifecycle p == 0x5A }) p c :=
    ⟨((State.updTmp_frame s p _).mono (by simp)).trans ((State.updVlt_frame _ p _).mono (by simp)),
      by simp [PlateState.bootView], by simp⟩
  have grouped {u : State} {g : Group} (k : Measured s u p c) : Measured s (u.startGroup p g) p c :=
    ⟨k.frame.trans ((State.startGroup_frame u p g).mono (by simp)),
      by rw [← k.view]; simp [PlateState.bootView, State.startGroup], by simpa [State.startGroup] using k.root⟩
  unfold State.measureChase
  dsimp only
  split
  · split
    · exact grouped set
    · exact set
  · exact set

/-- The epoch after a reset, which rises short of NO_WRITE (R91, R341). -/
def PlateState.nextEpoch (x : PlateState) : Nat := x.vlt.epoch + if x.nvm.noWrite then 0 else 1

theorem State.raiseEpoch_frame (s : State) (p : Plate) : SameBut [.tmp p, .vlt p, .nvm p] s (s.raiseEpoch p) :=
  .ite ((State.updVlt_frame s p _).mono (by simp))
    (((State.updVlt_frame s p _).mono (by simp)).trans ((State.startGroup_frame _ p _).mono (by simp)))

theorem State.raiseEpoch_views (s : State) (p : Plate) :
    ((s.raiseEpoch p).pl p).bootView = { (s.pl p).bootView with epoch := (s.pl p).nextEpoch } ∧
      ((s.raiseEpoch p).pl p).rootView = (s.pl p).rootView := by
  unfold State.raiseEpoch PlateState.nextEpoch
  split
  · exact ⟨by simp [PlateState.bootView], by simp [PlateState.rootView]⟩
  · exact ⟨by simp [PlateState.bootView, State.stepEpoch, State.startGroup],
      by simp [PlateState.rootView, State.stepEpoch, State.startGroup]⟩

/-- The chase measured and the epoch risen on plate `p`. -/
structure Opened (s t : State) (p : Plate) (c : ChaseReading) : Prop where
  frame : SameBut [.tmp p, .vlt p, .nvm p] s t
  view  : (t.pl p).bootView =
    { (s.pl p).bootView with armed := true, corrected := s.chaseCorrected p c, epoch := (s.pl p).nextEpoch }
  root  : (t.pl p).vlt.mounted = s.rootOpens p c ∧ (t.pl p).vlt.keys = s.rootOpens p c

theorem State.opened_spec (s : State) (p : Plate) (c : ChaseReading) : Opened s (s.opened p c) p c := by
  obtain ⟨frame, view, root⟩ := s.measureChase_spec p c
  obtain ⟨risen, same⟩ := (s.measureChase p c).raiseEpoch_views p
  have times : ((s.measureChase p c).pl p).nvm.times = (s.pl p).nvm.times := congrArg BootView.times view
  have epoch : ((s.measureChase p c).pl p).vlt.epoch = (s.pl p).vlt.epoch := congrArg BootView.epoch view
  have next : ((s.measureChase p c).pl p).nextEpoch = (s.pl p).nextEpoch := by
    rw [PlateState.nextEpoch, PlateState.nextEpoch, epoch, Nvm.noWrite_of_times times]
  simp only [PlateState.rootView, Prod.mk.injEq] at same
  obtain ⟨mounted, keys, -⟩ := same
  exact ⟨frame.trans (State.raiseEpoch_frame _ p), by rw [State.opened, risen, next, view],
    mounted.trans root.1, keys.trans root.2⟩

/-! ## Steps 4 and 5, up to the use of the token -/

/-- The vault and the relation to the peer (step 4). -/
def State.related (s : State) (p : Plate) (cold : Bool) : State :=
  if s.rejoins p then s.startRejoin p else ((s.startRelation p cold).mountVault p).startSlices p

theorem Boots.related {cold} (a : Boots h m p s t) (hm : t.up p.peer = true → cold = true → m) :
    Boots h m p s (t.related p cold) := .ite a.startRejoin (a.startRelation hm).mountVault.startSlices

/-- The images of step 5. -/
def State.imaged (s : State) (p : Plate) : State :=
  (s.updMgt p fun m => { m with memKey := (s.pl p).vlt.kr.lpddr }).bootImages p .running

theorem Boots.imaged (a : Boots h m p s t) : Boots h m p s (t.imaged p) := a.updMgt.bootImages

/-- The plate runs (step 5). -/
def State.running (s : State) (p : Plate) : State := s.updPow p fun w => { w with phase := .running, step := 5 }

/-- Clocks, reports and FAULT_OUT# of a plate that runs. -/
def State.clocked (s : State) (p : Plate) : State :=
  (((s.updTmp p fun t => { t with alarmOn := false }).startClocks p).exchange p).refreshOut p

theorem Boots.clocked (a : Boots h m p s t) : Boots h m p s (t.clocked p) :=
  (a.updTmp (by simp)).startClocks.exchange.refreshOut

/-- A start-up before its peer uses the token. -/
def State.booted (s : State) (p : Plate) (c : ChaseReading) (x : RandomStart) (cold : Bool) : State :=
  ((((((s.startRandom p x).drawBoot p).opened p c).related p cold).imaged p).running p).clocked p

/-- What the collector is told of a random service that halted in its start-up (R204). -/
def State.told (s : State) (p : Plate) : State := if (s.pl p).rng.st == .halted then s.raise p 27 else s

theorem State.startCore_eq (s : State) (p : Plate) (c : ChaseReading) (x : RandomStart) (cold : Bool) :
    s.startCore p c x cold = if s.needsRoot p && !s.rootOpens p c then
      (((s.booted p c x cold).useToken p.peer).told p).tamper p 36 p.num 0
    else ((s.booted p c x cold).useToken p.peer).told p := rfl

/-- Random start-up moves nothing else that a start-up reports. -/
theorem State.startRandom_boots (s : State) (p : Plate) (x : RandomStart) : Boots True False p s (s.startRandom p x) :=
  have tested : Boots True False p s (if x.kat then s else s.entropyHalt p 0 5) :=
    .ite (.refl s) ((Boots.refl s).entropyHalt trivial)
  tested.startRandom trivial

theorem State.running_views (s : State) (p : Plate) :
    ((s.running p).pl p).bootView = { (s.pl p).bootView with phase := .running } ∧
      ((s.running p).pl p).rootView = (s.pl p).rootView := by
  cases p <;> exact ⟨rfl, rfl⟩

/-- What steps 1 to 5 come to, before the peer uses the token. -/
structure Booted (s t : State) (p : Plate) (c : ChaseReading) (x : RandomStart) (cold : Bool) : Prop where
  view    : (t.pl p).bootView = { (s.pl p).bootView with
    phase := .running, armed := true, corrected := s.chaseCorrected p c, epoch := (s.pl p).nextEpoch }
  opens   : s.rootOpens p c = true ∨ ¬(s.up p.peer = true ∧ cold = true) →
    (t.pl p).vlt.mounted = s.rootOpens p c ∧ (t.pl p).vlt.keys = s.rootOpens p c
  carries : Carries False (s.up p.peer = true ∧ cold = true) p (s.startRandom p x) t

theorem State.booted_spec (s : State) (p : Plate) (c : ChaseReading) (x : RandomStart) (cold : Bool) :
    Booted s (s.booted p c x cold) p c x cold := by
  have random := s.startRandom_boots p x
  have drawn : Boots False False p (s.startRandom p x) ((s.startRandom p x).drawBoot p) := (Boots.refl _).drawBoot
  unfold State.booted
  generalize ha : s.startRandom p x = a at random drawn ⊢
  generalize a.drawBoot p = b at drawn ⊢
  have opened := b.opened_spec p c
  generalize b.opened p c = d at opened ⊢
  have until_ : Carries False False p a d := drawn.carries.trans (.of_frame (opened.frame.mono (by simp)))
  have up : d.up p.peer = s.up p.peer := by
    have ha := congrArg Prod.fst random.far.view
    have hd := congrArg Prod.fst until_.far.view
    rw [State.up, State.up]
    exact congrArg (· == Phase.running) (hd.trans ha)
  have related : Boots False (s.up p.peer = true ∧ cold = true) p d ((d.related p cold).imaged p) :=
    ((Boots.refl d).related fun e k => ⟨up ▸ e, k⟩).imaged
  generalize (d.related p cold).imaged p = e at related ⊢
  obtain ⟨runView, runRoot⟩ := e.running_views p
  have ran : Carries False (s.up p.peer = true ∧ cold = true) p e (e.running p) :=
    .of_frame ((State.updPow_frame e p _).mono (by simp))
  have clocked : Boots False False p (e.running p) ((e.running p).clocked p) := (Boots.refl _).clocked
  generalize (e.running p).clocked p = t at clocked ⊢
  have corrected : b.chaseCorrected p c = s.chaseCorrected p c :=
    (State.chaseCorrected_congr (drawn.own.root.resolve_left id) c).trans
      (State.chaseCorrected_congr (random.own.root.resolve_left id) c)
  have opens : b.rootOpens p c = s.rootOpens p c :=
    (State.rootOpens_congr (drawn.own.root.resolve_left id) c).trans (State.rootOpens_congr (random.own.root.resolve_left id) c)
  have next : (b.pl p).nextEpoch = (s.pl p).nextEpoch := by
    have view := drawn.own.view.trans random.own.view
    have epoch : (b.pl p).vlt.epoch = (s.pl p).vlt.epoch := congrArg BootView.epoch view
    have times : (b.pl p).nvm.times = (s.pl p).nvm.times := congrArg BootView.times view
    rw [PlateState.nextEpoch, PlateState.nextEpoch, epoch, Nvm.noWrite_of_times times]
  refine ⟨?_, fun hr => ?_, ?_⟩
  · rw [clocked.own.view, runView, related.own.view, opened.view, corrected, next, drawn.own.view, random.own.view]
  · have late : (t.pl p).rootView = (e.pl p).rootView := (clocked.own.root.resolve_left id).trans runRoot
    have mounted : (t.pl p).vlt.mounted = (e.pl p).vlt.mounted := congrArg (fun v => v.1) late
    have keys : (t.pl p).vlt.keys = (e.pl p).vlt.keys := congrArg (fun v => v.2.1) late
    obtain ⟨dm, dk⟩ := opened.root
    rw [opens] at dm dk
    rw [mounted, keys]
    obtain hr | hr := hr
    · rw [hr] at dm dk ⊢
      exact related.own.mount dm dk
    · have same := related.own.root.resolve_left hr
      exact ⟨(congrArg (fun v => v.1) same).trans dm, (congrArg (fun v => v.2.1) same).trans dk⟩
  · rw [ha]
    exact (until_.mono id False.elim).trans (related.carries.trans (ran.trans (clocked.carries.mono id False.elim)))

/-! ## The token, the collector and a lost root -/

/-- What a start-up of plate `p` in state `s` comes to. -/
structure Started (s t : State) (p : Plate) (c : ChaseReading) (x : RandomStart) (cold : Bool) : Prop where
  view   : ∃ k, (t.pl p).bootView = { (s.pl p).bootView with
    phase := .running, armed := true, corrected := s.chaseCorrected p c, epoch := (s.pl p).nextEpoch, makeready := k }
  opens  : s.rootOpens p c = true ∨ ¬(s.up p.peer = true ∧ cold = true) →
    (t.pl p).vlt.mounted = s.rootOpens p c ∧ (t.pl p).vlt.keys = s.rootOpens p c
  random : RandomStarted s s t p x
  far    : s.needsToken p.peer = false → (s.pl p.peer).Stays (s.up p.peer = true ∧ cold = true) (t.pl p.peer)
  beside : (t.margin, t.tapIr, t.pwrgood, t.clkreqLow) = (s.margin, s.tapIr, s.pwrgood, s.clkreqLow)

/-- The parts of the plate that the token's use by its peer leaves alone. -/
theorem State.useToken_views (s : State) (p : Plate) :
    (∃ k, ((s.useToken p.peer).pl p).bootView = { (s.pl p).bootView with makeready := k }) ∧
      ((s.useToken p.peer).pl p).rootView = (s.pl p).rootView ∧ ((s.useToken p.peer).pl p).rng = (s.pl p).rng := by
  have f : SameBut (tokenParts p.peer) s (s.useToken p.peer) := s.useToken_frame p.peer
  have pow : ((s.useToken p.peer).pl p).pow = (s.pl p).pow := f (.pow p) (by simp [tokenParts, plateParts])
  have nvm : ((s.useToken p.peer).pl p).nvm = (s.pl p).nvm := f (.nvm p) (by simp [tokenParts, plateParts])
  have tmp : ((s.useToken p.peer).pl p).tmp = (s.pl p).tmp := f (.tmp p) (by simp [tokenParts, plateParts])
  have vlt : ((s.useToken p.peer).pl p).vlt = (s.pl p).vlt := f (.vlt p) (by simp [tokenParts, plateParts])
  exact ⟨⟨_, by simp only [PlateState.bootView, pow, nvm, tmp, vlt]; rfl⟩, by simp only [PlateState.rootView, vlt, tmp],
    f (.rng p) (by simp [tokenParts, plateParts])⟩

theorem State.useToken_beside (s : State) (p : Plate) :
    ((s.useToken p).margin, (s.useToken p).tapIr, (s.useToken p).pwrgood, (s.useToken p).clkreqLow) =
      (s.margin, s.tapIr, s.pwrgood, s.clkreqLow) := by
  have f : SameBut (tokenParts p) s (s.useToken p) := s.useToken_frame p
  have margin : (s.useToken p).margin = s.margin := f .margin (by simp [tokenParts, plateParts])
  have tapIr : (s.useToken p).tapIr = s.tapIr := f .tapIr (by simp [tokenParts, plateParts])
  have pwrgood : (s.useToken p).pwrgood = s.pwrgood := f .pwrgood (by simp [tokenParts, plateParts])
  have clkreq : (s.useToken p).clkreqLow = s.clkreqLow := f .clkreqLow (by simp [tokenParts, plateParts])
  rw [margin, tapIr, pwrgood, clkreq]

/-- Whether the peer waits for the token turns on what a start-up leaves alone. -/
theorem State.needsToken_congr (hf : (t.pl p.peer).farView = (s.pl p.peer).farView)
    (hm : (t.pl p).pr.makeready = (s.pl p).pr.makeready) : t.needsToken p.peer = s.needsToken p.peer := by
  simp only [PlateState.farView, Prod.mk.injEq] at hf
  obtain ⟨-, flt, -, seqSt⟩ := hf
  simp only [State.needsToken, State.makereadyReset, Plate.peer_peer, flt, seqSt, hm]

theorem State.told_boots (s : State) (p : Plate) : Boots False False p s (s.told p) := .ite (Boots.refl s).raise (.refl s)

/-- A halt of random service shows in FLT_STATUS of a plate that runs (R204). -/
theorem State.told_status (s : State) (p : Plate) (up : s.up p = true) (hr : (s.pl p).rng.st = .halted) :
    hasSrc ((s.told p).pl p).flt.status 27 = true := by
  have class27 : (isClassS 27 || isClassC 27 || isClassT 27) = true := by decide
  have bit27 : (srcBit 27).getLsbD 27 = true := by decide
  rw [State.told, hr, if_pos (by decide), State.raise, if_pos up, State.latch_status, if_pos class27]
  simp [hasSrc, bit27]

theorem State.startCore_spec (s : State) (p : Plate) (c : ChaseReading) (x : RandomStart) (cold : Bool) :
    Started s (s.startCore p c x cold) p c x cold := by
  have booted := s.booted_spec p c x cold
  have random := s.startRandom_boots p x
  rw [State.startCore_eq]
  generalize s.booted p c x cold = b at booted ⊢
  obtain ⟨⟨k, view⟩, root, rng⟩ := b.useToken_views p
  have beside := b.useToken_beside p.peer
  have idle (hn : s.needsToken p.peer = false) : b.useToken p.peer = b :=
    State.useToken_idle ((State.needsToken_congr (booted.carries.far.view.trans random.far.view)
      (congrArg BootView.makeready booted.view)).trans hn)
  generalize b.useToken p.peer = d at view root rng beside idle ⊢
  have up : d.up p = true := by
    have phase : (d.pl p).pow.phase = .running := (congrArg BootView.phase view).trans (congrArg BootView.phase booted.view)
    rw [State.up, phase]
    rfl
  have told := d.told_boots p
  have shown := d.told_status p up
  generalize d.told p = e at told shown ⊢
  have last : Boots False False p e (if s.needsRoot p && !s.rootOpens p c then e.tamper p 36 p.num 0 else e) :=
    .ite (Boots.refl e).tamper (.refl e)
  generalize (if s.needsRoot p && !s.rootOpens p c then e.tamper p 36 p.num 0 else e) = t at last ⊢
  have tail := told.trans last
  have ended : (t.pl p).rng.st = (d.pl p).rng.st := tail.own.st.resolve_left id
  have rootView : (t.pl p).rootView = (b.pl p).rootView := (tail.own.root.resolve_left id).trans root
  have mounted : (t.pl p).vlt.mounted = (b.pl p).vlt.mounted := congrArg (fun v => v.1) rootView
  have keys : (t.pl p).vlt.keys = (b.pl p).vlt.keys := congrArg (fun v => v.2.1) rootView
  refine ⟨⟨k, ?_⟩, fun hr => ?_, ⟨?_, fun hr => ?_, fun hr hk => ?_⟩, fun hn => ?_, ?_⟩
  · rw [tail.own.view, view, booted.view]
  · rw [mounted, keys]
    exact booted.opens hr
  · rw [ended, rng]
    exact booted.carries.st.resolve_left id
  · exact last.own.status 27 (shown (ended.symm.trans hr))
  · obtain ⟨a₁, a₂, a₃⟩ := s.startRandom_kat p x hr hk
    obtain ⟨b₁, b₂, b₃⟩ := booted.carries.halted a₁
    rw [← rng] at b₁ b₂ b₃
    obtain ⟨c₁, c₂, c₃⟩ := tail.own.halted b₁
    exact ⟨c₁, c₂.trans (b₂.trans a₂), c₃.trans (b₃.trans a₃)⟩
  · rw [idle hn] at tail
    exact (random.carries.mono id False.elim).far.trans (booted.carries.far.trans (tail.carries.mono id False.elim).far)
  · exact tail.beside.trans (beside.trans (booted.carries.beside.trans random.beside))

end Sys2Proof.Machine

/-! PROOFS. POWER_UP, and the settling of O47. -/

namespace Sys2Proof.Machine

variable {s t u : State} {p : Plate}

/-! ## From power-off (R339, R354, R361) -/

theorem Nvm.powerCycle_pcycle (n : Nvm) (now : Nat) : (n.powerCycle now).pcycle = n.pcycle + 1 :=
  (apply_ite Nvm.pcycle _ _ _).trans (ite_self _)

theorem Nvm.powerCycle_optime (n : Nvm) (now : Nat) : (n.powerCycle now).optime = n.stored + if n.clean then 1 else 60000 :=
  (apply_ite Nvm.optime _ _ _).trans (ite_self _)

theorem Nvm.powerCycle_state (n : Nvm) (now : Nat) : (n.powerCycle now).state = n.state :=
  (apply_ite Nvm.state _ _ _).trans (ite_self _)

theorem State.risePwrgood_pl (s : State) (p : Plate) : ∃ us token, s.risePwrgood.pl p =
    { s.pl p with nvm := { (s.pl p).nvm with optimeUs := us }, pr := { (s.pl p).pr with token := token } } := by
  unfold State.risePwrgood
  split
  · exact ⟨_, _, rfl⟩
  · cases p <;> exact ⟨_, _, rfl⟩

/-- PWRGOOD is asserted, and CLKREQ# is held low from its assertion (R354). -/
theorem State.risePwrgood_lines (s : State) : s.risePwrgood.pwrgood = true ∧
    (s.pwrgood = false → s.risePwrgood.clkreqLow = true) ∧ s.risePwrgood.margin = s.margin ∧ s.risePwrgood.tapIr = s.tapIr := by
  unfold State.risePwrgood
  split
  · next h => exact ⟨h, fun k => absurd (k.symm.trans h) Bool.false_ne_true, rfl, rfl⟩
  · exact ⟨rfl, fun _ => rfl, rfl, rfl⟩

/-- What the start of plate `p` from power-off leaves and what it sets. -/
structure FromOff (s t : State) (p : Plate) : Prop where
  perst  : (t.pl p).pow.perst = (s.pl p).pow.perst
  ready  : (t.pl p).pow.ready = (s.pl p).pow.ready
  pcycle : (t.pl p).nvm.pcycle = (s.pl p).nvm.pcycle + 1
  optime : (t.pl p).nvm.optime = (s.pl p).nvm.stored + if (s.pl p).nvm.clean then 1 else 60000
  wear   : (t.pl p).nvm.noWrite = (s.pl p).nvm.noWrite
  vlt    : (t.pl p).vlt = (s.pl p).vlt
  rng    : (t.pl p).rng = (s.pl p).rng
  helper : (t.pl p).tmp.helper = (s.pl p).tmp.helper
  peer   : (s.pl p.peer).Stays False (t.pl p.peer)
  next   : (t.pl p).pr.makeready = (s.pl p).pr.makeready
  lines  : t.pwrgood = true ∧ (s.pwrgood = false → t.clkreqLow = true) ∧ t.margin = s.margin ∧ t.tapIr = s.tapIr

theorem State.fromOff_spec (s : State) (p : Plate) : FromOff s (s.fromOff p) p := by
  obtain ⟨us, token, own⟩ := s.risePwrgood_pl p
  obtain ⟨us', token', peer⟩ := s.risePwrgood_pl p.peer
  have lines := s.risePwrgood_lines
  unfold State.fromOff
  generalize s.risePwrgood = a at own peer lines ⊢
  constructor
  case peer =>
    rw [State.updTmp_peer, State.updNvm_peer, State.updPow_peer, peer]
    exact .of_eq rfl rfl rfl
  case pcycle => simp [own, Nvm.powerCycle_pcycle]
  case optime => simp [own, Nvm.powerCycle_optime]
  case wear => simp [own, Nvm.noWrite, Nvm.powerCycle_state]
  case lines => simpa using lines
  all_goals simp [own]

/-! ## POWER_UP -/

theorem exec_powerUp (p : Plate) (c : ChaseReading) (x : RandomStart) (y : LinkShape) (l : List RingScan) (s : State) :
    exec (.powerUp p ⟨c, x, y⟩ l) s = execPowerUp p ⟨c, x, y⟩ l s := rfl

/-- What no start-up touches, from what it leaves of the peer and beside the plates. -/
theorem outsideStart_same (hm : t.margin = s.margin) (hi : t.tapIr = s.tapIr) (hc : t.clock = s.clock)
    (hp : t.pending = s.pending) {merges : Prop} (hu : s.up p.peer = false → ¬merges)
    (hf : s.needsToken p.peer = false → (s.pl p.peer).Stays merges (t.pl p.peer)) : ∀ z ∈ outsideStart s p, Same s t z := by
  have beside : ∀ z ∈ [Part.margin, .tapIr, .clock, .pending], Same s t z := by simp [Same, hm, hi, hc, hp]
  intro z hz
  rw [outsideStart, List.mem_append] at hz
  obtain hz | hz := hz
  · exact beside z hz
  cases hn : s.needsToken p.peer with
  | true => simp [hn] at hz
  | false =>
    obtain ⟨view, random⟩ := hf hn
    simp only [PlateState.farView, Prod.mk.injEq] at view
    obtain ⟨-, flt, mgt, -⟩ := view
    rw [hn, if_neg Bool.false_ne_true, List.mem_append] at hz
    obtain hz | hz := hz
    · simp only [List.mem_cons, List.not_mem_nil, or_false] at hz
      obtain rfl | rfl := hz
      exacts [flt, mgt]
    · cases up : s.up p.peer with
      | true => simp [up] at hz
      | false =>
        obtain ⟨rng, tmp⟩ := random.resolve_left (hu up)
        simp only [up, Bool.false_eq_true, if_false, List.mem_cons, List.not_mem_nil, or_false] at hz
        obtain rfl | rfl := hz
        exacts [rng, tmp]

/-- A start-up from power-off with PERST# asserted runs steps 1 to 5 (R361). -/
theorem execPowerUp_off (c : ChaseReading) (x : RandomStart) (y : LinkShape) (l : List RingScan)
    (hph : (s.pl p).pow.phase = .off) (hperst : (s.pl p).pow.perst = true) :
    execPowerUp p ⟨c, x, y⟩ l s = .next ((s.fromOff p).startCore p c x true) := by
  obtain ⟨k, view⟩ := ((s.fromOff p).startCore_spec p c x true).view
  have perst : (((s.fromOff p).startCore p c x true).pl p).pow.perst = true :=
    (congrArg BootView.perst view).trans ((s.fromOff_spec p).perst.trans hperst)
  have cold : ((s.pl p).pow.phase == Phase.off) = true := by rw [hph]; rfl
  simp [execPowerUp, cold, perst]

/-- A start-up after a reset runs on through the link's start (R361, R362). -/
theorem execPowerUp_reset (c : ChaseReading) (x : RandomStart) (y : LinkShape) (l : List RingScan)
    (hph : (s.pl p).pow.phase = .reset) (hs : s.mayStart p = true) :
    execPowerUp p ⟨c, x, y⟩ l s = .next ((s.startCore p c x false).bringUp p y l) := by
  obtain ⟨k, view⟩ := (s.startCore_spec p c x false).view
  have released : (s.pl p).pow.perst = false := by
    simp only [State.mayStart, Bool.and_eq_true, Bool.not_eq_true'] at hs
    exact hs.2
  have perst : ((s.startCore p c x false).pl p).pow.perst = false := (congrArg BootView.perst view).trans released
  have cold : ((s.pl p).pow.phase == Phase.off) = false := by rw [hph]; rfl
  simp [execPowerUp, cold, hs, perst]

/-- Steps 6 to 9 after the link is up. -/
theorem State.bringUp_boots (s : State) (p : Plate) (y : LinkShape) (l : List RingScan) :
    Boots False False p ((s.linkStart p y).updPow p fun w => { w with
      ready := true, step := 8, startMs := min 65535 ((s.clock - (s.pl p).pow.bootAt) / 1000) }) (s.bringUp p y l) :=
  (Boots.refl _).refreshOut.record.resolveSaved.startServing

/-- POWER_UP from power-off, with PERST# asserted. -/
theorem powerUp_off (p : Plate) (c : ChaseReading) (x : RandomStart) (y : LinkShape) (l : List RingScan) (s : State)
    (hph : (s.pl p).pow.phase = .off) (hperst : (s.pl p).pow.perst = true) :
    ∃ t, exec (.powerUp p ⟨c, x, y⟩ l) s = .next t ∧ t.pwrgood = true ∧ (s.pwrgood = false → t.clkreqLow = true) ∧
      (t.pl p).pow.phase = .running ∧ (t.pl p).pow.ready = (s.pl p).pow.ready ∧
      (t.pl p).nvm.pcycle = (s.pl p).nvm.pcycle + 1 ∧
      (t.pl p).nvm.optime = (s.pl p).nvm.stored + (if (s.pl p).nvm.clean then 1 else 60000) ∧
      RandomStarted (s.fromOff p) s t p x ∧ (t.pl p).tmp.armed = true ∧ (t.pl p).tmp.corrected = s.chaseCorrected p c ∧
      (s.rootOpens p c = true ∨ s.up p.peer = false →
        (t.pl p).vlt.mounted = s.rootOpens p c ∧ (t.pl p).vlt.keys = s.rootOpens p c) ∧
      (t.pl p).vlt.epoch = (s.pl p).vlt.epoch + (if (s.pl p).nvm.noWrite then 0 else 1) ∧ s.out <+: t.out ∧
      (∀ z ∈ outsideStart s p, Same s t z) := by
  have run := execPowerUp_off (s := s) c x y l hph hperst
  obtain ⟨t, ht, kept⟩ := execPowerUp_steps (p := p) (chase := ⟨c, x, y⟩) (scans := l) (Keeps.refl s)
  obtain rfl : (s.fromOff p).startCore p c x true = t := Host.Outcome.next.inj (run.symm.trans ht)
  have off := s.fromOff_spec p
  have started := (s.fromOff p).startCore_spec p c x true
  generalize (s.fromOff p).startCore p c x true = t at ht kept started
  generalize hr : s.fromOff p = r at off started
  obtain ⟨k, view⟩ := started.view
  obtain ⟨st, shown, failed⟩ := started.random
  obtain ⟨pwrgood, clkreq, margin, tapIr⟩ := off.lines
  have beside := started.beside
  simp only [Prod.mk.injEq] at beside
  obtain ⟨marginT, tapIrT, pwrgoodT, clkreqT⟩ := beside
  have times : (t.pl p).nvm.times = (r.pl p).nvm.times := congrArg BootView.times view
  have root : (r.pl p).rootView = (s.pl p).rootView := by simp [PlateState.rootView, off.vlt, off.helper]
  have opens : r.rootOpens p c = s.rootOpens p c := State.rootOpens_congr root c
  have up : r.up p.peer = s.up p.peer := congrArg (· == Phase.running) (congrArg Prod.fst off.peer.view)
  have needs : r.needsToken p.peer = s.needsToken p.peer := State.needsToken_congr off.peer.view off.next
  simp only [Nvm.times, Prod.mk.injEq] at times
  obtain ⟨pcycle, optime, -⟩ := times
  refine ⟨t, ht, pwrgoodT.trans pwrgood, fun h => clkreqT.trans (clkreq h), congrArg BootView.phase view,
    (congrArg BootView.ready view).trans off.ready, pcycle.trans off.pcycle, optime.trans off.optime, ⟨st, shown, fun h =>
    failed (by rwa [off.rng])⟩, congrArg BootView.armed view, ?_, fun h => ?_, ?_, kept.out, ?_⟩
  · exact (congrArg BootView.corrected view).trans (State.chaseCorrected_congr root c)
  · rw [← opens]
    exact started.opens (h.imp opens.trans fun h k => by rw [up, h] at k; exact Bool.false_ne_true k.1)
  · exact (congrArg BootView.epoch view).trans (by simp only [PlateState.nextEpoch, off.vlt, off.wear])
  · refine outsideStart_same (marginT.trans margin) (tapIrT.trans tapIr) kept.clock kept.pending (fun h k => ?_) fun h =>
      .trans ⟨off.peer.view, .inr (off.peer.random.resolve_left id)⟩ (started.far (needs.trans h))
    rw [up, h] at k
    exact Bool.false_ne_true k.1

/-- POWER_UP after a reset. -/
theorem powerUp_reset (p : Plate) (c : ChaseReading) (x : RandomStart) (y : LinkShape) (l : List RingScan) (s : State)
    (hph : (s.pl p).pow.phase = .reset) (hs : s.mayStart p = true) :
    ∃ t, exec (.powerUp p ⟨c, x, y⟩ l) s = .next t ∧ (t.pl p).pow.phase = .running ∧ (t.pl p).pow.ready = true ∧
      (t.pl p).pow.linkUp = true ∧ (t.pl p).pow.lanes = y.lanes ∧ (t.pl p).pow.gen = y.gen ∧
      (t.pl p).nvm.pcycle = (s.pl p).nvm.pcycle ∧ RandomStarted s s t p x ∧
      (t.pl p).vlt.mounted = s.rootOpens p c ∧ (t.pl p).vlt.keys = s.rootOpens p c ∧ (t.pl p).vlt.savedWin = [] ∧
      s.out <+: t.out ∧ (∀ z ∈ outsideStart s p, Same s t z) := by
  have run := execPowerUp_reset (s := s) (p := p) c x y l hph hs
  obtain ⟨t, ht, kept⟩ := execPowerUp_steps (p := p) (chase := ⟨c, x, y⟩) (scans := l) (Keeps.refl s)
  obtain rfl : (s.startCore p c x false).bringUp p y l = t := Host.Outcome.next.inj (run.symm.trans ht)
  have started := s.startCore_spec p c x false
  generalize s.startCore p c x false = a at ht kept started ⊢
  have up := a.bringUp_boots p y l
  obtain ⟨steady, saved⟩ := a.bringUp_spec p y l
  generalize a.bringUp p y l = t at ht kept up steady saved ⊢
  generalize min 65535 ((a.clock - (a.pl p).pow.bootAt) / 1000) = ms at up steady
  have linked : Carries False False p a ((a.linkStart p y).updPow p fun w => { w with
      ready := true, step := 8, startMs := ms }) :=
    .of_frame (((State.updPow_frame a p _).mono (by simp)).trans ((State.updPow_frame _ p _).mono (by simp)))
  have carries := linked.trans up.carries
  obtain ⟨k, view⟩ := started.view
  obtain ⟨_, _, _, _, _, _, pow⟩ := steady.pow
  simp only [State.updPow_self, State.linkStart] at pow
  have times : (t.pl p).nvm.times = (s.pl p).nvm.times := (congrArg BootView.times up.own.view).trans
    ((congrArg Nvm.times (by simp [State.linkStart])).trans (congrArg BootView.times view))
  have root : (t.pl p).rootView = (a.pl p).rootView :=
    (up.own.root.resolve_left id).trans (by simp [PlateState.rootView, State.linkStart])
  obtain ⟨mounted, keys⟩ := started.opens (.inr fun e => Bool.false_ne_true e.2)
  obtain ⟨st, shown, failed⟩ := started.random
  have ended : (t.pl p).rng.st = (a.pl p).rng.st := carries.st.resolve_left id
  have beside := carries.beside.trans started.beside
  simp only [Prod.mk.injEq] at beside
  obtain ⟨margin, tapIr, -⟩ := beside
  refine ⟨t, ht, ?_, ?_, ?_, ?_, ?_, congrArg Prod.fst times, ⟨ended.trans st, fun h => ?_, fun h e => ?_⟩,
    (congrArg (fun v => v.1) root).trans mounted, (congrArg (fun v => v.2.1) root).trans keys, saved, kept.out,
    outsideStart_same margin tapIr kept.clock kept.pending (fun _ e => Bool.false_ne_true e.2) fun h =>
      (started.far h).trans (carries.mono id False.elim).far⟩
  · rw [pow]
    exact congrArg BootView.phase view
  · rw [pow]
  · rw [pow]
  · rw [pow]
  · rw [pow]
  · exact carries.status 27 (shown (ended.symm.trans h))
  · obtain ⟨a₁, a₂, a₃⟩ := failed h e
    obtain ⟨b₁, b₂, b₃⟩ := carries.halted a₁
    exact ⟨b₁, b₂.trans a₂, b₃.trans a₃⟩

/-- Settles O47: a start-up from power-off (`powerUp_off`) and after a reset (`powerUp_reset`), a plate that may not start, and
a power-down (`powerDown_spec`). -/
theorem powerUpAndDown : Obligations.PowerUpAndDown := by
  refine ⟨powerUp_off, powerUp_reset, fun p c x y l s hph hs => ?_, fun p s hph hp hn => ?_, fun p s hph => ?_⟩
  · have warm : ((s.pl p).pow.phase == Phase.off) = false := by simpa using hph
    rw [exec_powerUp]
    simp [execPowerUp, warm, hs]
  · obtain ⟨t, ht, pwrgood, clkreq, off, frame⟩ := powerDown_spec p s hph hp hn
    have stopped := s.stopped_spec p
    refine ⟨t, ht, pwrgood, clkreq, off.phase, off.armed, off.ko, off.keys, off.cache, off.rng, off.status, off.token,
      off.optime.trans stopped.optime, fun h => ?_, frame .out ?_, frame⟩
    · rw [off.stored, off.clean]
      exact stopped.stored h
    · unfold tokenBack
      split <;> simp [plateParts]
  · have unfolded : exec (.powerDown p) s = execPowerDown p s := rfl
    rw [unfolded, execPowerDown, if_pos hph]

end Sys2Proof.Machine

/-! PROOFS. The inputs that a lane job asks for before it may start (O10). -/

namespace Sys2Proof.Machine

variable {s t : State} {p : Plate} {r : JobRef} {j : Job} {d : Inputs} {x : Result} {k : ReadKind}

/-! ## What traffic keeps of the slices -/

theorem Slices.SetUpKept.buckets {x y : Slices} (h : x.SetUpKept y) : y.buckets = x.buckets := by
  obtain ⟨_, _, _, _, _, _, _, _, rfl⟩ := h; rfl

/-- The job that a reference names, changed under its own ring and index. -/
theorem State.jobAt_updJob_self (hj : s.jobAt r = some j) (f : Job → Job)
    (h : ∀ k, k.ring = r.ring → k.index = r.index → (f k).ring = r.ring ∧ (f k).index = r.index) :
    (s.updJob r.plate j.ring j.index f).jobAt r = some (f j) := by
  obtain ⟨hr, hi⟩ := State.job_eq hj
  rw [hr, hi]
  exact State.jobAt_updJob hj f h

/-- A completion is seen from before the return of a read. -/
theorem Completes.before_retireRead (h : Completes (s.retireRead p k) t p j x) : Completes s t p j x :=
  Completes.before_quiet h (fun _ => by rfl) (fun _ => by rfl) fun _ => by rfl

/-! ## INPUT_PREFETCH (R373) -/

theorem exec_inputPrefetch (hj : s.jobAt r = some j) (hs : j.stage = .ready) (hc : j.cls = .lane) (hp : j.prefetched = false) :
    exec (.inputPrefetch r d) s = .next (s.prefetched r.plate j d) := by
  show execInputPrefetch r d s = _
  simp [execInputPrefetch, hj, hs, hc, hp]

/-- Inputs that all returned stand in their job, which joins its class. -/
theorem State.prefetched_returned {a b c e : Bytes} (hj : s.jobAt r = some j)
    (hx : lanePrefetched j.desc d = some (a, b, c, e)) :
    (s.prefetched r.plate j d).jobAt r = some { j with inp := a, aad := b, par := c, pub := e, prefetched := true } ∧
      SameBut [.sl r.plate] s (s.prefetched r.plate j d) := by
  simp only [State.prefetched, hx]
  generalize hu : (s.retireRead r.plate (.input j.ring j.index)).joinClass r.plate j .lane = u
  have jobs : (u.pl r.plate).sl.jobs = (s.pl r.plate).sl.jobs := by
    rw [← hu, State.joinClass_jobs, State.retireRead, State.updSl_self]
  have frame : SameBut [.sl r.plate] s u := hu ▸ (State.updSl_frame s _ _).trans (State.joinClass_frame _ _ j _)
  exact ⟨State.jobAt_updJob_self ((State.job?_congr jobs _ _).trans hj) _ fun _ h1 h2 => ⟨h1, h2⟩,
    frame.trans (State.updJob_frame u _ _ _ _)⟩

/-- An input that failed ends its job, and charges nothing. -/
theorem State.prefetched_failed (s : State) (p : Plate) (hx : lanePrefetched j.desc d = none) :
    Completes s (s.prefetched p j d) p j { status := .dmaFault } ∧
      ((s.prefetched p j d).pl p).sl.buckets = (s.pl p).sl.buckets ∧ SameBut (completing p) s (s.prefetched p j d) := by
  simp only [State.prefetched, hx]
  have traffic := (State.retireRead_traffic s p (.input j.ring j.index)).trans (State.finish_traffic _ p j { status := .dmaFault })
  exact ⟨(State.fail_completes _ p j _).before_retireRead, traffic.sl.buckets,
    (State.updSl_frame s p _).step (by simp [completing]) (State.fail_frame _ p j _)⟩

/-- Settles O10: inputs that returned stand in their job (`prefetched_returned`), and one that failed ends it
(`prefetched_failed`). -/
theorem laneInputsComeFirst : Obligations.LaneInputsComeFirst := by
  unfold Obligations.LaneInputsComeFirst
  refine ⟨?returned, ?failed⟩
  case returned =>
    intro r j d a b c e s hj hs hc hp hx
    exact ⟨_, exec_inputPrefetch hj hs hc hp, State.prefetched_returned hj hx⟩
  case failed =>
    intro r j d s hj hs hc hp hx
    exact ⟨_, exec_inputPrefetch hj hs hc hp, State.prefetched_failed s r.plate hx⟩

end Sys2Proof.Machine

/-! PROOFS. Parking (O13). -/

namespace Sys2Proof.Machine

/-- A job that lane 0 runs and that is marked for parking: descriptor 0 of ring 0 of slice 1. -/
def markedJob : Job := { ring := .tenant 1 0, stage := .started, cls := .lane, unit := some 0, toPark := true, window := some 0 }

/-- A second job of the same descriptor, whose inputs have not returned, so that the ring's later jobs stand behind it (R70). -/
def secondJob : Job := { ring := .tenant 1 0, cls := .lane }

/-- A VERIFY with an inline key behind it, which is ready to start. -/
def behindJob : Job :=
  { ring := .tenant 1 0, index := 1, desc := { opcode := 0x21 }, cls := .lane, prefetched := true, cost := 1 }

/-- Plate A in service with these jobs of slice 1, the last of which was selected to start next. -/
def twoOfOne : State :=
  { pa :=
      { pow := { phase := .running, perst := false, ready := true, serving := true }
        sl :=
          { impo := [(1, { st := .active, home := .a, pasidA := some 1, quota := { windows := 2 }, winA := [(0, 2)] })]
            regs := [(1, { weight := 1, ratePk := 1, burstPk := 1 })]
            jobs := [markedJob, secondJob, behindJob], selected := some (.tenant 1 0, 1, 0) } }
    clock := 1000000 }

/-- The reference to the marked job, and to the second one too. -/
def markedRef : JobRef := { plate := .a, ring := .tenant 1 0, index := 0 }

/-- PARK sets both jobs of the descriptor aside. Nothing then stands before the selected job: it starts on the freed lane, and its
slice's bucket is charged (R72, R129). -/
theorem park_charges_selected : ∃ t, exec (.park markedRef) twoOfOne = .next t ∧
    (t.pl .a).sl.jobs.map Job.stage = [.parked, .parked, .started] ∧
    (t.pl .a).sl.buckets ≠ (twoOfOne.pl .a).sl.buckets := ⟨_, rfl, by decide, by decide⟩

/-- Refutes O13: PARK with no selected job that may start is said to leave the buckets, but its clause is stated over every state,
also one whose table of jobs has two jobs of one descriptor (F passes over a descriptor that has a job, but no hypothesis says so).
There the selected job may stand behind the second one until PARK sets both aside, and then starts and is charged in the same
command. -/
theorem not_parkingAndResuming : ¬ Obligations.ParkingAndResuming := by
  unfold Obligations.ParkingAndResuming
  rintro ⟨-, -, park, -⟩
  obtain ⟨t, ht, -, -, same, -⟩ := park markedRef markedJob twoOfOne (by decide) (by decide) (by decide) (by decide)
    (by decide) (by decide) (by decide)
  obtain ⟨u, hu, -, charged⟩ := park_charges_selected
  rw [ht] at hu
  obtain rfl := Host.Outcome.next.inj hu
  exact charged same

end Sys2Proof.Machine

/-! PROOFS. What a lane computes (O16). -/

namespace Sys2Proof.Machine

variable {s u : State} {r : JobRef} {j : Job} {op : Nat} {k : Key} {x : Result}

/-! ## The lane's work (R121) -/

theorem State.laneWorking_of (h : LaneWorking s r op j) : s.laneWorking r op = some j := by
  obtain ⟨hw, hc, hm, hf⟩ := h
  simp [State.laneWorking, State.working_of hw, hc, hm, hf]

theorem State.jobAt_of_laneWorking (h : LaneWorking s r op j) : s.jobAt r = some j := h.1.1

/-- A lane that has an outcome is not set to work again. -/
theorem State.laneWorking_done (hj : s.jobAt r = some j) (hr : j.result.isSome = true) : s.laneWorking r op = none := by
  simp [State.laneWorking, State.working, hj, Option.isNone_iff_eq_none, Option.isSome_iff_ne_none.mp hr]

/-- A lane's outcome stands in its job, and only its slice part moves. -/
theorem State.laneDone_spec (hj : u.jobAt r = some j) (a : Nat) (x : Result) :
    (u.laneDone r a x).jobAt r = some { j with attempts := a, rawA := 1, result := some x } ∧
      ((u.laneDone r a x).pl r.plate).sl.rings = (u.pl r.plate).sl.rings ∧ SameBut [.sl r.plate] u (u.laneDone r a x) :=
  ⟨State.jobAt_updJob hj _ fun _ h1 h2 => ⟨h1, h2⟩, by simp [State.laneDone, State.updJobAt, State.updJob],
    State.updJobAt_frame u r _⟩

theorem State.jobAt_drew (hj : s.jobAt r = some j) (n : Nat) (l : List Nat) : (s.drew r.plate n l).jobAt r = some j :=
  (State.job?_congr (congrArg Slices.jobs (State.drew_frame s r.plate n l (.sl r.plate) (by simp))) _ _).trans hj

/-- What a lane computes once it has drawn values of these lengths. -/
theorem State.laneComputed (hj : s.jobAt r = some j) (l : List Nat) (a : Nat) (x : Result) :
    LaneComputed s ((s.drew r.plate j.drbg l).laneDone r a x) r j a l x := by
  have drawn := State.drew_frame s r.plate j.drbg l
  obtain ⟨job, rings, done⟩ := State.laneDone_spec (State.jobAt_drew hj j.drbg l) a x
  refine ⟨job, rings.trans (congrArg Slices.rings (drawn (.sl r.plate) (by simp))),
    Eq.trans (done .out (by simp)) (drawn .out (by simp)), ?_⟩
  split
  · next e => subst e; exact done
  · exact ⟨done (.rng r.plate) (by simp), (drawn.mono (by simp)).trans (done.mono (by simp))⟩

theorem State.laneComputed_undrawn (hj : s.jobAt r = some j) (a : Nat) (x : Result) :
    LaneComputed s (s.laneDone r a x) r j a [] x := State.laneComputed hj [] a x

/-! ## Shared secrets (R114) -/

/-- The key that a shared secret becomes: KMAC256 with DERIVE alone. -/
def secretKey (ss : Bytes) : Key := { alg := 0x0C, attr := BitVec.ofNat 32 (2 ^ useDerive), material := ss }

theorem State.secretDone_clear (hc : j.desc.clear = true) (ss : Bytes) (addr : DWord) :
    s.secretDone r j ss addr x = s.laneDone r 1 { x with writes := x.writes ++ [(addr, ss)] } := by
  rw [State.secretDone, if_pos hc]

theorem State.secretDone_kept (hc : j.desc.clear = false) (ss : Bytes) (addr : DWord) :
    s.secretDone r j ss addr x = (s.placeKey r.plate j (secretKey ss)).laneDone r 1 x := by
  rw [State.secretDone, hc]
  rfl

theorem State.placeKey_vault (s : State) (p : Plate) (j : Job) (k : Key) : SameBut [.vlt p] s (s.placeKey p j k) := by
  cases hn : j.newPos with
  | none => simp only [State.placeKey, hn]; exact SameBut.refl _ s
  | some pos => exact State.placeKey_frame hn k

/-- A shared secret, once its lane has drawn values of these lengths. -/
theorem State.secretComputed (hj : s.jobAt r = some j) (l : List Nat) (ss : Bytes) (addr : DWord) (x : Result) :
    SecretComputed s ((s.drew r.plate j.drbg l).secretDone r j ss addr x) r j l x ss addr := by
  unfold SecretComputed
  split
  · next hc =>
    rw [State.secretDone_clear hc]
    exact State.laneComputed hj l 1 _
  · next hc =>
    rw [State.secretDone_kept (by simpa using hc)]
    have drawn := State.drew_frame s r.plate j.drbg l
    have vlt : ((s.drew r.plate j.drbg l).pl r.plate).vlt = (s.pl r.plate).vlt := drawn (.vlt r.plate) (by simp)
    have placed := State.placeKey_vault (s.drew r.plate j.drbg l) r.plate j (secretKey ss)
    obtain ⟨job, -, done⟩ := State.laneDone_spec (State.jobAt_of_vault placed (State.jobAt_drew hj j.drbg l)) 1 x
    have out := Eq.trans (done .out (by simp)) (Eq.trans (placed .out (by simp)) (drawn .out (by simp)))
    refine ⟨job, out, fun pos e hn he => ?_, ?_⟩
    · have entry := (State.entryAt_congr (congrArg Vault.cache vlt)).trans he
      obtain ⟨f, hf, hk⟩ := State.entryAt_placeKey hn entry (secretKey ss)
      rw [State.entryAt_congr (congrArg Vault.cache (done (.vlt r.plate) (by simp))), hf, Option.map_some, hk]
      rfl
    · split
      · next e => subst e; exact (placed.mono (by simp)).trans (done.mono (by simp))
      · exact (drawn.mono (by simp)).trans ((placed.mono (by simp)).trans (done.mono (by simp)))

theorem State.secretComputed_undrawn (hj : s.jobAt r = some j) (ss : Bytes) (addr : DWord) (x : Result) :
    SecretComputed s (s.secretDone r j ss addr x) r j [] x ss addr := State.secretComputed hj [] ss addr x

theorem publicOf_key (hk : j.key = some k) (b : Bytes) :
    publicOf j b = fit (publicLen k.alg) (Config.pkPublic k.alg k.material) := by simp [publicOf, hk]

theorem publicOf_inline (hk : j.key = none) (b : Bytes) : publicOf j b = b := by simp [publicOf, hk]

/-! ## SIGN and VERIFY (R108, R117) -/

/-- The value that hedges a SIGN: 32 zero bytes under DET, else a draw from its lane's DRBG. -/
def State.signHedge (s : State) (p : Plate) (j : Job) : Bytes :=
  if j.desc.fl 13 1 = 1 then zeros 32 else s.drawn p j.drbg (signRandom j.desc.al)

/-- Lengths of what a SIGN draws: nothing under DET. -/
def signLengths (j : Job) : List Nat := if j.desc.fl 13 1 = 1 then [] else [signRandom j.desc.al]

/-- The outcome of a SIGN: the signature, and the attempts in info (R108, Table 5.6). -/
def State.signResult (s : State) (p : Plate) (j : Job) : Result :=
  { outLen := signatureLen j.desc.al, info := BitVec.ofNat 32 (signAttempts j (s.signHedge p j))
    writes := [(j.desc.outAddr, fit (signatureLen j.desc.al) (Config.pkSign j.desc.al j.mat (optionFlags j.desc) j.aad j.inp
      (s.signHedge p j)))] }

theorem exec_sign (h : LaneWorking s r 0x20 j) (hd : j.desc.fl 13 1 = 1 ∨ s.canDraw r.plate j.drbg 1 = true) :
    exec (.sign r) s = .next ((s.drew r.plate j.drbg (signLengths j)).laneDone r (signAttempts j (s.signHedge r.plate j))
      (s.signResult r.plate j)) := by
  show execSign r s = _
  simp only [execSign, State.laneWorking_of h, fit_length, State.signResult]
  by_cases det : j.desc.fl 13 1 = 1
  · simp [det, State.signHedge, signLengths, State.drew, State.draws]
  · simp [det, State.signHedge, signLengths, hd.resolve_left det]

theorem exec_sign_next (hj : s.jobAt r = some j) (hs : j.stage = .started) (hc : j.cls = .lane) (hu : j.unit.isSome = true)
    (ho : j.desc.op = 0x20) (hr : j.result.isSome = true) (ha : j.rawA < j.attempts) :
    exec (.sign r) s = .next (s.updJobAt r fun j => { j with rawA := j.rawA + 1 }) := by
  show execSign r s = _
  simp [execSign, State.laneWorking_done hj hr, State.laneNext, hj, hs, hc, hu, ho, hr, ha]

/-- The outcome of a VERIFY (Table 5.7). -/
def verifyStatus (j : Job) : Status :=
  if j.key.isNone && !Config.pkValid j.desc.al (publicOf j j.pub) && !isRsa j.desc.al then .range
  else if Config.pkVerify j.desc.al (publicOf j j.pub) (optionFlags j.desc) j.aad j.inp j.par then .ok
  else .authFail

theorem exec_verify (h : LaneWorking s r 0x21 j) :
    exec (.verify r) s = .next (s.laneDone r 1 { status := verifyStatus j }) := by
  show execVerify r s = _
  simp only [execVerify, State.laneWorking_of h, verifyStatus]

theorem verifyStatus_key (hk : j.key = some k) : verifyStatus j =
    if Config.pkVerify j.desc.al (fit (publicLen k.alg) (Config.pkPublic k.alg k.material)) (optionFlags j.desc) j.aad j.inp
      j.par = true then .ok else .authFail := by
  simp [verifyStatus, publicOf_key hk, hk]

/-- An inline key that fails its check is RANGE; RSA keys have none (Table 5.7). -/
theorem verifyStatus_inline (hk : j.key = none) : verifyStatus j =
    if isRsa j.desc.al = false ∧ Config.pkValid j.desc.al j.pub = false then .range
    else if Config.pkVerify j.desc.al j.pub (optionFlags j.desc) j.aad j.inp j.par = true then .ok else .authFail := by
  simp [verifyStatus, publicOf_inline hk, hk, and_comm]

/-! ## KEM, ECDH and RSA_DECRYPT (R113 to R116) -/

theorem exec_kemDecaps (h : LaneWorking s r 0x22 j) (hk : j.key = some k) : exec (.kemDecaps r) s = .next
    (s.secretDone r j (fit 32 (Config.kemDecaps j.desc.al k.material j.inp)) j.desc.outAddr
      { outLen := if j.desc.clear then 32 else 0 }) := by
  show execKemDecaps r s = _
  simp only [execKemDecaps, State.laneWorking_of h, Job.mat_of_key hk]

theorem exec_kemEncaps_refused (h : LaneWorking s r 0x23 j) (hk : j.key = none) (hv : Config.pkValid j.desc.al j.inp = false) :
    exec (.kemEncaps r) s = .next (s.laneDone r 1 { status := .range }) := by
  show execKemEncaps r s = _
  simp [execKemEncaps, State.laneWorking_of h, publicOf_inline hk, hk, hv]

theorem exec_kemEncaps (h : LaneWorking s r 0x23 j) (hv : ¬(j.key = none ∧ Config.pkValid j.desc.al j.inp = false))
    (hd : s.canDraw r.plate j.drbg 1 = true) : exec (.kemEncaps r) s = .next ((s.drew r.plate j.drbg [32]).secretDone r j
      (fit 32 (Config.kemEncaps j.desc.al (publicOf j j.inp) (s.drawn r.plate j.drbg 32)).2) j.desc.aadAddr
      { outLen := kemCtLen j.desc.al, writes := [(j.desc.outAddr,
          fit (kemCtLen j.desc.al) (Config.kemEncaps j.desc.al (publicOf j j.inp) (s.drawn r.plate j.drbg 32)).1)] }) := by
  have valid : ¬(j.key.isNone && !Config.pkValid j.desc.al (publicOf j j.inp)) = true := by
    intro hb
    simp only [Bool.and_eq_true, Option.isNone_iff_eq_none, Bool.not_eq_true'] at hb
    exact hv ⟨hb.1, publicOf_inline hb.1 j.inp ▸ hb.2⟩
  show execKemEncaps r s = _
  simp only [execKemEncaps, State.laneWorking_of h, if_neg valid, hd, fit_length]
  rfl

theorem exec_ecdh (h : LaneWorking s r 0x24 j) (hk : j.key = some k) : exec (.ecdh r) s = .next
    (match Config.pkAgree j.desc.al k.material j.inp with
      | some z => s.secretDone r j (fit (secretLen j.desc.al) z) j.desc.outAddr
          { outLen := if j.desc.clear then secretLen j.desc.al else 0 }
      | none => s.laneDone r 1 { status := .range }) := by
  show execEcdh r s = _
  cases hz : Config.pkAgree j.desc.al k.material j.inp <;>
    simp only [execEcdh, State.laneWorking_of h, Job.mat_of_key hk, hz]

/-- The outcome of an RSA_DECRYPT from what OAEP decodes (R116, Table 5.7). -/
def rsaResult (j : Job) (m : Option Bytes) : Result :=
  match m with
  | some m =>
    let out := m.take (publicLen j.desc.al - 2 * hashLen (j.desc.fl 8 2) - 2)
    { outLen := out.length, writes := [(j.desc.outAddr, out)] }
  | none => { status := .authFail }

theorem exec_rsaDecrypt (h : LaneWorking s r 0x25 j) (hk : j.key = some k) : exec (.rsaDecrypt r) s = .next
    (s.laneDone r 1 (rsaResult j (Config.rsaOaep j.desc.al k.material (j.desc.fl 8 2) j.aad j.inp))) := by
  show execRsaDecrypt r s = _
  cases hm : Config.rsaOaep j.desc.al k.material (j.desc.fl 8 2) j.aad j.inp <;>
    simp only [execRsaDecrypt, State.laneWorking_of h, Job.mat_of_key hk, hm, rsaResult]

/-- Settles O16: each row stores its outcome (`laneComputed`, `secretComputed`), after the values that it draws. -/
theorem laneOperations : Obligations.LaneOperations := by
  unfold Obligations.LaneOperations
  refine ⟨?sign, ?signNext, ?verifyKey, ?verifyInline, ?decaps, ?encaps, ?ecdh, ?rsa⟩
  case sign =>
    intro r j k s h hk hd
    have computed := State.laneComputed (State.jobAt_of_laneWorking h) (signLengths j)
      (signAttempts j (s.signHedge r.plate j)) (s.signResult r.plate j)
    refine ⟨_, exec_sign h hd, ?_⟩
    simpa only [signLengths, State.signResult, signAttempts, State.signHedge, signRandom, Job.mat_of_key hk] using computed
  case signNext =>
    intro r j s hj hs hc hu ho hr ha
    exact ⟨_, exec_sign_next hj hs hc hu ho hr ha, State.jobAt_updJob hj _ fun _ h1 h2 => ⟨h1, h2⟩,
      State.updJobAt_frame s r _⟩
  case verifyKey =>
    intro r j k s h hk
    refine ⟨_, exec_verify h, ?_⟩
    rw [verifyStatus_key hk]
    exact State.laneComputed_undrawn (State.jobAt_of_laneWorking h) 1 _
  case verifyInline =>
    intro r j s h hk
    refine ⟨_, exec_verify h, ?_⟩
    rw [verifyStatus_inline hk]
    exact State.laneComputed_undrawn (State.jobAt_of_laneWorking h) 1 _
  case decaps =>
    intro r j k s h hk
    exact ⟨_, exec_kemDecaps h hk, State.secretComputed_undrawn (State.jobAt_of_laneWorking h) _ _ _⟩
  case encaps =>
    intro r j s h hd
    by_cases hv : j.key = none ∧ Config.pkValid j.desc.al j.inp = false
    · simp only [if_pos hv]
      exact ⟨_, exec_kemEncaps_refused h hv.1 hv.2, State.laneComputed_undrawn (State.jobAt_of_laneWorking h) 1 _⟩
    · simp only [if_neg hv]
      exact ⟨_, exec_kemEncaps h hv hd, State.secretComputed (State.jobAt_of_laneWorking h) [32] _ _ _⟩
  case ecdh =>
    intro r j k s h hk
    refine ⟨_, exec_ecdh h hk, ?_⟩
    cases Config.pkAgree j.desc.al k.material j.inp with
    | some z => exact State.secretComputed_undrawn (State.jobAt_of_laneWorking h) _ _ _
    | none => exact State.laneComputed_undrawn (State.jobAt_of_laneWorking h) 1 _
  case rsa =>
    intro r j k s h hk
    have computed := State.laneComputed_undrawn (State.jobAt_of_laneWorking h) 1
      (rsaResult j (Config.rsaOaep j.desc.al k.material (j.desc.fl 8 2) j.aad j.inp))
    refine ⟨_, exec_rsaDecrypt h hk, ?_⟩
    revert computed
    cases Config.rsaOaep j.desc.al k.material (j.desc.fl 8 2) j.aad j.inp <;> exact id

end Sys2Proof.Machine

/-! PROOFS. What completions, slice commands in progress and TIMING_FAULT leave of a plate (R68, R123, R125). -/

namespace Sys2Proof.Machine

variable {s t u : State} {p : Plate} {j : Job} {x : Result}

/-! ## Completions, and slice commands in progress -/

theorem Slices.SetUpKept.ops {x y : Slices} (h : x.SetUpKept y) : y.ops = x.ops := by
  obtain ⟨_, _, _, _, _, _, _, _, rfl⟩ := h; rfl

theorem Slices.SetUpKept.pkeTf {x y : Slices} (h : x.SetUpKept y) : y.pkeTf = x.pkeTf := by
  obtain ⟨_, _, _, _, _, _, _, _, rfl⟩ := h; rfl

/-- A completion stands where the jobs stay as they are and outputs are only added. -/
theorem Completes.after (h : Completes s t p j x) (hj : (u.pl p).sl.jobs = (t.pl p).sl.jobs) (ho : t.out <+: u.out) :
    Completes s u p j x := by
  obtain ⟨sent, done⟩ := h
  refine ⟨sent.trans ho, fun v hv => ?_⟩
  obtain ⟨gone, written⟩ := done v hv
  exact ⟨(State.job?_congr hj _ _).trans gone, fun hm => ho.subset (written hm)⟩

/-- An outcome with its work units (R123). -/
def Result.withWork (x : Result) (n : Nat) : Result := { x with work := n }

/-- Whether the host's translation of its writes fails an outcome does not rest on its work units (R25). -/
theorem State.translated_withWork (s : State) (p : Plate) (q : RingRef) (d : Option Desc) (x : Result) (n : Nat) :
    (s.translated p q d x = { status := .dmaFault } ∧ s.translated p q d (x.withWork n) = { status := .dmaFault }) ∨
      (s.translated p q d x = x ∧ s.translated p q d (x.withWork n) = x.withWork n) :=
  (em _).imp (fun h => ⟨if_pos h, if_pos h⟩) fun h => ⟨if_neg h, if_neg h⟩

/-- Work units do not stand in a record (Table 2.8). -/
theorem recordOf_withWork (s : State) (p : Plate) (j : Job) (x : Result) (n : Nat) :
    recordOf s p j (x.withWork n) = recordOf s p j x := by
  rcases s.translated_withWork p j.ring (some j.desc) x n with ⟨h, hn⟩ | ⟨h, hn⟩
  · simp only [recordOf, h, hn]
  · simp only [recordOf, h, hn]
    rfl

theorem Completes.of_withWork {n : Nat} (h : Completes s t p j (x.withWork n)) : Completes s t p j x := by
  simpa only [Completes, recordOf_withWork] using h

/-- Between `s` and `t` the slice commands in progress on plate `p` stayed as they are, and so did the peer's slices. -/
structure OpsKept (s t : State) (p : Plate) : Prop where
  own : (t.pl p).sl.ops = (s.pl p).sl.ops
  peer : (t.pl p.peer).sl = (s.pl p.peer).sl

theorem OpsKept.trans (h : OpsKept s t p) (k : OpsKept t u p) : OpsKept s u p :=
  ⟨k.own.trans h.own, k.peer.trans h.peer⟩

theorem OpsKept.of_frame {l : List Part} (h : SameBut l s t) (ho : Part.sl p ∉ l) (hp : Part.sl p.peer ∉ l) : OpsKept s t p :=
  ⟨congrArg Slices.ops (h _ ho), h _ hp⟩

theorem State.updSl_opsKept (s : State) (p : Plate) (f : Slices → Slices) (h : ∀ x, (f x).ops = x.ops) :
    OpsKept s (s.updSl p f) p :=
  ⟨by rw [State.updSl_self, h], State.updSl_frame s p f (.sl p.peer) (by simp [Plate.peer_ne])⟩

theorem State.finish_opsKept (s : State) (p : Plate) (j : Job) (x : Result) : OpsKept s (s.finish p j x) p :=
  ⟨(State.finish_traffic s p j x).sl.ops, State.finish_frame s p j x (.sl p.peer) (by simp [Plate.peer_ne])⟩

theorem State.joinClass_opsKept (s : State) (p : Plate) (j : Job) (c : EngClass) : OpsKept s (s.joinClass p j c) p := by
  unfold State.joinClass
  dsimp only
  split
  · exact ⟨rfl, rfl⟩
  · exact State.updSl_opsKept s p _ fun x => by cases c <;> rfl

/-- With no slice command in progress none goes on. -/
theorem State.sliceOpNext_idle (ha : s.pa.sl.ops = []) (hb : s.pb.sl.ops = []) (i : Nat) : s.sliceOpNext i = s := by
  have idle (p : Plate) : (s.pl p).sl.ops.get none i = none := by
    cases p <;> simp [State.pl, ha, hb, Tab.get]
  have step (p : Plate) : (s.resizeNext p i).destroyNext p i = s := by
    simp only [State.resizeNext, State.destroyNext, idle]
  simp only [State.sliceOpNext, State.each, List.foldl, step]

/-! ## TIMING_FAULT (R125) -/

/-- What the withdrawal of a unit touches (R301). -/
theorem State.withdraw_frame (s : State) (p : Plate) (v : UnitRef) : SameBut [.sl p, .flt p] s (s.withdraw p v) := by
  cases v <;> exact (State.updSl_frame s p _).step (by simp) ((State.updFlt_frame _ p _).mono (by simp))

theorem State.withdraw_kept (s : State) (p : Plate) (v : UnitRef) :
    ((s.withdraw p v).pl p).sl.jobs = (s.pl p).sl.jobs ∧ ((s.withdraw p v).pl p).sl.pkeTf = (s.pl p).sl.pkeTf ∧
      ((s.withdraw p v).pl p).sl.ops = (s.pl p).sl.ops := by
  cases v <;> simp [State.withdraw]

/-- Between `s` and `t` plate `p` kept its jobs, its slice commands in progress and its count of timing faults, and outputs were
only added: what the pin of a lane leaves. -/
structure PinKept (s t : State) (p : Plate) : Prop where
  jobs : (t.pl p).sl.jobs = (s.pl p).sl.jobs
  pkeTf : (t.pl p).sl.pkeTf = (s.pl p).sl.pkeTf
  ops : OpsKept s t p
  out : s.out <+: t.out

theorem State.raise_pinKept (s : State) (p : Plate) (k : Nat) : PinKept s (s.raise p k) p := by
  have sl : ((s.raise p k).pl p).sl = (s.pl p).sl := State.raise_frame s p k (.sl p) (by simp)
  exact ⟨congrArg Slices.jobs sl, congrArg Slices.pkeTf sl, .of_frame (State.raise_frame s p k) (by simp) (by simp),
    (Keeps.refl s).raise.out⟩

/-- A lane that is withdrawn for LANE_CRIT restarts no job (R301). -/
theorem State.raiseUnit_pinKept (s : State) (p : Plate) (v : UnitRef) : PinKept s (s.raiseUnit p 28 v) p := by
  obtain ⟨jobs, pkeTf, ops⟩ := State.withdraw_kept s p v
  obtain ⟨jobs', pkeTf', ops', -⟩ := State.raise_pinKept (s.withdraw p v) p 28
  exact ⟨jobs'.trans jobs, pkeTf'.trans pkeTf,
    OpsKept.trans ⟨ops, State.withdraw_frame s p v (.sl p.peer) (by simp [Plate.peer_ne])⟩ ops',
    (Keeps.refl s).raiseUnit.out⟩

/-- One more TIMING_FAULT is counted in PLT_PKE_TF. -/
def State.countFault (s : State) (p : Plate) : State := s.updSl p fun x => { x with pkeTf := x.pkeTf + 1 }

theorem State.timingFault_pins (s : State) (p : Plate) (j : Job) :
    PinKept ((s.countFault p).fail p j .timingFault) (s.timingFault p j) p := by
  unfold State.timingFault
  dsimp only
  split
  · exact State.raiseUnit_pinKept _ p _
  · exact State.raise_pinKept _ p 28

/-- A job ends with TIMING_FAULT, which is counted. -/
theorem State.timingFault_spec (s : State) (p : Plate) (j : Job) :
    Completes s (s.timingFault p j) p j { status := .timingFault } ∧
      ((s.timingFault p j).pl p).sl.pkeTf = (s.pl p).sl.pkeTf + 1 ∧ OpsKept s (s.timingFault p j) p := by
  obtain ⟨jobs, pkeTf, ops, out⟩ := State.timingFault_pins s p j
  have failed : Completes s ((s.countFault p).fail p j .timingFault) p j { status := .timingFault } :=
    Completes.before_quiet (State.fail_completes (s.countFault p) p j _) (fun _ => by rfl) (fun _ => by rfl) fun _ => by rfl
  have counted : ((s.countFault p).pl p).sl.pkeTf = (s.pl p).sl.pkeTf + 1 := by rw [State.countFault, State.updSl_self]
  have kept : OpsKept s (s.countFault p) p := State.updSl_opsKept s p _ fun _ => by rfl
  exact ⟨failed.after jobs out, pkeTf.trans ((State.finish_traffic _ p j _).sl.pkeTf.trans counted),
    kept.trans ((State.finish_opsKept _ p j _).trans ops)⟩

end Sys2Proof.Machine

/-! PROOFS. Lane outcomes, attempts and their justified release (O18). -/

namespace Sys2Proof.Machine

variable {s u : State} {p : Plate} {r : JobRef} {j : Job} {x : Result} {st : Status}

/-! ## A lane's result and its message (R121, R373) -/

theorem exec_laneResultReady (hj : s.jobAt r = some j) (hs : j.stage = .started) (hc : j.cls = .lane)
    (hu : j.unit.isSome = true) (hr : j.critical = false)
    (hd : (j.result.isSome = true ∧ j.rawA = j.attempts) ∨ j.forced.isSome = true) :
    exec (.laneResultReady r) s = .next (s.updJobAt r fun j => { j with rawDone := true, unit := none, toPark := false }) := by
  show execLaneResultReady r s = _
  simp [execLaneResultReady, hj, hs, hc, hu, hr, hd]

theorem State.jobAt_retireRead (hj : s.jobAt r = some j) (k : ReadKind) : (s.retireRead r.plate k).jobAt r = some j :=
  (State.job?_updSl s r.plate _ (fun _ => by rfl) _ _).trans hj

/-- The bytes of a job's message that are there once `b` has returned. -/
def Job.fedBytes (j : Job) (b : Bytes) : Nat := min (j.msgGot + b.length) j.desc.inLen.toNat

/-- Job `k` with the message bytes `b`, which returned for job `j`. -/
def Job.fed (k : Job) (s : State) (j : Job) (b : Bytes) : Job :=
  { k with
    inp := (j.inp ++ b).take j.desc.inLen.toNat, msgGot := j.fedBytes b
    waitingMsg := decide (j.fedBytes b ≠ j.desc.inLen.toNat) && k.waitingMsg
    accBase := s.accrued k, resumedAt := if j.stage = .started then some s.clock else none }

/-- With the last bytes of a message its read is no longer under way. -/
def State.messageRead (s : State) (r : JobRef) (j : Job) (b : Bytes) : State :=
  if j.fedBytes b = j.desc.inLen.toNat then s.retireRead r.plate (.message r.ring r.index) else s

/-- Bytes of a message that return are kept. -/
theorem exec_messageDataArrive (hj : s.jobAt r = some j) (hs : j.stage = .started ∨ j.stage = .parked)
    (hw : j.waitingMsg = true) (b : Bytes) :
    exec (.messageDataArrive r (.ok b)) s = .next ((s.messageRead r j b).updJobAt r (·.fed s j b)) := by
  have arrives : ((j.stage == .started || j.stage == .parked) && j.waitingMsg) = true := by simpa [hw] using hs
  show execMessageDataArrive r (.ok b) s = _
  simp only [execMessageDataArrive, hj, arrives, if_true, beq_iff_eq, State.messageRead, Job.fed, Job.fedBytes]
  split
  · next hn => simp [hn]
  · next hn => simp [hn]

theorem State.messageRead_fed (hj : s.jobAt r = some j) (b : Bytes) :
    ((s.messageRead r j b).updJobAt r (·.fed s j b)).jobAt r = some (j.fed s j b) ∧
      SameBut [.sl r.plate] s ((s.messageRead r j b).updJobAt r (·.fed s j b)) := by
  have read : (s.messageRead r j b).jobAt r = some j := by
    unfold State.messageRead
    split
    exacts [State.jobAt_retireRead hj _, hj]
  exact ⟨State.jobAt_updJob read _ fun _ h1 h2 => ⟨h1, h2⟩,
    (SameBut.ite (State.updSl_frame s _ _) (SameBut.refl _ s)).trans (State.updJobAt_frame _ r _)⟩

theorem exec_messageDataArrive_fault (hj : s.jobAt r = some j) (hs : j.stage = .started ∨ j.stage = .parked)
    (hw : j.waitingMsg = true) : exec (.messageDataArrive r .fault) s = .next (s.messageFails r) := by
  have arrives : ((j.stage == .started || j.stage == .parked) && j.waitingMsg) = true := by simpa [hw] using hs
  show execMessageDataArrive r .fault s = _
  simp only [execMessageDataArrive, hj, arrives, if_true]

/-- A message that cannot be read ends its job at the boundary of its attempt. -/
theorem State.messageFails_spec (hj : s.jobAt r = some j) : (s.messageFails r).jobAt r =
    some { j with waitingMsg := false, accBase := s.accrued j, forced := some .dmaFault, attempts := j.boundary
                  resumedAt := if j.stage = .started then some s.clock else none } ∧
    SameBut [.sl r.plate] s (s.messageFails r) := by
  have job := State.jobAt_updJob (State.jobAt_retireRead hj (.message r.ring r.index)) (fun j =>
    { j with waitingMsg := false, accBase := s.accrued j, forced := some .dmaFault, attempts := j.boundary
             resumedAt := if j.stage == .started then some s.clock else none }) fun _ h1 h2 => ⟨h1, h2⟩
  exact ⟨job.trans (by simp only [beq_iff_eq]), (State.updSl_frame s _ _).trans (State.updJobAt_frame _ r _)⟩

/-! ## ATTEMPT_BOUNDARY (R121, R123) -/

/-- The justified time of the attempt under way has reached its boundary on a lane that runs on. -/
structure AtBoundary (s : State) (j : Job) : Prop where
  started : j.stage = .started
  lane : j.cls = .lane
  sound : j.critical = false
  unforced : j.forced = none
  fed : j.waitingMsg = false
  reached : j.bound ≤ s.accrued j

theorem AtBoundary.holds (h : AtBoundary s j) : (j.stage == .started && j.cls == .lane && !j.critical && j.forced.isNone &&
    !j.waitingMsg && decide (j.bound ≤ s.accrued j)) = true := by
  obtain ⟨hs, hc, hr, hf, hm, hb⟩ := h
  simp [hs, hc, hr, hf, hm, hb]

/-- A lane that has not finished the attempt ends its job. -/
theorem exec_attemptBoundary_late (hj : s.jobAt r = some j) (h : AtBoundary s j) (hl : j.rawA < j.boundary) :
    exec (.attemptBoundary r) s = .next (s.timingFault r.plate j) := by
  show execAttemptBoundary r s = _
  simp only [execAttemptBoundary, hj, h.holds, if_true, if_pos hl]

/-- The job with its next attempt under way. -/
def Job.nextAttempt (j : Job) : Job := { j with boundary := j.boundary + 1, charged := max j.charged (j.boundary + 1) }

/-- A lane goes on with the next attempt, charged unless it was charged before (R105). -/
theorem exec_attemptBoundary_next (hj : s.jobAt r = some j) (h : AtBoundary s j) (hl : j.boundary ≤ j.rawA)
    (hn : j.boundary < j.attempts) : exec (.attemptBoundary r) s = .next
      ((if j.charged ≤ j.boundary then s.charge r.plate .lane (roundKey j.ring) j.d1 else s).updJobAt r Job.nextAttempt) := by
  show execAttemptBoundary r s = _
  simp only [execAttemptBoundary, hj, h.holds, if_true, if_neg (Nat.not_lt.mpr hl), if_pos hn]
  rfl

theorem exec_attemptBoundary_early (hj : s.jobAt r = some j) (h : s.accrued j < j.bound) :
    exec (.attemptBoundary r) s = .next s := by
  show execAttemptBoundary r s = _
  simp [execAttemptBoundary, hj, Nat.not_le.mpr h]

theorem State.charge_frame (s : State) (p : Plate) (c : EngClass) (i n : Nat) : SameBut [.sl p] s (s.charge p c i n) := by
  unfold State.charge
  refine SameBut.ite (SameBut.refl _ s) ?_
  cases c
  case vault => exact SameBut.refl _ s
  all_goals exact State.updSl_frame s p _

/-- The job goes on with its next attempt after `v`, which is a charge or nothing. -/
theorem State.nextAttempt_spec (hj : s.jobAt r = some j) (hjobs : (u.pl r.plate).sl.jobs = (s.pl r.plate).sl.jobs)
    (hrings : (u.pl r.plate).sl.rings = (s.pl r.plate).sl.rings) (hf : SameBut [.sl r.plate] s u) :
    (u.updJobAt r Job.nextAttempt).jobAt r = some j.nextAttempt ∧
      ((u.updJobAt r Job.nextAttempt).pl r.plate).sl.buckets = (u.pl r.plate).sl.buckets ∧
      (u.updJobAt r Job.nextAttempt).out = s.out ∧
      ((u.updJobAt r Job.nextAttempt).pl r.plate).sl.rings = (s.pl r.plate).sl.rings ∧
      SameBut [.sl r.plate] s (u.updJobAt r Job.nextAttempt) := by
  have frame := hf.trans (State.updJobAt_frame u r Job.nextAttempt)
  exact ⟨State.jobAt_updJob ((State.job?_congr hjobs _ _).trans hj) _ fun _ h1 h2 => ⟨h1, h2⟩,
    by simp [State.updJobAt, State.updJob], frame .out (by simp),
    (by simp [State.updJobAt, State.updJob] : ((u.updJobAt r Job.nextAttempt).pl r.plate).sl.rings = _).trans hrings, frame⟩

/-! ## JUSTIFIER_RELEASE (R119, R125) -/

/-- A job at its target leaves as `reachTarget` says, where no slice command waits for its window (R68). -/
theorem exec_justifierRelease (hj : s.jobAt r = some j) (ht : s.atTarget j = true) (ha : s.pa.sl.ops = [])
    (hb : s.pb.sl.ops = []) (hk : OpsKept s (s.reachTarget r.plate j) r.plate) :
    exec (.justifierRelease r) s = .next (s.reachTarget r.plate j) := by
  have idle (i : Nat) : (s.reachTarget r.plate j).sliceOpNext i = s.reachTarget r.plate j := by
    obtain ⟨own, peer⟩ := hk
    cases hp : r.plate <;> simp only [hp, State.pl, Plate.peer] at own peer
    · exact State.sliceOpNext_idle (own.trans ha) ((congrArg Slices.ops peer).trans hb) i
    · exact State.sliceOpNext_idle ((congrArg Slices.ops peer).trans ha) (own.trans hb) i
  show execJustifierRelease r s = _
  simp only [execJustifierRelease, hj, if_pos ht, idle]
  cases r.ring <;> rfl

theorem exec_justifierRelease_early (hj : s.jobAt r = some j) (h : s.accrued j < j.target) :
    exec (.justifierRelease r) s = .next s := by
  have early : s.atTarget j = false := by simp [State.atTarget, Nat.not_le.mpr h]
  show execJustifierRelease r s = _
  simp [execJustifierRelease, hj, early]

theorem State.reachTarget_forced (hf : j.forced = some st) : s.reachTarget p j = s.fail p j st := by
  simp only [State.reachTarget, hf]

theorem State.reachTarget_empty (hf : j.forced = none) (hx : j.result = none) : s.reachTarget p j = s.timingFault p j := by
  simp only [State.reachTarget, hf, hx]

theorem State.reachTarget_done (hf : j.forced = none) (hx : j.result = some x) (hd : j.rawDone = true) :
    s.reachTarget p j = s.release p j x := by
  simp only [State.reachTarget, hf, hx, hd]

/-- An outcome that no other step follows leaves as an engine's does, with its work units (R123). -/
theorem State.release_ends (h30 : j.desc.op ≠ 0x30) (h31 : j.desc.op ≠ 0x31) :
    s.release p j x = s.engineDone p j (x.withWork j.target) := by
  have n30 : (j.desc.op == 0x30) = false := by simpa using h30
  have n31 : (j.desc.op == 0x31) = false := by simpa using h31
  simp only [State.release, n30, n31, Bool.false_and, Bool.false_eq_true, if_false]
  rfl

/-- A job that made no key is posted. -/
theorem State.release_posted (s : State) (p : Plate) (x : Result) (h30 : j.desc.op ≠ 0x30) (h31 : j.desc.op ≠ 0x31)
    (hn : j.newPos = none) : Completes s (s.release p j x) p j x ∧ SameBut (completing p) s (s.release p j x) ∧
      OpsKept s (s.release p j x) p := by
  rw [State.release_ends h30 h31, State.engineDone_keyless hn]
  exact ⟨(State.finish_completes s p j _).of_withWork, State.finish_frame s p j _, State.finish_opsKept s p j _⟩

/-- A key that was made takes its handle, and the job is posted with it. -/
theorem State.release_issued {pos : Nat} {e : CacheEntry} (h30 : j.desc.op ≠ 0x30) (h31 : j.desc.op ≠ 0x31)
    (hok : x.status = .ok) (hn : j.newPos = some pos) (he : s.entryAt p ((ringSlice j.ring).getD 0) pos = some e)
    (hc : CanIssue s p e.key) : ∃ h, HandleIssued s (s.release p j x) p ((ringSlice j.ring).getD 0) pos e.key h ∧
      Completes s (s.release p j x) p j (x.withHandle h) ∧ SameBut (issuing p ++ completing p) s (s.release p j x) ∧
      OpsKept s (s.release p j x) p := by
  obtain ⟨u, ready, hu⟩ := State.issueFor_can hn he hc (x.withWork j.target)
  obtain ⟨h, issued, completed, frame⟩ := ready.finishes (x.withWork j.target) rfl
  have vault := ready.frame.trans (State.issue_frame u p ((ringSlice j.ring).getD 0) pos)
  have ok : (x.withWork j.target).status = .ok := hok
  rw [State.release_ends h30 h31, State.engineDone_issues hn he (State.waitsEpoch_can hc) ok, hu]
  exact ⟨h, issued, Completes.of_withWork (x := x.withHandle h) completed, frame,
    (OpsKept.of_frame vault (by simp) (by simp)).trans (State.finish_opsKept _ p j _)⟩

/-- The job that waits for its key-state step (R169, Table 3.7). -/
def Job.toKeyState (j : Job) : Job :=
  { j with stage := .ready, cls := .vault, begun := true, unit := none, window := none, result := none, cost := 1 }

theorem State.release_generated (h30 : j.desc.op = 0x30) (hok : x.status = .ok) :
    s.release p j x = (s.joinClass p j .vault).updJob p j.ring j.index Job.toKeyState := by
  simp [State.release, h30, hok]
  rfl

/-- A generated key waits for its key-state step. -/
theorem State.toKeyState_spec (hj : s.jobAt r = some j) :
    let t := (s.joinClass r.plate j .vault).updJob r.plate j.ring j.index Job.toKeyState
    t.jobAt r = some j.toKeyState ∧ t.out = s.out ∧ SameBut [.sl r.plate] s t ∧ OpsKept s t r.plate := by
  have frame := (State.joinClass_frame s r.plate j .vault).trans (State.updJob_frame _ r.plate j.ring j.index Job.toKeyState)
  have joined := (State.job?_congr (State.joinClass_jobs s r.plate j .vault) r.ring r.index).trans hj
  exact ⟨State.jobAt_updJob_self joined _ fun _ h1 h2 => ⟨h1, h2⟩,
    frame .out (by simp), frame, (State.joinClass_opsKept s _ j _).trans (State.updSl_opsKept _ _ _ fun _ => by rfl)⟩

/-! ## Release targets (R121, R122, R124) -/

theorem msgAddOn_small {n : Nat} (h : n ≤ 1024) : msgAddOn n = 0 := if_neg (Nat.not_lt.mpr h)

/-- One microsecond for each further KiB, begun ones included. -/
theorem msgAddOn_bounds {n : Nat} (h : 1024 < n) : 1024 * msgAddOn n < n ∧ n ≤ 1024 * (msgAddOn n + 1) := by
  rw [msgAddOn, if_pos h, ceilDiv]
  omega

theorem jtabAt_beyond {k : Nat} (h : 39 ≤ k) : jtabAt k = 0 := List.getD_eq_default _ _ h

/-- Settles O18: a lane's result and its message change their job alone; an attempt that ends on time is followed by the next
(`nextAttempt_spec`), a late one by TIMING_FAULT (`timingFault_spec`); at its target a job's outcome is posted, after its key's
handle (`KeyReady.finishes`) or before its key-state step (`toKeyState_spec`). -/
theorem justifiedTime : Obligations.JustifiedTime := by
  unfold Obligations.JustifiedTime
  refine ⟨?resultReady, ?message, ?messageFault, ?next, ?late, ?early, ?posted, ?issued, ?generated, ?forced, ?empty, ?waits,
    fun _ => rfl, fun _ => msgAddOn_small, fun _ => msgAddOn_bounds, rfl, rfl, rfl, rfl, rfl, rfl, fun _ => jtabAt_beyond⟩
  case resultReady =>
    intro r j s hj hs hc hu hr hd
    have frame := State.updJobAt_frame s r fun j => { j with rawDone := true, unit := none, toPark := false }
    exact ⟨_, exec_laneResultReady hj hs hc hu hr hd, State.jobAt_updJob hj _ fun _ h1 h2 => ⟨h1, h2⟩,
      frame .out (by simp), frame⟩
  case message =>
    intro r j b s hj hs hw
    obtain ⟨job, frame⟩ := State.messageRead_fed hj b
    refine ⟨_, exec_messageDataArrive hj hs hw b, job.trans ?_, frame⟩
    rw [Job.fed, hw, Bool.and_true]
    rfl
  case messageFault =>
    intro r j s hj hs hw
    exact ⟨_, exec_messageDataArrive_fault hj hs hw, State.messageFails_spec hj⟩
  case next =>
    intro r j s hj hs hc hr hf hm hb hl hn
    obtain ⟨work, jobs⟩ := State.charge_work s r.plate .lane (roundKey j.ring) j.d1
    refine ⟨_, exec_attemptBoundary_next hj ⟨hs, hc, hr, hf, hm, hb⟩ hl hn, ?_⟩
    split
    · exact State.nextAttempt_spec hj jobs work.rings (State.charge_frame s _ _ _ _)
    · exact State.nextAttempt_spec hj rfl rfl (SameBut.refl _ s)
  case late =>
    intro r j s hj hs hc hr hf hm hb hl
    obtain ⟨ended, counted, -⟩ := State.timingFault_spec s r.plate j
    exact ⟨_, exec_attemptBoundary_late hj ⟨hs, hc, hr, hf, hm, hb⟩ hl, ended, counted⟩
  case early => exact fun r j s hj h => exec_attemptBoundary_early hj h
  case posted =>
    intro r j x s hj ht hf hx hd h30 h31 hn ha hb
    have e := State.reachTarget_done (s := s) (p := r.plate) hf hx hd
    obtain ⟨completed, frame, kept⟩ := State.release_posted s r.plate x h30 h31 hn
    exact ⟨_, exec_justifierRelease hj ht ha hb (e ▸ kept), e ▸ completed, e ▸ frame⟩
  case issued =>
    intro r j x pos entry s hj ht hf hx hd hok h30 h31 hn he hcan ha hb
    have e := State.reachTarget_done (s := s) (p := r.plate) hf hx hd
    obtain ⟨h, issued, completed, frame, kept⟩ := State.release_issued h30 h31 hok hn he hcan
    exact ⟨_, h, exec_justifierRelease hj ht ha hb (e ▸ kept), e ▸ issued, e ▸ completed, e ▸ frame⟩
  case generated =>
    intro r j x s hj ht hf hx hd hok h30 ha hb
    obtain ⟨job, out, frame, kept⟩ := State.toKeyState_spec hj
    have e := (State.reachTarget_done (s := s) (p := r.plate) hf hx hd).trans (State.release_generated h30 hok)
    refine ⟨_, exec_justifierRelease hj ht ha hb (e ▸ kept), ?_⟩
    rw [e, job]
    exact ⟨rfl, out, frame⟩
  case forced =>
    intro r j st s hj ht hf ha hb
    have e := State.reachTarget_forced (s := s) (p := r.plate) hf
    refine ⟨_, exec_justifierRelease hj ht ha hb (e ▸ State.finish_opsKept s _ j _), ?_⟩
    rw [e]
    exact ⟨State.fail_completes s _ j st, State.fail_frame s _ j st⟩
  case empty =>
    intro r j s hj ht hf hx ha hb
    obtain ⟨ended, counted, kept⟩ := State.timingFault_spec s r.plate j
    have e := State.reachTarget_empty (s := s) (p := r.plate) hf hx
    refine ⟨_, exec_justifierRelease hj ht ha hb (e ▸ kept), ?_⟩
    rw [e]
    exact ⟨ended, counted⟩
  case waits => exact fun r j s hj h => exec_justifierRelease_early hj h

end Sys2Proof.Machine

/-! PROOFS. What the vault controller does for a new key before its change begins: it draws, takes back a read, notes its job, and
starts the key's ledger entry with no lease (R151, R160, R168). -/

namespace Sys2Proof.Machine

variable {s t u : State} {p : Plate} {r : JobRef} {j : Job} {x : Result} {items : List VItem}

/-! ## Requests in turn (R199) -/

/-- The operating time stands in a frame clear of what it is read from (R339). -/
theorem State.optime_of_frame {l : List Part} (h : SameBut l s t) (p : Plate)
    (hl : Part.nvm p ∉ l ∧ Part.pwrgood ∉ l ∧ Part.clock ∉ l) : t.optime p = s.optime p := by
  have nvm : (t.pl p).nvm = (s.pl p).nvm := h _ hl.1
  have pwrgood : t.pwrgood = s.pwrgood := h _ hl.2.1
  have clock : t.clock = s.clock := h _ hl.2.2
  simp only [State.optime, nvm, pwrgood, clock]

/-- What requests return in turn rests on the random part of their plate, the clock and the operating time. -/
theorem State.draws_congr (hr : (t.pl p).rng = (s.pl p).rng) (hc : t.clock = s.clock) (ho : t.optime p = s.optime p) (k : Nat)
    (l : List Nat) : (t.draws p k l).1 = (s.draws p k l).1 := by
  induction l generalizing s t with
  | nil => rfl
  | cons n l ih =>
    have ready := State.readied_congr hr hc ho k
    have clock (v : State) : (v.readied p k).clock = v.clock := State.readied_frame v p k .clock (by simp)
    have optime (v : State) : (v.readied p k).optime p = v.optime p := State.optime_of_frame (State.readied_frame v p k) p (by simp)
    have inst : (t.readied p k).inst p k = (s.readied p k).inst p k := by rw [State.inst, State.inst, ready]
    simp only [State.draws, inst]
    refine congrArg _ (ih ?_ ?_ ?_)
    · simp only [State.updInst, State.updRng_self, ready]
    · simp only [State.updInst, State.updRng_clock, clock, hc]
    · simp only [State.updInst, State.optime_updRng, optime, ho]

theorem State.drawnAt_congr (hr : (t.pl p).rng = (s.pl p).rng) (hc : t.clock = s.clock) (ho : t.optime p = s.optime p) (k : Nat)
    (l : List Nat) (i : Nat) : t.drawnAt p k l i = s.drawnAt p k l i := by
  simp only [State.drawnAt, State.draws_congr hr hc ho]

/-! ## The work before a change -/

theorem Plate.eq_peer_of_ne {q : Plate} (h : q ≠ p) : q = p.peer := by
  revert h
  cases p <;> cases q <;> simp [Plate.peer]

/-- Between `s` and `u` plate `p` changed jobs, reads under way, leases and its random part, and nothing else. -/
structure KeyWork (s u : State) (p : Plate) : Prop where
  frame : SameBut [.sl p, .vlt p, .rng p] s u
  sl : ∃ jobs reads, (u.pl p).sl = { (s.pl p).sl with jobs := jobs, reads := reads }
  vlt : ∃ leases, (u.pl p).vlt = { (s.pl p).vlt with leases := leases }

theorem KeyWork.refl (s : State) (p : Plate) : KeyWork s s p := ⟨.refl _ s, ⟨_, _, rfl⟩, ⟨_, rfl⟩⟩

theorem KeyWork.trans (h : KeyWork s t p) (k : KeyWork t u p) : KeyWork s u p := by
  obtain ⟨_, _, sl⟩ := h.sl
  obtain ⟨_, vlt⟩ := h.vlt
  obtain ⟨_, _, sl'⟩ := k.sl
  obtain ⟨_, vlt'⟩ := k.vlt
  exact ⟨h.frame.trans k.frame, ⟨_, _, sl'.trans (by rw [sl])⟩, ⟨_, vlt'.trans (by rw [vlt])⟩⟩

theorem State.drew_keyWork (s : State) (p : Plate) (k : Nat) (l : List Nat) : KeyWork s (s.drew p k l) p :=
  have frame := State.drew_frame s p k l
  ⟨frame.mono (by simp), ⟨_, _, frame (.sl p) (by simp)⟩, ⟨_, frame (.vlt p) (by simp)⟩⟩

theorem State.retireRead_keyWork (s : State) (p : Plate) (k : ReadKind) : KeyWork s (s.retireRead p k) p :=
  have frame := State.updSl_frame s p fun x => { x with reads := x.reads.filter fun e => e.1 != k }
  ⟨frame.mono (by simp), ⟨_, _, State.updSl_self s p _⟩, ⟨_, frame (.vlt p) (by simp)⟩⟩

theorem State.updJob_keyWork (s : State) (p : Plate) (q : RingRef) (i : Word) (f : Job → Job) : KeyWork s (s.updJob p q i f) p :=
  have frame := State.updJob_frame s p q i f
  ⟨frame.mono (by simp), ⟨_, _, State.updSl_self s p _⟩, ⟨_, frame (.vlt p) (by simp)⟩⟩

theorem State.freshEntry_frame (s : State) (p : Plate) (e : Option Nat) : SameBut [.vlt p] s (s.freshEntry p e) := by
  cases e with
  | none => exact .refl _ s
  | some e => exact State.updVlt_frame s p _

theorem State.freshEntry_keyWork (s : State) (p : Plate) (e : Option Nat) : KeyWork s (s.freshEntry p e) p := by
  have frame := State.freshEntry_frame s p e
  refine ⟨frame.mono (by simp), ⟨_, _, frame (.sl p) (by simp)⟩, ?_⟩
  cases e with
  | none => exact ⟨_, rfl⟩
  | some e => exact ⟨_, State.updVlt_self s p _⟩

theorem State.jobAt_freshEntry (hj : s.jobAt r = some j) (e : Option Nat) : (s.freshEntry r.plate e).jobAt r = some j :=
  (State.job?_congr (congrArg Slices.jobs (State.freshEntry_frame s r.plate e (.sl r.plate) (by simp))) _ _).trans hj

namespace KeyWork

variable (h : KeyWork s u p)
include h

theorem optime : u.optime p = s.optime p := State.optime_of_frame h.frame p (by simp)

theorem refuses (ro : Bool) : u.refuses p ro = s.refuses p ro := by
  obtain ⟨_, vlt⟩ := h.vlt
  have pr : (u.pl p).pr = (s.pl p).pr := h.frame (.pr p) (by simp)
  have nvm : (u.pl p).nvm = (s.pl p).nvm := h.frame (.nvm p) (by simp)
  have wear : u.wear p = s.wear p := by simp only [State.wear, pr, nvm]
  unfold State.refuses
  rw [wear]
  dsimp only
  rw [pr, vlt]

theorem ledgerAt (e : Nat) : u.ledgerAt p e = s.ledgerAt p e := by
  obtain ⟨_, vlt⟩ := h.vlt
  simp only [State.ledgerAt, vlt]

theorem recAhead (i : Nat) : u.recAhead p i = s.recAhead p i := by
  obtain ⟨_, vlt⟩ := h.vlt
  simp only [State.recAhead, State.pendingItem, vlt]

theorem slotAhead (k : Nat) : u.slotAhead p k = s.slotAhead p k := by
  obtain ⟨_, vlt⟩ := h.vlt
  simp only [State.slotAhead, State.pendingItem, vlt]

theorem slotAt (i n : Nat) : u.slotAt p i n = s.slotAt p i n := by
  obtain ⟨_, vlt⟩ := h.vlt
  simp only [State.slotAt, vlt]

theorem trk (i : Nat) : u.trk p i = s.trk p i := by
  obtain ⟨_, vlt⟩ := h.vlt
  simp only [State.trk, State.drk, vlt]

theorem quotaNow (i : Nat) : u.quotaNow p i = s.quotaNow p i := by
  obtain ⟨_, _, sl⟩ := h.sl
  have peer : (u.pl p.peer).sl = (s.pl p.peer).sl := h.frame (.sl p.peer) (by simp)
  have ops (x : Plate) : (u.pl x).sl.ops = (s.pl x).sl.ops := by
    by_cases hx : x = p
    · rw [hx, sl]
    · rw [Plate.eq_peer_of_ne hx, peer]
  have impo : u.impo p i = s.impo p i := by simp only [State.impo, sl]
  have a := ops .a
  have b := ops .b
  simp only [State.pl] at a b
  simp only [State.quotaNow, impo, a, b]

/-- A completion is seen from before the work. -/
theorem completes (c : Completes u t p j x) : Completes s t p j x := by
  obtain ⟨_, _, sl⟩ := h.sl
  have pow : (u.pl p).pow = (s.pl p).pow := h.frame (.pow p) (by simp)
  have pr : (u.pl p).pr = (s.pl p).pr := h.frame (.pr p) (by simp)
  have tmp : (u.pl p).tmp = (s.pl p).tmp := h.frame (.tmp p) (by simp)
  have flt : (u.pl p).flt = (s.pl p).flt := h.frame (.flt p) (by simp)
  have out : u.out = s.out := h.frame .out (by simp)
  have pasid (n : Nat) : u.pasid p n = s.pasid p n := by simp only [State.pasid, State.impo, sl]
  have ring : u.ring p j.ring = s.ring p j.ring := by cases j.ring <;> simp only [State.ring, sl]
  have tag : u.ringTag p j.ring = s.ringTag p j.ring := by cases j.ring <;> simp only [State.ringTag, pasid]
  exact c.from_ ring tag (by simp only [State.mayWrite, pow, pr, tmp, flt]) (by rw [out])
    (by simp only [State.translated, pasid, pow])

/-- A change that begins is seen from before the work. -/
theorem changeBegun (c : ChangeBegun u t p items) : ChangeBegun s t p items := by
  obtain ⟨_, vlt⟩ := h.vlt
  have pr : (u.pl p).pr = (s.pl p).pr := h.frame (.pr p) (by simp)
  have gut : u.gut p.peer = s.gut p.peer := h.frame (.gut p.peer) (by simp)
  have sent : u.sent = s.sent := State.sent_congr (h.frame .out (by simp))
  have up : u.gutterUp p = s.gutterUp p := by rw [State.gutterUp, State.gutterUp, pr]
  simpa only [ChangeBegun, ReadsOnly, sent, vlt, pr, gut, up] using c

/-- After the work a job's change without secrets begins, and the job waits for it (R210). -/
theorem commits {k : Job} (hj : u.job? p j.ring j.index = some k) (hd : itemDraws items = []) (o : Nat) (a : After) :
    CommitBegun s (u.commitJob p j items x o a) p j.ring j.index items x ∧
      SameBut (committing p) u (u.commitJob p j items x o a) := by
  obtain ⟨⟨waits, begun⟩, frame⟩ := State.commitJob_begun hj hd x o a
  exact ⟨⟨waits, h.changeBegun begun⟩, frame⟩

/-- The work and the change that follows it touch what a change touches, and the random part. -/
theorem covers (f : SameBut (committing p) u t) : SameBut (.rng p :: committing p) s t :=
  (h.frame.mono (by simp [committing])).trans (f.mono fun _ hy => List.mem_cons_of_mem _ hy)

/-- After the work a job ends. -/
theorem finishes (j : Job) (x : Result) : Completes s (u.finish p j x) p j x ∧
    SameBut (.rng p :: completing p) s (u.finish p j x) :=
  ⟨h.completes (State.finish_completes u p j x),
    (h.frame.mono (by simp [completing])).trans ((State.finish_frame u p j x).mono (by simp [completing]))⟩

end KeyWork

end Sys2Proof.Machine

/-! PROOFS. KEY_GENERATE: the lane step of an asymmetric key and the key-state step (R151, R166 to R169). -/

namespace Sys2Proof.Machine

variable {s u : State} {p : Plate} {r : JobRef} {j : Job} {x : Result}

/-! ## The lane step (R121, R151) -/

/-- Attempts, or quanta of an RSA search, that a lane's valid material took (R121, R370). -/
def State.materialAttempts (s : State) (j : Job) : Nat :=
  let first := if isRsa j.desc.al = true ∨ isDsa j.desc.al = true then j.rejects + 1 else 1
  if isRsa j.desc.al = true then first + Config.freeNat s.free else first

theorem State.materialAttempts_pos (s : State) (j : Job) : 1 ≤ s.materialAttempts j := by
  unfold State.materialAttempts
  dsimp only
  split <;> split <;> omega

/-- A search for primes took every quantum that was rejected, and one more. -/
theorem State.rejects_lt_materialAttempts (s : State) (h : isRsa j.desc.al = true) : j.rejects < s.materialAttempts j := by
  simp only [State.materialAttempts, h, true_or, if_true]
  omega

theorem State.materialAttempts_of_not_rsa (s : State) (h : isRsa j.desc.al = false) :
    s.materialAttempts j = if isDsa j.desc.al = true then j.rejects + 1 else 1 := by
  simp [State.materialAttempts, h]

/-- One try of a lane, by whether what it drew is valid and whether a rejected draw counts (R151). -/
theorem State.tryMaterial_eq (s : State) (p : Plate) (j : Job) : s.tryMaterial p j =
    (let m := s.drawn p j.drbg (materialLen j.desc.al 0)
     let many := isRsa j.desc.al = true ∨ isDsa j.desc.al = true
     if generatedOk j.desc.al m = true then
       { j with par := m, attempts := s.materialAttempts j, rawA := if many then j.rejects + 1 else 1
                result := some { status := .ok, info := BitVec.ofNat 32 (s.materialAttempts j) } }
     else if many then { j with rejects := j.rejects + 1, attempts := j.rejects + 2, rawA := j.rejects + 1 }
     else { j with rejects := j.rejects + 1 }) := by
  cases hg : generatedOk j.desc.al (s.drawn p j.drbg (materialLen j.desc.al 0))
  · simp [State.tryMaterial, hg]
  · simp [State.tryMaterial, State.materialAttempts, hg]

/-- The state in which a lane has tried the material that it drew. -/
def State.tried (s : State) (r : JobRef) (j : Job) : State :=
  ((s.drew r.plate j.drbg [materialLen j.desc.al 0]).tick 1).updJobAt r (s.tryMaterial r.plate)

theorem exec_keyGenerate_lane (h : LaneWorking s r 0x30 j) (hc : s.canDraw r.plate j.drbg 1 = true) :
    exec (.keyGenerate r) s = .next (s.tried r j) := by
  show execKeyGenerate r s = _
  simp only [execKeyGenerate, State.laneWorking_of h, if_pos hc]
  rfl

/-- A try leaves whose descriptor the job is. -/
theorem State.tryMaterial_keeps (s : State) (p : Plate) (j : Job) :
    (s.tryMaterial p j).ring = j.ring ∧ (s.tryMaterial p j).index = j.index := by
  rw [State.tryMaterial_eq]
  dsimp only
  split
  · exact ⟨rfl, rfl⟩
  · split <;> exact ⟨rfl, rfl⟩

/-- A try changes its job alone, after its draw. -/
theorem State.tried_spec (hj : s.jobAt r = some j) : (s.tried r j).jobAt r = some (s.tryMaterial r.plate j) ∧
    ((s.tried r j).pl r.plate).rng = ((s.drew r.plate j.drbg [materialLen j.desc.al 0]).pl r.plate).rng ∧
    SameBut [.sl r.plate, .rng r.plate, .free] s (s.tried r j) := by
  have drew := State.drew_frame s r.plate j.drbg [materialLen j.desc.al 0]
  have drewJob := State.jobAt_drew hj j.drbg [materialLen j.desc.al 0]
  unfold State.tried
  generalize s.drew r.plate j.drbg [materialLen j.desc.al 0] = u at drew drewJob ⊢
  have tried := State.updJobAt_frame (u.tick 1) r (s.tryMaterial r.plate)
  have ticked := State.tick_frame u 1
  have tickedJob : (u.tick 1).jobAt r = some j :=
    (State.job?_congr (congrArg Slices.jobs (ticked (.sl r.plate) (by simp))) _ _).trans drewJob
  refine ⟨State.jobAt_updJob tickedJob _ fun k h1 h2 => ?_,
    Eq.trans (tried (.rng r.plate) (by simp)) (ticked (.rng r.plate) (by simp)),
    (drew.mono (by simp)).trans ((ticked.mono (by simp)).trans (tried.mono (by simp)))⟩
  obtain ⟨ring, index⟩ := s.tryMaterial_keeps r.plate k
  exact ⟨ring.trans h1, index.trans h2⟩

/-! ## The key-state step (R168, R169) -/

/-- A job that the vault controller has accepted is no lane's. -/
theorem State.laneWorking_accepted {op : Nat} (h : Accepted s r op j) (o : Nat) : s.laneWorking r o = none := by
  obtain ⟨hj, hs, -, -⟩ := h
  simp [State.laneWorking, State.working, hj, hs]

/-- The state in which the material of a key-state step is there: a lane released it, or the vault controller draws it. -/
def State.withMaterial (s : State) (p : Plate) (j : Job) : State :=
  if j.begun = true then s else s.drew p vaultInst [materialLen j.desc.al (j.desc.fl 8 8)]

theorem State.withMaterial_keyWork (s : State) (p : Plate) (j : Job) : KeyWork s (s.withMaterial p j) p := by
  unfold State.withMaterial
  split
  · exact .refl s p
  · exact s.drew_keyWork p _ _

theorem State.withMaterial_jobAt (hj : s.jobAt r = some j) : (s.withMaterial r.plate j).jobAt r = some j := by
  unfold State.withMaterial
  split
  · exact hj
  · exact State.jobAt_drew hj _ _

theorem exec_keyGenerate_commits (h : Accepted s r 0x30 j) (hc : s.canDraw r.plate vaultInst 3 = true) :
    exec (.keyGenerate r) s = .next ((s.withMaterial r.plate j).commitGenerated r.plate j (generatedNow s r.plate j).mat
      (if j.begun = true then j.attempts else 1) (if j.begun = true then j.target else 0)) := by
  show execKeyGenerate r s = _
  simp only [execKeyGenerate, State.laneWorking_accepted h, State.accepted_of h, hc, State.withMaterial, generatedNow]
  cases j.begun <;> rfl

theorem State.commitGenerated_refused {st : Status} (hr : u.refuses p j.desc.toSlug = some st) (mat : Bytes) (a w : Nat) :
    u.commitGenerated p j mat a w = u.fail p j st := by
  simp only [State.commitGenerated, hr]

/-- The generation of a new key: 1, or the next one of its ledger entry. -/
def State.newGen (s : State) (p : Plate) (j : Job) : Word :=
  match j.ledgerNew with
  | some e => (s.ledgerAt p e).gen + 1
  | none => 1

/-- The public part that a KEY_GENERATE returns. -/
def generatedPublic (d : Desc) (mat : Bytes) : Bytes :=
  if isAsym d.al = true then fit (publicLen d.al) (Config.pkPublic d.al mat) else []

/-- The state in which the tag and the nonce of a new key are drawn and its ledger entry is fresh. -/
def State.tagged (s : State) (p : Plate) (e : Option Nat) : State := (s.drew p vaultInst [4, 12]).freshEntry p e

theorem State.tagged_keyWork (s : State) (p : Plate) (e : Option Nat) : KeyWork s (s.tagged p e) p :=
  (s.drew_keyWork p _ _).trans (State.freshEntry_keyWork _ p e)

theorem State.tagged_jobAt (hj : s.jobAt r = some j) (e : Option Nat) : (s.tagged r.plate e).jobAt r = some j :=
  State.jobAt_freshEntry (State.jobAt_drew hj _ _) e

/-- The tag that comes first of what is drawn for a new key (R168). -/
def State.newKit (s : State) (p : Plate) : Word := BitVec.ofNat 32 (leNat (s.drawnAt p vaultInst [4, 12] 0))

theorem State.commitGenerated_slot {n : Nat} (hs : j.desc.toSlug = false) (hk : parseKref j.desc.keyRef = .slot n)
    (hr : u.refuses p false = none) (mat : Bytes) (a w : Nat) : ∃ o, u.commitGenerated p j mat a w =
      (let x := generateResult j.desc a w j.ledgerNew (generatedPublic j.desc mat) none
       (u.tagged p j.ledgerNew).commitJob p j (slotItems (generated j.desc mat) ((ringSlice j.ring).getD 0) n (u.newGen p j)
         (u.newKit p) (u.optime p) (u.drawnAt p vaultInst [4, 12] 1) j.ledgerNew) x o (.finish j.ring j.index x)) := by
  refine ⟨if (generatedPublic j.desc mat).isEmpty then 0 else 1, ?_⟩
  simp only [State.commitGenerated, hs, hk, hr]
  rfl

theorem State.commitGenerated_slug {e : Nat} (hs : j.desc.toSlug = true) (he : j.ledgerNew = some e)
    (hr : u.refuses p true = none) (mat : Bytes) (a w : Nat) : u.commitGenerated p j mat a w =
      (let i := (ringSlice j.ring).getD 0
       let k := generated j.desc mat
       let x := generateResult j.desc a w (some e) (generatedPublic j.desc mat) (some (u.slugOf p k i e
         ((u.ledgerAt p e).gen + 1) (u.newKit p) (u.optime p) (u.drawnAt p vaultInst [4, 12] 1)))
       (u.tagged p (some e)).commitJob p j [.ledger e (newLedger k i true ((u.ledgerAt p e).gen + 1))] x 2
         (.finish j.ring j.index x)) := by
  simp only [State.commitGenerated, hs, hr, he]
  rfl

/-! ## What a key-state step commits -/

theorem generateResult_slot (d : Desc) (a w : Nat) (e : Option Nat) (pub : Bytes) : generateResult d a w e pub none =
    { status := .ok, outLen := pub.length, info := BitVec.ofNat 32 a, info2 := BitVec.ofNat 32 (e.getD 0xFFFFFFFF)
      writes := if pub = [] then [] else [(d.outAddr, pub)], work := w } := by
  simp only [generateResult, List.append_nil, List.isEmpty_iff]

theorem generateResult_slug (d : Desc) (a w e : Nat) (pub b : Bytes) : generateResult d a w (some e) pub (some b) =
    { status := .ok, outLen := pub.length, info := BitVec.ofNat 32 a, info2 := BitVec.ofNat 32 e
      writes := (if pub = [] then [] else [(d.outAddr, pub)]) ++ [(d.aadAddr, b)], work := w } := by
  simp only [generateResult, List.isEmpty_iff, Option.getD_some]

/-- The items of a new slot carry no secret under a plate's own keys. -/
theorem itemDraws_slotItems (k : NewKey) (i n : Nat) (gen kit : Word) (c : Nat) (nonce : Bytes) (e : Option Nat) :
    itemDraws (slotItems k i n gen kit c nonce e) = [] := by
  unfold slotItems itemDraws
  cases e <;> dsimp only <;> split <;> rfl

/-- A generated slot key is committed (R168). -/
theorem State.commitGenerated_slot_spec {i m n : Nat} (h : KeyWork s u r.plate) (hj : u.jobAt r = some j)
    (hq : r.ring = .tenant i m) (hs : j.desc.toSlug = false) (hk : parseKref j.desc.keyRef = .slot n)
    (hr : u.refuses r.plate false = none) (mat : Bytes) (a w : Nat) :
    CommitBegun s (u.commitGenerated r.plate j mat a w) r.plate r.ring r.index
        (slotItems (generated j.desc mat) i n (u.newGen r.plate j) (u.newKit r.plate) (u.optime r.plate)
          (u.drawnAt r.plate vaultInst [4, 12] 1) j.ledgerNew)
        (generateResult j.desc a w j.ledgerNew (generatedPublic j.desc mat) none) ∧
      SameBut (.rng r.plate :: committing r.plate) s (u.commitGenerated r.plate j mat a w) := by
  obtain ⟨ring, index⟩ := State.job_eq hj
  obtain ⟨o, e⟩ := State.commitGenerated_slot hs hk hr mat a w
  have slice : (ringSlice j.ring).getD 0 = i := by rw [ring, hq]; rfl
  rw [e, slice, ← ring, ← index]
  have work := h.trans (u.tagged_keyWork r.plate j.ledgerNew)
  have tagged : (u.tagged r.plate j.ledgerNew).job? r.plate j.ring j.index = some j := by
    rw [ring, index]
    exact State.tagged_jobAt hj _
  exact (work.commits tagged (itemDraws_slotItems _ _ _ _ _ _ _ _) _ _).imp_right work.covers

/-- The ledger entry of a generated slug key is committed; its slug is written with the completion (R160, R168). -/
theorem State.commitGenerated_slug_spec {i m e : Nat} (h : KeyWork s u r.plate) (hj : u.jobAt r = some j)
    (hq : r.ring = .tenant i m) (hs : j.desc.toSlug = true) (he : j.ledgerNew = some e) (hr : u.refuses r.plate true = none)
    (mat : Bytes) (a w : Nat) : CommitBegun s (u.commitGenerated r.plate j mat a w) r.plate r.ring r.index
        [.ledger e (newLedger (generated j.desc mat) i true ((u.ledgerAt r.plate e).gen + 1))]
        (generateResult j.desc a w (some e) (generatedPublic j.desc mat) (some (u.slugOf r.plate (generated j.desc mat) i e
          ((u.ledgerAt r.plate e).gen + 1) (u.newKit r.plate) (u.optime r.plate) (u.drawnAt r.plate vaultInst [4, 12] 1)))) ∧
      SameBut (.rng r.plate :: committing r.plate) s (u.commitGenerated r.plate j mat a w) := by
  obtain ⟨ring, index⟩ := State.job_eq hj
  have slice : (ringSlice j.ring).getD 0 = i := by rw [ring, hq]; rfl
  rw [State.commitGenerated_slug hs he hr mat a w, slice, ← ring, ← index]
  have work := h.trans (u.tagged_keyWork r.plate (some e))
  have tagged : (u.tagged r.plate (some e)).job? r.plate j.ring j.index = some j := by
    rw [ring, index]
    exact State.tagged_jobAt hj _
  exact (work.commits tagged rfl _ _).imp_right work.covers

/-- A new key takes the generation that its ledger entry had before its key-state step. -/
theorem KeyWork.newGen (h : KeyWork s u p) (j : Job) : u.newGen p j = s.newGen p j := by
  unfold State.newGen
  cases j.ledgerNew with
  | none => rfl
  | some e => simp only [h.ledgerAt]

theorem KeyWork.slugOf (h : KeyWork s u p) (k : NewKey) (i e : Nat) (gen kit : Word) (c : Nat) (nonce : Bytes) :
    u.slugOf p k i e gen kit c nonce = s.slugOf p k i e gen kit c nonce := by
  simp only [State.slugOf, h.trk]

end Sys2Proof.Machine

/-! PROOFS. KEY_IMPORT: the steps of Table 7.4 (R170 to R175), and generated and imported keys (O20). -/

namespace Sys2Proof.Machine

variable {s u : State} {p : Plate} {r : JobRef} {j k : Job} {x : Result} {w : Update} {d : Dma} {mat : Bytes}

/-! ## The row (R172, R323) -/

/-- The state in which the read of an update message has come back. -/
def State.messageBack (s : State) (r : JobRef) : State := s.retireRead r.plate (.input r.ring r.index)

theorem State.messageBack_keyWork (s : State) (r : JobRef) : KeyWork s (s.messageBack r) r.plate := s.retireRead_keyWork r.plate _

theorem State.messageBack_frame (s : State) (r : JobRef) : SameBut [.sl r.plate] s (s.messageBack r) :=
  State.updSl_frame s r.plate _

theorem State.jobAt_messageBack (hj : s.jobAt r = some j) : (s.messageBack r).jobAt r = some j := State.jobAt_retireRead hj _

theorem State.messageBack_sec (s : State) (r : JobRef) : ((s.messageBack r).pl r.plate).mgt.sec = (s.pl r.plate).mgt.sec :=
  congrArg Mgmt.sec (s.messageBack_frame r (.mgt r.plate) (by simp))

theorem State.messageBack_canDraw (s : State) (r : JobRef) (k n : Nat) :
    (s.messageBack r).canDraw r.plate k n = s.canDraw r.plate k n := by
  have rng : ((s.messageBack r).pl r.plate).rng = (s.pl r.plate).rng := s.messageBack_frame r (.rng r.plate) (by simp)
  have clock : (s.messageBack r).clock = s.clock := s.messageBack_frame r .clock (by simp)
  unfold State.canDraw State.gives State.inst
  rw [rng, clock]

theorem exec_keyImport_accepted (h : Accepted s r 0x31 j) : exec (.keyImport r d) s = .next
    (if (s.pl r.plate).mgt.sec != .running then (s.messageBack r).fail r.plate j .busy
      else if j.phase = 8 then
        if (parseUpdate j.inp).type != 2 && !s.canDraw r.plate vaultInst 2 then s.messageBack r
        else (s.messageBack r).importBody r.plate j (parseUpdate j.inp) j.par
      else (s.messageBack r).importRead r.plate j d) := by
  rw [← s.messageBack_sec r, ← s.messageBack_canDraw r]
  show execKeyImport r d s = _
  simp only [execKeyImport, State.accepted_of h]
  rfl

theorem exec_keyImport_stalled (h : Accepted s r 0x31 j) (hm : (s.pl r.plate).mgt.sec ≠ .running) :
    exec (.keyImport r d) s = .next ((s.messageBack r).fail r.plate j .busy) := by
  rw [exec_keyImport_accepted h, if_pos (by simpa using hm)]

theorem exec_keyImport_reads (h : Accepted s r 0x31 j) (hm : (s.pl r.plate).mgt.sec = .running) (hp : j.phase ≠ 8) :
    exec (.keyImport r d) s = .next ((s.messageBack r).importRead r.plate j d) := by
  rw [exec_keyImport_accepted h, if_neg (by simpa using hm), if_neg hp]

theorem exec_keyImport_commits (h : Accepted s r 0x31 j) (hm : (s.pl r.plate).mgt.sec = .running) (hp : j.phase = 8)
    (hd : (parseUpdate j.inp).type = 2 ∨ s.canDraw r.plate vaultInst 2 = true) :
    exec (.keyImport r d) s = .next ((s.messageBack r).importBody r.plate j (parseUpdate j.inp) j.par) := by
  have ready : ¬((parseUpdate j.inp).type != 2 && !s.canDraw r.plate vaultInst 2) = true := by
    rcases hd with hd | hd <;> simp [hd]
  rw [exec_keyImport_accepted h, if_neg (by simpa using hm), if_pos hp, if_neg ready]

theorem exec_keyImport_lane (h : Working s r 0x31 j) (hc : j.cls = .lane) :
    exec (.keyImport r d) s = .next (s.updJobAt r (importLane (s.seed r.plate))) := by
  obtain ⟨hj, hs, -, -, -⟩ := id h
  have started : s.accepted r 0x31 = none := by simp [State.accepted, hj, hs]
  show execKeyImport r d s = _
  simp [execKeyImport, started, State.working_of h, hc]

/-! ## A job that ends after its message came back -/

/-- A job that ends completes, and touches no more than a completion. -/
theorem State.messageBack_finishes (s : State) (r : JobRef) (j : Job) (x : Result) :
    Completes s ((s.messageBack r).finish r.plate j x) r.plate j x ∧
      SameBut (completing r.plate) s ((s.messageBack r).finish r.plate j x) :=
  ⟨(s.messageBack_keyWork r).completes (State.finish_completes _ r.plate j x),
    (s.messageBack_frame r).step (by simp [completing]) (State.finish_frame _ r.plate j x)⟩

/-! ## Steps 1 to 4 (Table 7.4) -/

/-- A started job as it waits for its next step in another class (Table 3.7). -/
def Job.stepping (j : Job) (cls : EngClass) (phase addOn d1 : Nat) : Job :=
  { j with stage := .ready, cls := cls, begun := true, phase := phase, unit := none, window := none, result := none,
           rawDone := false, cost := if cls == .lane then addOn + d1 else 1, addOn := addOn, d1 := d1, attempts := 1,
           boundary := 1, rawA := 0, charged := 1 }

/-- A job goes on with its next step. -/
theorem State.nextStep_spec (hk : u.jobAt r = some k) (hr : j.ring = r.ring) (hi : j.index = r.index) (cls : EngClass)
    (phase addOn d1 : Nat) : (u.nextStep r.plate j cls phase addOn d1).jobAt r = some (k.stepping cls phase addOn d1) ∧
      SameBut [.sl r.plate] u (u.nextStep r.plate j cls phase addOn d1) ∧
      OpsKept u (u.nextStep r.plate j cls phase addOn d1) r.plate := by
  unfold State.nextStep
  rw [hr, hi]
  have joined := (State.job?_congr (State.joinClass_jobs u r.plate j cls) r.ring r.index).trans hk
  exact ⟨State.jobAt_updJob joined _ fun _ h1 h2 => ⟨h1, h2⟩,
    (State.joinClass_frame u r.plate j cls).trans (State.updJob_frame _ r.plate _ _ _),
    (State.joinClass_opsKept u _ j cls).trans (State.updSl_opsKept _ _ _ fun _ => by rfl)⟩

/-- Steps 3 and 4: another signer's or device's message is RANGE, another key's is AUTH_FAIL, and any other goes to its lane. -/
theorem State.importChecked_spec (hj : s.jobAt r = some j) (w : Update) (v : SliceRec) :
    (let t := (s.messageBack r).importChecked r.plate j w v
     (if w.sigAlg ≠ v.impAlg ∨ w.device ≠ s.identityDigest r.plate then Completes s t r.plate j { status := .range }
      else if fit 32 (Config.sha3 (cut w.b w.signerAt (publicLen w.sigAlg))) ≠ v.impKey then
        Completes s t r.plate j { status := .authFail }
      else (t.jobAt r).map (fun k => (k.stage, k.cls, k.phase, k.inp, k.target)) =
          some (.ready, .lane, 5, w.b, msgAddOn w.signedLen + signD1 w) ∧ t.out = s.out) ∧
     SameBut (completing r.plate) s t) := by
  obtain ⟨ring, index⟩ := State.job_eq hj
  have vlt : ((s.messageBack r).pl r.plate).vlt = (s.pl r.plate).vlt := s.messageBack_frame r (.vlt r.plate) (by simp)
  have digest : (s.messageBack r).identityDigest r.plate = s.identityDigest r.plate := by
    simp only [State.identityDigest, State.identityParts, State.seed, vlt]
  dsimp only
  by_cases h3 : w.sigAlg ≠ v.impAlg ∨ w.device ≠ s.identityDigest r.plate
  · have e : (s.messageBack r).importChecked r.plate j w v = (s.messageBack r).fail r.plate j .range := by
      unfold State.importChecked
      rw [if_pos]
      rw [digest]
      simpa only [Bool.not_eq_true', Bool.and_eq_false_iff, beq_eq_false_iff_ne] using h3
    rw [if_pos h3, e]
    exact s.messageBack_finishes r j _
  have pass3 : ¬(!(w.sigAlg == v.impAlg && w.device == (s.messageBack r).identityDigest r.plate)) = true := by
    rw [digest]
    simpa only [Bool.not_eq_true', Bool.and_eq_false_iff, beq_eq_false_iff_ne] using h3
  by_cases h4 : fit 32 (Config.sha3 (cut w.b w.signerAt (publicLen w.sigAlg))) ≠ v.impKey
  · have e : (s.messageBack r).importChecked r.plate j w v = (s.messageBack r).fail r.plate j .authFail := by
      unfold State.importChecked
      dsimp only
      rw [if_neg pass3, if_pos (by simpa using h4)]
    rw [if_neg h3, if_pos h4, e]
    exact s.messageBack_finishes r j _
  have e : (s.messageBack r).importChecked r.plate j w v = ((s.messageBack r).updJob r.plate r.ring r.index
      fun j => { j with inp := w.b }).nextStep r.plate j .lane 5 (msgAddOn w.signedLen) (signD1 w) := by
    unfold State.importChecked
    dsimp only
    rw [if_neg pass3, if_neg (by simpa using h4), ring, index]
  rw [if_neg h3, if_neg h4, e]
  have noted := State.updJob_frame (s.messageBack r) r.plate r.ring r.index fun j => { j with inp := w.b }
  have notedJob := State.jobAt_updJob (State.jobAt_messageBack hj) (fun j => { j with inp := w.b }) fun _ h1 h2 => ⟨h1, h2⟩
  obtain ⟨job, stepped, -⟩ := State.nextStep_spec notedJob ring index .lane 5 (msgAddOn w.signedLen) (signD1 w)
  have frame := (s.messageBack_frame r).trans (noted.trans stepped)
  refine ⟨⟨?_, frame .out (by simp)⟩, frame.mono (by simp [completing])⟩
  rw [job]
  simp [Job.stepping, Job.target]

/-! ## Steps 5 and 7, and what follows them -/

/-- What a lane stores for an update message: the outcome of the signature, or the opened body. -/
theorem importLane_eq (seed : Bytes) (j : Job) : importLane seed j =
    (let w := parseUpdate j.inp
     let good := sigOk w.sigAlg (cut w.b w.signerAt (publicLen w.sigAlg)) [] (cut w.b 0 w.signedLen)
       (cut w.b w.signedLen (signatureLen w.sigAlg))
     if j.phase = 5 then { j with rawA := 1, result := some { status := if good = true then .ok else .authFail } }
     else match updateBody seed w with
       | some body => { j with rawA := 1, par := body, result := some { status := .ok } }
       | none => { j with rawA := 1, result := some { status := .authFail } }) := rfl

theorem importLane_keeps (seed : Bytes) (j : Job) : (importLane seed j).ring = j.ring ∧ (importLane seed j).index = j.index := by
  rw [importLane_eq]
  dsimp only
  split
  · exact ⟨rfl, rfl⟩
  · split <;> exact ⟨rfl, rfl⟩

theorem State.release_import (h : j.desc.op = 0x31) : s.release p j x = s.importStepped p j (x.withWork j.target) := by
  simp [State.release, h]
  rfl

/-- The import counter that a slice's record holds. -/
def State.importCounter (s : State) (p : Plate) (j : Job) : Nat := ((s.pl p).vlt.recs.get {} ((ringSlice j.ring).getD 0)).imp

/-- A lane step that failed ends the job; after the signature a stale counter does; any other outcome leads to the next step. -/
theorem State.importStepped_spec (hj : s.jobAt r = some j) (n : Nat) :
    (let t := s.importStepped r.plate j (x.withWork n)
     (if x.status ≠ .ok then Completes s t r.plate j x
      else if j.phase = 5 ∧ (parseUpdate j.inp).counter ≤ s.importCounter r.plate j then
        Completes s t r.plate j { status := .counterStale }
      else (t.jobAt r).map (fun k => (k.stage, k.cls, k.phase)) =
          some (if j.phase = 5 then (.ready, .lane, 7) else (.ready, .vault, 8)) ∧ t.out = s.out) ∧
     SameBut (completing r.plate) s t ∧ OpsKept s t r.plate) := by
  obtain ⟨ring, index⟩ := State.job_eq hj
  dsimp only
  by_cases ok : x.status ≠ .ok
  · have e : s.importStepped r.plate j (x.withWork n) = s.finish r.plate j (x.withWork (if j.phase = 5 then
        signD1 (parseUpdate j.inp) + msgAddOn (parseUpdate j.inp).signedLen else importWork (parseUpdate j.inp))) := by
      unfold State.importStepped
      dsimp only
      exact if_pos (show (x.status != .ok) = true by simpa using ok)
    rw [if_pos ok, e]
    exact ⟨(State.finish_completes s _ j _).of_withWork, State.finish_frame s _ j _, State.finish_opsKept s _ j _⟩
  have passed : ¬((x.withWork n).status != .ok) = true := show ¬(x.status != .ok) = true by simpa using ok
  rw [if_neg ok]
  have steps (cls : EngClass) (phase addOn d1 : Nat)
      (e : s.importStepped r.plate j (x.withWork n) = s.nextStep r.plate j cls phase addOn d1) :
      (((s.importStepped r.plate j (x.withWork n)).jobAt r).map (fun k => (k.stage, k.cls, k.phase)) = some (.ready, cls, phase) ∧
        (s.importStepped r.plate j (x.withWork n)).out = s.out) ∧
      SameBut (completing r.plate) s (s.importStepped r.plate j (x.withWork n)) ∧
      OpsKept s (s.importStepped r.plate j (x.withWork n)) r.plate := by
    rw [e]
    obtain ⟨job, frame, kept⟩ := State.nextStep_spec hj ring index cls phase addOn d1
    exact ⟨⟨by rw [job]; rfl, frame .out (by simp)⟩, frame.mono (by simp [completing]), kept⟩
  by_cases h5 : j.phase = 5
  · by_cases stale : (parseUpdate j.inp).counter ≤ s.importCounter r.plate j
    · have e : s.importStepped r.plate j (x.withWork n) = s.fail r.plate j .counterStale := by
        unfold State.importStepped
        dsimp only
        rw [if_neg passed, if_pos h5]
        exact if_pos stale
      rw [if_pos ⟨h5, stale⟩, e]
      exact ⟨State.fail_completes s _ j _, State.fail_frame s _ j _, State.finish_opsKept s _ j _⟩
    · rw [if_neg fun h => stale h.2, if_pos h5]
      refine steps .lane 7 0 112 ?_
      unfold State.importStepped
      dsimp only
      rw [if_neg passed, if_pos h5]
      exact if_neg stale
  · rw [if_neg fun h => h5 h.1, if_neg h5]
    refine steps .vault 8 0 0 ?_
    unfold State.importStepped
    dsimp only
    rw [if_neg passed, if_neg h5]

/-! ## Step 9: the commit (R173) -/

/-- The slice record with which an update message is committed. -/
def State.importRecord (s : State) (p : Plate) (i : Nat) (w : Update) (bind : SliceRec → SliceRec) : VItem :=
  .record i { bind (s.recAhead p i) with imp := w.counter }

theorem State.importCommit_stale {bind : SliceRec → SliceRec} {items : List VItem} {o : Nat} {a : After}
    (h : w.counter ≤ (u.recAhead p ((ringSlice j.ring).getD 0)).imp) :
    u.importCommit p j w bind items x o a = u.fail p j .counterStale := if_pos h

/-- A counter above that of every message before it is committed with what the message brings. -/
theorem KeyWork.importCommits (h : KeyWork s u r.plate) (hk : u.jobAt r = some k) {i m : Nat} (hq : r.ring = .tenant i m)
    (hj : j.ring = r.ring) (hi : j.index = r.index) (hc : (s.recAhead r.plate i).imp < w.counter)
    (hr : s.refuses r.plate false = none) (bind : SliceRec → SliceRec) {items : List VItem} (hd : itemDraws items = []) (o : Nat)
    (a : After) : CommitBegun s (u.importCommit r.plate j w bind items x o a) r.plate r.ring r.index
        (s.importRecord r.plate i w bind :: items) x ∧
      SameBut (committing r.plate) u (u.importCommit r.plate j w bind items x o a) := by
  have slice : (ringSlice j.ring).getD 0 = i := by rw [hj, hq]; rfl
  have e : u.importCommit r.plate j w bind items x o a =
      u.commitJob r.plate j (s.importRecord r.plate i w bind :: items) x o a := by
    unfold State.importCommit
    simp only [slice, h.recAhead, h.refuses, hr]
    exact if_neg (Nat.not_le.mpr hc)
  rw [e, ← hj, ← hi]
  exact h.commits (k := k) (items := s.importRecord r.plate i w bind :: items) (by rw [hj, hi]; exact hk) hd o a

/-! ## Step 8: a new importer binding, a slug, and a slot -/

/-- The binding that a message of type 0x02 brings (R170). -/
def bindImporter (w : Update) (body : Bytes) (v : SliceRec) : SliceRec :=
  { v with impAlg := w.alg, impKey := fit 32 (Config.sha3 body) }

theorem State.importBody_binding (ht : w.type = 2) : u.importBody p j w mat =
    if Config.pkValid w.alg mat = true then u.importCommit p j w (bindImporter w mat) [] (importResult w 0 none []) 0
      (.finish j.ring j.index (importResult w 0 none [])) else u.fail p j .range := by
  simp only [State.importBody, ht]
  rfl

/-- Material, attributes, limit or lease that step 8 does not allow. -/
theorem State.importBody_bad (ht : w.type = 1) (hb : materialOk w.alg mat = false ∨ updateAttrs w = false) :
    u.importBody p j w mat = u.fail p j .range := by
  have bad : (!(materialOk w.alg mat && updateAttrs w)) = true := by
    simpa only [Bool.not_eq_true', Bool.and_eq_false_iff] using hb
  simp only [State.importBody, ht, bad]
  rfl

theorem State.importBody_key (ht : w.type = 1) (hb : ¬(materialOk w.alg mat = false ∨ updateAttrs w = false)) :
    u.importBody p j w mat = if w.target = 1 then u.importSlug p j w mat else u.importSlot p j w mat := by
  have good : (!(materialOk w.alg mat && updateAttrs w)) = false := by
    simpa only [Bool.not_eq_false', Bool.and_eq_true, not_or, Bool.not_eq_false] using hb
  simp only [State.importBody, ht, good, beq_iff_eq]
  rfl

/-- A job that has taken ledger entry `e` for its key (R168). -/
def Job.taking (j : Job) (e : Nat) : Job := { j with ledgerNew := some e }

/-- A slug message takes ledger entry `e`, at the next generation of that entry. -/
theorem State.importSlug_eq {i e : Nat} (hi : (ringSlice j.ring).getD 0 = i) (he : u.takeLedger p i = some e) :
    u.importSlug p j w mat =
    (let gen := (u.ledgerAt p e).gen + 1
     let slug := u.slugOf p (w.newKey mat) i e gen (u.newKit p) (u.optime p) (u.drawnAt p vaultInst [4, 12] 1)
     let x := importResult w gen (some e) [(j.desc.aadAddr, slug)]
     ((u.tagged p (some e)).updJob p j.ring j.index (·.taking e)).importCommit p (j.taking e) w id
       [.ledger e (newLedger (w.newKey mat) i true gen)] x 2 (.finish j.ring j.index x)) := by
  subst hi
  simp only [State.importSlug, he]
  rfl

/-- A slot that holds no key of two slots or with a ledger entry, and that nothing else is about to fill or erase, may take a key
that needs neither. -/
structure PlainTarget (s : State) (p : Plate) (i n alg : Nat) : Prop where
  quota : n < (s.quotaNow p i).slots
  standing : s.slotErasing p i n = false
  tag : (s.slotAt p i n).tagOk = true
  state : (s.slotAhead p (slotKey i n)).st = .free ∨ (s.slotAhead p (slotKey i n)).st = .active
  ledger : (s.slotAhead p (slotKey i n)).ledger = none
  single : (s.slotAhead p (slotKey i n)).alg ≠ 0x4A
  untaken : ∀ k ∈ (s.pl p).sl.jobs, generatesInto k i n = false
  newSingle : alg ≠ 0x4A
  newLedgerless : hasLedger alg = false

theorem PlainTarget.importTarget {i n alg : Nat} (h : PlainTarget s p i n alg) :
    s.importTarget p i n alg = (s, .ok (s.slotAhead p (slotKey i n))) := by
  have target : s.targetSlot p i n = (s, .ok (s.slotAt p i n)) := if_pos h.tag
  have untaken : ((s.pl p).sl.jobs.any fun j => generatesInto j i n) = false := by
    simpa only [List.any_eq_false, Bool.not_eq_true] using h.untaken
  have held : (((s.slotAhead p (slotKey i n)).st != .free && (s.slotAhead p (slotKey i n)).st != .active) ||
      (s.pl p).sl.jobs.any fun j => generatesInto j i n) = false := by
    rw [untaken, Bool.or_false]
    rcases h.state with e | e <;> rw [e] <;> rfl
  have single : (alg == 0x4A) = false := by simpa using h.newSingle
  simp only [State.importTarget, if_neg (Nat.not_le.mpr h.quota), h.standing, target, held, single, Bool.false_and]
  rfl

/-- The generation of a key imported into a slot: the next one of a key that it rewrites, or 1 (R174). -/
def importedGen (v : Slot) : Word := if v.st = .active then v.gen + 1 else 1

theorem importedGen_eq (v : Slot) : importedGen v = if v.st == .active then v.gen + 1 else 1 := by
  simp only [importedGen, beq_iff_eq]

/-- A job that is to put a key without a ledger entry over generation `g` of its slot. -/
def Job.replacing (j : Job) (g : Word) : Job := { j with ledgerNew := none, oldGen := g }

/-- The end of a slot message's commit: the completion of a rewrite waits for the jobs that hold the old generation (R190). -/
def slotImported (j : Job) (i n : Nat) (v : Slot) (x : Result) : After :=
  if v.st == .active then .rewritten j.ring j.index i n x else .finish j.ring j.index x

/-- A slot message for a plain target. -/
theorem State.importSlot_eq {i : Nat} (hi : (ringSlice j.ring).getD 0 = i) (h : PlainTarget u p i w.slot w.alg) :
    u.importSlot p j w mat =
      (let v := u.slotAhead p (slotKey i w.slot)
       ((u.tagged p none).updJob p j.ring j.index fun _ => j.replacing v.gen).importCommit p (j.replacing v.gen) w id
         (slotItems (w.newKey mat) i w.slot (importedGen v) (u.newKit p) (u.optime p) (u.drawnAt p vaultInst [4, 12] 1) none)
         (importResult w (importedGen v) none []) 0 (slotImported j i w.slot v (importResult w (importedGen v) none []))) := by
  subst hi
  have single : ((u.slotAhead p (slotKey ((ringSlice j.ring).getD 0) w.slot)).alg == 0x4A) = false := by simpa using h.single
  simp only [State.importSlot, h.importTarget, h.ledger, h.newLedgerless, single, importedGen_eq, ite_self, Bool.and_false,
    Bool.false_and, Bool.not_false, if_true, Bool.false_eq_true, if_false, List.append_nil]
  rfl

/-! ## What the commit of an imported key begins -/

/-- The return of a message's read leaves what a new key may take. -/
theorem State.messageBack_takeLedger (s : State) (r : JobRef) (i : Nat) :
    (s.messageBack r).takeLedger r.plate i = s.takeLedger r.plate i := by
  have work := s.messageBack_keyWork r
  have vlt : ((s.messageBack r).pl r.plate).vlt = (s.pl r.plate).vlt := s.messageBack_frame r (.vlt r.plate) (by simp)
  have jobs : ((s.messageBack r).pl r.plate).sl.jobs = (s.pl r.plate).sl.jobs := by
    rw [State.messageBack, State.retireRead, State.updSl_self]
  have held : (s.messageBack r).ledgerHeld = s.ledgerHeld := by
    unfold State.ledgerHeld State.messageBack
    cases r.plate <;> rfl
  have ledger : (s.messageBack r).ledgerAt r.plate = s.ledgerAt r.plate := funext work.ledgerAt
  have used : (s.messageBack r).ledgerUsed r.plate i = s.ledgerUsed r.plate i := by rw [State.ledgerUsed, State.ledgerUsed, vlt]
  have takable (k : Nat) : (s.messageBack r).ledgerTakable r.plate k = s.ledgerTakable r.plate k := by
    unfold State.ledgerTakable State.ledgerBad
    rw [ledger, held, vlt]
  have lowest : (s.messageBack r).lowestLedger r.plate = s.lowestLedger r.plate := by
    unfold State.lowestLedger
    rw [held, vlt, funext takable]
  unfold State.takeLedger
  dsimp only
  rw [work.quotaNow, used, jobs, ledger, lowest]

theorem State.messageBack_drawnAt (s : State) (r : JobRef) (i : Nat) :
    (s.messageBack r).drawnAt r.plate vaultInst [4, 12] i = s.drawnAt r.plate vaultInst [4, 12] i :=
  State.drawnAt_congr (s.messageBack_frame r (.rng r.plate) (by simp)) (s.messageBack_frame r .clock (by simp))
    (s.messageBack_keyWork r).optime _ _ _

theorem State.messageBack_newKit (s : State) (r : JobRef) : (s.messageBack r).newKit r.plate = s.newKit r.plate := by
  rw [State.newKit, State.newKit, State.messageBack_drawnAt]

/-- A change of a job that keeps whose descriptor it is, as the work of a key before its commit. -/
theorem KeyWork.notes (h : KeyWork s u r.plate) (hj : u.jobAt r = some j) (f : Job → Job)
    (hf : ∀ k, k.ring = r.ring → k.index = r.index → (f k).ring = r.ring ∧ (f k).index = r.index) :
    KeyWork s (u.updJob r.plate r.ring r.index f) r.plate ∧ (u.updJob r.plate r.ring r.index f).jobAt r = some (f j) :=
  ⟨h.trans (State.updJob_keyWork u r.plate r.ring r.index f), State.jobAt_updJob hj f hf⟩

/-- A job that ends may be said to touch what a commit touches too. -/
theorem SameBut.completing_or_committing {t : State} {l : List Part} (h : SameBut (completing p) s t)
    (hl : ∀ y, y ∈ .out :: .pow p :: committing p → y ∈ l) : SameBut l s t :=
  h.mono fun y hy => hl y (by simp only [completing, committing, List.mem_cons, List.not_mem_nil] at hy ⊢; tauto)

/-- A new importer binding is committed with its counter (R170). -/
theorem State.importBody_binds {i m : Nat} (hj : s.jobAt r = some j) (hq : r.ring = .tenant i m)
    (hr : s.refuses r.plate false = none) (hc : (s.recAhead r.plate i).imp < w.counter) (ht : w.type = 2) :
    (let t := (s.messageBack r).importBody r.plate j w mat
     (if Config.pkValid w.alg mat = true then
        CommitBegun s t r.plate r.ring r.index [s.importRecord r.plate i w (bindImporter w mat)] (importResult w 0 none [])
      else Completes s t r.plate j { status := .range }) ∧
     SameBut (.out :: .pow r.plate :: committing r.plate) s t) := by
  obtain ⟨ring, index⟩ := State.job_eq hj
  dsimp only
  rw [State.importBody_binding ht]
  by_cases valid : Config.pkValid w.alg mat = true
  · rw [if_pos valid, if_pos valid]
    refine ((s.messageBack_keyWork r).importCommits (State.jobAt_messageBack hj) hq ring index hc hr (bindImporter w mat)
      (items := []) rfl _ _).imp_right fun frame => ?_
    exact ((s.messageBack_frame r).mono (by simp [committing])).trans (frame.mono (by simp +contextual))
  · rw [if_neg valid, if_neg valid]
    exact (s.messageBack_finishes r j { status := .range }).imp_right fun frame =>
      frame.completing_or_committing fun _ hy => hy

/-- A counter that a message before it has reached ends a new importer binding, after the check of its key (R173). -/
theorem State.importBody_staleBinding {i m : Nat} (hj : s.jobAt r = some j) (hq : r.ring = .tenant i m)
    (hc : w.counter ≤ (s.recAhead r.plate i).imp) (ht : w.type = 2) :
    (let t := (s.messageBack r).importBody r.plate j w mat
     Completes s t r.plate j { status := if Config.pkValid w.alg mat = true then .counterStale else .range } ∧
     SameBut (completing r.plate) s t) := by
  have slice : (ringSlice j.ring).getD 0 = i := by rw [(State.job_eq hj).1, hq]; rfl
  dsimp only
  rw [State.importBody_binding ht, State.importCommit_stale (by rwa [(s.messageBack_keyWork r).recAhead, slice])]
  split <;> exact s.messageBack_finishes r j _

/-- An imported slot key is committed with its counter (R173, R174). -/
theorem State.importSlot_spec {i m : Nat} (hj : s.jobAt r = some j) (hq : r.ring = .tenant i m)
    (hr : s.refuses r.plate false = none) (hc : (s.recAhead r.plate i).imp < w.counter)
    (hp : PlainTarget (s.messageBack r) r.plate i w.slot w.alg) :
    (let v := s.slotAhead r.plate (slotKey i w.slot)
     let t := (s.messageBack r).importSlot r.plate j w mat
     CommitBegun s t r.plate r.ring r.index (s.importRecord r.plate i w id :: slotItems (w.newKey mat) i w.slot (importedGen v)
        (s.newKit r.plate) (s.optime r.plate) (s.drawnAt r.plate vaultInst [4, 12] 1) none)
       (importResult w (importedGen v) none []) ∧
     SameBut (.rng r.plate :: committing r.plate) s t) := by
  obtain ⟨ring, index⟩ := State.job_eq hj
  have back := s.messageBack_keyWork r
  dsimp only
  rw [State.importSlot_eq (by rw [ring, hq]; rfl) hp, back.slotAhead, back.optime, s.messageBack_newKit, s.messageBack_drawnAt,
    ring, index]
  generalize s.slotAhead r.plate (slotKey i w.slot) = v
  obtain ⟨work, job⟩ := (back.trans ((s.messageBack r).tagged_keyWork r.plate none)).notes
    (State.tagged_jobAt (State.jobAt_messageBack hj) none) (fun _ => j.replacing v.gen) fun _ _ _ => ⟨ring, index⟩
  exact (work.importCommits job hq ring index hc hr id (itemDraws_slotItems _ _ _ _ _ _ _ _) _ _).imp_right work.covers

/-- The ledger entry of an imported slug key is committed with its counter; its slug is written with the completion (R173). -/
theorem State.importSlug_spec {i m e : Nat} (hj : s.jobAt r = some j) (hq : r.ring = .tenant i m)
    (hr : s.refuses r.plate false = none) (hc : (s.recAhead r.plate i).imp < w.counter) (he : s.takeLedger r.plate i = some e) :
    (let gen := (s.ledgerAt r.plate e).gen + 1
     let slug := s.slugOf r.plate (w.newKey mat) i e gen (s.newKit r.plate) (s.optime r.plate)
       (s.drawnAt r.plate vaultInst [4, 12] 1)
     let t := (s.messageBack r).importSlug r.plate j w mat
     CommitBegun s t r.plate r.ring r.index [s.importRecord r.plate i w id, .ledger e (newLedger (w.newKey mat) i true gen)]
       (importResult w gen (some e) [(j.desc.aadAddr, slug)]) ∧
     SameBut (.rng r.plate :: committing r.plate) s t) := by
  obtain ⟨ring, index⟩ := State.job_eq hj
  have back := s.messageBack_keyWork r
  dsimp only
  rw [State.importSlug_eq (by rw [ring, hq]; rfl) ((s.messageBack_takeLedger r i).trans he)]
  dsimp only
  rw [back.slugOf, back.ledgerAt, back.optime, s.messageBack_newKit, s.messageBack_drawnAt, ring, index]
  obtain ⟨work, job⟩ := (back.trans ((s.messageBack r).tagged_keyWork r.plate (some e))).notes
    (State.tagged_jobAt (State.jobAt_messageBack hj) (some e)) (·.taking e) fun _ h1 h2 => ⟨h1, h2⟩
  exact (work.importCommits job hq ring index hc hr id (items := [.ledger e _]) rfl _ _).imp_right work.covers

/-- A key that step 8 does not allow ends the job, and writes nothing. -/
theorem State.importBody_bad_spec (s : State) (r : JobRef) (ht : w.type = 1)
    (hb : materialOk w.alg mat = false ∨ updateAttrs w = false) :
    Completes s ((s.messageBack r).importBody r.plate j w mat) r.plate j { status := .range } ∧
      SameBut (.rng r.plate :: .out :: .pow r.plate :: committing r.plate) s ((s.messageBack r).importBody r.plate j w mat) := by
  rw [State.importBody_bad ht hb]
  exact (s.messageBack_finishes r j _).imp_right fun frame =>
    frame.completing_or_committing fun _ hy => List.mem_cons_of_mem _ hy

/-- The items of a new key of one slot without a ledger entry. -/
theorem slotItems_single {k : NewKey} (h : k.alg ≠ 0x4A) (i n : Nat) (gen kit : Word) (c : Nat) (nonce : Bytes) :
    slotItems k i n gen kit c nonce none = [.slot (slotKey i n)
      { st := .active, alg := k.alg, attr := k.attr, gen := gen, ledger := none, kit := kit, span := 1, created := c,
        nonce := nonce, material := k.mat }] := by
  simp only [slotItems, if_neg h, List.nil_append]

/-! ## Tables 7.2 to 7.4, clause by clause -/

/-- KEY_IMPORT runs the steps of Table 7.4 in order. -/
theorem updateMessageSteps : UpdateMessageSteps := by
  unfold UpdateMessageSteps
  refine ⟨?stalled, ?fault, ?reads, ?lane, ?stepped, ?binds, ?stale, ?slot, ?slug⟩
  case stalled =>
    intro r j d s h hm
    exact ⟨_, exec_keyImport_stalled h hm, s.messageBack_finishes r j _⟩
  case fault =>
    intro r j s h hm hp
    exact ⟨_, exec_keyImport_reads h hm hp, s.messageBack_finishes r j _⟩
  case reads =>
    intro r j b s h hm hp
    refine ⟨_, exec_keyImport_reads h hm hp, ?_⟩
    have recs : ((s.messageBack r).pl r.plate).vlt.recs = (s.pl r.plate).vlt.recs :=
      congrArg Vault.recs (s.messageBack_frame r (.vlt r.plate) (by simp))
    simp only [State.importRead, recs]
    cases updateStep1 (messageOf j b) j.desc.inLen.toNat with
    | some st => exact s.messageBack_finishes r j _
    | none =>
      cases updateStep2 (messageOf j b) j.desc ((ringSlice j.ring).getD 0)
          ((s.pl r.plate).vlt.recs.get {} ((ringSlice j.ring).getD 0)).impAlg with
      | some e => exact s.messageBack_finishes r j _
      | none => exact State.importChecked_spec h.1 _ _
  case lane =>
    intro r j d s h hc
    have frame := State.updJobAt_frame s r (importLane (s.seed r.plate))
    have job : (s.updJobAt r (importLane (s.seed r.plate))).jobAt r = some (importLane (s.seed r.plate) j) :=
      State.jobAt_updJob h.1 _ fun k h1 h2 =>
        ⟨(importLane_keeps _ k).1.trans h1, (importLane_keeps _ k).2.trans h2⟩
    refine ⟨_, exec_keyImport_lane h hc, ?_, frame .out (by simp), frame⟩
    rw [job, importLane_eq]
    dsimp only
    split
    · rfl
    · cases updateBody (s.seed r.plate) (parseUpdate j.inp) <;> rfl
  case stepped =>
    intro r j x s hj ht hf hx hd ho ha hb
    have e := (State.reachTarget_done (s := s) (p := r.plate) hf hx hd).trans (State.release_import ho)
    obtain ⟨stepped, frame, kept⟩ := State.importStepped_spec (x := x) hj j.target
    exact ⟨_, exec_justifierRelease hj ht ha hb (e ▸ kept), e ▸ stepped, e ▸ frame⟩
  case binds =>
    intro r j i m d s h hq hm hp hr w hc ht
    exact ⟨_, exec_keyImport_commits h hm hp (.inl ht), State.importBody_binds h.1 hq hr hc ht⟩
  case stale =>
    intro r j i m d s h hq hm hp ht hc
    exact ⟨_, exec_keyImport_commits h hm hp (.inl ht), State.importBody_staleBinding h.1 hq hc ht⟩
  case slot =>
    intro r j i m d s h hq hm hp hr hd w v hc ht h0 hl ha hslot herase htag hst hva hvl hgen
    have back := s.messageBack_keyWork r
    have jobs : ((s.messageBack r).pl r.plate).sl.jobs = (s.pl r.plate).sl.jobs := by
      rw [State.messageBack, State.retireRead, State.updSl_self]
    have target : PlainTarget (s.messageBack r) r.plate i w.slot w.alg := by
      refine ⟨?_, ?_, ?_, ?_, ?_, ?_, ?_, ha, hl⟩
      · rwa [back.quotaNow]
      · unfold State.slotErasing
        rwa [back.slotAt, jobs]
      · rwa [back.slotAt]
      · rwa [back.slotAhead]
      · rwa [back.slotAhead]
      · rwa [back.slotAhead]
      · rwa [jobs]
    refine ⟨_, exec_keyImport_commits h hm hp (.inr hd), ?_⟩
    dsimp only
    by_cases hb : materialOk w.alg j.par = false ∨ updateAttrs w = false
    · rw [if_pos hb]
      exact s.importBody_bad_spec r ht hb
    · rw [if_neg hb, State.importBody_key ht hb, if_neg (by rw [h0]; decide)]
      obtain ⟨begun, frame⟩ := State.importSlot_spec (mat := j.par) h.1 hq hr hc target
      rw [slotItems_single (k := w.newKey j.par) ha] at begun
      exact ⟨begun, frame.mono (by simp +contextual)⟩
  case slug =>
    intro r j i m e d s h hq hm hp hr he hd w hc ht h1
    refine ⟨_, exec_keyImport_commits h hm hp (.inr hd), ?_⟩
    dsimp only
    by_cases hb : materialOk w.alg j.par = false ∨ updateAttrs w = false
    · rw [if_pos hb]
      exact s.importBody_bad_spec r ht hb
    · rw [if_neg hb, State.importBody_key ht hb, if_pos h1]
      obtain ⟨begun, frame⟩ := State.importSlug_spec (mat := j.par) h.1 hq hr hc he
      exact ⟨begun, frame.mono (by simp +contextual)⟩

/-- Settles O20: a lane's try (`tried_spec`), the key-state step (`commitGenerated_slot_spec`, `commitGenerated_slug_spec`), a
refused commit, and the steps of Table 7.4 (`updateMessageSteps`). -/
theorem keysAreMade : Obligations.KeysAreMade := by
  unfold Obligations.KeysAreMade
  refine ⟨?lane, ?slot, ?slug, ?refused, updateMessageSteps⟩
  case lane =>
    intro r j s h hc
    obtain ⟨job, rng, frame⟩ := State.tried_spec (State.jobAt_of_laneWorking h)
    exact ⟨_, s.materialAttempts j, exec_keyGenerate_lane h hc, job.trans (congrArg some (s.tryMaterial_eq r.plate j)),
      s.rejects_lt_materialAttempts, s.materialAttempts_pos j, s.materialAttempts_of_not_rsa, rng, frame .out (by simp), frame⟩
  case slot =>
    intro r j i n m s h hq hs hk hr hc
    have work := s.withMaterial_keyWork r.plate j
    have spec := State.commitGenerated_slot_spec work (State.withMaterial_jobAt h.1) hq hs hk ((work.refuses false).trans hr)
      (generatedNow s r.plate j).mat (if j.begun = true then j.attempts else 1) (if j.begun = true then j.target else 0)
    rw [generateResult_slot, work.newGen, work.optime] at spec
    exact ⟨_, exec_keyGenerate_commits h hc, spec⟩
  case slug =>
    intro r j i m e s h hq hs he hr hc
    have work := s.withMaterial_keyWork r.plate j
    have spec := State.commitGenerated_slug_spec work (State.withMaterial_jobAt h.1) hq hs he ((work.refuses true).trans hr)
      (generatedNow s r.plate j).mat (if j.begun = true then j.attempts else 1) (if j.begun = true then j.target else 0)
    rw [generateResult_slug, work.slugOf, work.ledgerAt, work.optime] at spec
    exact ⟨_, exec_keyGenerate_commits h hc, spec⟩
  case refused =>
    intro r j st s h hc hr
    have work := s.withMaterial_keyWork r.plate j
    obtain ⟨ended, frame⟩ := work.finishes j { status := st }
    refine ⟨_, exec_keyGenerate_commits h hc, ?_⟩
    rw [State.commitGenerated_refused ((work.refuses _).trans hr)]
    exact ⟨ended, frame.mono (by simp +contextual)⟩

end Sys2Proof.Machine

/-! PROOFS. A page that is retired and taken in its own place (O46). -/

namespace Sys2Proof.Machine

/-! ## A table of pages that lists one page twice -/

/-- The vault's pages from 344,065 on, each taken for a group. -/
def takenPages : Tab (Option NvmPage) := (List.range' 344065 49151).map fun x => (x, some { use_ := .taken })

/-- A table that lists page 344,064 twice, the second time as free, and every later page as taken. -/
def twiceListed (v : NvmPage) : Tab (Option NvmPage) := (344064, some v) :: (344064, some {}) :: takenPages

theorem Tab.get_map_const {α : Type} (l : List Nat) (a d : α) (i : Nat) :
    Tab.get (l.map fun x => (x, a)) d i = if i ∈ l then a else d := by
  induction l with
  | nil => rfl
  | cons k l ih =>
    simp only [List.map_cons, Tab.get, ih, List.mem_cons]
    by_cases h : i = k <;> simp [h]

theorem get_takenPages (x : Nat) :
    takenPages.get none x = if 344065 ≤ x ∧ x < 393216 then some { use_ := .taken } else none := by
  simp only [takenPages, Tab.get_map_const, List.mem_range'_1]

section

variable {n : Nvm} {v : NvmPage} (h : n.pages = twiceListed v)
include h

theorem page_twiceListed : n.page 344064 = v := by
  simp [Nvm.page, h, twiceListed, Tab.get]

/-- Every page of the pool is listed. -/
theorem listed_twiceListed {x : Nat} (hx : 344064 ≤ x) (hx' : x < 393216) : (n.pages.get none x).isSome = true := by
  rw [h, twiceListed]
  by_cases e : x = 344064
  · simp [Tab.get, e]
  · have above : 344065 ≤ x := by omega
    simp [Tab.get, e, get_takenPages, hx', above]

/-- The search for a page that no group has touched passes every listed page of the pool. -/
theorem untouched_twiceListed (fuel x : Nat) (hx : 344064 ≤ x) (hf : 393216 ≤ x + fuel) : 393216 ≤ n.untouched fuel x := by
  induction fuel generalizing x with
  | zero => exact hf
  | succ fuel ih =>
    unfold Nvm.untouched
    by_cases e : x < 393216
    · rw [if_pos (listed_twiceListed h hx e)]
      exact ih (x + 1) (by omega) (by omega)
    · split
      · exact ih (x + 1) (by omega) (by omega)
      · omega

/-- The one free page that the table lists is page 344,064. -/
theorem freePage_twiceListed (hv : v.use_ ≠ .free) : n.freePage false = some 344064 := by
  have free : (n.touched.filter fun e => e.2.use_ == .free) = [(344064, {})] := by
    have taken : ((takenPages.filterMap fun e => e.2.map fun v => (e.1, v)).filter fun e => e.2.use_ == .free) = [] := by
      rw [List.filter_eq_nil_iff]
      intro e he
      simp only [takenPages, List.mem_filterMap, List.mem_map] at he
      obtain ⟨_, ⟨y, -, rfl⟩, he⟩ := he
      cases he
      exact Bool.false_ne_true
    have head : (v.use_ == .free) = false := by simpa using hv
    simp only [Nvm.touched, h, twiceListed, List.filterMap_cons, Option.map_some, List.filter_cons, head, taken]
    rfl
  have size : n.pages.length = 49153 := by simp [h, twiceListed, takenPages]
  have beyond := untouched_twiceListed h 49153 344064 (by decide) (by decide)
  simp only [Nvm.freePage, size, free, if_neg (Nat.not_lt.mpr beyond)]
  rfl

end

/-! ## Pages retired in NO_WRITE (R338, R341) -/

variable {s u : State} {p : Plate} {n : Nvm} {v : NvmPage} {c : Nat}

/-- What NVM holds of its pages, its wear state and its count of retired pages. -/
def Nvm.wearView (n : Nvm) : Tab (Option NvmPage) × Nat × Nat := (n.pages, n.state, n.retVault)

theorem Nvm.updPage_twiceListed (h : n.wearView = (twiceListed v, 3, c)) (f : NvmPage → NvmPage) :
    (n.updPage 344064 f).wearView = (twiceListed (f v), 3, c) := by
  simp only [Nvm.wearView, Prod.mk.injEq] at h
  obtain ⟨pages, state, retired⟩ := h
  simp [Nvm.wearView, Nvm.updPage, page_twiceListed pages, pages, state, retired, twiceListed, Tab.set, Tab.put]

theorem State.record_wearView (s : State) (p : Plate) (t k : Nat) (d : Word) :
    ((s.record p t k d).pl p).nvm.wearView = (s.pl p).nvm.wearView := by
  unfold State.record
  dsimp only
  repeat' split
  all_goals simp [Nvm.wearView]

/-- In NO_WRITE a retired page is counted, and no group starts for the bad-page table. -/
theorem State.retirePage_noWrite {t : Tab (Option NvmPage)} (h : (s.pl p).nvm.wearView = (t, 3, c)) (x : Nat) :
    ((s.retirePage p 0 x).pl p).nvm.wearView = (t, 3, satAdd 16 c 1) := by
  simp only [Nvm.wearView, Prod.mk.injEq] at h
  obtain ⟨pages, state, retired⟩ := h
  have lost : ((s.updNvm p fun n => n.losePage 0 x).pl p).nvm = (s.pl p).nvm.losePage 0 x := State.updNvm_self s p _
  have noWrite : ((s.pl p).nvm.losePage 0 x).noWrite = true := by simp [Nvm.losePage, Nvm.noWrite, state]
  unfold State.retirePage
  dsimp only
  rw [lost, if_pos noWrite, State.record_wearView, lost]
  simp [Nvm.losePage, Nvm.wearView, pages, state, retired]

/-- NO_WRITE is the last wear state (Table 15.5). -/
theorem State.wearNext_noWrite (h : (s.pl p).nvm.state = 3) (was : Nat) : s.wearNext p was = s := by
  simp [State.wearNext, h]

theorem State.retireVault_twiceListed (h : (s.pl p).nvm.wearView = (twiceListed v, 3, c)) :
    ((s.retireVault p 344064).pl p).nvm.wearView =
      (twiceListed { v with rec1 := none, rec2 := none, use_ := .retired }, 3, satAdd 16 c 1) := by
  have cleared := Nvm.updPage_twiceListed h fun v => { v with rec1 := none, rec2 := none, use_ := .retired }
  rw [← State.updNvm_self s p fun n => n.updPage 344064 _] at cleared
  have retired := State.retirePage_noWrite cleared 344064
  rw [State.retireVault, State.wearOut, State.wearNext_noWrite (congrArg (·.2.1) retired), retired]

/-- Plate `p` is in NO_WRITE, its table lists page 344,064 twice, that page has reached its last cycle, and `c` pages are
retired. -/
def Worn (s : State) (p : Plate) (c : Nat) : Prop :=
  ∃ v, (s.pl p).nvm.wearView = (twiceListed v, 3, c) ∧ 1000000 ≤ v.cycles

/-- A program of page `x` is counted among its cycles, and noted where its pulses are given (R338). -/
def State.programmed (s : State) (p : Plate) (pulses : List Nat) (x : Nat) : State :=
  s.updNvm p fun n => (if pulses.isEmpty then n else n.notePulses (pulses.head?.getD 1) s.clock).updPage x fun v =>
    { v with cycles := v.cycles + 1 }

/-- A program that fails is repeated on the next free page, once its own is retired (R338). -/
theorem State.programPages_repeats {pulses t : List Nat} {x y : Nat}
    (hf : ((s.pl p).nvm.page x).fails (pulses.head?.getD 1) = true)
    (hy : (((s.programmed p pulses x).retireVault p x).pl p).nvm.freePage false = some y) (fuel : Nat) :
    s.programPages p (fuel + 1) pulses (x :: t) =
      (((s.programmed p pulses x).retireVault p x).updNvm p fun n => n.updPage y fun v => { v with use_ := .taken }).programPages
        p fuel (pulses.drop 1) (y :: t) := by
  unfold State.programmed at hy ⊢
  conv_lhs => unfold State.programPages
  simp only [if_pos hf, hy]

/-- The program of that page fails, the page is retired, and the page taken in its place is the same one again. -/
theorem Worn.programs (h : Worn s p c) (fuel : Nat) (pulses t : List Nat) : ∃ u, Worn u p (satAdd 16 c 1) ∧
    s.programPages p (fuel + 1) pulses (344064 :: t) = u.programPages p fuel (pulses.drop 1) (344064 :: t) := by
  obtain ⟨v, view, worn⟩ := h
  have fails : ((s.pl p).nvm.page 344064).fails (pulses.head?.getD 1) = true := by
    rw [page_twiceListed (congrArg (·.1) view)]
    simp [NvmPage.fails, worn]
  have tried : ((s.programmed p pulses 344064).pl p).nvm.wearView = (twiceListed { v with cycles := v.cycles + 1 }, 3, c) := by
    rw [State.programmed, State.updNvm_self]
    refine Nvm.updPage_twiceListed ?_ _
    split <;> exact view
  have again := State.retireVault_twiceListed tried
  have taken := Nvm.updPage_twiceListed again fun v => { v with use_ := .taken }
  rw [← State.updNvm_self _ p fun n => n.updPage 344064 _] at taken
  exact ⟨_, ⟨_, taken, Nat.le_succ_of_le worn⟩,
    State.programPages_repeats fails (freePage_twiceListed (congrArg (·.1) again) (by simp)) fuel⟩

/-! ## The end of a group that holds no logical page -/

theorem Nvm.takePages_retVault (n : Nvm) (b : Bool) (l : List Nat) : (n.takePages b l).1.retVault = n.retVault := by
  induction l generalizing n with
  | nil => rfl
  | cons k l ih =>
    unfold Nvm.takePages
    split
    · exact ih _
    · rfl

theorem Nvm.promote_retVault (n : Nvm) (fuel : Nat) : (n.promote fuel).retVault = n.retVault := by
  induction fuel generalizing n with
  | zero => rfl
  | succ fuel ih =>
    unfold Nvm.promote
    split
    · exact (ih _).trans (Nvm.takePages_retVault _ _ _)
    · rfl

/-- A group for wear levelling of no page, which has taken page 344,064. -/
def emptyGroup : Group := { kind := .wear, taken := [344064] }

/-- It ends without another page retired. -/
theorem State.groupDone_retVault (s : State) (p : Plate) :
    ((s.groupDone p emptyGroup).pl p).nvm.retVault = (s.pl p).nvm.retVault := by
  have content : SameBut [.vlt p] s (s.applyContent p false emptyGroup) := State.updVlt_frame s p _
  have nvm : ((s.applyContent p false emptyGroup).pl p).nvm = (s.pl p).nvm := content (.nvm p) (by simp)
  have committed := State.updNvm_self (s.applyContent p false emptyGroup) p fun _ => ((s.applyContent p false emptyGroup).pl p).nvm
  have applied : ((s.applyGroup p false emptyGroup).pl p).nvm.retVault = (s.pl p).nvm.retVault :=
    congrArg Nvm.retVault (committed.trans nvm)
  have done := State.updNvm_self (s.applyGroup p false emptyGroup) p fun n =>
    Nvm.promote { n with groups := n.groups.filter fun h => h.seq != emptyGroup.seq } 4
  exact (congrArg Nvm.retVault done).trans ((Nvm.promote_retVault _ 4).trans applied)

/-! ## The refutation -/

/-- Plate A in service and in NO_WRITE, with that group in progress. Its table of pages is not in the canonical form: page 344,064,
at its last cycle, stands in it once more as a free page, and no other page of the pool is left. -/
def wornState : State :=
  { pa := { pow := { phase := .running }
            nvm := { state := 3, groups := [emptyGroup], pages := twiceListed { cycles := 1000000, use_ := .taken } } } }

theorem wornState_worn : Worn wornState .a 0 := ⟨_, rfl, Nat.le_refl _⟩

/-- Its other pages have no cycles. -/
theorem wornState_fresh (z : Nat) (hz : z ≠ 344064) : ((wornState.pl .a).nvm.page z).cycles < 1000000 := by
  simp only [State.pl, wornState, Nvm.page, twiceListed, Tab.get, if_neg hz, get_takenPages]
  split <;> exact Nat.zero_lt_succ _

/-- The group's end retires that page, takes it anew, and retires it again. -/
theorem wornState_retires_twice :
    ∃ t, exec (.nvmCommitDone .a ⟨false, [1]⟩) wornState = .next t ∧ (t.pl .a).nvm.retVault = 2 := by
  obtain ⟨u, first, programmed⟩ := wornState_worn.programs 1 [1] []
  obtain ⟨w, ⟨_, view, -⟩, programmed'⟩ := first.programs 0 [] []
  have programs : wornState.programPages .a 2 [1] [344064] = (w, [344064]) := programmed.trans (programmed'.trans rfl)
  refine ⟨w.groupDone .a emptyGroup, ?_, ?_⟩
  · show Host.Outcome.next ((wornState.programPages .a 2 [1] [344064]).1.groupDone .a
      { emptyGroup with taken := (wornState.programPages .a 2 [1] [344064]).2 }) = _
    rw [programs]
    rfl
  · rw [State.groupDone_retVault]
    exact congrArg (·.2.2) view

/-- Refutes O46: a page that has reached its last cycle is said to be counted once among the retired pages, but the clause is
stated over every state, also one whose table of pages lists a page twice (no hypothesis says that the table is in its canonical
form). There the retired page may be the one free page that is left: it is taken in its own place, fails again, and is counted
again. -/
theorem not_nvmCommits : ¬ Obligations.NvmCommits := by
  unfold Obligations.NvmCommits
  rintro ⟨-, -, -, -, -, retires, -⟩
  obtain ⟨t, ht, once, -⟩ := retires .a emptyGroup [] 1 344064 wornState rfl rfl rfl rfl rfl rfl (.inr (by decide))
    wornState_fresh (by decide)
  obtain ⟨u, hu, twice⟩ := wornState_retires_twice
  rw [ht] at hu
  obtain rfl := Host.Outcome.next.inj hu
  rw [twice] at once
  exact absurd once (by decide)

end Sys2Proof.Machine

/-! PROOFS. Statements computed by a lane (O17). -/

namespace Sys2Proof.Machine

variable {s : State} {r : JobRef} {j : Job}

/-- The outcome of a statement job over `head`, signed under two values that its lane's generator gives. -/
def State.statementResult (s : State) (r : JobRef) (j : Job) (head : Bytes) : Result :=
  let draw := s.drawnAt r.plate j.drbg [64, 32]
  let b := signStatement (s.seed r.plate) head (draw 0) (draw 1)
  { status := .ok, outLen := b.length, info := BitVec.ofNat 32 (statementAttempts (s.seed r.plate) head (draw 1)),
    writes := [(j.desc.outAddr, b)] }

/-- One statement draws 64 bytes for its ECDSA part and 32 for its ML-DSA part. -/
theorem signDraws_one : signDraws 1 = [64, 32] := rfl

theorem State.statementDone_computed (hj : s.jobAt r = some j) (draw : s.canDraw r.plate j.drbg 2 = true) (head : Bytes) :
    LaneComputed s (s.statementDone r j head) r j
      (statementAttempts (s.seed r.plate) head (s.drawnAt r.plate j.drbg [64, 32] 1)) [64, 32]
      (s.statementResult r j head) := by
  have done : s.statementDone r j head = (s.drew r.plate j.drbg [64, 32]).laneDone r
      (statementAttempts (s.seed r.plate) head (s.drawnAt r.plate j.drbg [64, 32] 1)) (s.statementResult r j head) := by
    simp only [State.statementDone, signDraws_one, List.length_cons, List.length_nil, Nat.reduceAdd, draw, Bool.not_true,
      Bool.false_eq_true, if_false]
    rfl
  rw [done]
  exact State.laneComputed hj _ _ _

theorem exec_deviceAttest (h : LaneWorking s r 0x50 j) :
    exec (.deviceAttest r) s =
      .next (s.statementDone r j (s.statementHead r.plate 0x01 j.par (s.colophonBody r.plate))) := by
  show execDeviceAttest r s = _
  rw [execDeviceAttest, State.laneWorking_of h]

theorem exec_keyAttest {k : Key} (h : LaneWorking s r 0x34 j) (hk : j.key = some k) :
    exec (.keyAttest r) s = .next (s.statementDone r j (s.statementHead r.plate 0x02 j.par
      (s.keyRecord r.plate ((ringSlice j.ring).getD 0) k j.entry))) := by
  show execKeyAttest r s = _
  rw [execKeyAttest, State.laneWorking_of h]
  simp only [hk, Option.getD_some]

/-- Settles O17, by the two equations of the statement opcodes and what a lane's computed statement leaves. -/
theorem statementsAreSigned : Obligations.StatementsAreSigned := by
  unfold Obligations.StatementsAreSigned
  refine ⟨fun r j s h draw => ⟨_, exec_deviceAttest h, ?_⟩, fun r j k s h hk draw => ⟨_, exec_keyAttest h hk, ?_⟩⟩
  all_goals exact State.statementDone_computed (State.jobAt_of_laneWorking h) draw _

end Sys2Proof.Machine

/-! PROOFS. The erasure of keys (O21). -/

namespace Sys2Proof.Machine

variable {s : State} {p : Plate} {r : JobRef} {j : Job} {k : Key} {i n m a e pos : Nat} {x : Result}

/-! ## What an erase commits (Table 7.10) -/

theorem slotSpan_eq (v : Slot) (k : Nat) : slotSpan v k = keySlots v k := by simp [slotSpan, keySlots]

theorem itemDraws_eq_nil {items : List VItem} (h : ∀ v ∈ items, v.draws = []) : itemDraws items = [] := by
  simpa [itemDraws] using h

/-- A slot's change of its ledger entry. -/
def ledgerItems (o : Option Nat) (g : Nat → Ledger) : List VItem :=
  match o with
  | some e => [.ledger e (g e)]
  | none => []

theorem ledgerItems_draws (o : Option Nat) (g : Nat → Ledger) : ∀ v ∈ ledgerItems o g, v.draws = [] := by
  cases o <;> simp [ledgerItems, VItem.draws]

theorem State.erasingItems_slot (h : (s.slotAhead p (slotKey i n)).tagOk = true) :
    s.erasingItems p (.slot i n) =
      (keySlots (s.slotAhead p (slotKey i n)) (slotKey i n)).map (fun k => .slot k { s.slotAhead p k with st := .erasing }) ++
        ledgerItems (s.slotAhead p (slotKey i n)).ledger fun e => { s.ledgerAhead p e with st := .erasing } := by
  simp only [State.erasingItems, if_pos h, slotSpan_eq]
  rfl

theorem State.erasedItems_slot (s : State) (p : Plate) (i n : Nat) :
    s.erasedItems p (.slot i n) = (keySlots (s.slotAt p i n) (slotKey i n)).map (fun k => .slot k {}) ++
      ledgerItems (s.slotAt p i n).ledger fun e => { gen := (s.ledgerAt p e).gen } := by
  simp only [State.erasedItems, slotSpan_eq]
  rfl

/-- Slots that change with their ledger entry carry no secrets. -/
theorem itemDraws_slots (l : List Nat) (f : Nat → Slot) (o : Option Nat) (g : Nat → Ledger) :
    itemDraws (l.map (fun k => .slot k (f k)) ++ ledgerItems o g) = [] := by
  refine itemDraws_eq_nil fun v hv => ?_
  rcases List.mem_append.mp hv with slot | entry
  · obtain ⟨k, -, rfl⟩ := List.mem_map.mp slot
    rfl
  · exact ledgerItems_draws o g v entry

/-! ## Which erase is accepted (R187 to R189) -/

theorem eraseItem_slot (hj : s.jobAt r = some j) (hr : r.ring = .tenant i m) (hk : parseKref j.desc.keyRef = .slot n) :
    eraseItem j = some (.slot i n) := by
  simp [eraseItem, hk, (State.job_eq hj).1, hr, ringSlice]

theorem eraseItem_slug (ref : parseKref j.desc.keyRef = .slug a) (hk : j.key = some k) (hl : k.ledger = some e) :
    eraseItem j = some (.ledger e) := by
  simp [eraseItem, ref, hk, hl]

theorem eraseItem_handle {h : DWord} (ref : parseKref j.desc.keyRef = .handle h) (he : j.entry = some pos) :
    eraseItem j = some (.handle ((ringSlice j.ring).getD 0) pos) := by
  simp [eraseItem, ref, he]

theorem State.eraseRefused_slot (hi : eraseItem j = some (.slot i n)) (tag : (s.slotAhead p (slotKey i n)).tagOk = true) :
    s.eraseRefused p j =
      if s.alreadyErasing p j = true ∨ (s.slotAhead p (slotKey i n)).st ≠ .active then some .keyGone
      else if (s.pl p).pr.mode = .paired ∧ s.gutterUp p = false then some .partitioned
      else s.refuses p false := by
  simp [State.eraseRefused, hi, tag]

theorem State.eraseRefused_slug (hi : eraseItem j = some (.ledger e)) (hk : j.key = some k) :
    s.eraseRefused p j =
      if s.alreadyErasing p j = true ∨ (s.ledgerAhead p e).st ≠ .active ∨ (s.ledgerAhead p e).gen ≠ k.gen then some .keyGone
      else if (s.pl p).pr.mode = .paired ∧ s.gutterUp p = false then some .partitioned
      else s.refuses p true := by
  simp [State.eraseRefused, hi, hk]

theorem State.eraseRefused_handle (hi : eraseItem j = some (.handle i pos)) :
    s.eraseRefused p j = if s.handleStands p i pos j.desc.keyRef = true then none else some .keyGone := by
  simp [State.eraseRefused, hi]

/-! ## Handles that end (R191) -/

/-- The lines of an ended handle that no started job uses are free. -/
theorem State.freeEnded_free {f : CacheEntry} (he : s.entryAt p i pos = some f) (ended : f.ended = true)
    (unused : s.refcount p (.handle i pos) = 0) : (s.freeEnded p i pos).entryAt p i pos = none := by
  have freed : s.freeEnded p i pos = s.updVlt p fun v =>
      { v with cache := v.cache.filter fun e => !(e.slice == i && e.pos == pos) } := by
    simp only [State.freeEnded, he, ended, unused, beq_self_eq_true, Bool.and_self, if_true]
  rw [freed, State.entryAt, State.updVlt_self, List.find?_eq_none]
  intro e kept
  simpa only [Bool.not_eq_true', Bool.not_eq_true] using (List.mem_filter.mp kept).2

theorem State.freeEnded_used (used : s.refcount p (.handle i pos) ≠ 0) : s.freeEnded p i pos = s := by
  unfold State.freeEnded
  split <;> simp [used]

theorem State.freeEnded_frame (s : State) (p : Plate) (i pos : Nat) : SameBut [.vlt p] s (s.freeEnded p i pos) := by
  unfold State.freeEnded
  split
  · exact .ite (State.updVlt_frame s p _) (.refl _ s)
  · exact .refl _ s

theorem State.freeEnded_keeps (s : State) (p : Plate) (i pos : Nat) :
    ((s.freeEnded p i pos).pl p).vlt.slots = (s.pl p).vlt.slots ∧
      ((s.freeEnded p i pos).pl p).vlt.ledger = (s.pl p).vlt.ledger := by
  unfold State.freeEnded
  split
  · split
    · rw [State.updVlt_self]
      exact ⟨rfl, rfl⟩
    · exact ⟨rfl, rfl⟩
  · exact ⟨rfl, rfl⟩

/-- A handle ended by KEY_ERASE. -/
def State.endHandle (s : State) (p : Plate) (i pos : Nat) : State :=
  (s.updEntry p i pos fun e => { e with ended := true }).freeEnded p i pos

theorem State.endHandle_frame (s : State) (p : Plate) (i pos : Nat) : SameBut [.vlt p] s (s.endHandle p i pos) :=
  (State.updEntry_frame s p i pos _).trans (State.freeEnded_frame _ p i pos)

/-- The persistent keys stand. -/
theorem State.endHandle_keeps (s : State) (p : Plate) (i pos : Nat) :
    ((s.endHandle p i pos).pl p).vlt.slots = (s.pl p).vlt.slots ∧
      ((s.endHandle p i pos).pl p).vlt.ledger = (s.pl p).vlt.ledger := by
  obtain ⟨slots, ledger⟩ := State.freeEnded_keeps (s.updEntry p i pos fun e => { e with ended := true }) p i pos
  exact ⟨slots.trans (by rw [State.updEntry, State.updVlt_self]), ledger.trans (by rw [State.updEntry, State.updVlt_self])⟩

/-- Its lines are freed at once where no started job uses them, and stand ended where one does. -/
theorem State.endHandle_entry {f : CacheEntry} (he : s.entryAt p i pos = some f) :
    ((s.endHandle p i pos).entryAt p i pos).map CacheEntry.ended =
      if s.refcount p (.handle i pos) = 0 then none else some true := by
  have entry := State.entryAt_updEntry he (f := fun e => { e with ended := true }) fun _ => ⟨rfl, rfl⟩
  have count : (s.updEntry p i pos fun e => { e with ended := true }).refcount p (.handle i pos) =
      s.refcount p (.handle i pos) := by
    simp only [State.refcount, State.updEntry, State.updVlt_sl]
  unfold State.endHandle
  split
  · next unused => rw [State.freeEnded_free entry rfl (count.trans unused), Option.map_none]
  · next used => rw [State.freeEnded_used (count.trans_ne used), entry]; rfl

/-! ## KEY_ERASE -/

section
variable {st : Status} {item : ItemRef}

theorem exec_keyErase_refused (h : Accepted s r 0x32 j) (refused : s.eraseRefused r.plate j = some st) :
    exec (.keyErase r) s = .next (s.fail r.plate j st) := by
  show execKeyErase r s = _
  simp only [execKeyErase, State.accepted_of h, refused]

theorem exec_keyErase_handle (h : Accepted s r 0x32 j) (taken : s.eraseRefused r.plate j = none)
    (hi : eraseItem j = some (.handle i pos)) :
    exec (.keyErase r) s =
      .next ((s.endHandle r.plate i pos).vaultDone r.plate r.ring r.index { info := s.erasedGen r.plate j }) := by
  show execKeyErase r s = _
  simp only [execKeyErase, State.accepted_of h, taken, hi]
  rfl

theorem exec_keyErase_commits (h : Accepted s r 0x32 j) (taken : s.eraseRefused r.plate j = none)
    (hi : eraseItem j = some item) (stored : ∀ i pos, item ≠ .handle i pos) :
    exec (.keyErase r) s = .next ((s.tick 1).commitJob r.plate j (s.erasingItems r.plate item)
      { info := s.erasedGen r.plate j } 0 (.erasing r.ring r.index)) := by
  show execKeyErase r s = _
  cases item with
  | handle i pos => exact absurd rfl (stored i pos)
  | _ => simp only [execKeyErase, State.accepted_of h, taken, hi]

/-- An erase that is refused completes with its status. -/
theorem keyErase_refused (h : Accepted s r 0x32 j) (refused : s.eraseRefused r.plate j = some st) :
    ∃ t, exec (.keyErase r) s = .next t ∧ Completes s t r.plate j { status := st } ∧ SameBut (completing r.plate) s t :=
  ⟨_, exec_keyErase_refused h refused, State.fail_completes s _ j st, State.fail_frame s _ j st⟩

end

/-- A change that an accepted job begins after a free value was taken. -/
theorem State.tick_commitJob {items : List VItem} (h : s.jobAt r = some j) (hd : itemDraws items = []) (x : Result) (o : Nat)
    (a : After) : CommitBegun s ((s.tick 1).commitJob r.plate j items x o a) r.plate r.ring r.index items x ∧
      SameBut (committing r.plate) s ((s.tick 1).commitJob r.plate j items x o a) := by
  obtain ⟨ring, index⟩ := State.job_eq h
  have job : (s.tick 1).job? r.plate j.ring j.index = some j := by rwa [ring, index]
  obtain ⟨⟨waits, begun⟩, frame⟩ := State.commitJob_begun job hd x o a
  rw [ring, index] at waits
  exact ⟨⟨waits, changeBegun_before begun (State.tick_frame s 1) (by simp)⟩,
    (State.tick_frame s 1).step (by simp [committing]) frame⟩

/-! ## REFCOUNT_ZERO (R188, R190) -/

theorem exec_refcountZero_drains {item : ItemRef} (stored : ∀ i pos, item ≠ .handle i pos)
    (only : (s.pl p).sl.jobs.filter (fun j => j.stage == .draining && drainsItem j item) = [j]) :
    exec (.refcountZero p item) s = .next (s.drainNext p j) := by
  show execRefcountZero p item s = _
  cases item with
  | handle i pos => exact absurd rfl (stored i pos)
  | _ => simp only [execRefcountZero, only, State.each, List.foldl_cons, List.foldl_nil]

theorem exec_refcountZero_handle (quiet : ∀ j ∈ (s.pl p).sl.jobs, j.stage ≠ .draining) :
    exec (.refcountZero p (.handle i pos)) s = .next (s.freeEnded p i pos) := by
  have jobs : ((s.freeEnded p i pos).pl p).sl = (s.pl p).sl := State.freeEnded_frame s p i pos (.sl p) (by simp)
  have none_ : (s.pl p).sl.jobs.filter (fun j => j.stage == .draining && drainsItem j (.handle i pos)) = [] := by
    rw [List.filter_eq_nil_iff]
    intro j hj
    simp [quiet j hj]
  show execRefcountZero p (.handle i pos) s = _
  simp only [execRefcountZero, jobs, none_, State.each, List.foldl_nil]

section
variable {item : ItemRef} (erase : j.desc.op = 0x32) (hi : eraseItem j = some item)
include erase hi

theorem State.drained_erase : s.drained p j = (s.refcount p item == 0) := by
  simp [State.drained, hi, erase]

theorem State.drainNext_held (held : s.refcount p item ≠ 0) : s.drainNext p j = s := by
  simp [State.drainNext, State.drained_erase erase hi, held]

theorem State.drainNext_erase (unheld : s.refcount p item = 0) : s.drainNext p j = s.eraseFinal p j := by
  simp [State.drainNext, State.drained_erase erase hi, unheld, erase]

end

/-- In NO_WRITE an erase that has drained completes with VAULT_RO (R189). -/
theorem State.eraseFinal_noWrite {item : ItemRef} (hi : eraseItem j = some item) (wear : s.wear p = 3) :
    s.eraseFinal p j = s.fail p j .vaultRo := by
  simp [State.eraseFinal, hi, wear]

theorem State.wear_of_writes {ro : Bool} (writes : s.refuses p ro = none) : s.wear p ≠ 3 := by
  intro wear
  simp only [State.refuses, wear, decide_true, Bool.true_or, if_true] at writes
  split at writes
  · simp at writes
  · split at writes <;> simp at writes

/-- Where commits are made, an erase that has drained commits its last step. -/
theorem State.eraseFinal_commits {item : ItemRef} (hi : eraseItem j = some item) (hx : j.result = some x)
    (writes : s.refuses p true = none) :
    s.eraseFinal p j = s.commitJob p j (s.erasedItems p item) x 0 (.erased j.ring j.index x.info) := by
  simp [State.eraseFinal, hi, hx, writes, State.wear_of_writes writes]

/-- A rewrite that has drained has its outcome. -/
theorem State.drainNext_rewrite (rewrite : j.desc.op ≠ 0x32) (hx : j.result = some x) (drained : s.drained p j = true) :
    s.drainNext p j = s.vaultDone p j.ring j.index x := by
  simp [State.drainNext, drained, rewrite, hx]

theorem State.job?_vaultDone {q : RingRef} {w : Word} (hj : s.job? p q w = some j) (x : Result) :
    (s.vaultDone p q w x).job? p q w = some { j with stage := .accepted, unit := none, result := some x } := by
  unfold State.vaultDone
  rw [State.job?_updJob, hj, Option.map_some]
  exact fun _ h1 h2 => ⟨h1, h2⟩

/-- Settles O21: an erase is refused as `eraseRefused` says, and otherwise commits items without secrets (`tick_commitJob`) or ends
its handle (`endHandle_spec`); a job that drains goes on as `drainNext` says. -/
theorem keysAreErased : Obligations.KeysAreErased := by
  unfold Obligations.KeysAreErased
  refine ⟨?slot, ?slotGone, ?slug, ?slugGone, ?partitioned, ?handle, ?handleGone, ?slotErased, ?slugErased, ?noWrite, ?held,
    ?rewrite, ?freed⟩
  case slot =>
    intro r j i n m s h ring ref alone writes gutter
    dsimp only
    intro tag active
    have item := eraseItem_slot h.1 ring ref
    have taken : s.eraseRefused r.plate j = none := by
      rcases gutter with g | g <;> simp [State.eraseRefused_slot item tag, alone, active, g, writes]
    have gen : s.erasedGen r.plate j = (s.slotAhead r.plate (slotKey i n)).gen := by
      simp only [State.erasedGen, ref, (State.job_eq h.1).1, ring, ringSlice, Option.getD_some, if_pos tag]
    obtain ⟨begun, frame⟩ := State.tick_commitJob h.1 (itemDraws_slots _ _ _ _) { info := s.erasedGen r.plate j } 0
      (.erasing r.ring r.index)
    refine ⟨_, exec_keyErase_commits h taken item nofun, ?_⟩
    rw [State.erasingItems_slot tag]
    rw [gen] at begun frame ⊢
    exact ⟨begun, frame⟩
  case slotGone =>
    intro r j i n m s h ring ref tag gone
    exact keyErase_refused h ((State.eraseRefused_slot (eraseItem_slot h.1 ring ref) tag).trans (if_pos (.inr gone)))
  case slug =>
    intro r j a k e s h ref hk hl alone writes gutter active gen
    have item := eraseItem_slug ref hk hl
    have taken : s.eraseRefused r.plate j = none := by
      rcases gutter with g | g <;> simp [State.eraseRefused_slug item hk, alone, active, gen, g, writes]
    have reported : s.erasedGen r.plate j = k.gen := by
      simp only [State.erasedGen, ref, hk, Option.map_some, Option.getD_some]
    refine ⟨_, exec_keyErase_commits h taken item nofun, ?_⟩
    rw [reported]
    exact State.tick_commitJob h.1 rfl _ 0 _
  case slugGone =>
    intro r j a k e s h ref hk hl gone
    exact keyErase_refused h ((State.eraseRefused_slug (eraseItem_slug ref hk hl) hk).trans (if_pos (.inr gone)))
  case partitioned =>
    intro r j i n m s h ring ref alone tag active paired down
    refine keyErase_refused h ?_
    simp [State.eraseRefused_slot (eraseItem_slot h.1 ring ref) tag, alone, active, paired, down]
  case handle =>
    intro r j h pos e s acc ref hpos he live named
    have item := eraseItem_handle ref hpos
    have taken : s.eraseRefused r.plate j = none := by
      simp [State.eraseRefused_handle item, State.handleStands, he, ref, live, named]
    have ends := State.endHandle_frame s r.plate ((ringSlice j.ring).getD 0) pos
    obtain ⟨slots, ledger⟩ := State.endHandle_keeps s r.plate ((ringSlice j.ring).getD 0) pos
    obtain ⟨job, -, frame⟩ := State.vaultDone_spec (State.jobAt_of_vault ends acc.1) acc.2.1 { info := s.erasedGen r.plate j }
    have vault := frame (.vlt r.plate) (by simp)
    refine ⟨_, exec_keyErase_handle acc taken item, ?status, ?entry, (congrArg Vault.slots vault).trans slots,
      (congrArg Vault.ledger vault).trans ledger, ?frame⟩
    case status =>
      rw [job, Option.map_some]
      exact congrArg (fun st => some (st, some Status.ok)) acc.2.1
    case entry =>
      rw [State.entryAt_congr (congrArg Vault.cache vault)]
      exact State.endHandle_entry he
    case frame => exact SameBut.step ends (by simp) (frame.mono (by simp))
  case handleGone =>
    intro r j h pos s acc ref hpos gone
    refine keyErase_refused acc ?_
    simp [State.eraseRefused_handle (eraseItem_handle ref hpos), gone]
  case slotErased =>
    intro p i n j x s only erase hx hj item unheld writes
    refine ⟨_, exec_refcountZero_drains nofun only, ?_⟩
    rw [State.drainNext_erase erase item unheld, State.eraseFinal_commits item hx writes, State.erasedItems_slot]
    exact State.commitJob_begun hj (itemDraws_slots _ _ _ _) x 0 _
  case slugErased =>
    intro p e j x s only erase hx hj item unheld writes
    refine ⟨_, exec_refcountZero_drains nofun only, ?_⟩
    rw [State.drainNext_erase erase item unheld, State.eraseFinal_commits item hx writes]
    exact State.commitJob_begun hj rfl x 0 _
  case noWrite =>
    intro p i n j s only erase item unheld wear
    refine ⟨_, exec_refcountZero_drains nofun only, ?_⟩
    rw [State.drainNext_erase erase item unheld, State.eraseFinal_noWrite item wear]
    exact ⟨State.fail_completes s p j .vaultRo, State.fail_frame s p j .vaultRo⟩
  case held =>
    intro p i n j s only erase item held
    rw [exec_refcountZero_drains (item := .slot i n) nofun only, State.drainNext_held erase item held]
  case rewrite =>
    intro p i n j x s only rewrite hx hj drained
    refine ⟨_, exec_refcountZero_drains nofun only, ?_⟩
    rw [State.drainNext_rewrite rewrite hx drained]
    refine ⟨?_, State.updJob_frame s p j.ring j.index _⟩
    rw [State.job?_vaultDone hj, ← hx]
  case freed =>
    intro p i pos e s he ended unused quiet
    exact ⟨_, exec_refcountZero_handle quiet, State.freeEnded_free he ended unused, State.freeEnded_frame s p i pos⟩

end Sys2Proof.Machine

/-! PROOFS. What is seen from an earlier state, and pages that are committed from it (R238, R248). -/

namespace Sys2Proof.Machine

variable {s t u : State} {p : Plate} {r : JobRef} {j k : Job} {x : Result} {items : List VItem} {ro : Bool}

/-- What the admin commands of plate `p` leave at `u` they leave at `s`: completions, changes that begin, and what refuses them. -/
structure SeenFrom (s u : State) (p : Plate) : Prop where
  completes : ∀ {t j x}, j.ring = .admin → Completes u t p j x → Completes s t p j x
  changeBegun : ∀ {t items}, ChangeBegun u t p items → ChangeBegun s t p items
  refuses : ∀ ro, u.refuses p ro = s.refuses p ro
  gutterUp : u.gutterUp p = s.gutterUp p

theorem AdminWork.seen (h : AdminWork s u p) : SeenFrom s u p :=
  ⟨fun hr => (h.completes hr).mp, h.changeBegun, h.refuses, by rw [State.gutterUp, State.gutterUp, h.pr]⟩

/-- A completion of an admin command rests on its ring, on what lets the plate write, and on what the host refuses. -/
theorem Completes.of_frame {l : List Part} (hr : j.ring = .admin) (c : Completes u t p j x) (h : SameBut l s u)
    (hl : .sl p ∉ l ∧ .pow p ∉ l ∧ .pr p ∉ l ∧ .tmp p ∉ l ∧ .flt p ∉ l ∧ .out ∉ l) : Completes s t p j x := by
  obtain ⟨sl, pow, pr, tmp, flt, out⟩ := hl
  have sl : (u.pl p).sl = (s.pl p).sl := h _ sl
  have pow : (u.pl p).pow = (s.pl p).pow := h _ pow
  have pr : (u.pl p).pr = (s.pl p).pr := h _ pr
  have tmp : (u.pl p).tmp = (s.pl p).tmp := h _ tmp
  have flt : (u.pl p).flt = (s.pl p).flt := h _ flt
  have out : u.out = s.out := h _ out
  exact c.from_ (State.ring_congr _ sl) (State.ringTag_congr _ sl) (by simp only [State.mayWrite, pow, pr, tmp, flt])
    (by rw [out]) (by simp only [State.translated, hr, pow])

/-- A frame clear of rings, power, pairing, faults, memory, vault, messages and outputs. -/
theorem SeenFrom.of_frame {l : List Part} (h : SameBut l s u)
    (hl : .sl p ∉ l ∧ .pow p ∉ l ∧ .pr p ∉ l ∧ .tmp p ∉ l ∧ .flt p ∉ l ∧ .nvm p ∉ l ∧ .vlt p ∉ l ∧ .gut p.peer ∉ l ∧ .out ∉ l) :
    SeenFrom s u p := by
  obtain ⟨sl, pow, pr, tmp, flt, nvm, vlt, gut, out⟩ := hl
  have pr' : (u.pl p).pr = (s.pl p).pr := h _ pr
  have nvm : (u.pl p).nvm = (s.pl p).nvm := h _ nvm
  have vlt' : (u.pl p).vlt = (s.pl p).vlt := h _ vlt
  have wear : u.wear p = s.wear p := by simp only [State.wear, pr', nvm]
  refine ⟨fun hr c => c.of_frame hr h ⟨sl, pow, pr, tmp, flt, out⟩, fun c => changeBegun_before c h ⟨vlt, pr, gut, out⟩,
    fun ro => ?_, by rw [State.gutterUp, State.gutterUp, pr']⟩
  unfold State.refuses
  rw [wear]
  dsimp only
  rw [pr', vlt']

theorem RefusedOrCommitted.seen (h : SeenFrom s u r.plate) (hr : j.ring = .admin) (c : RefusedOrCommitted u t r j ro items x) :
    RefusedOrCommitted s t r j ro items x := by
  unfold RefusedOrCommitted at c ⊢
  rw [h.refuses] at c
  split
  · next st hst =>
    rw [hst] at c
    exact h.completes hr c
  · next hst =>
    rw [hst] at c
    exact c.imp_right h.changeBegun

theorem PageCommitted.seen (h : SeenFrom s u r.plate) (hr : j.ring = .admin) (c : PageCommitted u t r j ro items x) :
    PageCommitted s t r j ro items x := by
  unfold PageCommitted at c ⊢
  rw [h.gutterUp] at c
  split
  · next down =>
    rw [if_pos down] at c
    exact h.completes hr c
  · next up =>
    rw [if_neg up] at c
    exact RefusedOrCommitted.seen h hr c

theorem committing_admin (p : Plate) : ∀ y ∈ committing p, y ∈ adminParts p := by simp [committing, adminParts]

theorem completing_admin (p : Plate) : ∀ y ∈ completing p, y ∈ adminParts p := by simp [completing, adminParts]

/-- A job's change without secrets, or its refusal. -/
def State.commitOr (s : State) (p : Plate) (j : Job) (ro : Bool) (items : List VItem) (x : Result) (a : After) : State :=
  match s.refuses p ro with
  | some st => s.fail p j st
  | none => s.commitJob p j items x 0 a

theorem State.commitOr_spec (hj : s.job? p j.ring j.index = some k) (hd : itemDraws items = []) (ro : Bool) (x : Result) (a : After) :
    SameBut (adminParts p) s (s.commitOr p j ro items x a) ∧
      RefusedOrCommitted s (s.commitOr p j ro items x a) ⟨p, j.ring, j.index⟩ j ro items x := by
  unfold State.commitOr RefusedOrCommitted
  dsimp only
  cases s.refuses p ro with
  | some st => exact ⟨(State.fail_frame s p j st).mono (completing_admin p), State.fail_completes s p j st⟩
  | none =>
    obtain ⟨begun, frame⟩ := State.commitJob_begun hj hd x 0 a
    exact ⟨frame.mono (committing_admin p), begun⟩

/-- A custody page that is committed (R238). -/
theorem State.commitPage_spec (hj : s.job? p j.ring j.index = some k) (c : CustodyPage) (x : Result) (a : After) :
    SameBut (adminParts p) s (s.commitPage p j c x a) ∧
      PageCommitted s (s.commitPage p j c x a) ⟨p, j.ring, j.index⟩ j false [.custody c] x := by
  have committed : s.commitPage p j c x a =
      if s.gutterUp p = false then s.fail p j .partitioned else s.commitOr p j false [.custody c] x a := by
    simp only [State.commitPage, Bool.not_eq_true']
    rfl
  rw [committed, PageCommitted]
  split
  · exact ⟨(State.fail_frame s p j .partitioned).mono (completing_admin p), State.fail_completes s p j .partitioned⟩
  · exact State.commitOr_spec hj rfl false x a

end Sys2Proof.Machine

/-! PROOFS. Commands on custodians and policies (O28). -/

namespace Sys2Proof.Machine

variable {s t u v : State} {p : Plate} {r : JobRef} {j k : Job} {b : Bytes} {op : Nat}

/-! ## What a session leaves of the custody part (R247) -/

/-- The custody part `d` is `c` but for its sessions, card session and wait for button 1. -/
def Custody.Kept (c d : Custody) : Prop :=
  ∃ sessions attempt button, d = { c with sessions := sessions, attempt := attempt, button := button }

theorem Custody.Kept.trans {c d e : Custody} (h : c.Kept d) (k : d.Kept e) : c.Kept e := by
  obtain ⟨_, _, _, rfl⟩ := h
  obtain ⟨_, _, _, rfl⟩ := k
  exact ⟨_, _, _, rfl⟩

theorem Custody.Kept.refl (c : Custody) : c.Kept c := ⟨_, _, _, rfl⟩

theorem State.quorum_kept {d : Desc} (h : s.quorum p d b = some u) : (s.pl p).cus.Kept (u.pl p).cus := by
  unfold State.quorum at h
  split at h
  · simp at h
  · split at h
    · split at h
      · cases h
        exact .refl _
      · simp at h
    · split at h
      · simp at h
      · split at h
        · cases h
          rw [State.updSession, State.updCus_self]
          exact ⟨_, _, _, rfl⟩
        · cases h
          rw [State.endSession, State.updCus_self]
          exact ⟨_, _, _, rfl⟩

theorem State.adminTake_cus (s : State) (r : JobRef) : ((s.adminTake r).pl r.plate).cus = (s.pl r.plate).cus := by
  rw [State.adminTake, State.updJobAt_frame _ _ _ (.cus r.plate) (by simp), State.setQueue, State.updMgt_cus]

theorem State.taken_cus (s : State) (r : JobRef) (q : ReadKind) :
    (((s.adminTake r).retireRead r.plate q).pl r.plate).cus = (s.pl r.plate).cus := by
  rw [State.retireRead, State.updSl_cus, State.adminTake_cus]

/-- Between `s` and `u` a command was taken and runs, and custodians, policy and lifecycle are what they were. -/
structure CustodyRun (s u : State) (r : JobRef) (j : Job) : Prop extends Running s u r j where
  kept : (s.pl r.plate).cus.Kept (u.pl r.plate).cus

namespace CustodyRun

theorem of_taken (h : Taken s r op j) : CustodyRun s (s.adminTake r) r j := 
  ⟨running_of_taken h, State.adminTake_cus s r ▸ .refl _⟩

/-- Work on the reads under way keeps it. -/
theorem read (h : CustodyRun s u r j) (k : ReadKind) : CustodyRun s (u.retireRead r.plate k) r j := by
  refine ⟨h.toRunning.after (State.retireRead_adminWork u _ k) (by rw [State.retireRead, State.updSl_self]), ?_⟩
  rw [State.retireRead, State.updSl_cus]
  exact h.kept

/-- So does work on the custody part that keeps custodians, policy and lifecycle. -/
theorem custody_frame (h : CustodyRun s u r j) (f : SameBut [.cus r.plate] u v)
    (k : (u.pl r.plate).cus.Kept (v.pl r.plate).cus) : CustodyRun s v r j :=
  ⟨h.toRunning.after (.of_frame f (by simp)) (congrArg Slices.jobs (f (.sl r.plate) (by simp))), h.kept.trans k⟩

theorem passes (h : CustodyRun s u r j) {d : Desc} (hq : u.quorum r.plate d b = some v) : CustodyRun s v r j :=
  h.custody_frame (State.quorum_frame hq) (State.quorum_kept hq)

section
variable (h : CustodyRun s u r j)
include h

theorem custody : u.custody r.plate = s.custody r.plate := by
  obtain ⟨_, _, _, cus⟩ := h.kept
  simp only [State.custody, cus]

theorem policy : u.policy r.plate = s.policy r.plate := by simp only [State.policy, h.custody]

theorem lifecycle : u.lifecycle r.plate = s.lifecycle r.plate := by
  obtain ⟨_, _, _, cus⟩ := h.kept
  simp only [State.lifecycle, cus]

/-- The command's job, by its own ring and index. -/
theorem job? : u.job? r.plate j.ring j.index = some j.taken := by
  rw [h.ring, h.index]
  exact h.job

theorem onAdmin : j.ring = .admin := h.ring.trans h.admin

/-- Its custody page is committed, or the command completes (R238). -/
theorem commits (c : CustodyPage) (a : After) : SameBut (adminParts r.plate) s (u.commitPage r.plate j.taken c {} a) ∧
    PageCommitted s (u.commitPage r.plate j.taken c {} a) r j false [.custody c] {} := by
  obtain ⟨frame, committed⟩ := State.commitPage_spec h.job? c {} a
  have ref : (⟨r.plate, j.ring, j.index⟩ : JobRef) = r := by rw [h.ring, h.index]
  refine ⟨h.work.frame.step (by simp [adminParts]) frame, PageCommitted.seen (j := j) h.work.seen h.onAdmin ?_⟩
  exact ref ▸ committed

end

end CustodyRun

/-! ## A command under its session, and one that waits for button 1 -/

/-- What a command that only completes may touch. -/
def takenParts (p : Plate) : List Part := .mgt p :: .cus p :: completing p

theorem takenParts_admin (p : Plate) : ∀ y ∈ takenParts p, y ∈ adminParts p := by simp [takenParts, completing, adminParts]

/-- After a command was taken, its job or another of the admin ring completes. -/
theorem AdminWork.ends (h : AdminWork s u p) (hr : j.ring = .admin) (x : Result) :
    SameBut (takenParts p) s (u.finish p j x) ∧ Completes s (u.finish p j x) p j x :=
  ⟨(h.frame.mono (by simp [takenParts, completing])).trans
      ((State.finish_frame u p j x).mono (by simp [takenParts, completing])),
    h.seen.completes hr (State.finish_completes u p j x)⟩

theorem CustodyRun.ends (h : CustodyRun s u r j) (x : Result) :
    SameBut (takenParts r.plate) s (u.finish r.plate j.taken x) ∧ Completes s (u.finish r.plate j.taken x) r.plate j x :=
  h.work.ends (j := j.taken) h.onAdmin x

/-- A command whose session passes runs `f`; otherwise it completes with QUORUM (R247). -/
theorem afterQuorum_of_run {g : Slices → Slices} (h : CustodyRun s ((s.adminTake r).updSl r.plate g) r j) (b : Bytes)
    (f : State → State) {l : List Part} {P : State → Prop} (hl : ∀ y ∈ takenParts r.plate, y ∈ l)
    (hP : ∀ v, CustodyRun s v r j → SameBut l s (f v) ∧ P (f v)) :
    let t := ((s.adminTake r).updSl r.plate g).withQuorum r.plate j.taken b f
    SameBut l s t ∧ AfterQuorum s t r j b (P t) := by
  simp only [State.withQuorum, Job.taken, State.quorum_updSl, AfterQuorum]
  cases hq : (s.adminTake r).quorum r.plate j.desc b with
  | none =>
    obtain ⟨frame, quorum⟩ := h.ends { status := .quorum }
    exact ⟨frame.mono hl, quorum⟩
  | some v => exact hP _ (h.passes (d := j.desc) (b := b) (by rw [State.quorum_updSl, hq]; rfl))

/-- The same, of a command without input. -/
theorem afterQuorum_of_taken (h : Taken s r op j) (b : Bytes) (f : State → State) {l : List Part} {P : State → Prop}
    (hl : ∀ y ∈ takenParts r.plate, y ∈ l) (hP : ∀ v, CustodyRun s v r j → SameBut l s (f v) ∧ P (f v)) :
    let t := (s.adminTake r).withQuorum r.plate j.taken b f
    SameBut l s t ∧ AfterQuorum s t r j b (P t) := by
  have same : (s.adminTake r).updSl r.plate id = s.adminTake r := by cases r.plate <;> rfl
  have run := CustodyRun.of_taken h
  rw [← same] at run
  have outcome := afterQuorum_of_run run b f hl hP
  rwa [same] at outcome

/-- A command that waits for button 1 (R249). -/
theorem CustodyRun.waits (h : CustodyRun s u r j) (cus : (u.pl r.plate).cus = (s.pl r.plate).cus) (b : Bytes) :
    WaitsForButton s (u.waitButton r.plate j.taken b) r b := by
  have frame := State.updCus_frame u r.plate fun c => { c with button := some { index := j.index, since := u.clock, input := b } }
  have run : (u.waitButton r.plate j.taken b).jobAt r = some j.taken :=
    (State.job?_congr (congrArg Slices.jobs (frame (.sl r.plate) (by simp))) _ _).trans h.job
  have emitted : (u.waitButton r.plate j.taken b).out = u.out := frame .out (by simp)
  have out := emitted.trans h.work.out
  refine ⟨by rw [run]; rfl, ⟨[], by rw [List.append_nil, State.sent_congr out], by simp⟩, ?_,
    (h.work.frame.mono (by simp)).trans (frame.mono (by simp))⟩
  show ((u.updCus r.plate _).pl r.plate).cus = _
  rw [State.updCus_self, cus, h.work.clock, ← h.index]
  rfl

/-! ## CUSTODIAN_REMOVE (R239) -/

/-- A removal that leaves too few custodians, or of one that is not ACTIVE. -/
abbrev State.RemovalRange (s : State) (p : Plate) (d : Desc) : Prop :=
  let c := s.custody p
  let c' := { c with table := c.table.set {} (custodianIndex d) {} }
  (c.table.get {} (custodianIndex d)).active = false ∨ c'.count < 2 ∨ c'.count < (s.policy p).mA ∨ c'.count < (s.policy p).mB

theorem State.unenroll_eq (s : State) (p : Plate) (j : Job) :
    s.unenroll p j = if s.RemovalRange p j.desc then s.fail p j .range
      else s.commitPage p j { s.custody p with table := (s.custody p).table.set {} (custodianIndex j.desc) {} } {}
        (.finish j.ring j.index {}) := by
  simp [State.unenroll, State.RemovalRange, or_assoc]

/-- A removal completed with RANGE, or committed the table without its custodian. -/
def Removed (s t : State) (r : JobRef) (j : Job) : Prop :=
  if s.RemovalRange r.plate j.desc then Completes s t r.plate j { status := .range }
  else PageCommitted s t r j false
    [.custody { s.custody r.plate with table := (s.custody r.plate).table.set {} (custodianIndex j.desc) {} }] {}

theorem CustodyRun.removal (h : CustodyRun s u r j) : SameBut (adminParts r.plate) s (u.unenroll r.plate j.taken) ∧
    Removed s (u.unenroll r.plate j.taken) r j := by
  have range : u.RemovalRange r.plate j.taken.desc ↔ s.RemovalRange r.plate j.desc := by
    simp only [State.RemovalRange, h.custody, h.policy, Job.taken]
  rw [State.unenroll_eq]
  simp only [Removed, range, h.custody]
  split
  · exact h.fails .range
  · exact h.commits _ _

theorem exec_custodianRemove (h : Taken s r 0x86 j) (hr : j.desc.fl 2 2 = 1)
    (hb : s.lifecycle r.plate = 0x33 → (s.pl r.plate).cus.button = none) : exec (.custodianRemove r) s = .next
      (if s.lifecycle r.plate = 0x33 then (s.adminTake r).waitButton r.plate j.taken []
        else (s.adminTake r).withQuorum r.plate j.taken [] fun s => s.unenroll r.plate j.taken) := by
  have free : ¬ (j.desc.fl 2 2 != 1 || (s.lifecycle r.plate = 0x33 && (s.pl r.plate).cus.button.isSome)) = true := by
    simp only [hr, bne_self_eq_false, Bool.false_or, Bool.and_eq_true, decide_eq_true_eq]
    rintro ⟨lc, button⟩
    simp [hb lc] at button
  show execCustodianRemove r s = _
  simp only [execCustodianRemove, (State.adminHead_spec h.1).1, if_neg free, State.admin_taken h,
    (CustodyRun.of_taken h).lifecycle]

/-! ## POLICY_SET (R241) -/

theorem State.applyPolicy_eq (s : State) (p : Plate) (j : Job) (b : Bytes) :
    s.applyPolicy p j b = if policyOk b (s.custody p).count = false then s.fail p j .range
      else s.commitPage p j { s.custody p with policy := some (parsePolicy b) } {} (.policy j.index {}) := by
  simp [State.applyPolicy]

/-- A policy record completed with RANGE, or was committed. -/
def PolicyApplied (s t : State) (r : JobRef) (j : Job) (b : Bytes) : Prop :=
  if policyOk b (s.custody r.plate).count = false then Completes s t r.plate j { status := .range }
  else PageCommitted s t r j false [.custody { s.custody r.plate with policy := some (parsePolicy b) }] {}

theorem CustodyRun.newPolicy (h : CustodyRun s u r j) (b : Bytes) :
    SameBut (adminParts r.plate) s (u.applyPolicy r.plate j.taken b) ∧
      PolicyApplied s (u.applyPolicy r.plate j.taken b) r j b := by
  rw [State.applyPolicy_eq, h.custody, PolicyApplied]
  split
  · exact h.fails .range
  · exact h.commits _ _

theorem exec_policySet (h : Taken s r 0x8A j) (hb : s.lifecycle r.plate = 0x33 → (s.pl r.plate).cus.button = none) :
    exec (.policySet r (.ok b)) s = .next
      (if s.lifecycle r.plate = 0x33 then
        ((s.adminTake r).retireRead r.plate (.input j.ring j.index)).waitButton r.plate j.taken (fit 64 b)
      else ((s.adminTake r).retireRead r.plate (.input j.ring j.index)).withQuorum r.plate j.taken (fit 64 b) fun s =>
        s.applyPolicy r.plate j.taken (fit 64 b)) := by
  have free : ¬ (s.lifecycle r.plate = 0x33 && (s.pl r.plate).cus.button.isSome) = true := by
    simp only [Bool.and_eq_true, decide_eq_true_eq]
    rintro ⟨lc, button⟩
    simp [hb lc] at button
  show execPolicySet r (.ok b) s = _
  simp only [execPolicySet, if_neg free, State.admin_taken h, State.withInput,
    ((CustodyRun.of_taken h).read _).lifecycle, Job.taken]

/-! ## Frames to the Margin (R258) -/

/-- What stood in the window stays there, and what waited waits on or enters it. -/
theorem Link.fillWindow_keeps (l : Link) (now n : Nat) :
    (∀ o ∈ l.sent, o ∈ (l.fillWindow now n).1.sent) ∧
    ∀ f ∈ l.waiting, (∃ o ∈ (l.fillWindow now n).1.sent,
        o.frame.type = f.type ∧ o.frame.res = f.res ∧ o.frame.payload = f.payload) ∨ f ∈ (l.fillWindow now n).1.waiting := by
  induction n generalizing l with
  | zero => exact ⟨fun _ h => h, fun _ h => .inr h⟩
  | succ n ih =>
    unfold Link.fillWindow
    split
    · next f rest waiting =>
      split
      · obtain ⟨sent, left⟩ := ih { l with
          waiting := rest, nextSeq := l.nextSeq + 1, sent := l.sent ++ [{ frame := { f with seq := l.nextSeq }, sent := now }] }
        refine ⟨fun o ho => sent o (List.mem_append_left _ ho), fun g hg => ?_⟩
        rw [waiting] at hg
        rcases List.mem_cons.mp hg with rfl | hg
        · exact .inl ⟨_, sent _ (List.mem_append_right _ (List.mem_singleton.mpr rfl)), rfl, rfl, rfl⟩
        · exact left g hg
      · exact ⟨fun _ h => h, fun _ h => .inr h⟩
    · exact ⟨fun _ h => h, fun _ h => .inr h⟩

theorem State.link_updLink_plate (s : State) (p : Plate) (f : Link → Link) :
    (s.updLink .plate p f).link .plate p = f (s.link .plate p) := by
  simp only [State.link, State.updLink, State.updMrg_self]

theorem State.pumpLink_queued {f : Frame} (h : f ∈ (s.link .plate p).waiting) :
    FrameQueued (s.pumpLink .plate p) .plate p f.type f.res f.payload := by
  unfold State.pumpLink
  split
  · exact .inr ⟨f, h, rfl, rfl, rfl⟩
  · have link (x : Link) (o : List Out) : ((s.updLink .plate p fun _ => x).emits o).link .plate p = x := by
      have kept : (((s.updLink .plate p fun _ => x).emits o).pl p).mrg = ((s.updLink .plate p fun _ => x).pl p).mrg :=
        State.emits_frame _ o (.mrg p) (by simp)
      exact (congrArg MrgSide.link kept).trans (State.link_updLink_plate s p _)
    rcases ((s.link .plate p).fillWindow_keeps s.clock 8).2 f h with ⟨o, ho, type, res, payload⟩ | hf
    · exact .inl ⟨o, by rwa [link], type, res, payload⟩
    · exact .inr ⟨f, by rwa [link], rfl, rfl, rfl⟩

/-- A frame that a plate sends while it is up and its field side is powered is on its way. -/
theorem State.sendFrame_queued (up : s.up p = true) (field : (s.pl p).mrg.fieldUp = true) (type : Nat) (res : Byte) (b : Bytes) :
    FrameQueued (s.sendFrame .plate p type res b) .plate p type res b := by
  have sends : ¬ (!s.endUp .plate p || (End.plate == .plate && !hardwareFrame type && !(s.pl p).mrg.fieldUp)) = true := by
    simp [State.endUp, up, field]
  rw [State.sendFrame, if_neg sends]
  refine State.pumpLink_queued (f := { type := type, res := res, payload := b }) ?_
  rw [State.link_updLink_plate]
  exact List.mem_append_right _ (List.mem_singleton.mpr rfl)

/-! ## CUSTODIAN_ENROLL (R239) -/

theorem State.askCard_frame (s : State) (p : Plate) (a : LocalTry) (step : CardStep) (b : Bytes) :
    SameBut [.cus p, .mrg p, .out] s (s.askCard p a step b) :=
  (State.updCus_frame s p _).step (by simp) ((State.sendFrame_frame _ .plate p _ _ _).mono (by simp [endPart]))

theorem State.askCard_cus (s : State) (p : Plate) (a : LocalTry) (step : CardStep) (b : Bytes) :
    ((s.askCard p a step b).pl p).cus = { (s.pl p).cus with
      attempt := some { a with step := step, segs := [], askedAt := s.clock, lastKey := s.clock } } := by
  rw [State.askCard, State.sendFrame_frame _ .plate p _ _ _ (.cus p) (by simp [endPart]), State.updCus_self]

theorem State.askCard_asked (up : s.up p = true) (field : (s.pl p).mrg.fieldUp = true) (a : LocalTry) (step : CardStep) (b : Bytes) :
    CardAsked s (s.askCard p a step b) p a step b := by
  refine ⟨congrArg Custody.attempt (State.askCard_cus s p a step b), State.sendFrame_queued ?_ ?_ _ _ _⟩
  · rwa [State.up, State.updCus_pow]
  · rwa [State.updCus_mrg]

theorem State.fieldUp_of_reaches {n : Nat} (h : s.reachesCard p n = true) : (s.pl p).mrg.fieldUp = true := by
  simp only [State.reachesCard, Bool.and_eq_true] at h
  exact h.1.1

theorem CustodyRun.mrg (h : CustodyRun s u r j) : (u.pl r.plate).mrg = (s.pl r.plate).mrg :=
  h.work.frame (.mrg r.plate) (by simp)

theorem CustodyRun.reachesCard (h : CustodyRun s u r j) (n : Nat) : u.reachesCard r.plate n = s.reachesCard r.plate n := by
  simp only [State.reachesCard, h.mrg]

theorem CustodyRun.up (h : CustodyRun s u r j) : u.up r.plate = s.up r.plate := by simp only [State.up, h.work.pow]

theorem CustodyRun.noButton (h : CustodyRun s u r j) (i : Word) : CustodyRun s (u.noButton r.plate i) r j :=
  h.custody_frame (State.updCus_frame u r.plate _) (by rw [State.noButton, State.updCus_self]; exact ⟨_, _, _, rfl⟩)

theorem enrolStatus_mem (e : EnrolEnd) : enrolStatus e ∈ [Status.quorum, .authFail, .range] := by
  cases e <;> simp [enrolStatus]

/-- The card session of an enrolment as it begins. -/
def Job.enrolling (j : Job) (label h : Bytes) : LocalTry :=
  { reader := j.desc.fl 8 1, enrol := some { index := j.index, h := h, label := label } }

/-- An enrolment that is taken up. -/
theorem CustodyRun.enrols (h : CustodyRun s u r j) (up : s.up r.plate = true) (label d : Bytes) (e : EnrolEnd) :
    SameBut (.mrg r.plate :: adminParts r.plate) s (u.beginEnrol r.plate j.taken label d (enrolStatus e)) ∧
      EnrolBegun s (u.beginEnrol r.plate j.taken label d (enrolStatus e)) r.plate j label d := by
  have fails (st : Status) := (h.noButton j.index).fails st
  have wider : ∀ y ∈ adminParts r.plate, y ∈ Part.mrg r.plate :: adminParts r.plate := fun _ => List.mem_cons_of_mem _
  simp only [State.beginEnrol, EnrolBegun, h.custody, h.reachesCard, Job.taken, Bool.not_eq_true']
  split
  · exact (fails .range).imp_left fun f => f.mono wider
  split
  · next taken alone =>
    rw [if_neg (by simp [alone])]
    exact ⟨(fails _).1.mono wider, _, enrolStatus_mem e, (fails _).2⟩
  · next reached =>
    have reached : s.reachesCard r.plate (j.desc.fl 8 1) = true := by simpa using reached
    rw [if_pos reached]
    obtain ⟨attempt, queued⟩ := State.askCard_asked (h.up.trans up) (h.mrg ▸ State.fieldUp_of_reaches reached)
      (j.enrolling label d) .select apduSelect
    rw [h.work.clock] at attempt
    exact ⟨(h.work.frame.mono (by simp [adminParts])).trans ((State.askCard_frame u _ _ _ _).mono (by simp [adminParts])),
      attempt, queued⟩

theorem exec_custodianEnroll (h : Taken s r 0x86 j) (hr : j.desc.fl 2 2 = 0) (alone : (s.pl r.plate).cus.attempt = none)
    (hb : s.lifecycle r.plate = 0x33 → (s.pl r.plate).cus.button = none ∧ s.canDraw r.plate vaultInst 1 = true)
    (card : EnrolEnd) : exec (.custodianEnroll r (.ok b) card) s = .next
      (let u := (s.adminTake r).retireRead r.plate (.input j.ring j.index)
       if s.lifecycle r.plate = 0x33 then
         ((u.drew r.plate vaultInst [32]).waitButton r.plate j.taken (fit 16 b)).beginEnrol r.plate j.taken (fit 16 b)
           (u.approvalDigest r.plate j.desc (fit 16 b) (u.drawn r.plate vaultInst 32)) (enrolStatus card)
       else u.withQuorum r.plate j.taken (fit 16 b) fun v => v.beginEnrol r.plate j.taken (fit 16 b)
         (((u.session r.plate (BitVec.ofNat 32 j.desc.param.toNat)).map Session.h).getD []) (enrolStatus card)) := by
  have free : ¬ (j.desc.fl 2 2 != 0 || (s.pl r.plate).cus.attempt.isSome ||
      (s.lifecycle r.plate = 0x33 && ((s.pl r.plate).cus.button.isSome || !s.canDraw r.plate vaultInst 1))) = true := by
    simp only [hr, alone, bne_self_eq_false, Option.isSome_none, Bool.or_self, Bool.false_or, Bool.and_eq_true, decide_eq_true_eq]
    rintro ⟨lc, busy⟩
    simp [hb lc] at busy
  show execCustodianEnroll r (.ok b) card s = _
  simp only [execCustodianEnroll, (State.adminHead_spec h.1).1, if_neg free, State.admin_taken h, State.withInput,
    ((CustodyRun.of_taken h).read _).lifecycle, Job.taken]

/-- What a session, and what is to be signed, is as the command's input is read. -/
theorem State.taken_session (s : State) (r : JobRef) (q : ReadKind) (n : Word) :
    ((s.adminTake r).retireRead r.plate q).session r.plate n = s.session r.plate n := by
  have optime := ((State.adminTake_work s r).trans (State.retireRead_adminWork _ r.plate q)).optime r.plate
  simp only [State.session, optime, State.taken_cus]

theorem AdminWork.approvalDigest (h : AdminWork s u p) (d : Desc) (b n : Bytes) :
    u.approvalDigest p d b n = s.approvalDigest p d b n := by
  simp only [State.approvalDigest, State.identityDigest, State.identityParts, State.seed, h.vlt]

/-- An enrolment in UNINITIALISED: the card is asked, and the command waits for button 1 (R249). -/
theorem CustodyRun.enrolsOnButton (h : CustodyRun s u r j) (cus : (u.pl r.plate).cus = (s.pl r.plate).cus)
    (free : ((s.custody r.plate).table.get {} (custodianIndex j.desc)).active = false)
    (reached : s.reachesCard r.plate (j.desc.fl 8 1) = true) (up : s.up r.plate = true) (l : List Nat) (b d : Bytes) (e : Status) :
    let t := ((u.drew r.plate vaultInst l).waitButton r.plate j.taken b).beginEnrol r.plate j.taken b d e
    (t.pl r.plate).cus.button = some { index := r.index, since := s.clock, input := b } ∧
      CardAsked s t r.plate (j.enrolling b d) .select apduSelect ∧
      (t.jobAt r).map Job.stage = some .running ∧ SameBut (.mrg r.plate :: dealingParts r.plate) s t := by
  have drew := State.drew_frame u r.plate vaultInst l
  have waits := State.updCus_frame (u.drew r.plate vaultInst l) r.plate fun c => { c with
    button := some { index := j.index, since := (u.drew r.plate vaultInst l).clock, input := b } }
  have both : SameBut [.rng r.plate, .cus r.plate] u ((u.drew r.plate vaultInst l).waitButton r.plate j.taken b) :=
    (drew.mono (by simp)).trans (waits.mono (by simp))
  have drewCus : ((u.drew r.plate vaultInst l).pl r.plate).cus = (u.pl r.plate).cus := drew (.cus r.plate) (by simp)
  have drewClock : (u.drew r.plate vaultInst l).clock = u.clock := drew .clock (by simp)
  have noted : (((u.drew r.plate vaultInst l).waitButton r.plate j.taken b).pl r.plate).cus = { (s.pl r.plate).cus with
      button := some { index := r.index, since := s.clock, input := b } } := by
    rw [State.waitButton, State.updCus_self, drewCus, drewClock, cus, h.work.clock, ← h.index]
    rfl
  generalize (u.drew r.plate vaultInst l).waitButton r.plate j.taken b = w at both noted ⊢
  have mrg : (w.pl r.plate).mrg = (u.pl r.plate).mrg := both (.mrg r.plate) (by simp)
  have mrg := mrg.trans h.mrg
  have pow : (w.pl r.plate).pow = (u.pl r.plate).pow := both (.pow r.plate) (by simp)
  have pow := pow.trans (h.work.pow r.plate)
  have clock : w.clock = u.clock := both .clock (by simp)
  have clock := clock.trans h.work.clock
  have sl : (w.pl r.plate).sl = (u.pl r.plate).sl := both (.sl r.plate) (by simp)
  have asks : w.beginEnrol r.plate j.taken b d e = w.askCard r.plate (j.enrolling b d) .select apduSelect := by
    have table : w.custody r.plate = s.custody r.plate := by simp only [State.custody, noted]
    have reaches : w.reachesCard r.plate (j.desc.fl 8 1) = true := by rw [← reached]; simp only [State.reachesCard, mrg]
    simp [State.beginEnrol, Job.taken, Job.enrolling, table, free, reaches]
  dsimp only
  rw [asks]
  have frame := State.askCard_frame w r.plate (j.enrolling b d) .select apduSelect
  refine ⟨?button, ?asked, ?job, ?frame⟩
  case button => rw [State.askCard_cus, noted]
  case asked =>
    obtain ⟨attempt, queued⟩ := State.askCard_asked (s := w) (by rw [← up]; simp only [State.up, pow])
      (mrg ▸ State.fieldUp_of_reaches reached) (j.enrolling b d) .select apduSelect
    exact ⟨clock ▸ attempt, queued⟩
  case job =>
    have asked : ((w.askCard r.plate (j.enrolling b d) .select apduSelect).pl r.plate).sl = (w.pl r.plate).sl :=
      frame (.sl r.plate) (by simp)
    rw [State.jobAt, State.job?_congr (congrArg Slices.jobs (asked.trans sl))]
    exact congrArg (Option.map Job.stage) h.job
  case frame =>
    exact (h.work.frame.mono (by simp [dealingParts, adminParts])).trans
      ((both.mono (by simp [dealingParts, adminParts])).trans (frame.mono (by simp [dealingParts, adminParts])))

/-! ## The card signs (R236, R239) -/

section
variable {f : Frame} {l : List Frame} {a : LocalTry} {e : EnrolTry} {sig : Bytes}

theorem State.toMailbox_frame (s : State) (p : Plate) (f : Frame) : SameBut [.mgt p, .mrg p] s (s.toMailbox p f) :=
  (State.updMrg_frame s p _).step (by simp) ((State.updMgt_frame _ p _).mono (by simp))

/-- Plate `p` takes frame `f` into its mailbox; `l` stays in its inbox. -/
def State.mailed (s : State) (p : Plate) (f : Frame) (l : List Frame) : State :=
  (s.updLink .plate p fun x => { x with inbox := l }).toMailbox p f

theorem State.mailed_frame (s : State) (p : Plate) (f : Frame) (l : List Frame) : SameBut [.mgt p, .mrg p] s (s.mailed p f l) :=
  (State.updLink_frame s .plate p _).step (by simp [endPart]) (State.toMailbox_frame _ p f)

/-- A plate takes the last segment of its card's answer. -/
theorem exec_resp_last (h : Heads s .plate p f l) (type : f.type = 0x13) (ha : (s.pl p).cus.attempt = some a)
    (reader : a.reader = f.res.toNat) (waits : a.waits = true) (last : f.at_ 0 % 2 = 1) :
    exec (.resp ⟨p, none⟩) s = .next ((s.mailed p f l).cardAnswers p a (a.segs ++ f.payload.drop 1)) := by
  have attempt : ((s.mailed p f l).pl p).cus.attempt = some a := by
    rw [State.mailed_frame s p f l (.cus p) (by simp)]
    exact ha
  have next : s.takeNext .plate p 0x13 = some (f, s.updLink .plate p fun x => { x with inbox := l }) := by
    simp [State.takeNext, show takeFrame _ _ = _ from h, type]
  have goes : ¬ (a.reader != f.res.toNat || !a.waits) = true := by simp [reader, waits]
  have ends : (f.at_ 0 % 2 == 1) = true := by simp [last]
  show execResp ⟨p, none⟩ s = _
  simp only [execResp, next]
  rw [← State.mailed]
  simp only [attempt, if_neg goes, if_pos ends]

/-- A card that answers 96 bytes and 90 00 has signed. -/
theorem State.cardAnswers_signed (hs : a.step = .sign) (he : a.enrol = some e) (hj : s.job? p .admin e.index = some j)
    (len : b.length = 98) (good : cut b 96 2 = [0x90, 0x00]) : s.cardAnswers p a b = s.enrolDone p a e j (cut b 0 96) := by
  have sw : b.drop 96 = [0x90, 0x00] := by
    rw [← good, cut, List.take_of_length_le (by simp only [List.length_drop, len]; omega)]
  simp [State.cardAnswers, hs, he, hj, len, sw, cut]

/-- Whether a custodian whose card signed is one already, or its index is taken (R239). -/
abbrev State.EnrolRange (s : State) (p : Plate) (d : Desc) (e : EnrolTry) : Prop :=
  let c := s.custody p
  (c.table.get {} (custodianIndex d)).active = true ∨ ((List.range 8).any fun i => (c.table.get {} i).active &&
    ((c.table.get {} i).key == e.key || (c.table.get {} i).serial == e.serial)) = true

/-- The custodians with the one whose card signed. -/
def State.enrolled (s : State) (p : Plate) (d : Desc) (e : EnrolTry) : CustodyPage :=
  { s.custody p with table := (s.custody p).table.set {} (custodianIndex d)
                                { active := true, key := e.key, serial := e.serial, label := fit 16 e.label } }

theorem State.enrolDone_eq (s : State) (p : Plate) (a : LocalTry) (e : EnrolTry) (j : Job) (sig : Bytes) :
    s.enrolDone p a e j sig =
      if s.EnrolRange p j.desc e then ((s.updCus p fun c => { c with attempt := none }).noButton p j.index).fail p j .range
      else if Config.pkVerify 0x41 e.key ecdsa384Flags [] e.h sig = false then s.endTry p a false
      else if s.lifecycle p = 0x33 then
        s.updCus p fun c => { c with attempt := none, button := c.button.map fun w => { w with signed := some e } }
      else (s.updCus p fun c => { c with attempt := none }).enrolCommit p j e := by
  simp [State.enrolDone, State.EnrolRange]

theorem State.openStatus_mem (s : State) {l : List Status} (h : l ≠ []) : s.openStatus l ∈ l := by
  have bound := Nat.mod_lt (Config.freeNat s.free) (List.length_pos_iff.mpr h)
  rw [State.openStatus, List.getD_eq_getElem _ _ bound]
  exact List.getElem_mem bound

/-- A card session that ends with an enrolment's job completes it with one of three statuses (R239, log 30). -/
theorem State.endTry_enrolment (he : a.enrol = some e) (hj : s.job? p .admin e.index = some j) :
    SameBut (.cus p :: .free :: completing p) s (s.endTry p a false) ∧
      ∃ st ∈ [Status.quorum, .authFail, .range], Completes s (s.endTry p a false) p j { status := st } := by
  obtain ⟨ring, -⟩ := State.job_eq hj
  have job : (s.updCus p fun c => { c with attempt := none }).job? p .admin e.index = some j :=
    (State.job?_congr (congrArg Slices.jobs (State.updCus_frame s p _ (.sl p) (by simp))) _ _).trans hj
  have ends : s.endTry p a false = (((s.updCus p fun c => { c with attempt := none }).tick 1).noButton p j.index).fail p j
      ((s.updCus p fun c => { c with attempt := none }).openStatus [.quorum, .authFail, .range]) := by
    simp only [State.endTry, Bool.false_eq_true, if_false, he, Option.bind_some, job]
  have frame : SameBut [.cus p, .free] s (((s.updCus p fun c => { c with attempt := none }).tick 1).noButton p j.index) :=
    (State.updCus_frame s p _).step (by simp)
      ((State.tick_frame _ 1).step (by simp) ((State.updCus_frame _ p _).mono (by simp)))
  rw [ends]
  refine ⟨(frame.mono (by simp)).trans ((State.fail_frame _ p j _).mono fun _ hy => ?_), _,
    State.openStatus_mem _ (by simp), (SeenFrom.of_frame frame (by simp)).completes ring (State.fail_completes _ p j _)⟩
  exact List.mem_cons_of_mem _ (List.mem_cons_of_mem _ hy)

/-- The outcome of an enrolment whose card has signed, seen from before its answer was taken. -/
theorem State.enrolDone_spec (f : SameBut [.mgt p, .mrg p] s u) (hj : s.job? p .admin e.index = some j) (he : a.enrol = some e) :
    let t := u.enrolDone p a e j sig
    SameBut (.mgt p :: .mrg p :: adminParts p) s t ∧
      if s.EnrolRange p j.desc e then Completes s t p j { status := .range }
      else if Config.pkVerify 0x41 e.key ecdsa384Flags [] e.h sig = false then
        ∃ st ∈ [Status.quorum, .authFail, .range], Completes s t p j { status := st }
      else if s.lifecycle p = 0x33 then
        (t.pl p).cus = { (s.pl p).cus with
          attempt := none, button := (s.pl p).cus.button.map fun w => { w with signed := some e } } ∧
        t.job? p .admin e.index = some j
      else PageCommitted s t { plate := p, ring := .admin, index := j.index } j false
        [.custody (s.enrolled p j.desc e)] {} := by
  obtain ⟨ring, index⟩ := State.job_eq hj
  have cus : (u.pl p).cus = (s.pl p).cus := f (.cus p) (by simp)
  have custody : u.custody p = s.custody p := by simp only [State.custody, cus]
  have lifecycle : u.lifecycle p = s.lifecycle p := by simp only [State.lifecycle, cus]
  have jobs {v : State} {l : List Part} (g : SameBut l u v) (hl : .sl p ∉ l) : v.job? p .admin e.index = some j := by
    have sl : (v.pl p).sl = (u.pl p).sl := g _ hl
    have sl := sl.trans (f (.sl p) (by simp))
    exact (State.job?_congr (congrArg Slices.jobs sl) _ _).trans hj
  have range : u.EnrolRange p j.desc e ↔ s.EnrolRange p j.desc e := by simp only [State.EnrolRange, custody]
  have frame {v w : State} (g : SameBut [.mgt p, .mrg p, .cus p] s v) (k : SameBut (adminParts p) v w) :
      SameBut (.mgt p :: .mrg p :: adminParts p) s w :=
    (g.mono (by simp [adminParts])).trans (k.mono fun _ hy => List.mem_cons_of_mem _ (List.mem_cons_of_mem _ hy))
  have quiet : SameBut [.mgt p, .mrg p, .cus p] s (u.updCus p fun c => { c with attempt := none }) :=
    (f.mono (by simp)).trans ((State.updCus_frame u p _).mono (by simp))
  dsimp only
  rw [State.enrolDone_eq]
  simp only [range, lifecycle]
  split
  · have noted : SameBut [.mgt p, .mrg p, .cus p] s ((u.updCus p fun c => { c with attempt := none }).noButton p j.index) :=
      quiet.trans ((State.updCus_frame _ p _).mono (by simp))
    exact ⟨frame noted ((State.fail_frame _ p j .range).mono (completing_admin p)),
      (SeenFrom.of_frame noted (by simp)).completes ring (State.fail_completes _ p j .range)⟩
  split
  · obtain ⟨ended, st, mem, done⟩ := State.endTry_enrolment (s := u) (a := a) he (jobs (.refl [] u) (by simp))
    exact ⟨frame (f.mono (by simp)) (ended.mono fun y hy => by
        rcases List.mem_cons.mp hy with rfl | hy
        · simp [adminParts]
        · rcases List.mem_cons.mp hy with rfl | hy
          · simp [adminParts]
          · exact completing_admin p y hy),
      st, mem, (SeenFrom.of_frame f (by simp)).completes ring done⟩
  split
  · have noted := State.updCus_frame u p fun c =>
      { c with attempt := none, button := c.button.map fun w => { w with signed := some e } }
    exact ⟨frame (f.mono (by simp)) (noted.mono (by simp [adminParts])), by rw [State.updCus_self, cus], jobs noted (by simp)⟩
  · have job : (u.updCus p fun c => { c with attempt := none }).job? p j.ring j.index = some j := by
      rw [ring, index]
      exact jobs (State.updCus_frame u p _) (by simp)
    have table : (u.updCus p fun c => { c with attempt := none }).custody p = s.custody p := by
      simp only [State.custody, State.updCus_self, cus]
    obtain ⟨parts, committed⟩ := State.commitPage_spec job (s.enrolled p j.desc e) {} (.finish j.ring j.index {})
    have commits : (u.updCus p fun c => { c with attempt := none }).enrolCommit p j e =
        (u.updCus p fun c => { c with attempt := none }).commitPage p j (s.enrolled p j.desc e) {} (.finish j.ring j.index {}) := by
      rw [State.enrolCommit, table]
      rfl
    rw [← commits] at parts committed
    refine ⟨frame quiet parts, PageCommitted.seen (SeenFrom.of_frame quiet (by simp)) ring ?_⟩
    rwa [ring] at committed

end

/-! ## Button 1 is not pressed (R249) -/

theorem exec_buttonWaitTimeout {w : ButtonWait} (hb : (s.pl p).cus.button = some w) (late : s.past w.since 60000000 = true)
    (hj : s.job? p .admin w.index = some j) : exec (.buttonWaitTimeout p) s = .next
      ((s.updCus p fun c => { c with
        button := none, attempt := c.attempt.filter fun a => (a.enrol.map EnrolTry.index) != some w.index }).fail p j .quorum) := by
  have job (f : Custody → Custody) : (s.updCus p f).job? p .admin w.index = some j :=
    (State.job?_congr (congrArg Slices.jobs (State.updCus_frame s p f (.sl p) (by simp))) _ _).trans hj
  show execButtonWaitTimeout p s = _
  simp only [execButtonWaitTimeout, hb, late, if_true, job]

/-! ## IMPORTER_BIND (R176) -/

/-- The binding of a slice's importer, or why it stands. -/
def State.bindImporter (s : State) (p : Plate) (j : Job) (w : Bytes) : State :=
  if (s.impo p (j.desc.fl 4 12)).st ≠ .active ∨ Config.pkValid j.desc.al w = false then s.fail p j .range
  else s.commitOr p j false
    [.record (j.desc.fl 4 12) { s.recAhead p (j.desc.fl 4 12) with impAlg := j.desc.al, impKey := fit 32 (Config.sha3 w) }] {}
    (.finish j.ring j.index {})

theorem exec_importerBind (h : Taken s r 0x83 j) : exec (.importerBind r (.ok b)) s = .next
    (((s.adminTake r).retireRead r.plate (.input j.ring j.index)).withQuorum r.plate j.taken (fit j.desc.inLen.toNat b) fun s =>
      s.bindImporter r.plate j.taken (fit j.desc.inLen.toNat b)) := by
  show execImporterBind r (.ok b) s = _
  simp only [execImporterBind, State.admin_taken h, State.withInput, State.bindImporter, Job.taken, Bool.or_eq_true, bne_iff_ne,
    Bool.not_eq_true']
  rfl

/-- A binding completed with RANGE, or the slice record was committed with it. -/
def ImporterBound (s t : State) (r : JobRef) (j : Job) (w : Bytes) : Prop :=
  if (s.impo r.plate (j.desc.fl 4 12)).st ≠ .active ∨ Config.pkValid j.desc.al w = false then
    Completes s t r.plate j { status := .range }
  else RefusedOrCommitted s t r j false
    [.record (j.desc.fl 4 12) { s.recAhead r.plate (j.desc.fl 4 12) with impAlg := j.desc.al, impKey := fit 32 (Config.sha3 w) }] {}

theorem CustodyRun.binds (h : CustodyRun s u r j) (w : Bytes) : SameBut (adminParts r.plate) s (u.bindImporter r.plate j.taken w) ∧
    ImporterBound s (u.bindImporter r.plate j.taken w) r j w := by
  have ahead : u.recAhead r.plate (j.desc.fl 4 12) = s.recAhead r.plate (j.desc.fl 4 12) := by
    simp only [State.recAhead, State.pendingItem, h.work.vlt]
  simp only [State.bindImporter, ImporterBound, Job.taken, h.work.impo, ahead]
  split
  · exact h.fails .range
  · obtain ⟨frame, outcome⟩ := State.commitOr_spec (j := j.taken) h.job? (items := [.record (j.desc.fl 4 12)
      { s.recAhead r.plate (j.desc.fl 4 12) with impAlg := j.desc.al, impKey := fit 32 (Config.sha3 w) }]) rfl false {}
      (.finish j.ring j.index {})
    have ref : (⟨r.plate, j.ring, j.index⟩ : JobRef) = r := by rw [h.ring, h.index]
    refine ⟨h.work.frame.step (by simp [adminParts]) frame, RefusedOrCommitted.seen (j := j) h.work.seen h.onAdmin ?_⟩
    exact ref ▸ outcome

/-- Settles O28: a command whose session passes goes on as `enrols`, `removal`, `newPolicy` and `binds` say, one in UNINITIALISED
waits for button 1 (`waits`, `enrolsOnButton`), and a card's signature ends as `enrolDone_spec` says. -/
theorem custodyChanges : Obligations.CustodyChanges := by
  unfold Obligations.CustodyChanges
  refine ⟨?enrol, ?signed, ?remove, ?policy, ?policyWaits, ?enrolWaits, ?removeWaits, ?timeout, ?bind⟩
  case enrol =>
    intro r j b s h hr alone up lc card
    refine ⟨_, exec_custodianEnroll h hr alone (fun e => absurd e lc) card, ?_⟩
    dsimp only
    rw [if_neg lc, State.taken_session]
    exact afterQuorum_of_run ((CustodyRun.of_taken h).read _) _ _
      (fun _ hy => List.mem_cons_of_mem _ (takenParts_admin _ _ hy))
      (P := (EnrolBegun s · r.plate j _ _)) fun v run => run.enrols up _ _ card
  case signed =>
    intro p f l a e j s heads type ha reader step he hj last
    dsimp only
    intro len good
    have waits : a.waits = true := by simp [LocalTry.waits, step]
    have job : (s.mailed p f l).job? p .admin e.index = some j :=
      (State.job?_congr (congrArg Slices.jobs (State.mailed_frame s p f l (.sl p) (by simp))) _ _).trans hj
    refine ⟨_, exec_resp_last heads type ha reader waits last, ?_⟩
    rw [State.cardAnswers_signed step he job len good]
    exact State.enrolDone_spec (State.mailed_frame s p f l) hj he
  case remove =>
    intro r j s h hr lc
    refine ⟨_, exec_custodianRemove h hr fun e => absurd e lc, ?_⟩
    rw [if_neg lc]
    exact afterQuorum_of_taken h _ _ (takenParts_admin _) (P := (Removed s · r j)) fun v run => run.removal
  case policy =>
    intro r j b s h lc
    refine ⟨_, exec_policySet h fun e => absurd e lc, ?_⟩
    rw [if_neg lc]
    exact afterQuorum_of_run ((CustodyRun.of_taken h).read _) _ _ (takenParts_admin _)
      (P := (PolicyApplied s · r j _)) fun v run => run.newPolicy _
  case policyWaits =>
    intro r j b s h lc button
    refine ⟨_, exec_policySet h fun _ => button, ?_⟩
    rw [if_pos lc]
    exact ((CustodyRun.of_taken h).read _).waits (State.taken_cus s r _) _
  case enrolWaits =>
    intro r j b s h hr lc button alone draw free reached up card
    have work := (State.adminTake_work s r).trans (State.retireRead_adminWork _ r.plate (.input j.ring j.index))
    refine ⟨_, exec_custodianEnroll h hr alone (fun _ => ⟨button, draw⟩) card, ?_⟩
    dsimp only
    rw [if_pos lc, work.approvalDigest, State.drawn_congr (work.rng _) work.clock (work.optime _)]
    exact ((CustodyRun.of_taken h).read (.input j.ring j.index)).enrolsOnButton
      (State.taken_cus s r _) free reached up [32] (fit 16 b) _ (enrolStatus card)
  case removeWaits =>
    intro r j s h hr lc button
    refine ⟨_, exec_custodianRemove h hr fun _ => button, ?_⟩
    rw [if_pos lc]
    exact (CustodyRun.of_taken h).waits (State.adminTake_cus s r) []
  case timeout =>
    intro p w j s hb late hj
    have frame := State.updCus_frame s p fun c => { c with
      button := none, attempt := c.attempt.filter fun a => (a.enrol.map EnrolTry.index) != some w.index }
    refine ⟨_, exec_buttonWaitTimeout hb late hj, ?_, ?_, ?_⟩
    · rw [State.fail_frame _ p j .quorum (.cus p) (by simp), State.updCus_self]
    · exact (SeenFrom.of_frame frame (by simp)).completes (State.job_eq hj).1 (State.fail_completes _ p j .quorum)
    · exact frame.step (by simp) ((State.fail_frame _ p j .quorum).mono fun _ => List.mem_cons_of_mem _)
  case bind =>
    intro r j b s h
    refine ⟨_, exec_importerBind h, ?_⟩
    exact afterQuorum_of_run ((CustodyRun.of_taken h).read _) _ _ (takenParts_admin _) (P := (ImporterBound s · r j _))
      fun v run => run.binds _

end Sys2Proof.Machine

/-! PROOFS. What a completion leaves of a vault, and changes made on every holder of a slice's tables (O44). -/

namespace Sys2Proof.Machine

variable {s t u v : State} {p q : Plate} {r : JobRef} {j : Job} {x : Result}

/-- A completion frees cache lines, and touches nothing else of a vault (R40). -/
theorem State.finish_vlt (s : State) (p : Plate) (j : Job) (x : Result) (q : Plate) :
    ∃ keep, ((s.finish p j x).pl q).vlt = { (s.pl q).vlt with cache := (s.pl q).vlt.cache.filter keep } := by
  have all : (s.pl q).vlt = { (s.pl q).vlt with cache := (s.pl q).vlt.cache.filter fun _ => true } := by
    rw [List.filter_eq_self.mpr fun _ _ => rfl]
  by_cases e : q = p
  · subst e
    unfold State.finish
    split
    · have posted : ((s.post q j.ring j.index (some j.desc) x j.wasParked (j.fetchedBy != q) false).pl q).vlt = (s.pl q).vlt :=
        State.post_frame s q _ _ _ _ _ _ _ (.vlt q) (by simp)
      rw [State.dropJob, State.updSl_vlt, State.updVlt_self, posted]
      exact ⟨_, rfl⟩
    · exact ⟨_, all⟩
  · have kept : ((s.finish p j x).pl q).vlt = (s.pl q).vlt := State.finish_frame s p j x (.vlt q) (by simp [e])
    exact ⟨_, kept.trans all⟩

/-- A change of the vault of every plate that holds the tables of `p`'s slices. -/
def State.onHolders (s : State) (p : Plate) (f : Vault → Vault) : State := s.each (s.holders p) fun s q => s.updVlt q f

theorem State.onHolders_frame (s : State) (p : Plate) (f : Vault → Vault) : SameBut [.vlt p, .vlt p.peer] s (s.onHolders p f) := by
  unfold State.onHolders State.holders
  split
  · exact (State.updVlt_frame s p f).step (by simp) ((State.updVlt_frame _ p.peer f).mono (by simp))
  · exact (State.updVlt_frame s p f).mono (by simp)

theorem State.holders_congr (h : (u.pl p).pr = (s.pl p).pr) : u.holders p = s.holders p := by
  simp only [State.holders, h]

theorem State.mem_holders (hq : q ∈ s.holders p) : q = p ∨ q = p.peer := by
  unfold State.holders at hq
  split at hq <;> simp at hq <;> simp [hq]

theorem State.self_mem_holders (s : State) (p : Plate) : p ∈ s.holders p := by
  unfold State.holders
  split <;> simp

theorem State.onHolders_vlt (f : Vault → Vault) (hq : q ∈ s.holders p) : ((s.onHolders p f).pl q).vlt = f (s.pl q).vlt := by
  unfold State.onHolders State.holders at *
  split at hq
  · next paired =>
    rw [if_pos paired]
    show (((s.updVlt p f).updVlt p.peer f).pl q).vlt = _
    rcases State.mem_holders (s := s) (p := p) (q := q) (by simpa [State.holders, paired] using hq) with rfl | rfl
    · rw [State.updVlt_frame _ q.peer f (.vlt q) (by cases q <;> simp [Plate.peer]), State.updVlt_self]
    · rw [State.updVlt_self, State.updVlt_frame s p f (.vlt p.peer) (by cases p <;> simp [Plate.peer])]
  · next alone =>
    rw [if_neg alone]
    obtain rfl := List.mem_singleton.mp hq
    exact State.updVlt_self s q f

end Sys2Proof.Machine

/-! PROOFS. Packages, their chunks and receipts (O44). -/

namespace Sys2Proof.Machine

variable {s t u v : State} {p q : Plate} {r : JobRef} {j : Job} {x : Result} {op : Nat} {b : Bytes} {hold : Hold}

/-! ## What a statement of the part rests on (Table 7.7) -/

section
variable (h : CustodyRun s u r j)
include h

theorem CustodyRun.identityDigest : u.identityDigest r.plate = s.identityDigest r.plate := by
  simp only [State.identityDigest, State.identityParts, State.seed, h.work.vlt]

theorem CustodyRun.seed : u.seed r.plate = s.seed r.plate := by simp only [State.seed, h.work.vlt]

theorem CustodyRun.statementHead (kind : Nat) (challenge body : Bytes) :
    u.statementHead r.plate kind challenge body = s.statementHead r.plate kind challenge body := by
  simp only [State.statementHead, h.lifecycle, h.identityDigest, h.work.optime]

theorem CustodyRun.drawnAt (l : List Nat) (n : Nat) : u.drawnAt r.plate vaultInst l n = s.drawnAt r.plate vaultInst l n :=
  State.drawnAt_congr (h.work.rng _) h.work.clock (h.work.optime _) _ _ _

theorem CustodyRun.chunk (hold : Hold) (b : Bytes) (i k m : Nat) : u.chunk r.plate hold b i k m = s.chunk r.plate hold b i k m := by
  simp only [State.chunk, h.seed, h.statementHead, h.drawnAt]

theorem CustodyRun.receipt (source chunk0 : Bytes) (c outcome : Nat) :
    u.receipt r.plate source chunk0 c outcome = s.receipt r.plate source chunk0 c outcome := by
  simp only [State.receipt, h.seed, h.statementHead, h.drawnAt]

theorem CustodyRun.packageKey (id : Bytes) (c n : Nat) : u.packageKey r.plate id c n = s.packageKey r.plate id c n := by
  simp only [State.packageKey, h.drawnAt]

theorem CustodyRun.holders : u.holders r.plate = s.holders r.plate := State.holders_congr (h.work.pr _)

end

/-! ## Chunks written (R183, R184) -/

/-- What writing a package may touch. -/
def packageParts (p : Plate) : List Part := [.cus p, .mgt p, .rng p, .vlt p.peer, .free] ++ completing p

theorem takenParts_package (p : Plate) : ∀ y ∈ takenParts p, y ∈ packageParts p := by simp [takenParts, packageParts, completing]

/-- How many of the next chunks of a payload of `n` bytes fit. -/
def Hold.fitting (h : Hold) (n room : Nat) : Nat := chunksThatFit n (chunkCount n) (chunkCount n) h.next room

/-- The next `m` chunks of a package. -/
def State.chunks (s : State) (p : Plate) (h : Hold) (m : Nat) : List Bytes :=
  (List.range m).map fun k => s.chunk p h (s.pl p).vlt.payload (h.next + k) k m

/-- A hold after `m` more chunks. -/
def Hold.passed (h : Hold) (m : Nat) (chunk0 : Bytes) : Hold := { h with next := h.next + m, chunk0 := chunk0 }

/-- It is for the same target still. -/
theorem Hold.passed_keeps (h : Hold) (m : Nat) (chunk0 : Bytes) :
    (some (h.passed m chunk0)).map (fun x => (x.target, x.c, x.kek)) = some (h.target, h.c, h.kek) ∧
      (some (h.passed m chunk0)).map (fun x => (x.target, x.c, x.kek, x.next)) = some (h.target, h.c, h.kek, h.next + m) :=
  ⟨rfl, rfl⟩

/-- The state in which `m` more chunks stand signed. -/
def State.signed (s : State) (p : Plate) (h : Hold) (m : Nat) (chunk0 : Bytes) : State :=
  (s.drew p vaultInst (signDraws m)).onHolders p fun v => { v with hold := some (h.passed m chunk0) }

/-- An outcome that writes chunks. -/
def chunksResult (j : Job) (l : List Bytes) : Result := { outLen := l.flatten.length, writes := [(j.desc.outAddr, l.flatten)] }

theorem State.writeChunks_none (h : chunkCount (s.pl p).vlt.payload.length ≤ hold.next) (j : Job) :
    s.writeChunks p j hold = s.fail p j .range := by
  rw [State.writeChunks]
  exact if_pos h

theorem State.writeChunks_small (h : ¬ chunkCount (s.pl p).vlt.payload.length ≤ hold.next)
    (hm : hold.fitting (s.pl p).vlt.payload.length j.desc.outCap.toNat = 0) :
    s.writeChunks p j hold = s.finish p j { status := .outSmall, outLen := chunkLen (s.pl p).vlt.payload.length hold.next } := by
  rw [State.writeChunks]
  exact (if_neg h).trans (if_pos hm)

theorem State.writeChunks_some (h : ¬ chunkCount (s.pl p).vlt.payload.length ≤ hold.next)
    (hm : hold.fitting (s.pl p).vlt.payload.length j.desc.outCap.toNat ≠ 0) : ∃ chunk0,
    s.writeChunks p j hold =
      (s.signed p hold (hold.fitting (s.pl p).vlt.payload.length j.desc.outCap.toNat) chunk0).finish p j
        (chunksResult j (s.chunks p hold (hold.fitting (s.pl p).vlt.payload.length j.desc.outCap.toNat))) := by
  have holders (m : Nat) : (s.drew p vaultInst (signDraws m)).holders p = s.holders p :=
    State.holders_congr (State.drew_frame s p vaultInst (signDraws m) (.pr p) (by simp))
  simp only [State.signed, State.onHolders, holders]
  rw [State.writeChunks]
  exact ⟨_, (if_neg h).trans (if_neg hm)⟩

theorem State.drew_onHolders_frame (s : State) (p : Plate) (l : List Nat) (f : Vault → Vault) :
    SameBut [.rng p, .vlt p, .vlt p.peer] s ((s.drew p vaultInst l).onHolders p f) :=
  (State.drew_frame s p vaultInst l).step (by simp) ((State.onHolders_frame _ p f).mono (by simp))

theorem State.drew_onHolders_vlt (l : List Nat) (f : Vault → Vault) (hq : q ∈ s.holders p) :
    (((s.drew p vaultInst l).onHolders p f).pl q).vlt = f (s.pl q).vlt := by
  have drew := State.drew_frame s p vaultInst l
  have vlt : ((s.drew p vaultInst l).pl q).vlt = (s.pl q).vlt := drew (.vlt q) (by simp)
  rw [State.onHolders_vlt f (by rwa [State.holders_congr (drew (.pr p) (by simp))]), vlt]

theorem State.signed_frame (s : State) (p : Plate) (h : Hold) (m : Nat) (chunk0 : Bytes) :
    SameBut [.rng p, .vlt p, .vlt p.peer] s (s.signed p h m chunk0) := State.drew_onHolders_frame s p _ _

/-- Chunks that are written leave every holder in its hold, with no lease more. -/
theorem State.signed_holds (j : Job) (m : Nat) (chunk0 : Bytes) (x : Result) (hq : q ∈ s.holders p) :
    (((s.signed p hold m chunk0).finish p j x).pl q).vlt.leases = (s.pl q).vlt.leases ∧
      (((s.signed p hold m chunk0).finish p j x).pl q).vlt.hold = some (hold.passed m chunk0) := by
  have signed : ((s.signed p hold m chunk0).pl q).vlt = { (s.pl q).vlt with hold := some (hold.passed m chunk0) } :=
    State.drew_onHolders_vlt _ _ hq
  obtain ⟨keep, vlt⟩ := State.finish_vlt (s.signed p hold m chunk0) p j x q
  rw [vlt, signed]
  exact ⟨rfl, rfl⟩

theorem State.writeChunks_frame (s : State) (p : Plate) (j : Job) (h : Hold) :
    SameBut (.rng p :: .vlt p.peer :: completing p) s (s.writeChunks p j h) := by
  have fin (u : State) (x : Result) : SameBut (.rng p :: .vlt p.peer :: completing p) u (u.finish p j x) :=
    (State.finish_frame u p j x).mono (by simp [completing])
  by_cases hn : chunkCount (s.pl p).vlt.payload.length ≤ h.next
  · rw [State.writeChunks_none hn]
    exact fin s _
  by_cases hm : h.fitting (s.pl p).vlt.payload.length j.desc.outCap.toNat = 0
  · rw [State.writeChunks_small hn hm]
    exact fin s _
  · obtain ⟨chunk0, e⟩ := State.writeChunks_some hn hm
    rw [e]
    exact ((State.signed_frame s p h _ chunk0).mono (by simp [completing])).trans (fin _ _)

/-- Whatever is written, a holder stays in its hold, for the same target. -/
theorem State.writeChunks_holds (j : Job) (hq : q ∈ s.holders p) (hh : (s.pl q).vlt.hold = some hold) :
    ((s.writeChunks p j hold).pl q).vlt.leases = (s.pl q).vlt.leases ∧
      ((s.writeChunks p j hold).pl q).vlt.hold.map (fun x => (x.target, x.c, x.kek)) = some (hold.target, hold.c, hold.kek) := by
  have held (x : Result) : ((s.finish p j x).pl q).vlt.leases = (s.pl q).vlt.leases ∧
      ((s.finish p j x).pl q).vlt.hold.map (fun x => (x.target, x.c, x.kek)) = some (hold.target, hold.c, hold.kek) := by
    obtain ⟨keep, vlt⟩ := s.finish_vlt p j x q
    rw [vlt]
    exact ⟨rfl, congrArg (Option.map _) hh⟩
  by_cases hn : chunkCount (s.pl p).vlt.payload.length ≤ hold.next
  · rw [State.writeChunks_none hn]
    exact held _
  by_cases hm : hold.fitting (s.pl p).vlt.payload.length j.desc.outCap.toNat = 0
  · rw [State.writeChunks_small hn hm]
    exact held _
  · obtain ⟨chunk0, e⟩ := State.writeChunks_some hn hm
    rw [e]
    obtain ⟨leases, held⟩ := State.signed_holds (hold := hold) j _ chunk0 (chunksResult j _) hq
    exact ⟨leases, (congrArg (Option.map _) held).trans (hold.passed_keeps _ chunk0).1⟩

/-- The outcome of a PACKAGE in hold: RANGE, OUT_SMALL, or the next chunks, as many as fit (R183). -/
def ChunksWritten (s t : State) (r : JobRef) (j : Job) (hold : Hold) : Prop :=
  let n := (s.pl r.plate).vlt.payload.length
  let m := hold.fitting n j.desc.outCap.toNat
  if chunkCount n ≤ hold.next then Completes s t r.plate j { status := .range }
  else if m = 0 then Completes s t r.plate j { status := .outSmall, outLen := chunkLen n hold.next }
  else Completes s t r.plate j (chunksResult j (s.chunks r.plate hold m)) ∧
    (t.pl r.plate).vlt.hold.map (fun x => (x.target, x.c, x.kek, x.next)) =
      some (hold.target, hold.c, hold.kek, hold.next + m)

theorem CustodyRun.writes (h : CustodyRun s u r j) (hold : Hold) :
    SameBut (packageParts r.plate) s (u.writeChunks r.plate j.taken hold) ∧
      ChunksWritten s (u.writeChunks r.plate j.taken hold) r j hold := by
  have chunks (m : Nat) : u.chunks r.plate hold m = s.chunks r.plate hold m := by
    simp only [State.chunks, h.chunk, h.work.vlt]
  have length : (u.pl r.plate).vlt.payload.length = (s.pl r.plate).vlt.payload.length := by rw [h.work.vlt]
  refine ⟨(h.work.frame.mono (by simp [packageParts, completing])).trans
    ((State.writeChunks_frame u r.plate j.taken hold).mono (by simp [packageParts, completing])), ?_⟩
  unfold ChunksWritten
  dsimp only
  by_cases hn : chunkCount (s.pl r.plate).vlt.payload.length ≤ hold.next
  · rw [if_pos hn, State.writeChunks_none (by rwa [length])]
    exact (h.ends _).2
  by_cases hm : hold.fitting (s.pl r.plate).vlt.payload.length j.desc.outCap.toNat = 0
  · rw [if_neg hn, if_pos hm, State.writeChunks_small (by rwa [length]) (by rw [length]; exact hm), length]
    exact (h.ends _).2
  · obtain ⟨chunk0, e⟩ := State.writeChunks_some (s := u) (p := r.plate) (j := j.taken) (hold := hold) (by rwa [length])
      (by rw [length]; exact hm)
    rw [length, chunks] at e
    rw [if_neg hn, if_neg hm, e, show j.taken.desc = j.desc from rfl]
    generalize hold.fitting (s.pl r.plate).vlt.payload.length j.desc.outCap.toNat = m
    refine ⟨h.work.seen.completes h.onAdmin (Completes.of_frame (j := j) h.onAdmin
      (State.finish_completes _ r.plate j.taken _) (State.signed_frame u r.plate hold m chunk0) (by simp)), ?_⟩
    obtain ⟨-, held⟩ := State.signed_holds (hold := hold) j.taken m chunk0 (chunksResult j.taken (s.chunks r.plate hold m))
      (u.self_mem_holders r.plate)
    exact (congrArg (Option.map _) held).trans (hold.passed_keeps m chunk0).2

/-! ## MIGRATE_OUT PACKAGE (R183) -/

theorem State.adminHead_queued (h : s.adminHead r op = some j) : j.stage = .queued ∧ j.desc.op = op := by
  unfold State.adminHead at h
  split at h
  · split at h
    · next queued =>
      cases h
      simp only [Bool.and_eq_true, beq_iff_eq] at queued
      exact ⟨queued.1.1.1, queued.1.1.2⟩
    · simp at h
  · simp at h

/-- A command that is taken is the phase of a migration that its opcode and flags name. -/
theorem migPhase_of_taken (h : Taken s r op j) {n : Nat} (hn : j.desc.fl 2 2 = n) : j.migPhase op n = true := by
  have run := running_of_taken h
  simp [Job.migPhase, run.ring, run.admin, (State.adminHead_queued h.1).2, hn]

theorem exec_migrateOutPackage (h : Taken s r 0x8B j) (phase : j.desc.fl 2 2 = 0) (idle : s.impoBusy = false)
    (draws : s.drawWaits r.plate vaultInst packageDraws = false) : exec (.migrateOutPackage r (.ok b)) s = .next
      (((s.adminTake r).retireRead r.plate (.input j.ring j.index)).withQuorum r.plate j.taken (fit j.desc.inLen.toNat b) fun s =>
        s.packageStart r.plate j.taken (fit j.desc.inLen.toNat b)) := by
  have goes : ¬ (!j.migPhase 0x8B 0 || s.drawWaits r.plate vaultInst packageDraws) = true := by
    simp [migPhase_of_taken h phase, draws]
  have queued : ¬ (j.stage == .running) = true := by simp [(State.adminHead_queued h.1).1]
  have free : ¬ s.impoBusy = true := by simp [idle]
  show execMigrateOutPackage r (.ok b) s = _
  simp only [execMigrateOutPackage, (State.adminHead_spec h.1).1, if_neg goes, if_neg queued, if_neg free,
    State.admin_taken h, State.withInput, Job.taken]

theorem State.packageStart_false (hc : colophonIdentity b = none) : s.packageStart p j b = s.fail p j .authFail := by
  simp only [State.packageStart, hc]

theorem State.packageStart_held {id : Bytes} (hc : colophonIdentity b = some id) (hh : (s.pl p).vlt.hold = some hold) :
    s.packageStart p j b = if hold.target ≠ id then s.fail p j .range else s.writeChunks p j hold := by
  simp only [State.packageStart, hc, hh, beq_iff_eq, ne_eq, ite_not]

/-- A PACKAGE that comes in hold: its colophon fails, names another target, or the next chunks are written. -/
def PackageGoesOn (s t : State) (r : JobRef) (j : Job) (hold : Hold) (b : Bytes) : Prop :=
  match colophonIdentity b with
  | none => Completes s t r.plate j { status := .authFail }
  | some id => if hold.target ≠ id then Completes s t r.plate j { status := .range } else ChunksWritten s t r j hold

theorem CustodyRun.packageGoesOn (h : CustodyRun s u r j) (hh : (s.pl r.plate).vlt.hold = some hold) (b : Bytes) :
    SameBut (packageParts r.plate) s (u.packageStart r.plate j.taken b) ∧
      PackageGoesOn s (u.packageStart r.plate j.taken b) r j hold b := by
  have ends (x : Result) := (h.ends x).imp_left fun f => f.mono (takenParts_package r.plate)
  unfold PackageGoesOn
  cases hc : colophonIdentity b with
  | none =>
    rw [State.packageStart_false hc]
    exact ends _
  | some id =>
    rw [State.packageStart_held (hold := hold) hc (by rw [h.work.vlt]; exact hh)]
    dsimp only
    split
    · exact ends _
    · exact h.writes hold

/-! ## The source enters its hold (R186, Table 7.9) -/

/-- A source that enters its hold forfeits its leases. -/
def State.entersHold (s : State) (p : Plate) (h : Hold) : State :=
  (s.drew p vaultInst [48, 32]).onHolders p fun v => { v with hold := some h, leases := [] }

/-- A job that has noted its input. -/
def Job.noting (j : Job) (b : Bytes) : Job := { j with inp := b }

/-- A PACKAGE that may begin: its key and its hold, as far as the target's key can be agreed with. -/
def State.packageBegins (s : State) (p : Plate) (j : Job) (id b : Bytes) : State :=
  match s.packageKey p id (leAt b (0x60 + 0x28) 8) (chunkCount (s.pl p).vlt.payload.length) with
  | none => s.fail p j .authFail
  | some h => (s.entersHold p h).writeChunks p j h

theorem State.packageNext_quiet {id : Bytes} (quiet : s.packageQuiet p = true) (hc : colophonIdentity j.inp = some id) :
    s.packageNext p j = s.packageBegins p j id j.inp := by
  have holders : (s.drew p vaultInst [48, 32]).holders p = s.holders p :=
    State.holders_congr (State.drew_frame s p vaultInst _ (.pr p) (by simp))
  simp only [State.packageNext, quiet, hc, Bool.not_true, Bool.false_eq_true, if_false, State.packageBegins, State.entersHold,
    State.onHolders, holders] <;> rfl

/-- With every slice FREE and no change under way a source that may begin does so at once. -/
theorem State.packageStart_free {id : Bytes} (hc : colophonIdentity b = some id) (hh : (s.pl p).vlt.hold = none)
    (free : ∀ e ∈ (s.pl p).sl.impo, e.2.st = .free) (quiet : ∀ q ∈ s.holders p, (s.pl q).vlt.changes = []) :
    s.packageStart p j b =
      if colophonFits b = false ∨ s.lifecycle p ≠ 0x3C then s.fail p j .range
      else match s.refuses p true with
        | some st => s.fail p j st
        | none =>
          if j.desc.outCap.toNat < chunkLen (s.pl p).vlt.payload.length 0 then
            s.finish p j { status := .outSmall, outLen := chunkLen (s.pl p).vlt.payload.length 0 }
          else (s.updJob p j.ring j.index (·.noting b)).packageBegins p (j.noting b) id b := by
  have rings : (s.pl p).sl.impo.filter (fun e => e.2.st != .free) = [] := by
    rw [List.filter_eq_nil_iff]
    intro e he
    simp [free e he]
  have noted := State.updJob_frame s p j.ring j.index (·.noting b)
  have still : (s.updJob p j.ring j.index (·.noting b)).packageQuiet p = true := by
    have impo : ((s.updJob p j.ring j.index (·.noting b)).pl p).sl.impo = (s.pl p).sl.impo := by
      rw [State.updJob, State.updSl_self]
    have holders : (s.updJob p j.ring j.index (·.noting b)).holders p = s.holders p :=
      State.holders_congr (noted (.pr p) (by simp))
    have vlt (q : Plate) : ((s.updJob p j.ring j.index (·.noting b)).pl q).vlt = (s.pl q).vlt :=
      noted (.vlt q) (by simp)
    simp only [State.packageQuiet, impo, holders, vlt, Bool.and_eq_true, List.all_eq_true]
    exact ⟨fun e he => by simp [free e he], fun q hq => by simp [quiet q hq]⟩
  have begins : (s.updJob p j.ring j.index (·.noting b)).packageNext p (j.noting b) =
      (s.updJob p j.ring j.index (·.noting b)).packageBegins p (j.noting b) id b := State.packageNext_quiet still hc
  rw [← begins]
  simp only [State.packageStart, hc, hh, rings, State.each, List.foldl_nil, Bool.or_eq_true, Bool.not_eq_true', bne_iff_ne]
    <;> rfl

/-- A PACKAGE that found its slices FREE and its vaults quiet: refused, or every holder is in hold for its target, without leases. -/
def PackageBegun (s t : State) (r : JobRef) (j : Job) (b : Bytes) : Prop :=
  match colophonIdentity b with
  | none => Completes s t r.plate j { status := .authFail }
  | some id =>
    if colophonFits b = false ∨ s.lifecycle r.plate ≠ 0x3C then Completes s t r.plate j { status := .range }
    else match s.refuses r.plate true with
      | some st => Completes s t r.plate j { status := st }
      | none =>
        if j.desc.outCap.toNat < chunkLen (s.pl r.plate).vlt.payload.length 0 then
          Completes s t r.plate j { status := .outSmall, outLen := chunkLen (s.pl r.plate).vlt.payload.length 0 }
        else match s.packageKey r.plate id (leAt b (0x60 + 0x28) 8) (chunkCount (s.pl r.plate).vlt.payload.length) with
          | none => Completes s t r.plate j { status := .authFail }
          | some h => ∀ q ∈ s.holders r.plate, (t.pl q).vlt.leases = [] ∧
              (t.pl q).vlt.hold.map (fun x => (x.target, x.c, x.kek)) = some (h.target, h.c, h.kek)

/-- The states that enter a hold. -/
theorem State.entersHold_spec (j : Job) (h : Hold) :
    SameBut (.rng p :: .vlt p.peer :: completing p) s ((s.entersHold p h).writeChunks p j h) ∧
      ∀ q ∈ s.holders p, (((s.entersHold p h).writeChunks p j h).pl q).vlt.leases = [] ∧
        (((s.entersHold p h).writeChunks p j h).pl q).vlt.hold.map (fun x => (x.target, x.c, x.kek)) =
          some (h.target, h.c, h.kek) := by
  have entered : SameBut [.rng p, .vlt p, .vlt p.peer] s (s.entersHold p h) := State.drew_onHolders_frame s p [48, 32] _
  refine ⟨(entered.mono (by simp [completing])).trans (State.writeChunks_frame (s.entersHold p h) p j h), fun q hq => ?_⟩
  have held : ((s.entersHold p h).pl q).vlt = { (s.pl q).vlt with hold := some h, leases := [] } :=
    State.drew_onHolders_vlt _ _ hq
  obtain ⟨leases, hold⟩ := State.writeChunks_holds (s := s.entersHold p h) (p := p) (q := q) (hold := h) j
    (by rwa [State.holders_congr (entered (.pr p) (by simp))]) (by rw [held])
  exact ⟨leases.trans (by rw [held]), hold⟩

theorem CustodyRun.packageBegun (h : CustodyRun s u r j) (hh : (s.pl r.plate).vlt.hold = none)
    (free : ∀ e ∈ (s.pl r.plate).sl.impo, e.2.st = .free) (quiet : ∀ q ∈ s.holders r.plate, (s.pl q).vlt.changes = []) (b : Bytes) :
    SameBut (packageParts r.plate) s (u.packageStart r.plate j.taken b) ∧
      PackageBegun s (u.packageStart r.plate j.taken b) r j b := by
  have ends (x : Result) := (h.ends x).imp_left fun f => f.mono (takenParts_package r.plate)
  unfold PackageBegun
  cases hc : colophonIdentity b with
  | none =>
    rw [State.packageStart_false hc]
    exact ends _
  | some id =>
    rw [State.packageStart_free hc (by rw [h.work.vlt]; exact hh) (by rw [h.work.impo_tab]; exact free)
      (by simpa only [h.holders, h.work.vlt] using quiet)]
    have noted := h.work.trans (State.updJob_adminWork u r.plate j.taken.ring j.taken.index (f := (·.noting b))
      fun _ => ⟨rfl, rfl⟩)
    simp only [h.lifecycle, h.work.refuses, h.work.vlt]
    by_cases unfit : colophonFits b = false ∨ s.lifecycle r.plate ≠ 0x3C
    · simp only [if_pos unfit]
      exact ends _
    simp only [if_neg unfit]
    cases hr : s.refuses r.plate true with
    | some st => exact ends _
    | none =>
      dsimp only
      by_cases small : j.desc.outCap.toNat < chunkLen (s.pl r.plate).vlt.payload.length 0
      · rw [if_pos small, if_pos (show j.taken.desc.outCap.toNat < _ from small)]
        exact ends _
      · rw [if_neg small, if_neg (show ¬ j.taken.desc.outCap.toNat < _ from small)]
        have key : (u.updJob r.plate j.taken.ring j.taken.index (·.noting b)).packageKey r.plate id (leAt b (0x60 + 0x28) 8)
              (chunkCount ((u.updJob r.plate j.taken.ring j.taken.index (·.noting b)).pl r.plate).vlt.payload.length) =
            s.packageKey r.plate id (leAt b (0x60 + 0x28) 8) (chunkCount (s.pl r.plate).vlt.payload.length) := by
          have drawnAt (l : List Nat) (n : Nat) := State.drawnAt_congr (noted.rng r.plate) noted.clock (noted.optime r.plate)
            vaultInst l n
          rw [noted.vlt]
          simp only [State.packageKey, drawnAt]
        have holders := State.holders_congr (noted.pr r.plate)
        rw [State.packageBegins, key]
        generalize u.updJob r.plate j.taken.ring j.taken.index (·.noting b) = w at noted holders
        cases s.packageKey r.plate id (leAt b (0x60 + 0x28) 8) (chunkCount (s.pl r.plate).vlt.payload.length) with
        | none =>
          exact (noted.ends (j := j.taken.noting b) h.onAdmin { status := .authFail }).imp_left fun f =>
            f.mono (takenParts_package r.plate)
        | some hold =>
          obtain ⟨frame, held⟩ := State.entersHold_spec (s := w) (p := r.plate) (j.taken.noting b) hold
          exact ⟨(noted.frame.mono (by simp [packageParts, completing])).trans
            (frame.mono (by simp [packageParts, completing])), fun q hq => held q (holders ▸ hq)⟩

end Sys2Proof.Machine

/-! PROOFS. A root that is erased, and KNOCKED_OUT written (O44). -/

namespace Sys2Proof.Machine

variable {s t u : State} {p q : Plate} {r : JobRef} {j : Job} {x : Result} {b : Bytes} {hold : Hold}

/-! ## What the work of a commit leaves of the way to the host -/

/-- What a commit on plate `p` may touch there. -/
def pageParts (p : Plate) : List Part := [.pow p, .sl p, .vlt p, .cus p, .tmp p, .nvm p, .free]

/-- Between `s` and `t` plate `p` wrote its memory: its admin ring, its KNOCKOUT line and its link stand, but for FAULT_OUT#. -/
structure Writes (p : Plate) (s t : State) : Prop where
  frame : SameBut (pageParts p) s t
  adm : (t.pl p).sl.adm = (s.pl p).sl.adm
  ko : (t.pl p).tmp.ko = (s.pl p).tmp.ko
  pow : ∃ outLow, (t.pl p).pow = { (s.pl p).pow with outLow := outLow }

namespace Writes

theorem refl (s : State) : Writes p s s := ⟨.refl _ s, rfl, rfl, _, rfl⟩

theorem trans (h : Writes p s t) (k : Writes p t u) : Writes p s u := by
  obtain ⟨_, pow⟩ := h.pow
  obtain ⟨_, pow'⟩ := k.pow
  exact ⟨h.frame.trans k.frame, k.adm.trans h.adm, k.ko.trans h.ko, _, by rw [pow', pow]⟩

theorem ite {c : Prop} [Decidable c] (h : Writes p s t) (k : Writes p s u) : Writes p s (if c then t else u) := by
  split
  exacts [h, k]

theorem each {α : Type} {l : List α} {f} (h : Writes p s t) (hf : ∀ u a, Writes p s u → Writes p s (f u a)) :
    Writes p s (t.each l f) := by
  induction l generalizing t with
  | nil => exact h
  | cons a l ih => exact ih (hf t a h)

/-- A change within the frame that leaves slices, tamper monitor and power alone. -/
theorem within {l : List Part} (h : Writes p s t) (k : SameBut l t u) (hl : ∀ x ∈ l, x ∈ pageParts p)
    (clear : Part.sl p ∉ l ∧ Part.tmp p ∉ l ∧ Part.pow p ∉ l) : Writes p s u := by
  have sl : (u.pl p).sl = (t.pl p).sl := k _ clear.1
  have tmp : (u.pl p).tmp = (t.pl p).tmp := k _ clear.2.1
  exact h.trans ⟨k.mono hl, by rw [sl], by rw [tmp], _, k (.pow p) clear.2.2⟩

theorem updVlt {f} (h : Writes p s t) : Writes p s (t.updVlt p f) :=
  h.within (State.updVlt_frame t p f) (by simp [pageParts]) (by simp)
theorem updCus {f} (h : Writes p s t) : Writes p s (t.updCus p f) :=
  h.within (State.updCus_frame t p f) (by simp [pageParts]) (by simp)
theorem updNvm {f} (h : Writes p s t) : Writes p s (t.updNvm p f) :=
  h.within (State.updNvm_frame t p f) (by simp [pageParts]) (by simp)
theorem tick {k} (h : Writes p s t) : Writes p s (t.tick k) := h.within (State.tick_frame t k) (by simp [pageParts]) (by simp)
theorem updSl {f} (h : Writes p s t) (hf : ∀ x, (f x).adm = x.adm) : Writes p s (t.updSl p f) :=
  h.trans ⟨(State.updSl_frame t p f).mono (by simp [pageParts]), by rw [State.updSl_self, hf], by rw [State.updSl_tmp],
    _, State.updSl_pow t p p f⟩
theorem updTmp {f} (h : Writes p s t) (hf : ∀ x, (f x).ko = x.ko) : Writes p s (t.updTmp p f) :=
  h.trans ⟨(State.updTmp_frame t p f).mono (by simp [pageParts]), by rw [State.updTmp_sl], by rw [State.updTmp_self, hf],
    _, State.updTmp_pow t p p f⟩
theorem refreshOut (h : Writes p s t) : Writes p s (t.refreshOut p) :=
  h.trans ⟨(State.refreshOut_frame t p).mono (by simp [pageParts]), by rw [State.refreshOut, State.updPow_sl],
    by rw [State.refreshOut, State.updPow_tmp], _, by rw [State.refreshOut, State.updPow_self]⟩

/-! ## Records and items -/

theorem record {trigger profile detail} (h : Writes p s t) : Writes p s (t.record p trigger profile detail) :=
  .ite h (.ite h.updNvm (.ite h.updNvm h.updNvm))
theorem finalLatch {i v} (h : Writes p s t) : Writes p s (t.finalLatch p i v) :=
  .ite (each (h.updSl fun _ => rfl) fun _ _ k => k.updSl fun _ => rfl) h
theorem sealRoot {drk salt seq} (h : Writes p s t) : Writes p s (t.sealRoot p drk salt seq) := h.updVlt
theorem enrol (h : Writes p s t) : Writes p s (t.enrol p) := by
  unfold State.enrol
  exact updVlt (h.updTmp fun _ => by rfl)
theorem createRoot {drk salt test seq} (h : Writes p s t) : Writes p s (t.createRoot p drk salt test seq) := by
  unfold State.createRoot
  exact updSl h.enrol.sealRoot.updVlt fun _ => by rfl
theorem applyItem {both n v} (h : Writes p s t) : Writes p s (t.applyItem p both n v) := by
  unfold State.applyItem
  split
  exacts [h.updVlt, h.updVlt, h.updVlt, h.updVlt, h.finalLatch.updSl fun _ => rfl, h.updCus, h.updVlt, refreshOut h.updCus,
    h.createRoot, h.sealRoot.updVlt, h.updTmp fun _ => rfl, h.updNvm]
theorem applyItems {both n l} (h : Writes p s t) : Writes p s (t.applyItems p both n l) := (each h fun _ _ k => k.applyItem).updVlt
theorem applyContent {both g} (h : Writes p s t) : Writes p s (t.applyContent p both g) := by
  unfold State.applyContent State.addJournal
  split
  exacts [h.applyItems.updVlt, h.applyItems]
theorem commitNow {l} (h : Writes p s t) : Writes p s (t.commitNow p l) := .ite h h.updVlt.applyItems

/-! ## Groups cut short (R336) -/

theorem cutGroup {v g bits} (h : Writes p s t) : Writes p s (t.cutGroup v p g bits) := (each h fun _ _ k => k.updNvm).tick
theorem cutEach {v old l} (h : Writes p s t) : Writes p s (t.cutEach v p old l) := by
  induction l generalizing t v old with
  | nil => exact h
  | cons g l ih => exact .ite (ih h) (ih h.tick.cutGroup)
theorem cutGroups (h : Writes p s t) : Writes p s (t.cutGroups p) := each h.cutEach.updNvm fun _ _ k => k.applyContent

/-! ## A root that is erased (R186, R293) -/

theorem eraseRoot (h : Writes p s t) : Writes p s (t.eraseRoot p) := h.cutGroups.updNvm.updVlt.updTmp fun _ => rfl
theorem knockedOutPage (h : Writes p s t) : Writes p s (t.knockedOutPage p) := h.commitNow

end Writes

/-- What the writing of one plate's memory leaves of any plate's way to the host. -/
theorem Writes.host (h : Writes q s t) (p : Plate) : (t.pl p).sl.adm = (s.pl p).sl.adm ∧ (t.pl p).tmp.ko = (s.pl p).tmp.ko ∧
    ∃ outLow, (t.pl p).pow = { (s.pl p).pow with outLow := outLow } := by
  by_cases e : p = q
  · subst e
    exact ⟨h.adm, h.ko, h.pow⟩
  · have sl : (t.pl p).sl = (s.pl p).sl := h.frame (.sl p) (by simp [pageParts, e])
    have tmp : (t.pl p).tmp = (s.pl p).tmp := h.frame (.tmp p) (by simp [pageParts, e])
    exact ⟨by rw [sl], by rw [tmp], _, h.frame (.pow p) (by simp [pageParts, e])⟩

/-- A completion of an admin command is seen from before it. -/
theorem Completes.of_writes (hr : j.ring = .admin) (c : Completes u t p j x) (h : Writes q s u) : Completes s t p j x := by
  obtain ⟨adm, ko, _, pow⟩ := h.host p
  have pr : (u.pl p).pr = (s.pl p).pr := h.frame (.pr p) (by simp [pageParts])
  have flt : (u.pl p).flt = (s.pl p).flt := h.frame (.flt p) (by simp [pageParts])
  have out : u.out = s.out := h.frame .out (by simp [pageParts])
  refine c.from_ (by rw [hr]; exact adm) (by rw [hr]; rfl) (by simp only [State.mayWrite, pow, pr, ko, flt]) (by rw [out]) ?_
  simp only [State.translated, hr, pow, Power.refuses]

/-- Plate `q` holds no root, no keys, no hold and no line, and its lifecycle page says KNOCKED_OUT. -/
def RootGone (t : State) (q : Plate) : Prop :=
  (t.pl q).vlt.root = none ∧ (t.pl q).vlt.keys = false ∧ (t.pl q).vlt.hold = none ∧ (t.pl q).vlt.cache = [] ∧
    (t.pl q).cus.lcPage.map LcPage.code = some 0x55

theorem RootGone.of_frame {l : List Part} (h : RootGone s q) (f : SameBut l s t) (hl : .vlt q ∉ l ∧ .cus q ∉ l) : RootGone t q := by
  have vlt : (t.pl q).vlt = (s.pl q).vlt := f _ hl.1
  have cus : (t.pl q).cus = (s.pl q).cus := f _ hl.2
  rwa [RootGone, vlt, cus]

theorem RootGone.finish (h : RootGone s q) (p : Plate) (j : Job) (x : Result) : RootGone (s.finish p j x) q := by
  obtain ⟨keep, vlt⟩ := s.finish_vlt p j x q
  have cus : ((s.finish p j x).pl q).cus = (s.pl q).cus := State.finish_frame s p j x (.cus q) (by simp)
  obtain ⟨root, keys, hold, cache, page⟩ := h
  rw [RootGone, vlt, cus]
  exact ⟨root, keys, hold, by rw [cache]; rfl, page⟩

theorem State.knockedOutPage_spec (s : State) (p : Plate) :
    (∃ counter bad, ((s.knockedOutPage p).pl p).vlt = { (s.pl p).vlt with counter := counter, bad := bad }) ∧
      ((s.knockedOutPage p).pl p).cus.lcPage.map LcPage.code = some 0x55 := by
  simp only [State.knockedOutPage, State.commitNow, List.isEmpty_cons, Bool.false_eq_true, if_false, State.applyItems, State.each,
    List.map_cons, List.map_nil, List.foldl_cons, List.foldl_nil, VItem.stamp, State.applyItem, State.setLcPage, State.refreshOut,
    State.updVlt_self, State.updVlt_cus, State.updPow_vlt, State.updPow_cus, State.updCus_vlt, State.updCus_self]
  exact ⟨⟨_, _, rfl⟩, rfl⟩

/-- The root of plate `q` erased with its hold and its cache, and KNOCKED_OUT written and recorded (R186). -/
def State.rootErased (s : State) (q : Plate) : State :=
  (((s.eraseRoot q).updVlt q fun v => { v with hold := none, cache := [], seqs := [] }).knockedOutPage q).record q 0x0500 8 0x55

theorem State.rootErased_writes (s : State) (q : Plate) : Writes q s (s.rootErased q) :=
  (Writes.refl s).eraseRoot.updVlt.knockedOutPage.record

theorem State.rootErased_gone (s : State) (q : Plate) : RootGone (s.rootErased q) q := by
  have erased : ((s.eraseRoot q).pl q).vlt.root = none ∧ ((s.eraseRoot q).pl q).vlt.keys = false := by
    simp only [State.eraseRoot, State.updTmp_vlt, State.updVlt_self, and_self]
  obtain ⟨⟨_, _, vlt⟩, page⟩ :=
    ((s.eraseRoot q).updVlt q fun v => { v with hold := none, cache := [], seqs := [] }).knockedOutPage_spec q
  refine RootGone.of_frame ?_ (State.record_frame _ q 0x0500 8 0x55) (by simp)
  rw [RootGone, vlt, State.updVlt_self]
  exact ⟨erased.1, erased.2, rfl, rfl, page⟩

/-- The roots of a plate and of a paired peer erased. -/
def State.rootsErased (s : State) (p : Plate) : State := s.each (s.holders p) fun s q => s.rootErased q

theorem State.rootsErased_spec (s : State) (p : Plate) :
    (∃ u, Writes p s u ∧ Writes p.peer u (s.rootsErased p)) ∧ ∀ q ∈ s.holders p, RootGone (s.rootsErased p) q := by
  unfold State.rootsErased State.holders
  split
  · have peer := State.rootErased_writes (s.rootErased p) p.peer
    refine ⟨⟨_, s.rootErased_writes p, peer⟩, fun q hq => ?_⟩
    rcases List.mem_cons.mp hq with rfl | hq
    · exact (s.rootErased_gone q).of_frame peer.frame (by cases q <;> simp [pageParts, Plate.peer])
    · obtain rfl := List.mem_singleton.mp hq
      exact (s.rootErased p).rootErased_gone p.peer
  · refine ⟨⟨_, s.rootErased_writes p, .refl _⟩, fun q hq => ?_⟩
    obtain rfl := List.mem_singleton.mp hq
    exact s.rootErased_gone q

/-! ## MIGRATE_OUT CONFIRM (R186) -/

/-- What a confirmation may touch. -/
def confirmParts (p : Plate) : List Part :=
  [.cus .a, .cus .b, .nvm .a, .nvm .b, .vlt .a, .vlt .b, .pow .a, .pow .b, .tmp .a, .tmp .b, .sl .a, .sl .b, .rng .a, .rng .b,
    .mgt p, .free, .out]

theorem takenParts_confirm (p : Plate) : ∀ y ∈ takenParts p, y ∈ confirmParts p := by
  cases p <;> simp [takenParts, completing, confirmParts]

theorem pageParts_confirm (p q : Plate) : ∀ y ∈ pageParts q, y ∈ confirmParts p := by
  cases q <;> simp [pageParts, confirmParts]

theorem exec_migrateOutConfirm (h : Taken s r 0x8B j) (phase : j.desc.fl 2 2 = 1) : exec (.migrateOutConfirm r (.ok b)) s = .next
    (((s.adminTake r).retireRead r.plate (.input j.ring j.index)).withQuorum r.plate j.taken (fit j.desc.inLen.toNat b) fun s =>
      s.confirm r.plate j.taken (fit j.desc.inLen.toNat b)) := by
  have goes : ¬ (!j.migPhase 0x8B 1) = true := by simp [migPhase_of_taken h phase]
  show execMigrateOutConfirm r (.ok b) s = _
  simp only [execMigrateOutConfirm, (State.adminHead_spec h.1).1, if_neg goes, State.admin_taken h, State.withInput, Job.taken]

theorem State.confirm_none (hh : (s.pl p).vlt.hold = none) : s.confirm p j b = s.fail p j .range := by
  simp only [State.confirm, hh]

theorem State.confirm_held (hh : (s.pl p).vlt.hold = some hold) : s.confirm p j b =
    if b.length ≠ receiptLen ∨ isStatement b 0x06 73 = false then s.fail p j .range
    else if (s.pl p).pr.mode = .partition then s.fail p j .partitioned
    else if cut b 0x10 32 ≠ fit 32 (Config.sha3 hold.target) ∨ bothSigs b hold.target 73 = false then s.fail p j .authFail
    else if cut b 0x60 72 ≠ (receiptBody (s.identityDigest p) hold.chunk0 hold.c 0).take 72 then s.fail p j .range
    else s.confirmed p j (leAt b (0x60 + 72) 1) := by
  simp only [State.confirm, hh, Bool.or_eq_true, bne_iff_ne, Bool.not_eq_true', beq_iff_eq]

theorem State.confirmed_eq (s : State) (p : Plate) (j : Job) (outcome : Nat) : s.confirmed p j outcome =
    if outcome = 1 then (s.rootsErased p).finish p j {}
    else if outcome = 2 then (s.onHolders p fun v => { v with hold := none }).finish p j {}
    else s.fail p j .range := rfl

/-- What a receipt with a good signature does: outcome 1 erases the roots, outcome 2 lets the source go on. -/
def ReceiptTaken (s t : State) (r : JobRef) (j : Job) (outcome : Nat) : Prop :=
  if outcome = 1 then Completes s t r.plate j {} ∧ ∀ q ∈ s.holders r.plate, RootGone t q
  else if outcome = 2 then Completes s t r.plate j {} ∧
    ∀ q ∈ s.holders r.plate, (t.pl q).vlt.hold = none ∧ (t.pl q).vlt.root = (s.pl q).vlt.root
  else Completes s t r.plate j { status := .range }

theorem CustodyRun.confirmed (h : CustodyRun s u r j) (outcome : Nat) :
    SameBut (confirmParts r.plate) s (u.confirmed r.plate j.taken outcome) ∧
      ReceiptTaken s (u.confirmed r.plate j.taken outcome) r j outcome := by
  have taken : SameBut (confirmParts r.plate) s u := h.work.frame.mono (by cases r.plate <;> simp [confirmParts])
  have fin (v : State) : SameBut (confirmParts r.plate) v (v.finish r.plate j.taken {}) :=
    (State.finish_frame v r.plate j.taken {}).mono (by cases r.plate <;> simp [confirmParts])
  rw [State.confirmed_eq, ReceiptTaken]
  split
  · obtain ⟨⟨v, own, peer⟩, gone⟩ := u.rootsErased_spec r.plate
    have erased := (own.frame.mono (pageParts_confirm r.plate _)).trans (peer.frame.mono (pageParts_confirm r.plate _))
    exact ⟨(taken.trans erased).trans (fin _), h.work.seen.completes h.onAdmin (Completes.of_writes (j := j) h.onAdmin
      (Completes.of_writes (j := j) h.onAdmin (State.finish_completes _ r.plate j.taken {}) peer) own),
      fun q hq => (gone q (h.holders ▸ hq)).finish r.plate j.taken {}⟩
  split
  · have freed := State.onHolders_frame u r.plate fun v => { v with hold := none }
    refine ⟨(taken.trans (freed.mono (by cases r.plate <;> simp [confirmParts, Plate.peer]))).trans (fin _),
      h.work.seen.completes h.onAdmin (Completes.of_frame (j := j) h.onAdmin (State.finish_completes _ r.plate j.taken {}) freed
        (by simp)), fun q hq => ?_⟩
    obtain ⟨keep, vlt⟩ := (u.onHolders r.plate fun v => { v with hold := none }).finish_vlt r.plate j.taken {} q
    rw [vlt, State.onHolders_vlt _ (h.holders ▸ hq), h.work.vlt]
    exact ⟨rfl, rfl⟩
  · exact (h.ends _).imp_left fun f => f.mono (takenParts_confirm r.plate)

/-- The outcome of a CONFIRM. -/
def ConfirmDone (s t : State) (r : JobRef) (j : Job) (b : Bytes) : Prop :=
  match (s.pl r.plate).vlt.hold with
  | none => Completes s t r.plate j { status := .range }
  | some h =>
    if b.length ≠ receiptLen ∨ isStatement b 0x06 73 = false then Completes s t r.plate j { status := .range }
    else if (s.pl r.plate).pr.mode = .partition then Completes s t r.plate j { status := .partitioned }
    else if cut b 0x10 32 ≠ fit 32 (Config.sha3 h.target) ∨ bothSigs b h.target 73 = false then
      Completes s t r.plate j { status := .authFail }
    else if cut b 0x60 72 ≠ (receiptBody (s.identityDigest r.plate) h.chunk0 h.c 0).take 72 then
      Completes s t r.plate j { status := .range }
    else ReceiptTaken s t r j (leAt b (0x60 + 72) 1)

theorem CustodyRun.confirms (h : CustodyRun s u r j) (b : Bytes) :
    SameBut (confirmParts r.plate) s (u.confirm r.plate j.taken b) ∧ ConfirmDone s (u.confirm r.plate j.taken b) r j b := by
  have ends (x : Result) := (h.ends x).imp_left fun f => f.mono (takenParts_confirm r.plate)
  unfold ConfirmDone
  cases hh : (s.pl r.plate).vlt.hold with
  | none =>
    rw [State.confirm_none (by rw [h.work.vlt]; exact hh)]
    exact ends _
  | some hold =>
    rw [State.confirm_held (hold := hold) (by rw [h.work.vlt]; exact hh), h.work.pr, h.identityDigest]
    dsimp only
    split
    · exact ends _
    split
    · exact ends _
    split
    · exact ends _
    split
    · exact ends _
    · exact h.confirmed _

end Sys2Proof.Machine

/-! PROOFS. Packages adopted and abandoned, and the settling of O44. -/

namespace Sys2Proof.Machine

variable {s t u v w : State} {p q : Plate} {r : JobRef} {j k : Job} {x : Result} {b : Bytes} {items : List VItem} {a : Apply}

/-! ## A change that carries secrets (R137, R210) -/

/-- What a change with secrets may touch. -/
def dealtParts (p : Plate) : List Part := [.rng p, .rng p.peer, .vlt p, .vlt p.peer, .gut p.peer, .nvm p, .free]

theorem State.prepare_frame (s : State) (p : Plate) (items : List VItem) : SameBut [.rng p, .vlt p, .free] s (s.prepare p items) :=
  .ite (.refl _ s) ((State.drew_frame s p vaultInst _).step (by simp) ((State.updVlt_frame _ p _).step (by simp)
    ((State.tick_frame _ 1).mono (by simp))))

theorem State.prepare_vlt (s : State) (p : Plate) (items : List VItem) :
    ∃ prep, ((s.prepare p items).pl p).vlt = { (s.pl p).vlt with prep := prep } := by
  unfold State.prepare
  dsimp only
  split
  · exact ⟨_, rfl⟩
  · have drew : ((s.drew p vaultInst (itemDraws items)).pl p).vlt = (s.pl p).vlt :=
      State.drew_frame s p vaultInst _ (.vlt p) (by simp)
    have ticked (u : State) : ((u.tick 1).pl p).vlt = (u.pl p).vlt := State.tick_frame u 1 (.vlt p) (by simp)
    rw [ticked, State.updVlt_self, drew]
    exact ⟨_, rfl⟩

theorem State.agree_frame (s : State) : SameBut [.rng .a, .rng .b, .vlt .a, .vlt .b] s s.agree := by
  unfold State.agree
  refine SameBut.trans (t := (s.drew .b vaultInst [64]).drew .a vaultInst [32]) ?_ (State.each_frame _ _ (fun s q => ?_) _)
  · exact (State.drew_frame s .b vaultInst [64]).step (by simp) ((State.drew_frame _ .a vaultInst [32]).mono (by simp))
  · exact (State.updVlt_frame s q _).mono (by cases q <;> simp)

theorem State.agree_vlt (s : State) (p : Plate) : ∃ kr, (s.agree.pl p).vlt = { (s.pl p).vlt with kr := kr } := by
  have drew : (((s.drew .b vaultInst [64]).drew .a vaultInst [32]).pl p).vlt = (s.pl p).vlt :=
    ((State.drew_frame s .b vaultInst [64]).mono (m := [.rng .a, .rng .b]) (by simp)).trans
      ((State.drew_frame _ .a vaultInst [32]).mono (by simp)) (.vlt p) (by simp)
  rw [← drew]
  cases p <;> exact ⟨_, rfl⟩

/-- A message that is sent after keys were agreed. -/
theorem State.send_after {l : List Part} (f : SameBut l s u) (hl : .pr p ∉ l ∧ .gut p.peer ∉ l) (key : Bytes) (c : Change) :
    ((u.send p (.mirror key c)).pl p).vlt = (u.pl p).vlt ∧
      (s.gutterUp p = true → (u.send p (.mirror key c)).gut p.peer = s.gut p.peer ++ [.mirror key c]) := by
  have pr : (u.pl p).pr = (s.pl p).pr := f _ hl.1
  have gut : u.gut p.peer = s.gut p.peer := f _ hl.2
  refine ⟨State.send_frame u p (.mirror key c) (.vlt p) (by simp), fun up => ?_⟩
  rw [State.send_gut _ (by rwa [State.gutterUp, pr]), gut]

/-- What sending a change may touch: keys are agreed for one with secrets. -/
def sendParts (p : Plate) : List Part := [.rng p, .rng p.peer, .vlt p, .vlt p.peer, .gut p.peer]

/-- A change that is sent: its mirror write stands last of what is under way to the peer, and only keys agreed for it changed. -/
theorem State.sendChange_spec (s : State) (p : Plate) (c : Change) :
    SameBut (sendParts p) s (s.sendChange p c) ∧
      (∃ kr, ((s.sendChange p c).pl p).vlt = { (s.pl p).vlt with kr := kr }) ∧
      (s.gutterUp p = true → ∃ key, (s.sendChange p c).gut p.peer = s.gut p.peer ++ [.mirror key c]) := by
  have agreed : SameBut [.rng p, .rng p.peer, .vlt p, .vlt p.peer] s s.agree :=
    s.agree_frame.mono (by cases p <;> simp [Plate.peer])
  unfold State.sendChange
  dsimp only
  split
  · obtain ⟨vlt, sent⟩ := State.send_after (p := p) agreed (by simp) (s.agree.sealKey p c.items) c
    obtain ⟨kr, keys⟩ := s.agree_vlt p
    exact ⟨(agreed.mono (by simp [sendParts])).trans ((State.send_frame s.agree p _).mono (by simp [sendParts])),
      ⟨kr, vlt.trans keys⟩, fun up => ⟨_, sent up⟩⟩
  · obtain ⟨vlt, sent⟩ := State.send_after (p := p) (.refl [] s) (by simp) (s.sealKey p c.items) c
    exact ⟨(State.send_frame s p _).mono (by simp [sendParts]), ⟨_, vlt⟩, fun up => ⟨_, sent up⟩⟩

/-- The change that begins with these items, once they are prepared. -/
theorem State.beginChange_eq (s : State) (p : Plate) (items : List VItem) (e : Option Journal) (a : After) :
    s.beginChange p items e a false =
      let c := s.newChange p items e a
      let w := (s.prepare p items).noteChange p c
      if (s.pl p).pr.mode = .paired then w.sendChange p c
      else if w.commitsAlone p then w.startGroup p c.ownGroup
      else w := by
  unfold State.beginChange
  simp only [Bool.or_false, beq_iff_eq]
  rfl

theorem State.beginChange_dealt (s : State) (p : Plate) (e : Option Journal) (a : After) (h : itemDraws items ≠ []) :
    ChangeBegun s (s.beginChange p items e a false) p items ∧ SameBut (dealtParts p) s (s.beginChange p items e a false) := by
  rw [State.beginChange_eq]
  dsimp only
  obtain ⟨prep, prepared⟩ := s.prepare_vlt p items
  have noted : SameBut [.rng p, .vlt p, .free] s ((s.prepare p items).noteChange p (s.newChange p items e a)) :=
    (s.prepare_frame p items).trans ((State.noteChange_frame _ p _).mono (by simp))
  have vault : (((s.prepare p items).noteChange p (s.newChange p items e a)).pl p).vlt = { (s.pl p).vlt with
      prep := prep, counter := (s.pl p).vlt.counter + 1, nextId := (s.pl p).vlt.nextId + 1
      changes := (s.pl p).vlt.changes ++ [s.newChange p items e a] } := by
    rw [State.noteChange, State.updVlt_self, prepared]
  generalize (s.prepare p items).noteChange p (s.newChange p items e a) = w at noted vault ⊢
  have begun {t : State} (hc : (t.pl p).vlt.counter = (w.pl p).vlt.counter) (hs : (t.pl p).vlt.changes = (w.pl p).vlt.changes)
      (ho : t.out = w.out) (hg : (s.pl p).pr.mode = .paired → s.gutterUp p = true →
        ∃ key, t.gut p.peer = s.gut p.peer ++ [.mirror key (s.newChange p items e a)]) : ChangeBegun s t p items := by
    rw [vault] at hc hs
    refine ⟨hc, ⟨[], ?_, by simp⟩, _, hs, rfl, fun hm hu => ?_⟩
    · rw [List.append_nil, State.sent_congr (ho.trans (noted .out (by simp)))]
    · obtain ⟨key, sent⟩ := hg hm hu
      exact ⟨key, sent, fun none_ => absurd none_ h⟩
  split
  · obtain ⟨frame, ⟨kr, vlt⟩, sent⟩ := w.sendChange_spec p (s.newChange p items e a)
    have pr : (w.pl p).pr = (s.pl p).pr := noted (.pr p) (by simp)
    have gut : w.gut p.peer = s.gut p.peer := noted (.gut p.peer) (by simp)
    refine ⟨begun (by rw [vlt]) (by rw [vlt]) (frame .out (by simp [sendParts])) fun _ up => ?_,
      (noted.mono (by simp [dealtParts])).trans (frame.mono (by simp [sendParts, dealtParts]))⟩
    rw [← gut]
    exact sent (by rwa [State.gutterUp, pr])
  · next alone =>
    split
    · have started := State.startGroup_frame w p (s.newChange p items e a).ownGroup
      have vlt : ((w.startGroup p (s.newChange p items e a).ownGroup).pl p).vlt = (w.pl p).vlt := started (.vlt p) (by simp)
      exact ⟨begun (by rw [vlt]) (by rw [vlt]) (started .out (by simp)) fun paired => absurd paired alone,
        (noted.mono (by simp [dealtParts])).trans (started.mono (by simp [dealtParts]))⟩
    · exact ⟨begun rfl rfl rfl fun paired => absurd paired alone, noted.mono (by simp [dealtParts])⟩

/-- A job's change with secrets: the job waits for it, and the change begins (R210). -/
theorem State.commitJob_dealt (hj : s.job? p j.ring j.index = some k) (h : itemDraws items ≠ []) (x : Result) (o : Nat) (e : After) :
    CommitBegun s (s.commitJob p j items x o e) p j.ring j.index items x ∧
      SameBut (.sl p :: dealtParts p) s (s.commitJob p j items x o e) := by
  have waits := State.updJob_frame s p j.ring j.index (·.awaiting x)
  obtain ⟨begun, frame⟩ := State.beginChange_dealt (s.updJob p j.ring j.index (·.awaiting x)) p (some (jobJournal j x o)) e h
  refine ⟨⟨?_, changeBegun_before begun waits (by simp)⟩,
    (waits.mono (by simp)).trans (frame.mono fun _ hy => List.mem_cons_of_mem _ hy)⟩
  have jobs := State.job?_congr (congrArg Slices.jobs (frame (.sl p) (by simp [dealtParts]))) j.ring j.index
  rw [State.job?_updJob _ _ _ _ (·.awaiting x) fun _ h1 h2 => ⟨h1, h2⟩, hj] at jobs
  exact congrArg (Option.map fun k => (k.stage, k.result)) jobs

/-! ## MIGRATE_IN APPLY (R185) -/

/-- The body of a chunk's statement. -/
abbrev chunkBodyOf (b : Bytes) : Bytes := cut b 0x60 (leAt b 8 4)

/-- The number of a chunk. -/
abbrev chunkNumber (b : Bytes) : Nat := leAt (chunkBodyOf b) 0 4

/-- A chunk after the first that is well formed, next in order, and of the package that was begun (R185). -/
structure ChunkDue (s : State) (p : Plate) (a : Apply) (b : Bytes) : Prop where
  statement : isStatement b 0x05 (leAt b 8 4) = true
  length : b.length = statementLen (leAt b 8 4)
  room : chunkHeadLen (chunkNumber b) + 16 ≤ leAt b 8 4
  bound : b.length ≤ 16777216
  counter : leAt (chunkBodyOf b) 8 8 = (s.pl p).vlt.migration
  next : chunkNumber b = a.next
  later : chunkNumber b ≠ 0
  inside : chunkNumber b < leAt (chunkBodyOf b) 4 4
  total : leAt (chunkBodyOf b) 4 4 = a.total
  source : cut b 0x10 32 = a.source

/-- A chunk's plaintext under the package key. -/
def Apply.opens (a : Apply) (b : Bytes) : Option Bytes :=
  Config.gcmOpen a.kek (chunkIv (chunkNumber b)) (Config.chunkAad ((chunkBodyOf b).take (chunkHeadLen (chunkNumber b))))
    ((chunkBodyOf b).drop (chunkHeadLen (chunkNumber b)))

/-- The package with one more chunk. -/
def Apply.gathers (a : Apply) (b m : Bytes) : Apply :=
  { a with next := chunkNumber b + 1, gathered := a.gathered ++ fit (leAt b 8 4 - chunkHeadLen (chunkNumber b) - 16) m }

/-- A chunk that opened: the last one adopts the package, another is gathered on every holder (R185). -/
def State.takeChunk (s : State) (p : Plate) (j : Job) (a : Apply) : State :=
  if a.next = a.total then s.applyLast p j a a.gathered
  else (s.onHolders p fun v => { v with apply := some a }).finish p j {}

/-- A chunk is refused or taken. -/
theorem State.applyChunk_cases (s : State) (p : Plate) (j : Job) (b : Bytes) :
    (∃ st, s.applyChunk p j b = s.fail p j st) ∨ ∃ a, s.applyChunk p j b = s.takeChunk p j a := by
  unfold State.applyChunk
  dsimp only
  split
  · exact .inl ⟨_, rfl⟩
  split
  · exact .inl ⟨_, rfl⟩
  split
  · exact .inl ⟨_, rfl⟩
  · exact .inr ⟨⟨_, _, _, _, _, _⟩, rfl⟩

theorem State.applyChunk_false (h : cut (chunkBodyOf b) 16 32 ≠ s.identityDigest p) :
    s.applyChunk p j b = s.fail p j .range := by
  unfold State.applyChunk
  exact if_pos (by simp [h])

theorem State.applyChunk_due (ha : (s.pl p).vlt.apply = some a) (empty : s.targetEmpty p = true) (due : ChunkDue s p a b)
    (id : cut (chunkBodyOf b) 16 32 = s.identityDigest p) : s.applyChunk p j b =
      if bothSigs b (Config.identityOf a.source) (leAt b 8 4) = false then s.fail p j .authFail
      else match a.opens b with
        | none => s.fail p j .authFail
        | some m => s.takeChunk p j (a.gathers b m) := by
  obtain ⟨statement, length, room, bound, counter, next, later, inside, total, source⟩ := due
  have ordered : ¬ (!isStatement b 0x05 (leAt b 8 4) || b.length != statementLen (leAt b 8 4) ||
      decide (leAt b 8 4 < chunkHeadLen (chunkNumber b) + 16) || decide (16777216 < b.length) || !s.targetEmpty p ||
      leAt (chunkBodyOf b) 8 8 != (s.pl p).vlt.migration || chunkNumber b != (((s.pl p).vlt.apply).getD {}).next ||
      decide (leAt (chunkBodyOf b) 4 4 ≤ chunkNumber b) || (chunkNumber b != 0 &&
        (leAt (chunkBodyOf b) 4 4 != (((s.pl p).vlt.apply).getD {}).total || cut b 0x10 32 != (((s.pl p).vlt.apply).getD {}).source)) ||
      cut (chunkBodyOf b) 16 32 != s.identityDigest p) = true := by
    have small : statementLen (leAt b 8 4) ≤ 16777216 := length ▸ bound
    have within : chunkNumber b < a.total := total ▸ inside
    simp [statement, empty, counter, ha, ← next, total, source, id, room, length, small, within]
  unfold State.applyChunk
  refine (if_neg ordered).trans ?_
  simp only [ha, Option.getD_some, source, total, Bool.not_eq_true', if_neg later, Option.bind_some, Apply.opens]
  cases Config.gcmOpen a.kek (chunkIv (chunkNumber b)) (Config.chunkAad ((chunkBodyOf b).take (chunkHeadLen (chunkNumber b))))
    ((chunkBodyOf b).drop (chunkHeadLen (chunkNumber b))) <;> rfl

theorem State.onHolders_apply (s : State) (p : Plate) (j : Job) (a : Apply) (x : Result) (hq : q ∈ s.holders p) :
    (((s.onHolders p fun v => { v with apply := some a }).finish p j x).pl q).vlt.apply = some a := by
  obtain ⟨keep, vlt⟩ := (s.onHolders p fun v => { v with apply := some a }).finish_vlt p j x q
  rw [vlt, State.onHolders_vlt _ hq]

theorem takenParts_dealing (p : Plate) : ∀ y ∈ takenParts p, y ∈ dealingParts p := fun y hy =>
  List.mem_cons_of_mem _ (List.mem_cons_of_mem _ (takenParts_admin p y hy))

section
variable (h : CustodyRun s u r j)
include h

theorem CustodyRun.targetEmpty : u.targetEmpty r.plate = s.targetEmpty r.plate := by
  simp only [State.targetEmpty, h.lifecycle, h.work.impo_tab, h.work.vlt]

theorem CustodyRun.drawnJob (l : List Nat) : (u.drew r.plate vaultInst l).job? r.plate j.taken.ring j.taken.index = some j.taken :=
  (State.job?_congr (congrArg Slices.jobs (State.drew_frame u r.plate vaultInst l (.sl r.plate) (by simp))) _ _).trans h.job?

/-- After signing, a job's change with secrets begins (R210). -/
theorem CustodyRun.deals (hd : itemDraws items ≠ []) (l : List Nat) (x : Result) (e : After) :
    SameBut (dealingParts r.plate) s ((u.drew r.plate vaultInst l).commitJob r.plate j.taken items x 0 e) ∧
      CommitBegun s ((u.drew r.plate vaultInst l).commitJob r.plate j.taken items x 0 e) r.plate r.ring r.index items x := by
  have drew := State.drew_frame u r.plate vaultInst l
  obtain ⟨⟨waits, change⟩, frame⟩ := State.commitJob_dealt (h.drawnJob l) hd x 0 e
  refine ⟨h.work.frame.step (by simp [dealingParts, adminParts]) (drew.step (by simp [dealingParts, adminParts])
    (frame.mono (by simp [dealtParts, dealingParts, adminParts]))), ?_,
    h.work.changeBegun (changeBegun_before change drew (by simp))⟩
  rw [← h.ring, ← h.index]
  exact waits

/-- The last chunk adopts the package (R185, Table 7.9). -/
theorem CustodyRun.adopts (a : Apply) (payload : Bytes) :
    SameBut (dealingParts r.plate) s (u.applyLast r.plate j.taken a payload) ∧
      PackageAdopted s (u.applyLast r.plate j.taken a payload) r j a payload := by
  have ends (x : Result) := (h.ends x).imp_left fun f => f.mono (takenParts_dealing r.plate)
  unfold State.applyLast PackageAdopted
  rw [show j.taken.desc = j.desc from rfl]
  dsimp only
  split
  · exact ends _
  split
  · exact ends _
  cases unpackAll (vikOf (cut payload 0 32) (cut payload 32 32)) payload.length {} (payload.drop 64) with
  | error e => exact ends _
  | ok items =>
    dsimp only
    cases parseSlots (vekOf (cut payload 0 32) (cut payload 32 32)) items.raw with
    | none => exact ends _
    | some slots =>
      dsimp only
      rw [h.receipt, h.work.vlt]
      exact h.deals (by simp [itemDraws, VItem.draws]) _ _ _

/-- What a chunk that opened does: it is gathered, and the last one adopts the package. -/
theorem CustodyRun.takesChunk (a : Apply) :
    SameBut (dealingParts r.plate) s (u.takeChunk r.plate j.taken a) ∧
      if a.next = a.total then PackageAdopted s (u.takeChunk r.plate j.taken a) r j a a.gathered
      else Completes s (u.takeChunk r.plate j.taken a) r.plate j {} ∧
        ∀ q ∈ s.holders r.plate, ((u.takeChunk r.plate j.taken a).pl q).vlt.apply = some a := by
  unfold State.takeChunk
  split
  · exact h.adopts a a.gathered
  · have gathered := State.onHolders_frame u r.plate fun v => { v with apply := some a }
    exact ⟨h.work.frame.step (by simp [dealingParts, adminParts]) (gathered.step (by simp [dealingParts, adminParts])
        ((State.finish_frame _ r.plate j.taken {}).mono (by simp [dealingParts, adminParts]))),
      h.work.seen.completes h.onAdmin (Completes.of_frame (j := j) h.onAdmin (State.finish_completes _ r.plate j.taken {}) gathered
        (by simp)), fun q hq => u.onHolders_apply r.plate j.taken a {} (h.holders ▸ hq)⟩

end

/-- The outcome of a chunk that is due. -/
def ChunkTaken (s t : State) (r : JobRef) (j : Job) (a : Apply) (b : Bytes) : Prop :=
  if cut (chunkBodyOf b) 16 32 ≠ s.identityDigest r.plate then Completes s t r.plate j { status := .range }
  else if bothSigs b (Config.identityOf a.source) (leAt b 8 4) = false then Completes s t r.plate j { status := .authFail }
  else match a.opens b with
    | none => Completes s t r.plate j { status := .authFail }
    | some m =>
      if chunkNumber b + 1 < a.total then
        Completes s t r.plate j {} ∧ ∀ q ∈ s.holders r.plate, (t.pl q).vlt.apply = some (a.gathers b m)
      else PackageAdopted s t r j a (a.gathers b m).gathered

/-- APPLY with its session consumed. -/
def State.applyDue (s : State) (p : Plate) (j : Job) (b : Bytes) : State :=
  match s.refuses p false with
  | some st => s.fail p j st
  | none => s.applyChunk p j b

theorem exec_migrateInApply (h : Taken s r 0x8C j) (phase : j.desc.fl 2 2 = 0) (idle : s.impoBusy = false)
    (deal : s.canDeal r.plate = true) : exec (.migrateInApply r (.ok b)) s = .next
      (((s.adminTake r).retireRead r.plate (.input j.ring j.index)).withQuorum r.plate j.taken (fit j.desc.inLen.toNat b) fun s =>
        s.applyDue r.plate j.taken (fit j.desc.inLen.toNat b)) := by
  have goes : ¬ (!j.migPhase 0x8C 0 || !s.canDeal r.plate) = true := by simp [migPhase_of_taken h phase, deal]
  have free : ¬ s.impoBusy = true := by simp [idle]
  show execMigrateInApply r (.ok b) s = _
  simp only [execMigrateInApply, (State.adminHead_spec h.1).1, if_neg goes, if_neg free, State.admin_taken h, State.withInput,
    Job.taken]
  rfl

theorem CustodyRun.appliesChunk (h : CustodyRun s u r j) (ha : (s.pl r.plate).vlt.apply = some a)
    (writable : s.refuses r.plate false = none)
    (empty : s.targetEmpty r.plate = true) (b : Bytes) :
    SameBut (dealingParts r.plate) s (u.applyDue r.plate j.taken b) ∧
      (ChunkDue s r.plate a b → ChunkTaken s (u.applyDue r.plate j.taken b) r j a b) := by
  have applies : u.applyDue r.plate j.taken b = u.applyChunk r.plate j.taken b := by
    rw [State.applyDue, h.work.refuses, writable]
  have ends (x : Result) := (h.ends x).imp_left fun f => f.mono (takenParts_dealing r.plate)
  rw [applies]
  constructor
  · rcases u.applyChunk_cases r.plate j.taken b with ⟨st, e⟩ | ⟨a, e⟩
    · rw [e]
      exact (ends _).1
    · rw [e]
      exact (h.takesChunk a).1
  · intro due
    unfold ChunkTaken
    split
    · next other =>
      rw [State.applyChunk_false (by rwa [h.identityDigest])]
      exact (ends _).2
    · next own =>
      obtain ⟨statement, length, room, bound, counter, next, later, inside, total, source⟩ := due
      rw [State.applyChunk_due (a := a) (by rw [h.work.vlt]; exact ha) (by rwa [h.targetEmpty])
        ⟨statement, length, room, bound, by rw [h.work.vlt]; exact counter, next, later, inside, total, source⟩
        (by rw [h.identityDigest]; exact not_not.mp own)]
      split
      · exact (ends _).2
      cases a.opens b with
      | none => exact (ends _).2
      | some m =>
        dsimp only
        have outcome := (h.takesChunk (a.gathers b m)).2
        have least : chunkNumber b + 1 ≤ a.total := total ▸ inside
        split
        · next more =>
          rw [if_neg (show ¬ (a.gathers b m).next = (a.gathers b m).total from more.ne)] at outcome
          exact outcome
        · next last =>
          rw [if_pos (show (a.gathers b m).next = (a.gathers b m).total from le_antisymm least (not_lt.mp last))] at outcome
          exact outcome

/-! ## MIGRATE_IN ABANDON (R185) -/

/-- The state in which the receipt of a package given up stands signed. -/
def State.givenUp (s : State) (p : Plate) : State :=
  ((s.drew p vaultInst (signDraws 1)).tick 2).onHolders p fun v =>
    { v with migration := (s.pl p).vlt.migration + 1, apply := none }

theorem State.abandonPackage_eq (room : receiptLen ≤ j.desc.outCap.toNat) (writable : s.refuses p false = none) :
    ∃ source chunk0, ((s.pl p).vlt.apply.map fun a => (a.source, a.chunk0)).getD (source, chunk0) = (source, chunk0) ∧
      s.abandonPackage p j = (s.givenUp p).finish p j
        { outLen := (s.receipt p source chunk0 (s.pl p).vlt.migration 2).length
          writes := [(j.desc.outAddr, s.receipt p source chunk0 (s.pl p).vlt.migration 2)] } := by
  have holders : ((s.drew p vaultInst (signDraws 1)).tick 2).holders p = s.holders p :=
    State.holders_congr (((State.drew_frame s p vaultInst (signDraws 1)).mono (m := [.rng p, .free]) (by simp)).trans
      ((State.tick_frame _ 2).mono (by simp)) (.pr p) (by simp))
  unfold State.abandonPackage State.givenUp State.onHolders
  rw [if_neg (not_lt.mpr room), writable, holders]
  dsimp only
  cases (s.pl p).vlt.apply with
  | none => exact ⟨_, _, rfl, rfl⟩
  | some a => exact ⟨_, _, rfl, rfl⟩

theorem exec_migrateInAbandon (h : Taken s r 0x8C j) (phase : j.desc.fl 2 2 = 1) (draws : s.canDraw r.plate vaultInst 2 = true) :
    exec (.migrateInAbandon r) s = .next
      ((s.adminTake r).withQuorum r.plate j.taken [] fun s => s.abandonPackage r.plate j.taken) := by
  have goes : (j.migPhase 0x8C 1 && s.canDraw r.plate vaultInst 2) = true := by simp [migPhase_of_taken h phase, draws]
  show execMigrateInAbandon r s = _
  simp only [execMigrateInAbandon, (State.adminHead_spec h.1).1, if_pos goes, State.admin_taken h, Job.taken]

/-- The outcome of ABANDON: the counter is raised, and the receipt names the package begun. -/
def PackageAbandoned (s t : State) (r : JobRef) (j : Job) : Prop :=
  (∀ q ∈ s.holders r.plate, (t.pl q).vlt.migration = (s.pl r.plate).vlt.migration + 1 ∧ (t.pl q).vlt.apply = none) ∧
    ∃ source chunk0, ((s.pl r.plate).vlt.apply.map fun a => (a.source, a.chunk0)).getD (source, chunk0) = (source, chunk0) ∧
      (let b := s.receipt r.plate source chunk0 (s.pl r.plate).vlt.migration 2
       Completes s t r.plate j { outLen := b.length, writes := [(j.desc.outAddr, b)] })

theorem CustodyRun.abandons (h : CustodyRun s u r j) (room : receiptLen ≤ j.desc.outCap.toNat)
    (writable : s.refuses r.plate false = none) :
    SameBut (packageParts r.plate) s (u.abandonPackage r.plate j.taken) ∧
      PackageAbandoned s (u.abandonPackage r.plate j.taken) r j := by
  have signed : SameBut [.rng r.plate, .free] u ((u.drew r.plate vaultInst (signDraws 1)).tick 2) :=
    (State.drew_frame u r.plate vaultInst (signDraws 1)).step (by simp) ((State.tick_frame _ 2).mono (by simp))
  have gone : SameBut [.rng r.plate, .free, .vlt r.plate, .vlt r.plate.peer] u (u.givenUp r.plate) :=
    signed.step (by simp) ((State.onHolders_frame _ r.plate _).mono (by simp))
  obtain ⟨source, chunk0, digests, e⟩ :=
    State.abandonPackage_eq (s := u) (p := r.plate) (j := j.taken) room (by rwa [h.work.refuses])
  rw [h.work.vlt] at digests
  rw [h.receipt, h.work.vlt] at e
  rw [e]
  refine ⟨h.work.frame.step (by simp [packageParts, completing]) (gone.step (by simp [packageParts, completing])
      ((State.finish_frame _ r.plate j.taken _).mono (by simp [packageParts, completing]))), fun q hq => ?_,
    source, chunk0, digests, h.work.seen.completes h.onAdmin (Completes.of_frame (j := j) h.onAdmin
      (State.finish_completes _ r.plate j.taken _) gone (by simp))⟩
  have given : ((u.givenUp r.plate).pl q).vlt =
      { (s.pl q).vlt with migration := (s.pl r.plate).vlt.migration + 1, apply := none } := by
    have vlt : (((u.drew r.plate vaultInst (signDraws 1)).tick 2).pl q).vlt = (s.pl q).vlt :=
      Eq.trans (signed (.vlt q) (by simp)) (h.work.vlt q)
    have holds : q ∈ ((u.drew r.plate vaultInst (signDraws 1)).tick 2).holders r.plate := by
      rwa [State.holders_congr (signed (.pr r.plate) (by simp)), h.holders]
    rw [State.givenUp, State.onHolders_vlt _ holds, vlt, h.work.vlt]
  obtain ⟨keep, vlt⟩ := (u.givenUp r.plate).finish_vlt r.plate j.taken
    { outLen := (s.receipt r.plate source chunk0 (s.pl r.plate).vlt.migration 2).length
      writes := [(j.taken.desc.outAddr, s.receipt r.plate source chunk0 (s.pl r.plate).vlt.migration 2)] } q
  rw [vlt, given]
  exact ⟨rfl, rfl⟩

/-! ## Settling O44 -/

theorem AfterQuorum.imp {P Q : Prop} (h : P → Q) (c : AfterQuorum s t r j b P) : AfterQuorum s t r j b Q := by
  unfold AfterQuorum at c ⊢
  split at c
  · exact c
  · exact h c

/-- Settles O44: what each phase of a migration rests on is what it was when the command was taken, so its outcome is that of
the command's own work after its session passed. -/
theorem migration : Obligations.Migration := by
  unfold Obligations.Migration
  refine ⟨?held, ?begun, ?confirm, ?apply, ?abandon⟩
  case held =>
    intro r j b hold s h phase idle draws held
    refine ⟨_, exec_migrateOutPackage h phase idle draws, ?_⟩
    exact (afterQuorum_of_run ((CustodyRun.of_taken h).read _) _ _ (takenParts_package r.plate)
      (P := (PackageGoesOn s · r j hold _)) fun v run => run.packageGoesOn held _).symm
  case begun =>
    intro r j b s h phase idle draws none_ free quiet
    refine ⟨_, exec_migrateOutPackage h phase idle draws, ?_⟩
    exact (afterQuorum_of_run ((CustodyRun.of_taken h).read _) _ _ (takenParts_package r.plate)
      (P := (PackageBegun s · r j _)) fun v run => run.packageBegun none_ free quiet _).symm
  case confirm =>
    intro r j b s h phase
    refine ⟨_, exec_migrateOutConfirm h phase, ?_⟩
    exact (afterQuorum_of_run ((CustodyRun.of_taken h).read _) _ _ (takenParts_confirm r.plate)
      (P := (ConfirmDone s · r j _)) fun v run => run.confirms _).symm
  case apply =>
    intro r j b a s h phase idle begun deal writable empty
    refine ⟨_, exec_migrateInApply h phase idle deal, ?_⟩
    obtain ⟨frame, outcome⟩ := afterQuorum_of_run ((CustodyRun.of_taken h).read _) (fit j.desc.inLen.toNat b) _
      (takenParts_dealing r.plate) (P := fun t => ChunkDue s r.plate a _ → ChunkTaken s t r j a _)
      fun v run => run.appliesChunk begun writable empty _
    refine ⟨?_, frame⟩
    intro p w n body i statement length room bound counter next later inside total source
    have due : ChunkDue s r.plate a w := ⟨statement, length, room, bound, counter, next, later, inside, total, source⟩
    exact AfterQuorum.imp (j := j) (fun taken => taken due) outcome
  case abandon =>
    intro r j s h phase room draws writable
    refine ⟨_, exec_migrateInAbandon h phase draws, ?_⟩
    exact (afterQuorum_of_taken h [] _ (takenParts_package r.plate)
      (P := (PackageAbandoned s · r j)) fun v run => run.abandons room writable).symm

end Sys2Proof.Machine
